-- ==== Sys2Proof/Word.lean ====
section
/-! DEFINITION. The word types of the TJX4800 and their plainest arithmetic. The manual's byte order is
little-endian throughout (00_scope.md, Conventions: every multi-byte structure is little-endian). -/

namespace Sys2Proof

/-- One byte. -/
abbrev Byte := BitVec 8
/-- A 16-bit word. -/
abbrev W16 := BitVec 16
/-- A 32-bit word: FP32 encodings, register words, lanes. -/
abbrev W32 := BitVec 32
/-- A 64-bit word. -/
abbrev W64 := BitVec 64
/-- A 32-bit handle with the layout of Table 0-4 (R8). -/
abbrev Handle := BitVec 32

/-- TYPE of a handle, bits [31:26] (R8). -/
def Handle.type (h : Handle) : Nat := h.toNat / 2 ^ 26
/-- GEN of a handle, bits [25:16] (R8). -/
def Handle.gen (h : Handle) : Nat := h.toNat / 2 ^ 16 % 2 ^ 10
/-- INDEX of a handle, bits [15:0] (R8). -/
def Handle.index (h : Handle) : Nat := h.toNat % 2 ^ 16
/-- The handle with the given TYPE, GEN and INDEX (R8). -/
def Handle.make (type gen index : Nat) : Handle :=
  BitVec.ofNat 32 (type * 2 ^ 26 + gen * 2 ^ 16 + index)

/-- The `n` low-order bytes of `v`, lowest first. -/
def leBytes : Nat → Nat → List Byte
  | 0, _ => []
  | n + 1, v => BitVec.ofNat 8 v :: leBytes n (v / 256)

/-- The number that little-endian bytes stand for. -/
def leNat : List Byte → Nat
  | [] => 0
  | b :: bs => b.toNat + 256 * leNat bs

/-- `n` zero bytes. -/
def zeroBytes (n : Nat) : List Byte := List.replicate n 0#8

/-- The `n` low-order bytes of a signed number, two's complement, lowest first. -/
def leBytesInt (n : Nat) (v : Int) : List Byte := leBytes n (v % (2 ^ (8 * n) : Nat)).toNat

/-- `ceil (a / b)`. -/
def ceilDiv (a b : Nat) : Nat := if a % b = 0 then a / b else a / b + 1

/-- The smallest multiple of `m` that is at least `n` (0 when `m` is 0). -/
def roundUp (m n : Nat) : Nat := ceilDiv n m * m

/-- Addition of a saturating 32-bit counter. -/
def satAdd32 (a b : Nat) : Nat := min (a + b) (2 ^ 32 - 1)

end Sys2Proof
end

