-- ==== Sys2Proof/Machine/Types.lean ====
section
/-! DEFINITION. The records of the objects that the host and the card both name (sessions, streams, models, pools,
bobbins, partitions, clients, stitches, items, page sets, picot destinations, time units), and the records the card
writes. Each field's comment names the rule that gives it. -/

namespace Sys2Proof

/-- A map with a default, held as a list of key and value pairs in one canonical form: keys strictly rising and no
entry equal to the default. -/
abbrev SMap (α : Type) := List (Nat × α)

/-- A moment in card time: 48-bit seconds and nanoseconds (R629). -/
structure CardTime where
  sec : Nat := 0
  ns : Nat := 0
  deriving DecidableEq, Repr

/-- Quality marks of a picture, item or picot (Table 15-2 QUALITY, Table 17-2). -/
structure Quality where
  concealed : Bool := false
  partly : Bool := false
  abandoned : Bool := false
  estimated : Bool := false
  overflow : Bool := false
  deriving DecidableEq, Repr

/-- The QUALITY word (R512; bit 4 only in picots). -/
def Quality.word (q : Quality) : Nat :=
  q.concealed.toNat + 2 * q.partly.toNat + 4 * q.abandoned.toNat + 8 * q.estimated.toNat + 16 * q.overflow.toNat

/-- A buffer reference (Table 12-2, R371). -/
structure BufRef where
  pool : Handle
  gen : Nat
  addr : Nat
  deriving DecidableEq, Repr

/-- The mailbox header of a command and the two facts about its reserved bits (Table 18-3, R538, R542, R573). -/
structure Hdr where
  /-- mailbox 0 to 31 -/
  mbox : Nat
  /-- SEQ of OWNER -/
  seq : Nat
  /-- COMMAND bit 16 -/
  irq : Bool
  /-- COMMAND bits 31:24 -/
  vector : Nat
  /-- SESSION -/
  session : Handle
  /-- LENGTH -/
  length : Nat
  /-- some reserved header bit is not zero -/
  headerReserved : Bool
  /-- VERSION byte of the request -/
  version : Nat
  /-- some reserved byte of the request is not zero (R18, R573), or a field that the operation fixes at 0 is not 0 (CLIENT in
  CLIENT_SET CREATE, KIND and VECTOR in PAGES_POST ADD), or an OP or FLAGS value names no operation (DEDUCED) -/
  bodyReserved : Bool
  deriving DecidableEq, Repr

/-- A host session (R548). -/
structure Session where
  handle : Handle
  /-- negotiated version (R548) -/
  proto : Nat
  /-- EVENTS flag (R556) -/
  events : Bool
  /-- taken over from the partner and held (R750) -/
  held : Bool := false
  deriving DecidableEq, Repr

/-- The ten values of a stitch completion record that its slots do not give, with the frame numbers of its slots
(Table 16-7, R507). -/
structure StitchRec where
  outcome : Nat
  cls : Nat
  status : Nat
  detail : Nat
  id : Nat
  tag : Nat
  partition : Handle
  model : Handle
  client : Handle
  start : CardTime
  waitUs : Nat
  finish : CardTime
  residencyUs : Nat
  cycles : Nat
  slip : List Nat
  late : Nat
  ovfTiles : Nat
  replays : Nat
  stepMax : Nat
  debt : Bool
  rerun : Bool
  joinFailed : Nat
  frames : List Nat
  deriving DecidableEq, Repr

/-- An event record (R554). -/
structure EventRec where
  code : Nat
  source : Nat
  time : CardTime
  args : List Nat
  deriving DecidableEq, Repr

/-- A record of a completion page (R554). -/
inductive CRec where
  | stitch (r : StitchRec)
  | event (r : EventRec)
  deriving DecidableEq, Repr

/-- A picot (Table 17-1, R510): its header values and its payload bytes. SEQUENCE is 0 until its release. -/
structure Picot where
  type : Nat
  more : Bool
  unordered : Bool
  quality : Quality
  stream : Handle
  capture : CardTime
  seq : Nat
  frame : Nat
  completion : CardTime
  payload : List Byte
  /-- output of the item it was formed from; none for other sources -/
  output : Option Nat := none
  deriving DecidableEq, Repr

/-- A page or datagram being filled or delivered: its host address (0 for a datagram) and its contents. -/
structure OpenPage (α : Type) where
  addr : Nat
  entries : List α
  fill : Nat
  deriving DecidableEq, Repr

/-- A delivered page that the host has not yet re-posted (R527, R557). -/
structure SentPage where
  addr : Nat
  pageSeq : Nat
  lastSeq : Nat
  recs : List CRec
  /-- the picots of the page, kept for redelivery (R568) -/
  picots : List Picot
  deriving DecidableEq, Repr

/-- A page set (R552). -/
structure PageSet where
  handle : Handle
  session : Handle
  /-- 1 COMPLETION, 2 PICOT, 3 HOST_PATH -/
  kind : Nat
  vector : Nat
  /-- posted and not yet filled, in posting order; the page being filled is the first -/
  posted : List Nat := []
  /-- pages posted since creation or ADOPT (R553, R568) -/
  postedCount : Nat := 0
  /-- pages filled since creation or ADOPT (R553) -/
  filledCount : Nat := 0
  /-- PAGE_SEQ of the latest delivered page -/
  pageSeq : Nat := 0
  /-- completion records in the page being filled (R554) -/
  filling : List CRec := []
  /-- bytes used in the page being filled, 0 when none is open -/
  fill : Nat := 0
  /-- frames in the host-path page being filled (R404) -/
  frames : Nat := 0
  /-- delivered pages not re-posted (R557) -/
  sent : List SentPage := []
  /-- delivered pages whose DONE is not written yet (R553) -/
  undone : List Nat := []
  /-- TIME.TICK of the first record of the page being filled -/
  since : Nat := 0
  deriving DecidableEq, Repr

/-- One entry of the flow table (Table 13-1, R386). -/
structure FlowReq where
  port : Nat
  /-- 1 SSRC, 2 SOURCE -/
  key : Nat
  flow : Handle
  stream : Handle
  vlan : Nat
  dstPort : Nat
  ssrc : Nat
  /-- 1 RTP, 2 TS over UDP, 3 TS over RTP -/
  encap : Nat
  payload : Nat
  pt : Nat
  /-- bit 0 RTCP_MUX, bit 1 JOIN -/
  flags : Nat
  jitterMs : Nat
  tsProgram : Nat
  clockRate : Nat
  dstAddr : Nat
  srcAddr : Nat
  deriving DecidableEq, Repr

/-- An RTP-to-card-time mapping taken from a sender report (R401). -/
structure TimeMap where
  /-- card time of the report in ns -/
  baseNs : Int
  rtp : Nat
  deriving DecidableEq, Repr

/-- What the parse of one MPEG-2 transport-stream packet finds in it besides its header (R397, R403, Table 13-1). -/
inductive TsContent where
  /-- a program association: program number and PID of its map for each program, in the table's order -/
  | pat (programs : List (Nat × Nat))
  /-- the map of a program: PID of its video -/
  | pmt (video : Nat)
  /-- the start of a PES packet, with its PTS -/
  | pes (pts : Option Nat)
  | rest
  deriving DecidableEq, Repr

/-- A transport-stream packet: its PID, its continuity counter and its content. -/
structure TsPacket where
  pid : Nat
  cc : Nat
  content : TsContent
  deriving DecidableEq, Repr

/-- A packet held in a jitter buffer (R395). -/
structure HeldPacket where
  /-- extended sequence number -/
  seq : Nat
  /-- ingress stamp T -/
  ingress : CardTime
  /-- release time T + JITTER_MS -/
  release : CardTime
  bytes : Nat
  rtpTime : Nat
  marker : Bool
  /-- the transport-stream packets within (R397) -/
  ts : List TsPacket := []
  deriving DecidableEq, Repr

/-- An access unit that left ingest: its capture time and its marks (R397, R402). -/
structure AccessUnit where
  capture : CardTime
  estimated : Bool
  lost : Bool
  bytes : Nat
  deriving DecidableEq, Repr

/-- A flow of the flow table with its jitter buffer (R386 to R403). -/
structure Flow where
  handle : Handle
  session : Handle
  req : FlowReq
  /-- bytes of the jitter buffer (R389) -/
  bufBytes : Nat
  held : List HeldPacket := []
  /-- extended sequence number of the last packet that left or was declared lost -/
  lastOut : Option Nat := none
  /-- packets that have left and wait for the stream's control core, each with the mark of a loss before it (R665) -/
  outbox : List (HeldPacket × Bool) := []
  /-- highest extended sequence number received -/
  highest : Option Nat := none
  /-- SSRC now followed by a SOURCE-keyed flow (R399) -/
  ssrc : Option Nat := none
  map : Option TimeMap := none
  /-- PTS anchor of a transport stream: PTS value and ingress stamp (R403) -/
  anchor : Option (Nat × CardTime) := none
  /-- continuity counts per PID (R397) -/
  cc : List (Nat × Nat) := []
  /-- the latest program association: program number and PID of its map each -/
  pat : List (Nat × Nat) := []
  /-- the latest program maps: their PID and the PID of the program's video each -/
  pmts : List (Nat × Nat) := []
  /-- access unit being assembled: RTP timestamp and the unit so far -/
  open_ : Option (Nat × AccessUnit) := none
  /-- a packet was lost since the last access unit ended -/
  lossPending : Bool := false
  deriving DecidableEq, Repr

/-- A decode declaration (Table 14-3, R417). -/
structure DecodeDecl where
  codec : Nat
  chroma : Nat
  bitDepth : Nat
  dpbDepth : Nat
  maxWidth : Nat
  maxHeight : Nat
  bitRate : Nat
  picRate : Nat
  outBufs : Nat
  /-- 1 network-fed, 2 host-fed -/
  source : Nat
  pool : Handle
  deriving DecidableEq, Repr

/-- An output descriptor (Table 15-1, R451). -/
structure OutputDesc where
  kind : Nat
  outFmt : Nat
  matrix : Nat
  flags : Nat
  filter : Nat
  s2d : Nat
  levels : Nat
  depth : Nat
  outW : Nat
  outH : Nat
  cropX : Nat
  cropY : Nat
  cropW : Nat
  cropH : Nat
  /-- FACTOR[1..5] -/
  factors : List Nat
  packRows : Nat
  mean : List W32
  rstd : List W32
  pool : Handle
  packRow : Nat
  deriving DecidableEq, Repr

/-- One predicted box of an eyelet table (Table 15-4, R470). -/
structure PredEntry where
  box : List W32
  trackId : W32
  cls : Nat
  score : W32
  deriving DecidableEq, Repr

/-- An eyelet table in force: its source frame and its entries (R471). -/
structure EyeletTable where
  frame : Nat
  entries : List PredEntry
  deriving DecidableEq, Repr

/-- A segment of a PACK item (R476). -/
structure Segment where
  frame : Nat
  capture : CardTime
  firstRow : Nat
  nrows : Nat
  mark : Nat
  quality : Quality
  trackId : Nat
  eyelet : Nat
  deriving DecidableEq, Repr

/-- Where an item stands (R466 to R468). -/
inductive ItemState where
  | ready
  | bound (stitch : Nat)
  deriving DecidableEq, Repr

/-- An item (Table 15-2, R457). Its header lies in its buffer; what the card itself tracks of it is here. -/
structure Item where
  id : Nat
  stream : Handle
  output : Nat
  /-- 1 FRAME, 2 PYRAMID, 3 EYELETS, 4 PACK -/
  kind : Nat
  frame : Nat
  capture : CardTime
  quality : Quality
  rows : Nat
  progress : Nat := 0
  width : Nat
  height : Nat
  buf : BufRef
  /-- bytes of the item -/
  bytes : Nat
  predOff : Nat := 0
  segments : List Segment := []
  /-- a PACK buffer still taking segments (R477) -/
  packOpen : Bool := false
  /-- offset of the packing rows and bytes of one, for PACK -/
  packOff : Nat := 0
  packRow : Nat := 0
  state : ItemState := .ready
  /-- TIME.TICK of its creation -/
  created : Nat := 0
  /-- the eyelet table entries it cuts, with AGE (R472) -/
  cuts : List PredEntry := []
  age : Nat := 0
  /-- a replica of the active card's item whose rows this card's shadow scaling has not begun (R739) -/
  foreign : Bool := false
  /-- bytes that wait for the end of its buffer's tag rewrite, oldest first: offset in the item and bytes (R375) -/
  held : List (Nat × List Byte) := []
  deriving DecidableEq, Repr

/-- A strip of a scaler job (R464): rows `first` to `last` of one level or eyelet, of one segment of a PACK item. -/
structure Strip where
  part : Nat
  segment : Nat
  first : Nat
  last : Nat
  /-- output samples written and source luma samples read -/
  samples : Nat
  reads : Nat
  /-- source luma rows needed -/
  need : Nat
  deriving DecidableEq, Repr

/-- A scaler job (R464): one item of one picture, or the internal job of an encode stream (R453). -/
structure ScalerJob where
  /-- creation order, which also names the job -/
  order : Nat
  /-- identity of its item; 0 for an internal job -/
  item : Nat
  /-- stream whose picture it reads -/
  stream : Handle
  output : Nat
  frame : Nat
  buf : BufRef
  desc : OutputDesc
  marginPct : Nat
  fit : Nat
  /-- entries that it cuts as eyelets -/
  cuts : List PredEntry
  /-- strips still to do -/
  strips : List Strip
  /-- resident unit, none while it waits (R464) -/
  unit : Option Nat := none
  running : Bool := false
  /-- TIME.TICK of its creation -/
  created : Nat := 0
  /-- its item was dropped: it ends at the next strip boundary (R467) -/
  ended : Bool := false
  /-- encode stream of an internal job -/
  encode : Option Handle := none
  /-- output buffer of a closed stream that it is the last to read (R440) -/
  srcBuf : Option BufRef := none
  deriving DecidableEq, Repr

/-- A rectangle of luma samples of a picture. -/
structure Block where
  x : Nat
  y : Nat
  w : Nat
  h : Nat
  deriving DecidableEq, Repr

/-- A slice of a picture as its header was parsed (R422, R431). -/
structure SliceInfo where
  rows : Nat
  /-- data lost or syntax broken (R426) -/
  damaged : Bool
  /-- the filters act across the boundary above it (R436) -/
  filterAcross : Bool
  deriving DecidableEq, Repr

/-- Where a picture's decode stands (R429 to R433). -/
inductive PicPhase where
  /-- no slice is parsed, or an earlier picture of the stream is not decoded (R429) -/
  | waiting
  /-- in the decode queue since a tick (R430) -/
  | queued (since : Nat)
  | onEngine (engine : Nat)
  /-- parked until its next slice is parsed (R431) -/
  | parkedSlice
  | ended
  deriving DecidableEq, Repr

/-- A picture being decoded (R422 to R440). -/
structure Picture where
  stream : Handle
  frame : Nat
  width : Nat
  height : Nat
  capture : CardTime
  quality : Quality
  /-- all its slices have been parsed -/
  allParsed : Bool
  slices : List SliceInfo
  decoded : Nat := 0
  /-- luma rows reconstructed so far -/
  rowsDone : Nat := 0
  /-- published row progress (R436) -/
  progress : Nat := 0
  phase : PicPhase
  /-- output buffer, none when decoded into its reference slot only (R438) -/
  outBuf : Option Nat := none
  started : Bool := false
  /-- cycles of the present period on an engine (R432) -/
  periodCycles : Nat := 0
  /-- cycles in all, saves and restores included -/
  totalCycles : Nat := 0
  outputFlag : Bool
  /-- pictures that may precede one in decode order and follow it in output order (R435) -/
  reorder : Nat
  /-- every earlier picture is output before it: an IDR, a BLA or an AV1 key picture (R435) -/
  flush : Bool := false
  /-- the frame that an AV1 show_existing_frame shows again (R437) -/
  shows : Option Nat := none
  forwarded : Bool := false
  /-- TIME.TICK at which it was forwarded -/
  forwardTick : Nat := 0
  /-- after its decode: 0 nowhere else, 1 waits for output order, 2 with the scalers, 3 in the orphan ring (R435, R564) -/
  place : Nat := 0
  /-- a random access point -/
  rap : Bool
  /-- ingest lost data of its access unit (R397) -/
  lost : Bool := false
  /-- frame numbers of the pictures it refers to (R428), and of those kept for reference as it starts -/
  refs : List Nat := []
  keeps : List Nat := []
  /-- its reference slot (R418, R421) -/
  slot : Option Nat := none
  /-- TIME.TICK at which its decode first started (R433) -/
  startTick : Nat := 0
  /-- rows decoded or concealed so far: luma, and Cb and Cr interleaved -/
  luma : List (List Byte) := []
  chromaRows : List (List Byte) := []
  chroma : Nat := 0
  bitDepth : Nat := 8
  fullRange : Bool := false
  matrixCoeffs : Nat := 2
  deriving DecidableEq, Repr

/-- The ingest counter block (Table 13-8, R414). -/
structure IngestCounters where
  received : Nat := 0
  used : Nat := 0
  discarded : List Nat := List.replicate 7 0
  lost : Nat := 0
  reordered : Nat := 0
  srCount : Nat := 0
  ssrcChanges : Nat := 0
  heldPeak : Nat := 0
  deriving DecidableEq, Repr

/-- The decode counter block (Table 14-8, R441). -/
structure DecodeCounters where
  decoded : Nat := 0
  forwarded : Nat := 0
  dropped : List Nat := List.replicate 4 0
  skipped : List Nat := List.replicate 3 0
  concealed : Nat := 0
  partly : Nat := 0
  abandoned : Nat := 0
  yields : Nat := 0
  videoCycles : Nat := 0
  peakCycles : Nat := 0
  deriving DecidableEq, Repr

/-- The output counter block (Table 15-6, R478). -/
structure OutputCounters where
  created : Nat := 0
  consumed : Nat := 0
  dropped : List Nat := List.replicate 3 0
  eyeletsCut : Nat := 0
  predCommits : Nat := 0
  predDiscards : Nat := 0
  videoCycles : Nat := 0
  deriving DecidableEq, Repr

/-- One output of a stream with its policy and counters (R451, R473, R478). -/
structure Output where
  desc : OutputDesc
  marginPct : Nat := 0
  fit : Nat := 0
  maxAge : Nat := 0
  ctr : OutputCounters := {}
  deriving DecidableEq, Repr

/-- A `STREAM_FEED` request (Table 13-5, R406). -/
structure FeedReq where
  container : Nat
  /-- bit 0 END, bit 1 DISCONTINUITY -/
  flags : Nat
  stream : Handle
  anchor : CardTime
  timescale : Nat
  anchorTs : Nat
  /-- bus address and LENGTH of each entry -/
  entries : List (Nat × Nat)
  deriving DecidableEq, Repr

/-- What the parse of a container other than the record stream finds: one unit with its container timestamp (R410). -/
structure FeedUnit where
  ts : Option Nat
  bytes : Nat
  /-- position of its first byte, and the position past its last, among the bytes not parsed before this feed and then the
  feed's own (R408) -/
  first : Nat := 0
  past : Nat := 0
  malformed : Bool
  /-- continuity counts lost within it -/
  lost : Nat
  deriving DecidableEq, Repr

/-- An encode declaration (Table 14-9, R443). -/
structure EncodeDecl where
  codec : Nat
  bitDepth : Nat
  rcMode : Nat
  source : Handle
  width : Nat
  height : Nat
  target : Nat
  peak : Nat
  vbvMs : Nat
  qpI : Nat
  qpP : Nat
  gopLen : Nat
  bFrames : Nat
  pictureStep : Nat
  pool : Handle
  deriving DecidableEq, Repr

/-- A source picture that waits to be encoded (R449). -/
structure EncodePic where
  frame : Nat
  capture : CardTime
  quality : Quality
  /-- its source picture is complete and scaled (R449) -/
  ready : Bool := false
  /-- samples of the source picture, scaled where its size differs: what the encoder reads (R448, R453) -/
  luma : List (List Byte) := []
  chromaRows : List (List Byte) := []
  /-- its internal scaler job is not complete (R453) -/
  scaling : Bool
  /-- TIME.TICK at which it was complete and scaled (R449) -/
  readyAt : Nat := 0
  /-- where its internal job wrote it; 0 where there is none (R453) -/
  base : Nat := 0
  deriving DecidableEq, Repr

/-- A picture on an encode engine. -/
structure EncodeWork where
  engine : Nat
  pic : EncodePic
  key : Bool
  /-- its place in coding order -/
  place : Nat
  /-- its place among the waiting pictures when it was taken -/
  index : Nat
  /-- 0 an anchor, 1 a B picture, 2 a P picture that precedes the latest key picture in source order (R446) -/
  kind : Nat
  /-- TIME.TICK at which its encoding began (R446) -/
  tick : Nat
  deriving DecidableEq, Repr

/-- The encode half of an encode stream (R443 to R449). -/
structure EncodeState where
  decl : EncodeDecl
  bufs : List BufRef
  pics : List EncodePic := []
  /-- pictures on engines, in coding order -/
  working : List EncodeWork := []
  /-- pictures at the front that are coded as B pictures, their anchor being encoded -/
  bPending : Nat := 0
  /-- pictures at the front that precede the latest key picture in source order, coded as P pictures (R446) -/
  pPending : Nat := 0
  /-- TIME.TICK at which the encoding of its latest key or P picture ended (R449) -/
  anchorEnd : Nat := 0
  /-- every picture whose encoding has begun, in coding order, with its key mark: what its bits depend on (R448) -/
  history : List (List (List Byte) × List (List Byte) × Bool) := []
  /-- level of the buffer model of R447 after its latest picture, in parts of 1/(1,000 PIC_RATE) of a bit -/
  vbv : Option Nat := none
  /-- quantiser of its latest picture where the declaration fixes it (R447) -/
  quantiser : Option Nat := none
  /-- source pictures forwarded since opening, for PICTURE_STEP -/
  seen : Nat := 0
  /-- pictures encoded since the last key picture -/
  gopPos : Nat := 0
  first : Bool := true
  keyRequested : Bool := false
  /-- thumbnail requests pending (R579) -/
  thumbs : Nat := 0
  encoded : Nat := 0
  keys : Nat := 0
  bytes : Nat := 0
  deriving DecidableEq, Repr

/-- A decode stream's parse state (R424, R425, Table 19-4 STATE). -/
inductive ParseState where
  | waitRap
  | decoding
  | skipping (reason : Nat)
  deriving DecidableEq, Repr

/-- A decode or encode stream (R417, R443). -/
structure Stream where
  handle : Handle
  session : Handle
  decl : DecodeDecl
  outputs : List Output
  /-- encode half of an encode stream -/
  enc : Option EncodeState := none
  /-- output buffers, each with the frame of the picture that holds it -/
  outBufs : List (BufRef × Option Nat) := []
  refSlots : List BufRef := []
  /-- buffers whose tags are still being rewritten (R577) -/
  preparing : Nat := 0
  parse : ParseState := .waitRap
  /-- frames (in output order) closed as skipped, dropped or forwarded: all below this one -/
  nextFrame : Nat := 0
  /-- marked pictures since the latest random access point that was decoded without concealment (R428) -/
  marked : List Nat := []
  /-- pictures parsed since `STREAM_OPEN`, those skipped or lost among them (R439) -/
  parsed : Nat := 0
  /-- decoded pictures that the reference slots hold (R418, R426) -/
  refPics : List Picture := []
  grainSent : Bool := false
  /-- pictures affected by the present status reason -/
  statusCount : Nat := 0
  lastDecoded : Option Nat := none
  lastForwarded : Option Nat := none
  aus : List AccessUnit := []
  /-- bytes of the feed buffer, 0 for a network-fed stream (R580) -/
  feedBytes : Nat := 0
  container : Option Nat := none
  feedEnded : Bool := false
  /-- record-stream bytes not yet parsed (R408) -/
  feedTail : List Byte := []
  /-- bytes read and in no unit or record yet, oldest first: how many, and the card time at which they were read (R410) -/
  feedTimes : List (Nat × CardTime) := []
  /-- after a discard: no 8-byte boundary with MAGIC has been found yet (R413) -/
  feedScan : Bool := false
  table : Option EyeletTable := none
  /-- pictures that are to be decoded, are decoded, or wait to be read, in decode order -/
  pics : List Picture := []
  /-- the access unit whose slices are being parsed: 0 none, 1 its picture is decoded, 2 it is skipped -/
  parsing : Nat := 0
  /-- decoding began at a CRA picture: its RASL pictures are skipped (R425) -/
  cra : Bool := false
  /-- reason of the latest status of the present run of skipped pictures -/
  skipReason : Option Nat := none
  /-- frames dropped or skipped and not in order yet -/
  closedFrames : List Nat := []
  ingest : IngestCounters := {}
  dec : DecodeCounters := {}
  deriving DecidableEq, Repr

/-- One buffer or granule of a pool (R369). -/
structure Buf where
  allocated : Bool := false
  count : Nat := 0
  gen : Nat := 1
  deriving DecidableEq, Repr

/-- A buffer pool or bobbin arena (R364, R382). -/
structure Pool where
  handle : Handle
  session : Handle
  /-- 1 pillow, 2 DDR, 3 hub SRAM -/
  space : Nat
  bufLog2 : Nat
  arena : Bool
  count : Nat
  stackMask : Nat
  base : Nat
  /-- offset within each stack for a pillow pool -/
  regionOffset : Nat
  bufs : SMap Buf := []
  lowFree : Nat
  allocs : Nat := 0
  finalFrees : Nat := 0
  noSpace : Nat := 0
  rejects : Nat := 0
  deriving DecidableEq, Repr

/-- A bobbin layout (Table 10-1, R287). -/
structure BobbinLayout where
  layers : Nat
  latW : Nat
  anchors : Nat
  absorbed : Bool
  anchorD : Nat
  slots : Nat
  stage : Nat
  decay : W32
  maxPosLimit : Nat
  deriving DecidableEq, Repr

/-- A bobbin or a prefix (R288 to R323). Its header and areas lie in its run; what the card tracks of it is here. -/
structure Bobbin where
  handle : Handle
  session : Handle
  model : Handle
  layoutIdx : Nat
  layout : BobbinLayout
  arena : Handle
  /-- first granule of the run and its length -/
  g0 : Nat
  granules : Nat
  gen : Nat
  maxPos : Nat
  pos : Nat := 0
  cur : Bool := false
  commits : Nat := 0
  /-- it is a prefix (R310) -/
  isPrefix : Bool := false
  /-- prefix: the host reference still stands (R315) -/
  hostRef : Bool := false
  /-- handle of the linked prefix -/
  link : Option Handle := none
  linkLen : Nat := 0
  /-- run under tag rewrite (R577) -/
  rewriting : Bool := false
  /-- copy of prefix records or anchor tables under way: 0 none, 1 link copy, 2 fork copy -/
  copying : Nat := 0
  /-- position of a fork whose copy is under way -/
  forkPos : Nat := 0
  /-- posted by a join and not yet created (R317) -/
  posted : Bool := false
  deriving DecidableEq, Repr

/-- A place of a model (Table 7-6). -/
structure Place where
  space : Nat
  writable : Bool
  stack : Nat
  offset : Nat
  size : Nat
  sect : Nat
  deriving DecidableEq, Repr

/-- A relocation (Table 7-7). -/
structure Reloc where
  kind : Nat
  holder : Nat
  index : Nat
  target : Nat
  deriving DecidableEq, Repr

/-- A length-register definition (Table 7-9). -/
structure LenDef where
  reg : Nat
  source : Nat
  arg : Nat
  xform : Nat
  unit : Nat
  min : Nat
  max : Nat
  deriving DecidableEq, Repr

/-- A tile-skip entry (Table 7-10). -/
structure TileSkip where
  lreg : Nat
  mask : Bool
  array : Nat
  target : Nat
  base : Nat
  deriving DecidableEq, Repr

/-- An entry of a pointer-list template (Table 7-11). -/
structure TemplateEntry where
  kind : Nat
  index : Nat
  length : Nat
  offset : Nat
  deriving DecidableEq, Repr

/-- A pointer-list template (Table 7-11). -/
structure Template where
  place : Nat
  offset : Nat
  entries : List TemplateEntry
  deriving DecidableEq, Repr

/-- A shuttle descriptor (Table 6-10, R182). -/
structure Desc where
  form : Nat
  gate : Bool
  srcSlot : Bool
  dstSlot : Bool
  slot : Nat
  src : W64
  dst : W64
  count0 : Nat
  count1 : Nat
  count2 : Nat
  sstride1 : Int
  sstride2 : Int
  dstride1 : Int
  dstride2 : Int
  gateBase : Nat
  gateStep : Nat
  lenDim : Nat
  lenReg : Nat
  deriving DecidableEq, Repr

/-- A loaded pricking (R211 to R243): what the card keeps of it. -/
structure Model where
  handle : Handle
  session : Handle
  modelId : Nat
  digest : List Byte
  quads : Nat
  nStacks : Nat
  lcEligible : Bool
  replaySafe : Bool
  pillowRo : Nat
  pillowRw : Nat
  ddrRo : Nat
  ddrRw : Nat
  hubRw : Nat
  stitchCycles : Nat
  /-- role of each partition core (R219) -/
  roles : List Nat
  /-- entry points: ENTRY, ROLE, BUNDLE (R231) -/
  entries : List (Nat × Nat × Nat)
  /-- bundles of each role, 32 bytes each (R220) -/
  code : List (Nat × List Byte)
  /-- descriptors of each role (R220) -/
  descs : List (Nat × List Desc)
  places : List Place
  relocs : List Reloc
  lens : List LenDef
  /-- tile-skip entries of each role (R235) -/
  skips : List (Nat × List TileSkip)
  templates : List Template
  knots : List Nat
  layouts : List BobbinLayout
  emitPlace : Option Nat
  vocab : List (List Byte)
  /-- one more than the highest slot the model references (R486) -/
  slotsNeeded : Nat
  /-- base of its read-only DDR places (R225): DDR places first, then the copies of the pillow places -/
  ddrBase : Nat
  ddrBytes : Nat
  /-- order of loading (R763) -/
  order : Nat
  deriving DecidableEq, Repr

/-- An accounting client with its statistics block (Table 16-2, Table 16-8). -/
structure Client where
  handle : Handle
  session : Handle
  classes : Nat
  weight : Nat
  stitches : Nat := 0
  cancelled : Nat := 0
  waitSum : Nat := 0
  waitMax : Nat := 0
  waitHist : List Nat := List.replicate 16 0
  preemptClass : Nat := 0
  preemptSlice : Nat := 0
  quadCycles : Nat := 0
  replays : Nat := 0
  ovfTiles : Nat := 0
  residencyUs : Nat := 0
  deriving DecidableEq, Repr

/-- A slot record of `STITCH_POST` (Table 16-4). -/
structure SlotRec where
  stream : Handle
  output : Nat
  require : Bool
  reservedFlags : Bool
  append : Nat
  bobbin : Handle
  deriving DecidableEq, Repr

/-- A join entry of `STITCH_POST` (Table 19-6). -/
structure JoinRec where
  slot : Nat
  layout : Nat
  arena : Handle
  maxPos : Nat
  pfx : Handle
  deriving DecidableEq, Repr

/-- A `STITCH_POST` request (Table 16-3). -/
structure StitchReq where
  cls : Nat
  entry : Nat
  flags : Nat
  partition : Handle
  model : Handle
  client : Handle
  seed : W64
  tag : Nat
  vector : Nat
  /-- LEN[0..15] -/
  len : List Nat
  slots : List SlotRec
  leaves : List Handle
  joins : List JoinRec
  deriving DecidableEq, Repr

/-- Where a stitch stands (R490 to R504). -/
inductive StitchPhase where
  | queued
  /-- selected; its joins' runs or tables are not ready (R319) -/
  | joining
  /-- slots bound; the model's read-only places are being copied (R501) -/
  | copying
  /-- its start steps are done; it waits for the implicit knot (R196) -/
  | starting
  | running
  /-- it has completed or been cancelled; its record waits for the partner's acknowledgement (R508, R736) -/
  | recorded (r : StitchRec)
  deriving DecidableEq, Repr

/-- A stitch that is queued or running (R485). -/
structure Stitch where
  /-- its number among this card's stitches -/
  id : Nat
  /-- its STITCH_ID (R487): the same, but of a stitch that was taken over from the partner the partner's -/
  wire : Nat := id
  session : Handle
  req : StitchReq
  joinHandles : List Handle
  phase : StitchPhase := .queued
  /-- ticks of its posting, of its selection, of the start of a residency copy and of its cycle 0 -/
  postTick : Nat := 0
  selTick : Nat := 0
  copyTick : Nat := 0
  zeroTick : Nat := 0
  /-- microseconds from posting to cycle 0, and ns of it spent on residency (R499, R501) -/
  waitUs : Nat := 0
  residencyNs : Nat := 0
  /-- item id bound to each slot (R498) -/
  items : List (Option Nat) := []
  /-- frame number of each slot's item -/
  frames : List Nat := []
  pinned : List Handle := []
  joinFailed : Nat := 0
  cycle0 : CardTime := {}
  rerun : Bool := false
  debt : Bool := false
  /-- values of the 16 length registers -/
  lens : List Nat := []
  /-- partition cores that have finished their part (R504) -/
  finished : List Nat := []
  /-- status of a run-time stop that waits for its cores' bundle boundaries (R190, R326) -/
  stop : Option Nat := none
  /-- DETAIL of its record where its status gives one (Table 16-7) -/
  detail : Nat := 0
  /-- replayed after a failover (R745) -/
  replayed : Bool := false
  stepMax : Nat := 0
  deriving DecidableEq, Repr

/-- A model resident in a partition's MODEL region (R500). -/
structure Resident where
  model : Handle
  /-- first granule within the region -/
  g0 : Nat
  granules : Nat
  pinned : Bool
  /-- order in which it became resident -/
  order : Nat
  /-- order of its latest start; none when never started -/
  lastStart : Option Nat
  deriving DecidableEq, Repr

/-- The writable DDR and hub SRAM places the card keeps for a model on a partition (R486). -/
structure PartPlaces where
  model : Handle
  ddrBase : Nat
  ddrBytes : Nat
  hubBase : Nat
  hubBytes : Nat
  deriving DecidableEq, Repr

/-- A `PARTITION_SET` request (Table 16-1). -/
structure PartReq where
  sliceMs : Nat
  beBoundMs : Nat
  partition : Handle
  quads : Nat
  lcCapMs : Nat
  timeoutMs : Nat
  /-- MODEL_G0[0..3] -/
  modelG0 : List Nat
  /-- WORK_G0[0..3] -/
  workG0 : List Nat
  deriving DecidableEq, Repr

/-- A partition (R479). -/
structure Partition where
  handle : Handle
  session : Handle
  quads : Nat
  sliceMs : Nat
  beBoundMs : Nat
  lcCapMs : Nat
  timeoutMs : Nat
  modelG0 : List Nat
  workG0 : List Nat
  /-- STITCH_ID of the running stitch -/
  running : Option Nat := none
  /-- slice holder and its remaining slice in ns (R491, R495) -/
  holder : Option Handle := none
  sliceLeft : Int := 0
  /-- last holder, for the cyclic order of R494 -/
  lastHolder : Option Nat := none
  /-- debt of each client in ns (R495) -/
  debts : List (Handle × Nat) := []
  residents : List Resident := []
  places : List PartPlaces := []
  posted : Nat := 0
  completed : Nat := 0
  cancelled : Nat := 0
  /-- duration in µs of its last completed stitch (R709) -/
  lastUs : Nat := 0
  /-- pins that wait for the next idle point: header and model (R502) -/
  pins : List (Hdr × Handle) := []
  /-- suspended after a failover in SHARED mode (R748) -/
  suspended : Bool := false
  deriving DecidableEq, Repr

/-- A region of pillow granules (R334, R585). -/
structure Region where
  kind : Nat
  stackMask : Nat
  g0 : Nat
  count : Nat
  session : Handle := 0
  deriving DecidableEq, Repr

/-- A `PICOT_ROUTE` request (Table 17-6). -/
structure RouteReq where
  dest : Nat
  kind : Nat
  stream : Handle
  pageSet : Handle
  flushUs : Nat
  datagram : Nat
  port : Nat
  orderMask : Nat
  vlan : Nat
  srcPort : Nat
  dstPort : Nat
  healthMs : Nat
  srcAddr : Nat
  dstAddr : Nat
  deriving DecidableEq, Repr

/-- A picot destination (R523 to R531). -/
structure Dest where
  id : Nat
  session : Handle
  req : RouteReq
  /-- SEQUENCE of the next release -/
  nextSeq : Nat := 1
  ackHwm : Nat := 0
  /-- next SEQUENCE to deliver, below nextSeq while redelivering (R568) -/
  produced : Nat := 0
  delivered : Nat := 0
  dropped : List Nat := List.replicate 5 0
  pages : Nat := 0
  /-- released picots not yet placed in a page or datagram -/
  queue : List Picot := []
  /-- the page or datagram being filled -/
  filling : List Picot := []
  fill : Nat := 0
  pageAddr : Nat := 0
  /-- PAGE_SEQ of the latest page -/
  pageSeq : Nat := 0
  /-- delivered pages not re-posted -/
  sent : List SentPage := []
  /-- SEQUENCE up to which picots were delivered at least once -/
  deliveredSeq : Nat := 0
  /-- the collector's MAC address, while it is resolved (R528) -/
  mac : Option Nat := none
  /-- picots of pages whose DONE is not written yet and of datagrams not sent yet (R530, R531) -/
  awaiting : List Picot := []
  /-- LAST_SEQ of the latest page (R527) -/
  lastSent : Nat := 0
  /-- TIME.TICK of the first picot of the page or datagram being filled -/
  since : Nat := 0
  deriving DecidableEq, Repr

/-- A stream's route (R523): stream 0 is HEALTH. -/
structure Route where
  stream : Handle
  dest : Nat
  orderMask : Nat
  healthMs : Nat
  deriving DecidableEq, Repr

/-- A time unit claim (R648). -/
structure UnitClaim where
  handle : Handle
  session : Handle
  unit : Nat
  /-- 1 PPS_OUT, 2 PPS_IN, 3 TRIGGER_IN, 4 FRAME_TICK -/
  function : Nat
  connector : Bool
  periodNs : Nat
  start : CardTime
  deriving DecidableEq, Repr

/-- A card address of a logical port and VLAN (R385, R393), in order of adding. -/
structure CardAddr where
  port : Nat
  vlan : Nat
  addr : Nat
  deriving DecidableEq, Repr

/-- A joined multicast group (R392). -/
structure Group where
  port : Nat
  vlan : Nat
  group : Nat
  source : Nat
  flow : Handle
  deriving DecidableEq, Repr

/-- Every object of one card: what the host and the card both name, and what the partner mirrors (R735). -/
structure Objects where
  /-- open sessions, at most 16 (R548) -/
  sessions : List Session := []
  /-- open streams, at most 1,024 (R419, R444) -/
  streams : List Stream := []
  /-- flow table, at most 1,024 entries (R386) -/
  flows : List Flow := []
  /-- loaded models, at most 256 (R583) -/
  models : List Model := []
  /-- bobbins and prefixes (R289) -/
  bobbins : List Bobbin := []
  /-- pools and arenas, at most 64 (R366) -/
  pools : List Pool := []
  /-- clients, at most 256 (R483) -/
  clients : List Client := []
  /-- page sets (R552) -/
  pageSets : List PageSet := []
  /-- claimed time units (R648) -/
  units : List UnitClaim := []
  /-- partitions (R479) -/
  partitions : List Partition := []
  /-- queued and running stitches, in posting order (R487) -/
  stitches : List Stitch := []
  /-- items that exist (R467) -/
  items : List Item := []
  /-- scaler jobs (R464) -/
  jobs : List ScalerJob := []
  /-- picot destinations 0 to 31 (R523) -/
  dests : List Dest := []
  /-- routes of streams and of HEALTH (R523) -/
  routes : List Route := []
  /-- card addresses in order of adding (R385) -/
  addrs : List CardAddr := []
  /-- joined multicast groups (R392) -/
  groups : List Group := []
  /-- pillow regions (R334) -/
  regions : List Region := []
  /-- picots formed and held for frame order (R520) -/
  heldPicots : List Picot := []
  /-- completion records and events that wait for a page, each with its session (R557, R559) -/
  heldRecs : List (Handle × CRec) := []
  deriving DecidableEq, Repr

/-- One object as it crosses the bride: created or changed, or removed (R735). -/
inductive ObjRec where
  | session (x : Session)
  | stream (x : Stream)
  | flow (x : Flow)
  | model (x : Model)
  | bobbin (x : Bobbin)
  | pool (x : Pool)
  | client (x : Client)
  | pageSet (x : PageSet)
  | unit (x : UnitClaim)
  | partition (x : Partition)
  | stitch (x : Stitch)
  | item (x : Item)
  | dest (x : Dest)
  | route (x : Route)
  | addr (x : CardAddr)
  | group (x : Group)
  | region (x : Region)
  | gone (h : Handle)
  | stitchGone (id : Nat)
  | itemGone (id : Nat)
  | destGone (id : Nat)
  | routeGone (stream : Handle)
  | addrGone (x : CardAddr)
  | groupGone (x : Group)
  | regionGone (x : Region)
  /-- picots that are held for their order (R520, R527) -/
  | picotsHeld (l : List Picot)
  deriving DecidableEq, Repr

end Sys2Proof
end

