-- ==== Sys2Proof/Syntax.lean ====
section
/-! DEFINITION. The commands of the TJX4800, one constructor per row of spec/opcode_table.json, and the operand records
they carry. A mailbox command carries its mailbox header and its decoded request; an operation of a core carries the
fields of its bundle slot; an event carries what happened outside the card. -/

namespace Sys2Proof

/-- Where an operation of a bundle issues: the core, its bundle's number, and whether it is the last operation of that
bundle (so that the sequencer goes on to the next one). A CONTROL operation is always the last of its bundle. -/
structure Slot where
  core : Nat
  bundle : Nat
  last : Bool
  /-- cycles for which the bundle was held for this operation by array lateness (R77, R279), which count in CORE.LATE alone -/
  held : Nat := 0
  /-- single-bit errors in the hoops, per-row registers and scratch that it reads, which are corrected (R136, R160) -/
  corrected : Nat := 0
  deriving DecidableEq, Repr

/-- MODE of an array operation (Table 6-3). -/
inductive Mode where
  | i8 | i4 | f8 | f4 | ft | f16
  deriving DecidableEq, Repr

/-- LFMT of a vector operation (Table 6-6). -/
inductive LaneFmt where
  | fp32 | bf16 | int8
  deriving DecidableEq, Repr

/-- Per-row register fields (R175). -/
inductive RowField where
  | max | sum | scale | maxValid
  deriving DecidableEq, Repr

/-- Operands of a drain (Table 6-4, less FORM). -/
structure DrainOp where
  array : Nat
  hoop : Bool
  zero : Bool
  softmaxDiv : Bool
  /-- DEST 1: the vector unit -/
  toVector : Bool
  dreg : Nat
  qreg : Nat
  deriving DecidableEq, Repr

/-- A request that writes or reads device memory or a register, by the space it addresses. -/
inductive RegSpace where
  | bar0 | control | config
  deriving DecidableEq, Repr

/-- UDP checksum of a frame (R384). -/
inductive Cksum where
  | valid | zero | wrong
  deriving DecidableEq, Repr

/-- An RTP packet as its header parse finds it (R395). -/
structure RtpPacket where
  ssrc : Nat
  seq : Nat
  timestamp : Nat
  pt : Nat
  marker : Bool
  bytes : Nat
  malformed : Bool
  /-- the TS packets within, for ENCAP 3 -/
  ts : List TsPacket
  deriving DecidableEq, Repr

/-- The data set that an Announce message carries, which best master clock selection compares (R641). -/
structure PtpAnnounce where
  priority1 : Nat
  clockClass : Nat
  accuracy : Nat
  variance : Nat
  priority2 : Nat
  /-- clockIdentity of the grandmaster -/
  grandmaster : Nat
  stepsRemoved : Nat
  /-- currentUtcOffset, with currentUtcOffsetValid set -/
  utcOffset : Option Int
  deriving DecidableEq, Repr

/-- A PTP message as its parse finds it (R640 to R645). -/
structure PtpMsg where
  messageType : Nat
  domain : Nat
  /-- sourcePortIdentity of its sender -/
  sender : Nat
  /-- what an Announce message carries -/
  announce : Option PtpAnnounce
  /-- offset from the master that this message lets the servo measure, in ns -/
  offsetNs : Option Int
  /-- rate correction the servo derives, in 2^-16 ppb -/
  rate : Option Int
  /-- sequenceId -/
  sequenceId : Nat
  deriving DecidableEq, Repr

/-- What an Ethernet frame carries, as parsed (R384 to R404). -/
inductive FrameBody where
  | rtp (p : RtpPacket)
  | senderReport (ssrc ntpSec ntpFrac rtpTime : Nat)
  | rtcpOther
  /-- transport-stream packets; PCR base found; some packet does not parse -/
  | ts (packets : List TsPacket) (pcr : Option Nat) (bytes : Nat) (malformed : Bool)
  | ptp (m : PtpMsg)
  | arp (target : Nat) | ndp (target : Nat) | echo
  | groupQuery
  | heartbeat
  | other
  deriving DecidableEq, Repr

/-- A received Ethernet frame (R384). Addresses are 128-bit numbers, IPv4 in its mapped form. -/
structure Frame where
  port : Nat
  /-- card time at which its start-of-frame delimiter passed the MAC (R644) -/
  ingress : CardTime
  /-- number of 802.1Q tags -/
  tags : Nat
  /-- outer VLAN, 0xFFFF when untagged -/
  vlan : Nat
  fragment : Bool
  ipOptions : Bool
  extHeader : Bool
  udp : Bool
  ipv6 : Bool
  cksum : Cksum
  src : Nat
  dst : Nat
  srcPort : Nat
  dstPort : Nat
  body : FrameBody
  /-- the frame from its destination MAC address to the end of its payload -/
  bytes : List Byte
  deriving DecidableEq, Repr

/-- Kind of a picture's random access (R425). -/
inductive RapKind where
  | none | idr | cra | bla | irap | gdr | key | jpeg
  deriving DecidableEq, Repr

/-- Profiles of Table 14-1, and every other one. -/
inductive VideoProfile where
  | constrainedBaseline | baseline | main | high | high10 | main10 | main422p10 | other
  deriving DecidableEq, Repr

/-- Features of a bitstream that Table 14-1 names. -/
inductive VideoFeature where
  | fieldPictures | mbaff | fmo | aso | multiLayer | subpictureExtraction | filmGrain | progressive | arithmetic | lossless
  deriving DecidableEq, Repr

/-- What the header parse of a picture or of a further slice of it finds (R422 to R428). -/
structure SliceParse where
  /-- first slice of its picture: the fields from codec to showExisting then count -/
  first : Bool
  /-- last slice of its picture -/
  last : Bool
  codec : Nat
  profile : VideoProfile
  /-- level in tenths; not used for JPEG -/
  level : Nat
  features : List VideoFeature
  /-- 0 4:2:0, 1 4:2:2, 2 4:0:0 -/
  chroma : Nat
  bitDepth : Nat
  width : Nat
  height : Nat
  /-- reference count of the active parameters -/
  dpb : Nat
  rap : RapKind
  rasl : Bool
  output : Bool
  /-- pictures that may precede one in decode order and follow it in output order, by the active parameters -/
  reorder : Nat
  /-- places by which it comes later in output order than in decode order (R439) -/
  shift : Int
  /-- frame numbers of the pictures that it refers to (R428), and of those that the codec keeps for reference as it starts -/
  refs : List Nat
  keeps : List Nat
  fullRange : Bool
  matrixCoeffs : Nat
  /-- AV1 show_existing_frame: the frame number of the frame it shows (R437) -/
  showExisting : Option Nat
  rows : Nat
  damaged : Bool
  filterAcross : Bool
  deriving DecidableEq, Repr

/-- An item of the mirror (Table 24-3, R735) as the partner sends it. -/
inductive MirrorItem where
  | object (o : ObjRec)
  | accessUnit (stream : Handle) (au : AccessUnit)
  /-- a checkpoint: the objects, and what its commits wrote, in their order (R323) -/
  | checkpoint (stitch : Nat) (o : List ObjRec) (log : List (Nat × List Byte))
  | release (dest : Nat) (seq : Nat) (p : Picot)
  | delivery (dest : Nat) (seq : Nat)
  | repost (dest : Nat) (seq : Nat)
  | record (session : Handle) (r : CRec)
  /-- contents of memory that a replica holds (R732) -/
  | contents (addr : Nat) (data : List Byte)
  | reset
  deriving DecidableEq, Repr

/-- An SPDM request (R764 to R766). -/
inductive SpdmReq where
  | getVersion | getCapabilities | negotiate | getDigests
  | getCertificate (slot : Nat)
  | challenge (slot : Nat)
  | getMeasurements (index : Nat)
  | other
  deriving DecidableEq, Repr

/-- Transports of SPDM (R764). -/
inductive Transport where
  | smbus | vdm | doe
  deriving DecidableEq, Repr

/-- A PLDM request (R790, R791). -/
inductive PldmReq where
  | base
  | readSensor (id : Nat)
  | setEffecter (id : Nat) (value : Bool)
  | fru
  | setEndpoint (eid : Nat)
  | otherType (t : Nat)
  deriving DecidableEq, Repr

/-- SMBus ARP transactions (R789). -/
inductive ArpOp where
  | prepare | resetDevice | getUdid | assign (udid : Nat) (addr : Nat)
  deriving DecidableEq, Repr

/-- How a completion of a read arrives (R611). -/
inductive CplStatus where
  | ok | unsupported | abort | poisoned
  deriving DecidableEq, Repr

/-- What a patrol read finds of a line's code, and in DDR of its tag word's (R344, R357). -/
inductive EccFinding where
  | clean | single | double | tagSingle | tagDouble
  deriving DecidableEq, Repr

/-- A QSFP module as its discovery finds it (R690, R785 to R787). -/
structure ModuleInfo where
  /-- it is one of Table 26-6 -/
  supported : Bool
  powerClass : Nat
  breakoutOnly : Bool
  deriving DecidableEq, Repr

/-- Requests that are answered with Unsupported Request (R616). -/
inductive UrKind where
  | outsideBars | badType | otherFunction
  deriving DecidableEq, Repr

/-- What a bring-up step reports when it ends (R688 to R694). -/
structure StepResult where
  /-- step 0: the port allows Flit mode; its highest rate, 1 to 6 for 2.5 to 64 GT/s, and its lanes -/
  flit : Bool := false
  portRate : Nat := 5
  portLanes : Nat := 16
  /-- step 3: channels that failed training; step 5: stacks that failed self-test -/
  failed : List Nat := []
  /-- step 3: stages that a channel that failed had done -/
  stage : Nat := 0
  /-- step 3: watts the 12V-2x6 sideband advertises, and the millivolts at its input -/
  advertisedW : Nat := 600
  inputMv : Nat := 12000
  /-- step 6: modules of cages 0 and 1 -/
  modules : List (Option ModuleInfo) := [none, none]
  /-- step 7: trained lanes, authentication, partner serial -/
  lanes : Nat := 0
  authenticated : Bool := false
  partnerSerial : Nat := 0
  deriving DecidableEq, Repr

/-- Where a double-bit error was found in a core (R136, R160). -/
inductive UePlace where
  | hoop (array : Nat) (hoop : Bool)
  | scratch (offset : Nat)
  deriving DecidableEq, Repr

/-- The commands and events of the card: one constructor per row of the table of operations. -/
inductive Instr where
  -- host commands of mailboxes 0 to 31
  | openSession (h : Hdr) (flags leaseMs : Nat) (versions : List Nat)
  | closeSession (h : Hdr)
  | leaseRenew (h : Hdr) (leaseMs : Nat)
  | resync (h : Hdr) (buffer size : Nat)
  | adopt (h : Hdr) (snapshot leaseMs : Nat) (versions : List Nat)
  | resetWork (h : Hdr)
  | audit (h : Hdr)
  | streamOpen (h : Hdr) (d : DecodeDecl) (outs : List OutputDesc)
  | streamClose (h : Hdr) (stream : Handle)
  | streamFeed (h : Hdr) (f : FeedReq) (data : Option (List Byte)) (units : List FeedUnit)
  | streamFeedTimeout (stream : Handle)
  | flowSetAdd (h : Hdr) (f : FlowReq)
  | flowSetModify (h : Hdr) (f : FlowReq)
  | flowSetRemove (h : Hdr) (f : FlowReq)
  | flowSetAddrAdd (h : Hdr) (f : FlowReq)
  | flowSetAddrRemove (h : Hdr) (f : FlowReq)
  | keyPicture (h : Hdr) (stream : Handle)
  | encodeOpen (h : Hdr) (d : EncodeDecl)
  | streamQuery (h : Hdr) (stream : Handle)
  | eyeletPolicy (h : Hdr) (stream : Handle) (output fit maxAge marginPct : Nat)
  | modelLoad (h : Hdr) (entries : List (Nat × Nat)) (total : Nat) (image : Option (List Byte))
  | modelUnload (h : Hdr) (model : Handle)
  | modelPinSet (h : Hdr) (model partition : Handle)
  | modelPinClear (h : Hdr) (model partition : Handle)
  | modelPinApply (partition : Handle)
  | pillowPlanSet (h : Hdr) (kind stackMask g0 count : Nat)
  | pillowPlanClear (h : Hdr) (kind stackMask g0 count : Nat)
  | stitchPost (h : Hdr) (r : StitchReq)
  | stitchCancel (h : Hdr) (id : Nat)
  | clientSetCreate (h : Hdr) (classes weight : Nat)
  | clientSetModify (h : Hdr) (client : Handle) (classes weight : Nat)
  | clientSetRemove (h : Hdr) (client : Handle)
  | clientStats (h : Hdr) (client : Handle)
  | partitionSetCreate (h : Hdr) (p : PartReq)
  | partitionSetModify (h : Hdr) (p : PartReq)
  | partitionSetRemove (h : Hdr) (p : PartReq)
  | bobbinCreate (h : Hdr) (layout : Nat) (model arena : Handle) (maxPos : Nat) (pfx : Handle)
  | bobbinRelease (h : Hdr) (bobbin : Handle)
  | prefixCreate (h : Hdr) (bobbin : Handle)
  | prefixFork (h : Hdr) (bobbin : Handle) (p : Nat)
  | poolCreate (h : Hdr) (space bufLog2 flags count stackMask regionOffset : Nat)
  | poolAlloc (h : Hdr) (pool : Handle)
  | poolFreeUnref (h : Hdr) (b : BufRef)
  | poolFreeRef (h : Hdr) (b : BufRef)
  | poolFreeDestroy (h : Hdr) (pool : Handle)
  | poolStats (h : Hdr) (pool : Handle)
  | pagesPostCreate (h : Hdr) (kind vector : Nat) (addrs : List Nat)
  | pagesPostAdd (h : Hdr) (pageSet : Handle) (addrs : List Nat)
  | picotRouteDestSet (h : Hdr) (r : RouteReq)
  | picotRouteDestRemove (h : Hdr) (dest : Nat)
  | picotRouteStreamSet (h : Hdr) (r : RouteReq)
  | picotRouteStats (h : Hdr) (dest : Nat)
  | timeStep (h : Hdr) (sec ns : Int)
  | timeRate (h : Hdr) (rate : Int)
  | timeUnitClaim (h : Hdr) (unit function connector periodNs : Nat) (start : CardTime)
  | timeUnitRelease (h : Hdr) (unit : Handle)
  | pairJoin (h : Hdr) (mode role : Nat)
  | pairJoinTimeout
  | pairEvacuate (h : Hdr)
  | pairStatus (h : Hdr)
  | powerCap (h : Hdr) (capW : Nat)
  | powerStateNap (h : Hdr) (pllIdleUs : Nat)
  | powerStateReady (h : Hdr) (pllIdleUs : Nat)
  | logConfig (h : Hdr) (levels : List Nat)
  | traceSetEnable (h : Hdr) (mask : BitVec 256)
  | traceSetDisable (h : Hdr) (mask : BitVec 256)
  | traceSetReplace (h : Hdr) (mask : BitVec 256)
  | measurements (h : Hdr) (first count : Nat)
  | unknownOpcode (h : Hdr) (opcode : Nat)
  | bootLoad (h : Hdr) (entries : List (Nat × Nat)) (imageBytes : Nat) (image : Option (List Byte))
  | bootLoadTimeout
  | bootQuery (h : Hdr)
  | leaseExpiry
  -- operations of a core's bundles
  | loadw (c : Slot) (array : Nat) (mode : Mode) (fmt areg sreg late : Nat)
  | pass (c : Slot) (array : Nat) (hoop : Bool) (mode : Mode) (fmt areg sreg : Nat)
  | stream (c : Slot) (array : Nat) (hoop : Bool) (mode : Mode) (fmt areg sreg n : Nat)
  | clear (c : Slot) (array : Nat) (hoop : Bool)
  | rowEntry (core array group late waited corrected : Nat)
  | drainPlain (c : Slot) (d : DrainOp)
  | drainAdd (c : Slot) (d : DrainOp)
  | drainPair (c : Slot) (d : DrainOp)
  | drainStart (core array early held replayCycles waits late waited : Nat) (withheld : List Nat) (corrected : Nat)
  | vadd (c : Slot) (fmt : LaneFmt) (vd va vb : Nat)
  | vsub (c : Slot) (fmt : LaneFmt) (vd va vb : Nat)
  | vmul (c : Slot) (fmt : LaneFmt) (vd va vb : Nat)
  | vfma (c : Slot) (fmt : LaneFmt) (vd va vb vc : Nat)
  | vmin (c : Slot) (fmt : LaneFmt) (vd va vb : Nat)
  | vmax (c : Slot) (fmt : LaneFmt) (vd va vb : Nat)
  | vcmp (c : Slot) (fmt : LaneFmt) (vd va vb cond : Nat)
  | vsel (c : Slot) (fmt : LaneFmt) (vd va vb vc : Nat)
  | vbcast (c : Slot) (fmt : LaneFmt) (vd : Nat) (imm : W32)
  | vcvt (c : Slot) (fmt : LaneFmt) (vd va target part : Nat)
  | vexp2 (c : Slot) (fmt : LaneFmt) (vd va : Nat)
  | vlog2 (c : Slot) (fmt : LaneFmt) (vd va : Nat)
  | vrcp (c : Slot) (fmt : LaneFmt) (vd va : Nat)
  | vrsqrt (c : Slot) (fmt : LaneFmt) (vd va : Nat)
  | vtanh (c : Slot) (fmt : LaneFmt) (vd va : Nat)
  | vsigm (c : Slot) (fmt : LaneFmt) (vd va : Nat)
  | vgelu (c : Slot) (fmt : LaneFmt) (vd va : Nat)
  | vsilu (c : Slot) (fmt : LaneFmt) (vd va : Nat)
  | vtwosum (c : Slot) (vd va vb : Nat)
  | vrsum (c : Slot) (fmt : LaneFmt) (vd va : Nat)
  | vrmax (c : Slot) (fmt : LaneFmt) (vd va : Nat)
  | vsort32 (c : Slot) (vd va : Nat)
  | vld (c : Slot) (vd areg : Nat)
  | vst (c : Slot) (va areg : Nat)
  | vgather (c : Slot) (fmt : LaneFmt) (vd vb areg : Nat)
  | hrowget (c : Slot) (array : Nat) (hoop : Bool) (field : RowField) (vd : Nat)
  | hrowset (c : Slot) (array : Nat) (hoop : Bool) (field : RowField) (va : Nat)
  | loop (c : Slot) (level : Nat) (lsrc : Bool) (count endBundle : Nat)
  | jump (c : Slot) (target : Nat)
  | knot (c : Slot) (k : Nat)
  | knotRelease (partition : Handle) (k : Nat) (late : List Nat)
  | ltest (c : Slot) (lreg target imm : Nat)
  | tskip (c : Slot) (entry : Nat)
  | rowmask (c : Slot) (array lreg base : Nat) (enable : Bool)
  | arset (c : Slot) (ar addr : Nat)
  | arstride (c : Slot) (ar : Nat) (stride : Int)
  | aradd (c : Slot) (ar : Nat) (imm : Int)
  | arlen (c : Slot) (ar lreg : Nat) (mul : Int)
  | end_ (c : Slot)
  | coreFinish (core cycles : Nat)
  | shStart (c : Slot) (sh desc : Nat)
  | shWait (c : Slot) (sh q : Nat)
  | shuttleDescriptorBegin (core sh : Nat)
  | shuttleRunMove (core sh : Nat) (ecc : List (Nat × EccFinding))
  | shuttleDescriptorComplete (core sh held gated : Nat)
  | ppuBoxdec (stack : Nat) (ecc : List (Nat × EccFinding))
  | ppuNms (stack : Nat) (ecc : List (Nat × EccFinding))
  | ppuTopk (stack : Nat) (ecc : List (Nat × EccFinding))
  | ppuIou (stack : Nat) (ecc : List (Nat × EccFinding))
  | ppuAssign (stack : Nat) (ecc : List (Nat × EccFinding))
  | ppuJobEnd (stack : Nat)
  | computeUncorrectableError (core : Nat) (place : UePlace)
  -- stitches
  | dispatchDecision (partition : Handle)
  | stitchSlotBind (partition : Handle)
  | modelResidencyCopyDone (partition : Handle)
  | stitchCycleZero (partition : Handle)
  | stitchTimeout (partition : Handle) (cause : Nat)
  -- ingest, video, frames
  | frameReceive (f : Frame)
  | jitterGapDeadline (flow : Handle)
  | sliceHeaderParse (stream : Handle) (p : SliceParse)
  | decodeEngineTakeJob (engine : Nat)
  | decodeSliceEnd (engine cycles : Nat) (samples : List Byte) (missing : List Block)
  | decodePictureEnd (engine cycles : Nat) (samples : List Byte) (missing : List Block)
  | pictureAbandon (stream : Handle)
  | scalerStripStart (unit : Nat)
  | scalerStripEnd (unit : Nat)
  | encodeEngineTakePicture (engine : Nat)
  | encodePictureEnd (engine : Nat)
  -- picots, pages
  | picotPageFlush (dest : Nat)
  | completionPageFlush (pageSet : Handle)
  | healthPicotTimer
  | collectorAddressRefresh (dest : Nat) (mac : Option Nat)
  -- memory
  | tagRewriteComplete (pool : Handle) (buffer : Nat)
  | ddrRefreshDue (channel : Nat) (rowHitOldest : Bool)
  | refreshManagementDue (channel bank : Nat)
  | ddrPanicEnter (channel level : Nat)
  | ddrPanicExit (channel level : Nat) (rowHitOldest : Bool)
  /-- `within`: the window of the latest replay had not completed -/
  | ddrAlert (channel : Nat) (writeCrc within : Bool)
  | dqsOscillatorTracking (channel : Nat)
  | zqCalibration (channel : Nat)
  | patrolScrubRead (pillow : Bool) (unit : Nat) (finding : EccFinding)
  /-- `resent`: the flit that failed is a resend of the one that failed before -/
  | dieLinkCrcError (link : Nat) (resent : Bool)
  | bar2Read (offset size : Nat) (ecc : List (Nat × EccFinding))
  /-- `poison`: the header of a poisoned TLP -/
  | bar2Write (offset : Nat) (data : List Byte) (poison : Option (List Byte)) (ecc : List (Nat × EccFinding))
  | unsupportedRequest (kind : UrKind) (posted : Bool) (header : List Byte)
  | registerWrite (space : RegSpace) (offset size value : Nat) (poison : Option (List Byte))
  /-- a write of `size` bytes at an offset into B2.BASE -/
  | b2BaseWrite (offset size value : Nat)
  | resizableBarSizeWrite (value : Nat)
  | mcRtCfgWrite (channel value : Nat)
  -- time
  | timeCtrlRelease (value : Nat)
  | timePtpCfgWrite (value : Nat)
  | timeUtcOffsetWrite (value : Nat)
  | timeNowSecRead (size : Nat)
  | timeTxqPopRead (size : Nat)
  | tuCaptureSecRead (unit size : Nat)
  | ptpDelayReqSend (sequenceId : Nat) (stamp : CardTime)
  | holdoverTimeout
  | timeUnitOutputEdge (unit : Nat)
  | timeConnectorEdge
  -- control cores and the gatherer
  | ccWdogKick (core : Nat)
  | watchdogExpiry (core : Nat)
  | controlCoreException (core cause : Nat) (image : Bool)
  | bootCoreWatchdogExpiry
  | edgeSourceArrival (source : Nat)
  | levelSourceAssert (source : Nat)
  | evgEnter (core source : Nat)
  | evgDone (core source : Nat) (asserted : Bool)
  | evgRaise (source : Nat)
  -- power
  | powerSample (mw avgMw : Nat)
  | powerControlTick
  | thermalSample (temps : List Int)
  | voltageLoopAdjust (stack mv : Nat) (failing : Bool)
  | pllIdleStop
  | d3hotWrite
  | sleepEntry
  | d0Write
  | sleepWakeComplete (advertisedW : Nat)
  -- the PCI Express endpoint
  | busMasterEnableClear
  | busMasterEnableSet
  /-- a completion, which may carry a part of its request's data, and its header -/
  | pcieReadCompletion (tag : Nat) (status : CplStatus) (data header : List Byte)
  | pcieCompletionTimeout (tag : Nat)
  | linkIdleL1Entry
  | functionLevelReset
  | perstAssert
  | perstDeassert
  | bringUpStepComplete (r : StepResult)
  | pcieLinkDown
  | hostLinkLossTimeout
  | auxPowerApply
  | mainPowerLoss
  | input12v2x6Rise (mv : Nat)
  | serviceShortPress
  /-- `partnerEvacuating`: the partner is itself evacuating (R752) -/
  | serviceLongPress (partnerEvacuating : Bool)
  | qsfpPresenceChange (cage : Nat) (m : Option ModuleInfo)
  | ethernetLinkChange (port : Nat) (up : Bool)
  | doeObjectWrite (vendor protocol dwords : Nat)
  | doeAbort
  | spdmRequest (transport : Transport) (r : SpdmReq)
  | mctpPldmRequest (transport : Transport) (r : PldmReq)
  | locateEffecterWrite (value : Bool)
  | smbusArp (op : ArpOp)
  | jtagChallengeRead
  | jtagUnlockResponse (key : Nat) (signature : List Byte)
  -- the pair
  | brideHeartbeatSend
  | networkHeartbeatSend
  | brideHeartbeatTimeout (networkStopped : Bool)
  | mirrorItemReceive (seq : Nat) (m : MirrorItem)
  | mirrorAckReceive (seq status : Nat)
  | mirrorAckTimeout (networkStopped : Bool)
  | partnerFaultReport (kind : Nat)
  | partnerTakeoverDetected
  | brideLaneLoss (lane : Nat)
  | brideCableReconnect (lanes : Nat)
  | pairSyncComplete
  | evacuationHandover
  | auditPeriodic
  | pcieLinkUp
  | brideHeartbeatReceive
  | partnerPairJoin (mode role : Nat) (serial : Nat)
  | napWakeComplete
  | ddrAlertClear (channel : Nat)
  | prefixCopyComplete (bobbin : Handle)
  | auxPowerLoss
  | controlCoreResume (core : Nat)
  | outputPulseEnd
  deriving DecidableEq, Repr

end Sys2Proof
end

