-- ==== Sys2Proof/Config.lean ====
section
/-! DEFINITION. What an implementation fixes and what the manual leaves open: constants with no body, so that no proof
can see their values. A free value is one of these applied to `State.fresh`, a counter that each use advances. -/

namespace Sys2Proof.Config

/-- How far FP32 in a fixed order takes a scaler's value from the exact one, within R456: a function of the descriptor, the
place of the sample and the source samples that its taps read. -/
opaque scaleError : List Int → List Nat → Nat
/-- Bytes of an access unit, and its length in bytes: functions of the declaration, of the source pictures coded so far and
of which of them are key pictures (R448). -/
opaque encodedLength : List Nat → List (List (List Byte) × List (List Byte) × Bool) → Nat
opaque encodedByte : List Nat → List (List (List Byte) × List (List Byte) × Bool) → Nat → Byte
/-- Bits that the buffer model of R447 holds before the first picture. -/
opaque vbvStart : List Nat → Nat
/-- ID.STEPPING (Table 18-2). -/
opaque stepping : Byte
/-- ID.BOOTROM_VERSION (Table 18-2). -/
opaque bootRomVersion : W32
/-- ID.SERIAL (Table 18-2); not 0 is not assumed. -/
opaque serial : W64
/-- SM3 digest of the boot ROM (R763). -/
opaque bootRomDigest : List Byte
/-- Fused SECURITY_VERSION as the card left manufacture, 0 to 64 (Table 25-1). -/
opaque fusedSecurityVersion : Fin 65
/-- FK_REVOKED (Table 25-1). -/
opaque fkRevoked : BitVec 4
/-- PRICKING_POLICY is REQUIRED (Table 25-1). -/
opaque policyRequired : Bool
/-- JTAG_DISABLE (Table 25-1). -/
opaque jtagDisable : Bool
/-- The certificate chain verifies to the ROM's root (R757). -/
opaque chainValid : Bool
/-- Owner public keys whose digest equals their fused slot (R757). -/
opaque ownerKeysValid : BitVec 4
/-- OWNER_KEY_DIGEST of each slot, 32 bytes (Table 25-1). -/
opaque ownerKeyDigest : Fin 4 → List Byte
/-- SM3 digest of the firmware signing public key FKk (R753). -/
opaque fkDigest : Fin 4 → List Byte
/-- The certificate chain of R756. -/
opaque certificateChain : List Byte
/-- FRU data of the board flash (R790). -/
opaque fru : List Byte
/-- SM2 verification of a signature over a digest by firmware key k (R758, R767). -/
opaque fkVerify : Fin 4 → List Byte → List Byte → Bool
/-- SM2 verification of a signature over a digest by owner key slot k (R762). -/
opaque ownerVerify : Fin 4 → List Byte → List Byte → Bool
/-- The identity signature of the boot core over a digest (R755). -/
opaque identitySign : List Byte → List Byte
/-- A byte that the manual leaves open, by the free-value counter. -/
opaque freeByte : Nat → Byte
/-- A number that the manual leaves open, by the free-value counter. -/
opaque freeNat : Nat → Nat
/-- A choice that the manual leaves open, by the free-value counter. -/
opaque freeBool : Nat → Bool
/-- A byte of memory whose contents have been lost, by loss and byte (Table 18-8a). -/
opaque lostByte : Nat → Nat → Byte
/-- SECDED check bits of the (72,64) code over a 64-bit word (R340): the manual gives no parity matrix. -/
opaque check72 : W64 → Byte
/-- SECDED check bits of the (64,56) code over the tag of a line (R341). -/
opaque check64 : BitVec 56 → Byte
/-- Activations of a bank that one refresh management command makes good, as the devices' mode registers set (R352). -/
opaque rfmCredit : Nat
/-- Activations of a bank at which the devices require refresh management at once (R352). -/
opaque rfmUrgent : Nat
/-- CODE of the n-th log entry: it belongs to the firmware release (R672). -/
opaque logCode : Nat → W16
/-- A sensor reading that is no state of the model: id and free-value counter (R791). -/
opaque sensor : Nat → Nat → W32
/-- Significand of `VEXP2` at a fraction, given in units of 2^-149, where it keeps the bound of Table 6-7 (R274, R796). -/
opaque exp2Frac : Nat → Nat
/-- Result bits of `VLOG2` by the bits of its operand, and of the six below, where they keep the bounds of Table 6-7 (R796). -/
opaque log2Bits : W32 → W32
opaque rcpBits : W32 → W32
opaque rsqrtBits : W32 → W32
opaque tanhBits : W32 → W32
opaque sigmBits : W32 → W32
opaque geluBits : W32 → W32
opaque siluBits : W32 → W32
/-- e^x of the post-processing unit's box decoding (R200). -/
opaque ppuExp : W32 → W32

end Sys2Proof.Config
end

