-- ==== Sys2Proof/Machine/CoreUnit.lean ====
section
/-! DEFINITION. The state of a compute core and of a post-processing unit (chapters 3, 4 and 6). Scratch lies in device
memory, and the length registers with the stitch that fills them. -/

namespace Sys2Proof

/-- A hoop: 32 rows of 32 entries of 64 bits, a per-row register for each row, HOVF and HREP (R100 to R104). -/
structure Hoop where
  /-- entry 32 r + j of row r and column j, unlisted ones 0 (Table 4-1, Table 4-2) -/
  entries : SMap W64 := []
  /-- MAX of each row -/
  max : SMap W32 := []
  /-- SUM of each row -/
  sum : SMap W32 := []
  /-- SCALE of each row -/
  scale : SMap W32 := []
  /-- MAX_VALID of each row -/
  valid : SMap Bool := []
  /-- sticky overflow flag -/
  hovf : Bool := false
  /-- replay count, 2 bits -/
  hrep : Nat := 0
  /-- only drains' own saturations have set HOVF: those are never replayed (R121) -/
  final : Bool := false
  deriving DecidableEq, Repr

/-- The operands of a `LOADW` as they stand at its issue. -/
structure LoadOp where
  mode : Mode
  fmt : Nat
  addr : Nat
  stride : Int
  /-- address of MX block scales; none when the operand is not MX -/
  scales : Option Nat
  deriving DecidableEq, Repr

/-- The operands of a `PASS` (n = 32, one hoop) or `STREAM` as they stand at its issue. -/
structure RowOp where
  isStream : Bool
  hoop : Bool
  mode : Mode
  fmt : Nat
  n : Nat
  addr : Nat
  stride : Int
  /-- address and stride of MX block scales; none when the operand is not MX -/
  scales : Option (Nat × Int)
  /-- row mask in force: value of the length register and BASE (Table 6-5 `ROWMASK`) -/
  mask : Option (Nat × Nat)
  /-- the window descriptor's 64 bytes, which are read once, as the operation is decoded (R247); empty in other modes -/
  desc : List Byte := []
  deriving DecidableEq, Repr

/-- An operation of the pass sequence of a tile (R125). -/
inductive WindowOp where
  | load (o : LoadOp)
  | rows (o : RowOp)
  deriving DecidableEq, Repr

/-- A `PASS` or `STREAM` whose rows have not all been added. -/
structure InFlight where
  op : RowOp
  /-- bundle count at its issue, which orders it against drains (R116, R119) -/
  issue : Nat
  /-- next row that each of the four row groups enters (R89) -/
  next : List Nat := [0, 0, 0, 0]
  /-- entries of the feeder buffers that not all four column groups have taken: row, row group, bytes, block scale bytes
  (R88, R90) -/
  slices : List (Nat × Nat × List Byte × List Byte) := []
  /-- rows that each of the four column groups has taken and added (R90, R92) -/
  cols : List Nat := [0, 0, 0, 0]
  /-- cycles for which it was held under R77, which it inherits (R93) -/
  inherited : Nat := 0
  /-- cycles for which its rows have waited under R84 for a drain that started later than scheduled, which it inherits too -/
  waited : Nat := 0
  /-- cycles by which it runs behind its schedule (R93) -/
  late : Nat := 0
  /-- drains of the named hoop and of the other that were issued after it and have read (R84) -/
  drains : Nat := 0
  drainsOther : Nat := 0
  deriving DecidableEq, Repr

/-- A drain that has issued and has not started reading. -/
structure DrainReq where
  /-- 0 PLAIN, 1 ADD, 2 PAIR -/
  form : Nat
  hoop : Bool
  zero : Bool
  softmaxDiv : Bool
  toVector : Bool
  /-- destination address and stride, or first vector register -/
  daddr : Nat
  dstride : Int
  vbase : Nat
  qaddr : Nat
  issue : Nat
  /-- state of the core's generator for this drain's draws (R66) -/
  seed : W64
  deriving DecidableEq, Repr

/-- A requantiser entry (Table 5-2). -/
structure QEntry where
  mult : W32
  shift : Int
  act : Nat
  zp : Int
  lo : Nat
  hi : Nat
  fmt : Nat
  stoch : Bool
  pass : Bool
  deriving DecidableEq, Repr

/-- A column group's part of a row between its reading and its writing: the bytes of its partial, and what SOFTMAX_DIV takes
of the row's registers, as they stood when the row was read (R112, R175). -/
structure RowPart where
  row : Nat
  partial_ : List Byte
  sum : W32
  valid : Bool
  deriving DecidableEq, Repr

/-- A drain that reads its hoop: the four column groups read and write their parts of its rows (R91, R112, R113). -/
structure Draining where
  req : DrainReq
  /-- the hoop is in the integer layout -/
  integer : Bool
  /-- the hoop as the drain starts reading -/
  hoop : Hoop
  /-- its requantiser entries, one a column (R147); empty in the PAIR form -/
  table : List QEntry
  /-- rows that each column group has read -/
  read : List Nat := [0, 0, 0, 0]
  /-- rows read and not yet written of each column group: the drain buffers (R88) -/
  parts : List (List RowPart) := [[], [], [], []]
  /-- a sum of it saturated (R121, R125) -/
  sat : Bool := false
  deriving DecidableEq, Repr

/-- A matrix array with its two hoops (chapter 3). -/
structure Array4 where
  /-- mode of the latest `LOADW` of the stitch; none when none has run (R79) -/
  loaded : Option (Mode × Nat) := none
  /-- weight bytes of array rows 0 to 31 as loaded (R69); empty for the zeros of R71 -/
  weights : List (List Byte) := []
  /-- block scale bytes of the columns, two per column in F4, one in F8; empty when not MX -/
  wscales : List Byte := []
  flight : Option InFlight := none
  drain : Option DrainReq := none
  /-- the drain that occupies the drain port (R114) -/
  draining : Option Draining := none
  /-- its overflowed tile is being replayed: RUN reads 2 and every slot of the bundle stream is held (R125) -/
  replaying : Bool := false
  hoopA : Hoop := {}
  hoopB : Hoop := {}
  /-- array operations since the latest `CLEAR` of each hoop (R125) -/
  windowA : List WindowOp := []
  windowB : List WindowOp := []
  deriving DecidableEq, Repr

/-- A loop that a core is in (R169). -/
structure LoopLevel where
  level : Nat
  first : Nat
  last : Nat
  left : Nat
  deriving DecidableEq, Repr

/-- A started descriptor of a shuttle. -/
structure ShuttleJob where
  index : Nat
  desc : Desc
  begun : Bool := false
  /-- runs and planes after LEN_DIM (R184) -/
  count1 : Nat := 0
  count2 : Nat := 0
  /-- runs moved so far -/
  moved : Nat := 0
  /-- a `PPU_JOB` whose results are written -/
  ppuDone : Bool := false
  deriving DecidableEq, Repr

/-- A compute core (chapter 6). -/
structure ComputeCore where
  /-- CORE.STATE RUN without the replay hold: 0 idle, 1 running, 3 ended -/
  run : Nat := 0
  /-- number of the next bundle to issue -/
  bundle : Nat := 0
  /-- an operation of the next bundle has issued and its last one has not -/
  mid : Bool := false
  /-- bundles issued in the stitch -/
  issue : Nat := 0
  /-- CORE.LATE -/
  late : Nat := 0
  /-- CORE.SLIP[0..5] -/
  slip : List Nat := [0, 0, 0, 0, 0, 0]
  /-- CORE.REPLAYS -/
  replays : Nat := 0
  /-- CORE.OVF_TILES -/
  ovfTiles : Nat := 0
  /-- CORE.SLIP_TOTAL[0..5] -/
  slipTotal : List Nat := [0, 0, 0, 0, 0, 0]
  /-- CORE.CYCLES -/
  cycles : Nat := 0
  /-- CORE.CYCLES counts: from the stitch's cycle 0 until the core finishes its part (R208) -/
  counting : Bool := false
  /-- ADDR and STRIDE of AR0 to AR31 -/
  ars : SMap (Nat × Int) := []
  /-- bytes of V0 to V31, 256 each; an unlisted register is zero -/
  vregs : SMap (List Byte) := []
  /-- enclosing loops, innermost first -/
  loops : List LoopLevel := []
  /-- row mask of each array: length register and BASE -/
  masks : SMap (Option (Nat × Nat)) := []
  arrays : SMap Array4 := []
  /-- queues of shuttles 0 and 1, oldest first -/
  sh0 : List ShuttleJob := []
  sh1 : List ShuttleJob := []
  /-- knot at which the core waits -/
  knot : Option Nat := none
  /-- state of the stochastic generator (R65) -/
  rng : W64 := 0
  /-- role of the stitch whose code the bundle store holds, with its model -/
  store : Option (Handle × Nat) := none
  deriving DecidableEq, Repr

/-- A post-processing job that waits or runs (R197). -/
structure PpuJob where
  core : Nat
  shuttle : Nat
  latencyCritical : Bool
  addr : Nat
  /-- the job has started -/
  started : Bool := false
  /-- its operation has been carried out -/
  done : Bool := false
  /-- quads of its stitch's partition: what its pointers reach -/
  quads : Nat := 0
  /-- its stitch runs no more, or from its start again: the job, once started, runs on to completion (R197) -/
  left : Bool := false
  deriving DecidableEq, Repr

/-- A stack's post-processing unit: its jobs in arrival order. -/
structure PpuUnit where
  jobs : List PpuJob := []
  deriving DecidableEq, Repr

end Sys2Proof
end

