-- ==== Sys2Proof/Machine/Units.lean ====
section
/-! DEFINITION. The state of the card's units other than the compute cores: the host interface, the PCI Express
endpoint, the clock, the control cores, the event gatherer, power, the memory controllers, the pair, security and the
board. Each field's comment names its register and rule. -/

namespace Sys2Proof

/-- What leaves the card, in order: the model's own record of what the outside sees. -/
inductive BrideMsg where
  | heartbeat
  | mirror (seq : Nat) (objs : List ObjRec)
  /-- the objects of a checkpoint, and what its commits wrote, in their order: the append log (R323, Table 24-3) -/
  | checkpoint (seq stitch : Nat) (objs : List ObjRec) (log : List (Nat × List Byte))
  | release (seq dest : Nat) (p : Picot)
  | delivery (seq dest lastSeq : Nat)
  | repost (seq dest lastSeq : Nat)
  | record (seq : Nat) (session : Handle) (r : CRec)
  | accessUnit (seq : Nat) (stream : Handle) (au : AccessUnit)
  | reset (seq : Nat)
  | ack (seq status : Nat)
  | fault (kind : Nat)
  | evacuated
  | join (mode role : Nat) (serial : Nat)
  deriving DecidableEq, Repr

/-- Frames that firmware and the picot engine send. -/
inductive TxFrame where
  | arpReply (addr : Nat)
  | gratuitous (addr : Nat)
  | echoReply (addr : Nat)
  | groupReport (group source : Nat) (leave : Bool)
  | resolve (addr : Nat)
  /-- a delay request of PTP: its message type, and the card address it is sent from (R640) -/
  | ptpRequest (messageType sequenceId : Nat) (src : Option Nat)
  /-- one of the two messages of a peer-delay response: its message type, the card address it is sent from, the time stamp it
  carries, and the sourcePortIdentity of the requester (R641) -/
  | ptpResponse (messageType sequenceId : Nat) (src : Option Nat) (time : CardTime) (requester : Nat)
  | heartbeat (src dst : Nat)
  /-- a picot datagram: the collector's MAC address, the IP addresses and the UDP ports of its source and destination (R523,
  R528) -/
  | datagram (mac srcAddr dstAddr srcPort dstPort : Nat) (bytes : List Byte)
  deriving DecidableEq, Repr

/-- A message on its way out of the card. -/
inductive OutMsg where
  /-- a memory write to the host, whose requests keep Max_Payload_Size and 4 KiB boundaries (R607), and whether it sets
  Relaxed Ordering (R609) -/
  | hostWrite (addr : Nat) (bytes : List Byte) (relaxed : Bool)
  /-- a memory read of the host, with its tag -/
  | hostRead (tag addr length : Nat)
  | msix (vector : Nat)
  | frame (port vlan : Nat) (f : TxFrame)
  | bride (m : BrideMsg)
  | pme
  | wake
  /-- AER message: 0 correctable, 1 non-fatal, 2 fatal (R614) -/
  | errorMessage (level : Nat)
  /-- the latency that the card tolerates, in ns, for snoop and for no-snoop requests (R621) -/
  | ltr (ns : Nat)
  /-- completion of a host read -/
  | readData (bytes : List Byte)
  /-- a poisoned completion of a read: some line of it reports poison -/
  | readPoisoned (bytes : List Byte)
  | unsupported
  /-- Configuration Request Retry Status (R622) -/
  | configRetry
  /-- DOE, SPDM and PLDM responses -/
  | doe (bytes : List Byte)
  | spdm (t : Transport) (bytes : List Byte)
  | pldm (t : Transport) (bytes : List Byte)
  | smbusAck (bytes : List Byte)
  | jtagChallenge (nonce : List Byte) (serial : Nat)
  | connectorEdge (rising : Bool)
  deriving DecidableEq, Repr

/-- The DONE of a page that has been filled (R526, R553, R554): the page set, the page's address and number, and of a picot page
the destination and the SEQUENCE of its last picot. -/
structure DoneInfo where
  pageSet : Handle
  addr : Nat
  seq : Nat
  dest : Option Nat := none
  lastSeq : Nat := 0
  deriving DecidableEq, Repr

/-- Who waits for a host read (R611). -/
inductive ReadOwner where
  | boot | modelLoad (mbox : Nat) | feed (stream : Handle)
  /-- a command that has ended -/
  | dropped
  deriving DecidableEq, Repr

/-- An outstanding host read (R613). -/
structure OutRead where
  tag : Nat
  owner : ReadOwner
  /-- position of its request among the command's requests -/
  piece : Nat
  addr : Nat
  length : Nat
  /-- the bytes that completions have brought so far (R613) -/
  got : List Byte := []
  deriving DecidableEq, Repr

/-- What waits for Bus Master Enable (R610). -/
inductive HostWait where
  | msg (m : OutMsg)
  /-- a write into a page of a page set -/
  | page (set : Handle) (m : OutMsg)
  | done (d : DoneInfo)
  /-- the summary of a `RESYNC`, which is answered once it is written (R565) -/
  | resync (h : Hdr) (m : OutMsg) (resp : List Byte)
  /-- a read, not issued yet -/
  | read (r : OutRead)
  deriving DecidableEq, Repr

/-- HEV.STATE (Table 18-7). -/
inductive HevState where
  | rom | starting | ready | orphaned | fault
  deriving DecidableEq, Repr

/-- The code of HEV.STATE. -/
def HevState.code : HevState → Nat
  | .rom => 0 | .starting => 1 | .ready => 2 | .orphaned => 3 | .fault => 4

/-- A mailbox (Table 18-3). -/
structure Mailbox where
  /-- OWNER OWN -/
  own : Bool := false
  /-- OWNER SEQ, 16 bits -/
  seq : Nat := 0
  /-- COMMAND OPCODE, 16 bits -/
  opcode : Nat := 0
  /-- COMMAND IRQ -/
  irq : Bool := false
  /-- COMMAND VECTOR, 8 bits -/
  vector : Nat := 0
  /-- SESSION -/
  session : Handle := 0
  /-- LENGTH -/
  length : Nat := 0
  /-- STATUS, 16 bits -/
  status : Nat := 0
  /-- DETAIL -/
  detail : Nat := 0
  /-- payload bytes by offset, 4,032 of them, unlisted ones 0 -/
  payload : SMap Byte := []
  deriving DecidableEq, Repr

/-- An entry of the MSI-X table. -/
structure MsixEntry where
  addr : Nat := 0
  data : Nat := 0
  masked : Bool := true
  deriving DecidableEq, Repr

/-- A command in flight past its taking (R544, R576). -/
inductive LongCmd where
  | resetWork (h : Hdr)
  | modelPin (h : Hdr) (model partition : Handle) (pinning : Bool)
  | modelLoad (h : Hdr) (entries : List (Nat × Nat)) (total : Nat) (got : List (Option (List Byte)))
  /-- `reading` is false while it waits for room in the feed buffer (R581); `times` are the card times at which the requests'
  data arrived -/
  | streamFeed (h : Hdr) (f : FeedReq) (data : Option (List Byte)) (units : List FeedUnit) (reading : Bool)
      (got : List (Option (List Byte))) (times : List CardTime)
  | pairJoin (h : Hdr) (mode role : Nat)
  | pairEvacuate (h : Hdr)
  | resync (h : Hdr)
  | audit (h : Hdr)
  /-- the stacks and granules that a `PILLOW_PLAN` names -/
  | pillowPlan (h : Hdr) (mask g0 count : Nat)
  deriving DecidableEq, Repr

/-- The header of a command in flight. -/
def LongCmd.hdr : LongCmd → Hdr
  | .resetWork h | .modelPin h _ _ _ | .modelLoad h _ _ _ | .streamFeed h _ _ _ _ _ _ | .pairJoin h _ _ | .pairEvacuate h
  | .resync h | .audit h | .pillowPlan h _ _ _ => h

/-- A `BOOT_LOAD` whose reads are not complete (R546). -/
structure BootJob where
  hdr : Hdr
  entries : List (Nat × Nat)
  imageBytes : Nat
  /-- data of each entry that has arrived -/
  got : List (Option (List Byte))
  deriving DecidableEq, Repr

/-- The host interface (chapters 18 and 19). -/
structure HostUnit where
  /-- HEV.STATE bits [3:0] -/
  state : HevState
  /-- HEV.CAUSE, 5 bits used, RW1C, reset 0 -/
  cause : BitVec 32
  /-- HEV.CAUSE_ENABLE, RW, reset 0 -/
  causeEnable : BitVec 32
  /-- HEV.VECTOR bits [7:0], RW, reset 0 -/
  vector : Nat
  /-- HEV.MBOX_DISCARDS, saturating, reset 0 -/
  discards : Nat
  /-- HEV.FAULT_CODE, reset 0 -/
  faultCode : Nat
  /-- mailboxes 0 to 31, and the boot mailbox as 32 (Table 18-3) -/
  mboxes : SMap Mailbox
  /-- B2.BASE (R536) -/
  b2Base : Nat
  /-- MSI-X table, 256 entries -/
  msix : SMap MsixEntry
  /-- MSI-X pending bits -/
  pba : List Nat
  /-- ID.FW_VERSION, zero until firmware runs (R534) -/
  fwVersion : Nat
  /-- ID.PROTO_MIN -/
  protoMin : Nat
  /-- ID.PROTO_MAX -/
  protoMax : Nat
  /-- lease period in ms (R560) -/
  leaseMs : Nat
  /-- ticks of the lease that are left; none when no lease runs -/
  leaseLeft : Option Nat
  /-- commands held with OWN 1 until the card takes them (R693, R619, R664) -/
  held : List Instr
  /-- long commands in flight (R576) -/
  long : List LongCmd
  /-- SNAPSHOT of the latest RESYNC (R565) -/
  snapshot : Nat
  /-- the event store, oldest first (R556) -/
  events : List (EventRec × List Handle)
  /-- the boot mailbox's load in flight (R546) -/
  boot : Option BootJob
  /-- a card fault that waits for the running stitches: kind and unit (R726) -/
  faultWait : Option (Nat × Nat)
  /-- the work of every session is being ended (R569, R618) -/
  ending : Bool
  deriving DecidableEq, Repr

/-- The PCI Express endpoint (chapter 20). -/
structure PcieUnit where
  /-- the link is up -/
  linkUp : Bool
  /-- PERST# is asserted -/
  perst : Bool
  /-- Command: Bus Master Enable -/
  bme : Bool
  /-- Command: Memory Space Enable -/
  mse : Bool
  /-- BAR0 base -/
  bar0 : Nat
  /-- BAR2 base -/
  bar2 : Nat
  /-- BAR Size field of Resizable BAR, 14 or 19, reset 19 (R604) -/
  barSize : Nat
  /-- MSI-X Enable -/
  msixEnable : Bool
  /-- MSI-X Function Mask -/
  msixMask : Bool
  /-- Enable Relaxed Ordering -/
  relaxed : Bool
  /-- Max_Payload_Size in bytes -/
  maxPayload : Nat
  /-- Max_Read_Request_Size in bytes -/
  maxRead : Nat
  /-- 14-Bit Tag Requester Enable, in Flit mode -/
  tag14 : Bool
  /-- 10-Bit Tag Requester Enable -/
  tag10 : Bool
  /-- Flit mode was negotiated -/
  flit : Bool
  /-- Completion Timeout Value, 4 bits -/
  cplTimeout : Nat
  /-- Completion Timeout Disable -/
  cplDisable : Bool
  /-- ASPM L1 enabled -/
  l1Enable : Bool
  /-- L1.2 enabled under ASPM -/
  l12Enable : Bool
  /-- LTR Mechanism Enable -/
  ltrEnable : Bool
  /-- link power state: 0 L0, 1 L1, 2 L1.2 -/
  linkState : Nat
  /-- PME_En -/
  pmeEnable : Bool
  /-- PME_Status -/
  pmeStatus : Bool
  /-- PowerState: D3hot was written -/
  d3hot : Bool
  /-- AER Uncorrectable Error Status -/
  uncorr : BitVec 32
  /-- AER Correctable Error Status -/
  corr : BitVec 32
  /-- AER Uncorrectable Error Mask -/
  uncorrMask : BitVec 32
  /-- AER Correctable Error Mask -/
  corrMask : BitVec 32
  /-- other writable configuration bytes -/
  cfg : SMap Byte
  /-- tags issued (R613) -/
  issued : Nat
  /-- tags completed -/
  completed : Nat
  /-- reads outstanding -/
  reads : List OutRead
  /-- reads that wait for a free tag, in order, their tag not yet given (R608) -/
  queued : List OutRead
  /-- requests that wait for Bus Master Enable, in order (R610) -/
  waiting : List HostWait
  /-- Status: the error bits, RW1C (R600) -/
  status : BitVec 16
  /-- Device Status: errors detected, RW1C -/
  devStatus : BitVec 4
  /-- AER First Error Pointer -/
  firstError : Nat
  /-- AER Header Log -/
  headerLog : List Byte
  /-- speed that the link trained at: 1 to 6 for 2.5 to 64 GT/s (R598) -/
  linkRate : Nat
  /-- lanes that the link trained with, 1 to 16 -/
  linkWidth : Nat
  /-- the latency last reported, in ns (R621) -/
  ltr : Option Nat
  /-- DOE Busy (R628) -/
  doeBusy : Bool
  /-- DOE Error (R627) -/
  doeError : Bool
  /-- DOE response that waits to be read -/
  doeReady : Option (List Byte)
  deriving DecidableEq, Repr

/-- An entry of the transmit time-stamp queue (R645). -/
structure TxStamp where
  id : Nat
  msg : Nat
  port : Nat
  time : CardTime
  deriving DecidableEq, Repr

/-- A time unit (Table 21-6). -/
structure TimeUnit where
  claimed : Bool := false
  /-- FUNCTION of Table 21-4 -/
  function : Nat := 0
  connector : Bool := false
  period : Nat := 0
  /-- latest capture -/
  capture : CardTime := {}
  ppsErr : Int := 0
  /-- TU.CAPTURE_NS as latched -/
  latchNs : Nat := 0
  /-- TU.PPS_ERR as latched -/
  latchErr : Int := 0
  /-- TU.EVENTS -/
  events : Nat := 0
  /-- TU.NEXT_SEC and TU.NEXT_NS -/
  next : CardTime := {}
  /-- START of the claim -/
  start : CardTime := {}
  deriving DecidableEq, Repr

/-- A master that the card hears: its sourcePortIdentity, the data of its latest Announce, and the ticks of its latest two
(R641). -/
structure ForeignMaster where
  sender : Nat
  data : PtpAnnounce
  heard : Nat
  heardBefore : Option Nat
  deriving DecidableEq, Repr

/-- The card clock and its units (chapter 21). -/
structure TimeUnitBlock where
  /-- the next tick boundary lies half a time-clock cycle late: a tick is 12.5 cycles (R631) -/
  halfCycle : Bool
  /-- 48-bit seconds of the card clock (R629) -/
  sec : Nat
  /-- nanoseconds of the card clock -/
  ns : Nat
  /-- fraction in 2^-48 ns -/
  frac : Nat
  /-- TIME.RATE, signed, 2^-16 ppb -/
  rate : Int
  /-- TIME.SYNC STATE: 0 FREE_RUN, 1 LOCKED, 2 HOLDOVER -/
  sync : Nat
  /-- TIME.NOW_NS as latched -/
  latchNs : Nat
  /-- TIME.NOW_FRAC as latched -/
  latchFrac : Nat
  /-- TIME.UTC_OFFSET, reset 37 -/
  utcOffset : Int
  /-- TIME.PTP_CFG -/
  ptpCfg : BitVec 32
  /-- TIME.TICK -/
  tick : Nat
  /-- the transmit queue, at most 16, oldest first -/
  txq : List TxStamp
  /-- TIME.TXQ_SEC as latched -/
  txqSec : Nat
  /-- TIME.TXQ_TAKEN -/
  taken : Nat
  /-- TIME.TXQ_READ -/
  read : Nat
  /-- TIME.TXQ_DROPPED -/
  dropped : Nat
  /-- TIME.GM_ID -/
  gmId : Nat
  /-- clockIdentity of the grandmaster last selected, 0 with none so far -/
  gmLast : Nat := 0
  /-- sourcePortIdentity of the selected master -/
  master : Option Nat := none
  /-- the masters that the card hears -/
  masters : List ForeignMaster := []
  /-- TIME.OFFSET_NS -/
  offsetNs : Int
  /-- TIME.STEPS -/
  steps : Nat
  /-- time units 0 to 3 -/
  units : SMap TimeUnit
  deriving DecidableEq, Repr

/-- A control core, or the boot core as core 4 (Table 22-4). -/
structure ControlCore where
  /-- CC.STATE RUN: 0 reset, 1 running, 2 halted, 3 restarting -/
  run : Nat := 0
  /-- CC.WDOG_LEFT, reset 250,000 -/
  wdogLeft : Nat := 250000
  /-- CC.LAST_CAUSE -/
  lastCause : Nat := 0
  /-- CC.RESTARTS -/
  restarts : Nat := 0
  /-- CC.LAST_TICK -/
  lastTick : Nat := 0
  /-- CC.BUSY_CYCLES -/
  busy : Nat := 0
  /-- ticks of its restarts within the latest 10 s (R668) -/
  recent : List Nat := []
  /-- streams that lost a picture in the restart under way (R667) -/
  lostStreams : Nat := 0
  deriving DecidableEq, Repr

/-- An entry of the log ring (Table 22-5). -/
structure LogEntry where
  tick : Nat
  core : Nat
  level : Nat
  code : Nat
  args : List Nat
  seq : Nat
  deriving DecidableEq, Repr

/-- Control cores and the log (chapter 22). -/
structure FwUnit where
  /-- cores 0 to 3 and the boot core as 4 -/
  cores : SMap ControlCore
  /-- 64-bit write index of the log ring (R672) -/
  logIndex : Nat
  /-- the ring's entries, newest first, at most 131,072 -/
  log : List LogEntry
  /-- LEVEL of each control core, 3 from start (R671) -/
  levels : List Nat
  /-- trace mask (R673) -/
  trace : BitVec 256
  /-- dispatch decisions that fell due while core 0 restarted (R664) -/
  heldDispatch : List Handle
  /-- stitches whose completion steps wait for core 0, in completion order (R663) -/
  heldComplete : List Nat
  /-- requests that wait for core 3 to run again, in order (R628, R666) -/
  waiting3 : List Instr
  deriving DecidableEq, Repr

/-- An event source (Table 22-8, Table 22-9). -/
structure EvgSource where
  /-- CFG MODE: level -/
  level : Bool := false
  /-- CFG PRIORITY -/
  priority : Nat := 0
  /-- CFG TARGET -/
  target : Nat := 0
  /-- CFG COUNT -/
  count : Nat := 0
  /-- PEND of a level source -/
  pendLevel : Bool := false
  /-- MASK, reset 1 -/
  mask : Bool := true
  /-- TOTAL modulo 2^32 -/
  total : Nat := 0
  /-- SERVED modulo 2^32 -/
  served : Nat := 0
  /-- EXCESS modulo 2^32 -/
  excess : Nat := 0
  deriving DecidableEq, Repr

/-- The event gatherer (chapter 22). -/
structure EvgUnit where
  /-- sources 0 to 511 -/
  sources : SMap EvgSource
  /-- priority stacks of cores 0 to 3, top first: source, priority, k (R679) -/
  prio : SMap (List (Nat × Nat × Nat))
  /-- retention registers, held in SLEEP (R684) -/
  saved : Option (SMap EvgSource)
  deriving DecidableEq, Repr

/-- The power and thermal controllers (Table 23-6). -/
structure PowerUnit where
  /-- PWR.STATE STATE: 0 STARTING, 1 READY, 2 ACTIVE, 3 NAP, 4 SLEEP_ENTRY, 5 WAKING; and 6 SLEEP, 7 OFF -/
  state : Nat
  /-- PWR.STATE PLL_RUNNING -/
  pll : Bool
  /-- PWR.STATE PACING -/
  pacing : Bool
  /-- PWR.STEP THERMAL -/
  thermal : Nat
  /-- PWR.STEP IMBALANCE -/
  imbalance : Nat
  /-- PWR.STEP POWER -/
  power : Nat
  /-- PWR.STEP HARD -/
  hard : Bool
  /-- PWR.STEP SAMPLE_LIMIT -/
  sampleLimit : Bool
  /-- step in force (R719) -/
  step : Nat
  /-- a lower step waits for the voltages (R716) -/
  stepPending : Bool
  /-- what is left over of a cycle of the stretched compute clock at the latest tick (R33) -/
  corePhase : Nat
  /-- cap last set by POWER_CAP, reset 600 -/
  capSet : Nat
  /-- cap in force as the controller took it (R708) -/
  capInForce : Nat
  /-- watts that the 12V-2x6 sideband advertises -/
  advertised : Nat
  /-- PWR.PLL_IDLE_US, reset 1,000 -/
  pllIdleUs : Nat
  /-- PWR.SAMPLE_MW -/
  sampleMw : Nat
  /-- PWR.AVG_MW -/
  avgMw : Nat
  /-- PWR.TEMP[0..4], signed, 1/16 degree -/
  temps : List Int
  /-- PWR.VDD_MV[0..3] -/
  vdd : List Nat
  /-- PWR.THROTTLE_MS -/
  throttleMs : Nat
  /-- PWR.HARD_EVENTS -/
  hardEvents : Nat
  /-- PWR.IMBALANCES -/
  imbalances : Nat
  /-- PWR.CAP_MS -/
  capMs : Nat
  /-- PWR.PACED_MS -/
  pacedMs : Nat
  /-- PWR.PEAK_MW -/
  peakMw : Nat
  /-- some region is at or above 95 degrees (R712) -/
  hot : Bool
  /-- a difference is beyond its limit (R718) -/
  unbalanced : Bool
  /-- thermal samples of 100 us since the latest change under R712 -/
  hotSamples : Nat
  /-- thermal samples throughout which every region stayed below 92 degrees -/
  coolSamples : Nat
  /-- thermal samples since the latest rise under R718 -/
  unbalSamples : Nat
  /-- thermal samples throughout which every difference stayed within 15 degrees and 120 mV -/
  evenSamples : Nat
  /-- power samples at or below the cap since the sample limit (R707) -/
  underSamples : Nat
  /-- whole milliseconds with the average below the cap less 25 W (R708) -/
  belowMs : Nat
  /-- whole milliseconds at request 16 with the average above the cap; while pacing, with the average below the cap less
  25 W (R709) -/
  overMs : Nat
  /-- monitors of some stack still fail at the bound of 150 mV (R717) -/
  vBeyond : Bool
  /-- the trip latch of the always-on island (R714) -/
  trip : Bool
  /-- auxiliary power is present -/
  aux : Bool
  /-- auxiliary power has been present throughout since PERST# was last deasserted (R632) -/
  auxKept : Bool
  /-- main power is present -/
  main : Bool
  /-- bring-up step of Table 23-1 under way; 8 when it has ended -/
  bringUp : Nat
  /-- a write of D3hot waits (R695, R698) -/
  d3Pending : Bool
  /-- a write of D0 waits for the end of sleep entry (R705) -/
  d0Pending : Bool
  deriving DecidableEq, Repr

/-- The stages of a channel's training, in order (R355). -/
inductive TrainStage where
  | chipSelect | commandAddress | writeLevelling | readCentring | writeCentring | dfe | vref
  deriving DecidableEq, Repr

/-- What a channel's controller issues to its devices. -/
inductive DdrWork where
  /-- the access of a channel-local line -/
  | line (l : Nat)
  /-- a refresh, after those that were postponed (R351) -/
  | refresh
  /-- a refresh that may not be postponed, before them (R350) -/
  | mandatory
  /-- the refreshes that were postponed (R351) -/
  | postponed
  /-- refresh management of a bank (R352) -/
  | manage (bank : Nat)
  /-- DQS oscillator tracking and ZQ calibration (R356) -/
  | dqs | zq
  deriving DecidableEq, Repr

/-- A DDR5 channel (Table 11-8). -/
structure DdrChannel where
  /-- MC.STATE STATE: 0 untrained, 1 training, 2 ready, 3 fault -/
  state : Nat := 0
  /-- MC.STATE SELF_REFRESH -/
  selfRefresh : Bool := false
  /-- MC.STATE PANIC -/
  panic : Bool := false
  /-- MC.FAULT CAUSE -/
  faultCause : Nat := 0
  /-- MC.FAULT STICKY -/
  sticky : Bool := false
  /-- MC.RT_CFG PANIC_PCT, reset 25 -/
  panicPct : Nat := 25
  /-- MC.RT_CFG AGE_CAP, reset 50 -/
  ageCap : Nat := 50
  /-- MC.SCRUB_PERIOD, hours, reset 24 -/
  scrubHours : Nat := 24
  /-- MC.CE_COUNT -/
  ce : Nat := 0
  /-- MC.UE_COUNT -/
  ue : Nat := 0
  /-- MC.TAG_CE_COUNT -/
  tagCe : Nat := 0
  /-- MC.TAG_MISMATCH -/
  tagMismatch : Nat := 0
  /-- MC.PARITY_REPLAYS -/
  parityReplays : Nat := 0
  /-- MC.CRC_REPLAYS -/
  crcReplays : Nat := 0
  /-- MC.REF_OUTSTANDING, 0 to 8 -/
  refOutstanding : Nat := 0
  /-- MC.REF_PEAK -/
  refPeak : Nat := 0
  /-- MC.PANIC_TICKS -/
  panicTicks : Nat := 0
  /-- MC.RFM_COUNT -/
  rfm : Nat := 0
  /-- MC.SCRUB_ADDR -/
  scrubAddr : Nat := 0
  /-- stages of training that have been done since its latest start, in order (R355) -/
  trained : List TrainStage := []
  /-- row that each bank has open, plus 1 (R338, R339) -/
  openRows : SMap Nat := []
  /-- rolling activation count of each bank (R352) -/
  activations : SMap Nat := []
  /-- refresh management that the devices required at once, of MC.RFM_COUNT (R352) -/
  rfmUrgent : Nat := 0
  /-- retry buffer: channel-local lines of the latest commands, newest first, at most 64 (R353) -/
  retry : List Nat := []
  /-- ALERT_n is asserted: issue has stopped (R353) -/
  alert : Bool := false
  /-- the alert under way was a write CRC alert -/
  alertCrc : Bool := false
  /-- consecutive replays (R354) -/
  consecutive : Nat := 0
  /-- what waits for ALERT_n to clear, in order (R353) -/
  waiting : List DdrWork := []
  /-- refreshes issued -/
  refreshes : Nat := 0
  /-- DQS oscillator tracking runs (R356) -/
  dqsRuns : Nat := 0
  /-- ZQ calibrations (R356) -/
  zqRuns : Nat := 0
  deriving DecidableEq, Repr

/-- The pillow of a stack (Table 11-10). -/
structure Pillow where
  /-- PIL.STATE SELF_TEST_PASS -/
  pass : Bool := false
  /-- PIL.STATE RETAINED -/
  retained : Bool := false
  /-- the poison list: line numbers of the device address space (R357) -/
  poison : List Nat := []
  /-- PIL.SCRUB_PERIOD, hours, reset 1 -/
  scrubHours : Nat := 1
  /-- PIL.CE_COUNT -/
  ce : Nat := 0
  /-- PIL.UE_COUNT -/
  ue : Nat := 0
  /-- PIL.SCRUB_ADDR -/
  scrubAddr : Nat := 0
  deriving DecidableEq, Repr

/-- Lines `first` to `first + count - 1` carry the tag `pool`, `gen` (R341). -/
structure TagExtent where
  first : Nat
  count : Nat
  pool : Nat
  gen : Nat
  /-- its rewrite is not complete: each line still carries the old tag or already the new one (R375) -/
  pending : Bool
  /-- lines of a rewrite that is not complete which have been seen to carry the new tag -/
  done : List Nat := []
  /-- the pool or arena and its buffer or first granule that the rewrite was for -/
  owner : Handle := 0
  buffer : Nat := 0
  /-- the `POOL_ALLOC` that its end completes (R375) -/
  waiter : Option Hdr := none
  deriving DecidableEq, Repr

/-- A video engine (Table 14-10): decode engines 0 to 15, encode engines as 16 to 19. -/
structure VideoEngine where
  /-- VDEC.STATE RUN: 0 idle, 1 working, 2 saving, 3 restoring -/
  run : Nat := 0
  /-- video cycles spent on the picture that it stops at its next slice boundary (R441, R665) -/
  spent : Nat := 0
  /-- VDEC.STREAM -/
  stream : Handle := 0
  /-- stream of its latest picture, for SWITCHES -/
  latest : Handle := 0
  /-- VDEC.BUSY_CYCLES -/
  busy : Nat := 0
  /-- VDEC.PICTURES -/
  pictures : Nat := 0
  /-- VDEC.SWITCHES -/
  switches : Nat := 0
  /-- VDEC.YIELDS -/
  yields : Nat := 0
  /-- VDEC.ABANDONS -/
  abandons : Nat := 0
  /-- TIME.TICK at which its present work began: the picture, its latest slice, the saving or the restoring -/
  since : Nat := 0
  /-- its picture is lost: it stops at its next slice boundary (R665) -/
  stopping : Bool := false
  deriving DecidableEq, Repr

/-- A scaler unit (Table 15-3). -/
structure ScalerUnit where
  /-- SCL.STATE BUSY and SCL.STREAM: creation order of the job whose strip runs -/
  job : Option Nat := none
  stream : Handle := 0
  /-- SCL.BUSY_CYCLES -/
  busy : Nat := 0
  /-- SCL.STARVED_CYCLES -/
  starved : Nat := 0
  /-- SCL.OUT_SAMPLES -/
  samples : Nat := 0
  /-- SCL.JOBS -/
  jobs : Nat := 0
  deriving DecidableEq, Repr

/-- Video engines and scaler units (chapters 14 and 15). -/
structure VideoUnit where
  engines : SMap VideoEngine
  /-- VDEC.QUEUE_PEAK of the decode queue -/
  decodePeak : Nat
  /-- VDEC.QUEUE_PEAK of the encode queue -/
  encodePeak : Nat
  scalers : SMap ScalerUnit
  deriving DecidableEq, Repr

/-- Bytes `first` to `first + count - 1` whose contents are open: byte `first + i` is byte `origin + i` of loss `loss`
(Table 18-8a, R570). -/
structure LostExtent where
  first : Nat
  count : Nat
  loss : Nat
  origin : Nat
  deriving DecidableEq, Repr

/-- Device memory (chapter 11). -/
structure MemUnit where
  /-- bytes of DDR, pillow, scratch and hub SRAM, in canonical form, unlisted ones 0 unless their contents are open -/
  cells : List (Nat × BitVec 8)
  /-- where contents are open: nothing has been written since they were lost -/
  lost : List LostExtent
  /-- line tags of DDR, newest first; a line in no extent has POOL 0, GEN 0 -/
  tags : List TagExtent
  /-- DDR lines whose POISON is set -/
  poison : List Nat
  /-- DDR channels 0 to 3 -/
  ddr : SMap DdrChannel
  /-- pillows of stacks 0 to 3 -/
  pil : SMap Pillow
  /-- poison list of hub SRAM -/
  hubPoison : List Nat
  /-- poison lists of the cores' scratch: line numbers of the device address space (R615) -/
  scratchPoison : List Nat
  /-- errors that lines hold and no access has found yet: line number and what its codes will find (R160, R344, R357) -/
  latent : List (Nat × EccFinding) := []
  deriving DecidableEq, Repr

/-- What waits for the partner's acknowledgement (R736). -/
inductive Deferred where
  /-- an answer: header, status, detail, response, and what undoes its effect (R738) -/
  | answer (h : Hdr) (status detail : Nat) (resp : List Byte) (undo : List ObjRec)
  /-- the record of a stitch (R504 steps 5 to 7) -/
  | stitch (id : Nat)
  /-- the DONE of a page -/
  | done (d : DoneInfo)
  /-- a datagram of a destination, and the SEQUENCE of its last picot -/
  | datagram (dest lastSeq : Nat) (m : OutMsg)
  | out (m : OutMsg)
  deriving DecidableEq, Repr

/-- A failover under way (R745, R746). -/
structure Failover where
  kind : Nat
  causeTick : Nat
  /-- stitches replayed, and those of them that have not completed -/
  replayed : Nat
  left : List Nat
  streams : Nat
  deriving DecidableEq, Repr

/-- The pair (chapter 24). -/
structure PairUnit where
  /-- MODE: 0 none, 1 MIRRORED, 2 SHARED -/
  mode : Nat
  /-- role in MIRRORED mode: 0 none, 1 active, 2 standby -/
  role : Nat
  /-- the copy of R732 is complete -/
  inSync : Bool
  /-- trained bride lanes, 0 to 8 -/
  lanes : Nat
  /-- LINK AUTHENTICATED -/
  authenticated : Bool
  /-- partner's ID.SERIAL, 0 for none -/
  partnerSerial : Nat
  /-- FAILOVERS -/
  failovers : Nat
  /-- number of the last mirror item sent -/
  sendSeq : Nat
  /-- number up to which the partner has acknowledged -/
  ackSeq : Nat
  /-- outputs that wait for an acknowledgement, each with the number it waits for -/
  waiting : List (Nat × Deferred)
  /-- own objects as last mirrored -/
  mirrored : Objects
  /-- replicas of the partner's objects -/
  replica : Objects
  /-- PAIR_JOIN of this card that waits: mode, role, tick -/
  ownJoin : Option (Nat × Nat × Nat)
  /-- PAIR_JOIN of the partner that waits: mode, role, tick -/
  partnerJoin : Option (Nat × Nat × Nat)
  /-- evacuation is under way (R751) -/
  evacuating : Bool
  /-- work was evacuated: SERVICE is steady -/
  evacuated : Bool
  /-- failover under way -/
  failover : Option Failover
  /-- tick of the partner's last bride heartbeat -/
  lastBeat : Nat
  /-- tick of the partner's last network heartbeat -/
  lastNetBeat : Nat
  /-- host link loss was reported -/
  hostLost : Bool
  /-- the partner needs this card, which sleeps, to take its work: fault kind, and tick of the cause (R620) -/
  wakeFor : Option (Nat × Nat) := none
  /-- largest number of a stitch of the partner -/
  stitchSeen : Nat := 0
  /-- checkpoints that the partner has not acknowledged: item number and tick of sending, oldest first (Table 19-8
  LAG_US) -/
  checkpoints : List (Nat × Nat)
  deriving DecidableEq, Repr

/-- Security state (chapter 25). -/
structure SecUnit where
  /-- fused SECURITY_VERSION -/
  securityVersion : Nat
  /-- FK_REVOKED, 4 bits -/
  fkRevoked : BitVec 4
  /-- PRICKING_POLICY: REQUIRED -/
  required : Bool
  /-- JTAG_DISABLE -/
  jtagDisable : Bool
  /-- SEC.STATE FW_LOCKED -/
  fwLocked : Bool
  /-- SEC.STATE JTAG_UNLOCKED -/
  unlocked : Bool
  /-- SEC.STATE CHAIN_VALID -/
  chainValid : Bool
  /-- SEC.STATE OWNER_KEYS_VALID, bit per slot -/
  ownerValid : BitVec 4
  /-- SEC.SIGNER -/
  signer : Nat
  /-- SEC.UNLOCK_FAILS, saturating -/
  unlockFails : Nat
  /-- nonce that the challenge register presents -/
  nonce : Option (List Byte)
  /-- an accepted unlock waits for the work to end (R767 step 3) -/
  unlocking : Bool
  /-- digest of the running firmware image -/
  fwDigest : List Byte
  /-- SECURITY_VERSION of the running image -/
  fwSecurity : Nat
  /-- SPDM connection state of each transport: 0 none, 1 version, 2 capabilities, 3 algorithms -/
  spdm : List Nat
  deriving DecidableEq, Repr

/-- The board: LEDs, button, connectors, cages, SMBus (chapter 26). -/
structure BoardUnit where
  /-- LOCATE LED -/
  locate : Bool
  /-- tick until which STATE flashes amber -/
  flashUntil : Nat
  /-- SMBus address given by ARP -/
  smbusAddr : Option Nat
  /-- ARP prepared -/
  smbusPrepared : Bool
  /-- MCTP endpoint id -/
  eid : Nat
  /-- modules of cages 0 and 1 -/
  modules : List (Option ModuleInfo)
  /-- logical ports that are up -/
  portsUp : List Bool
  /-- millivolts of the 12V-2x6 input -/
  inputMv : Nat
  /-- the TIME connector's output is high -/
  pulseHigh : Bool
  /-- tick of the last counted edge of the TIME connector -/
  lastEdge : Option Nat
  deriving DecidableEq, Repr

/-- Credits of a link port: issued, returned and in flight (R27). -/
structure LinkCredits where
  issued : Nat := 0
  returned : Nat := 0
  inFlight : Nat := 0
  deriving DecidableEq, Repr

/-- A port sends a flit: it takes a credit. -/
def LinkCredits.take (c : LinkCredits) : LinkCredits := { c with issued := c.issued + 1, inFlight := c.inFlight + 1 }
/-- The far end has taken all that was sent: the credits come back. -/
def LinkCredits.settle (c : LinkCredits) : LinkCredits := { c with returned := c.returned + c.inFlight, inFlight := 0 }

/-- Counters that belong to no object. -/
structure CardCounters where
  /-- next STITCH_ID -/
  stitchId : Nat
  /-- next item identity -/
  itemId : Nat
  /-- next value of the model's creation order -/
  order : Nat
  /-- CORRECTED of HEALTH -/
  corrected : Nat
  /-- CONTAINED of HEALTH -/
  contained : Nat
  /-- contained faults of each kind since PERST# -/
  kinds : SMap Nat
  /-- card-wide picots produced, delivered, and dropped per reason -/
  produced : Nat
  delivered : Nat
  dropped : List Nat
  /-- stitches of the card: posted, completed, cancelled (R508) -/
  posted : Nat
  completed : Nat
  cancelled : Nat
  /-- host path of each logical port: received, delivered, dropped (R405) -/
  hostPath : SMap (Nat × Nat × Nat)
  /-- die links that are down -/
  linksDown : List Nat
  /-- consecutive resends of each die link -/
  linkRetries : SMap Nat
  /-- credits of each die-link port (R27) -/
  links : SMap LinkCredits
  deriving DecidableEq, Repr

end Sys2Proof
end

