-- ==== Sys2Proof/Machine/State.lean ====
section
/-! DEFINITION. The whole state of the card, the ways a step can stop, and the state after reset. -/

namespace Sys2Proof.Machine

/-- Why a step can stop with a fault. -/
inductive Fault where
  /-- Raised by a command whose effect rule `rule` of the manual calls undefined without giving an effect (R4). Safe: the
  card goes on in some way that leaves its ledgers balanced, and the model claims nothing of it. -/
  | undefinedEffect (rule : Nat)
  deriving DecidableEq, Repr

/-- Why a step can be refused. -/
inductive Refusal where
  /-- Raised by the arm of a command that has no meaning yet. Safe: nothing is claimed of the command. -/
  | notModelled (mnemonic : String)
  deriving DecidableEq, Repr

/-- The state of the card. -/
structure State where
  /-- commands that wait, first in, first out (the model's own) -/
  pending : List Instr
  /-- deadlines that fell due in this tick and are evaluated once every arrival of the tick is recorded (R653) -/
  due : List Instr
  /-- objects of this card (R8, R735) -/
  obj : Objects
  /-- the host interface -/
  host : HostUnit
  /-- the PCI Express endpoint -/
  pcie : PcieUnit
  /-- the card clock and its units -/
  time : TimeUnitBlock
  /-- control cores and the log -/
  fw : FwUnit
  /-- the event gatherer -/
  evg : EvgUnit
  /-- power and thermal controllers -/
  power : PowerUnit
  /-- device memory and its controllers -/
  mem : MemUnit
  /-- video engines and scaler units -/
  video : VideoUnit
  /-- compute cores 0 to 127 -/
  cores : SMap ComputeCore
  /-- post-processing units of stacks 0 to 3 -/
  ppu : SMap PpuUnit
  /-- the pair -/
  pair : PairUnit
  /-- security state -/
  sec : SecUnit
  /-- the board -/
  board : BoardUnit
  /-- counters that belong to no object -/
  ctr : CardCounters
  /-- GEN last issued of each handle index, keyed TYPE x 65,536 + INDEX (R11) -/
  gens : SMap Nat
  /-- free values used so far (the model's own) -/
  fresh : Nat
  /-- what has left the card, in order (the model's own) -/
  out : List OutMsg
  deriving DecidableEq, Repr

/-- The host interface after power-on. -/
def HostUnit.init : HostUnit where
  state := .rom
  cause := 0
  causeEnable := 0
  vector := 0
  discards := 0
  faultCode := 0
  mboxes := []
  b2Base := 0
  msix := []
  pba := []
  fwVersion := 0
  protoMin := 0
  protoMax := 0
  leaseMs := 500
  leaseLeft := none
  held := []
  long := []
  snapshot := 0
  events := []
  boot := none
  faultWait := none
  ending := false

/-- The endpoint after power-on. The link has not trained, and registers whose reset value the manual leaves to the PCI
Express specification have the specification's value. -/
def PcieUnit.init : PcieUnit where
  linkUp := false
  perst := true
  bme := false
  mse := false
  bar0 := 0
  bar2 := 0
  barSize := 19
  msixEnable := false
  msixMask := false
  relaxed := true
  maxPayload := 128
  maxRead := 512
  tag14 := false
  tag10 := false
  flit := false
  cplTimeout := 0
  cplDisable := false
  l1Enable := false
  l12Enable := false
  ltrEnable := false
  linkState := 0
  pmeEnable := false
  pmeStatus := false
  d3hot := false
  uncorr := 0
  corr := 0
  uncorrMask := 0x00400000
  corrMask := 0x0000E000
  cfg := []
  issued := 0
  completed := 0
  reads := []
  queued := []
  waiting := []
  status := 0
  devStatus := 0
  firstError := 0
  headerLog := List.replicate 16 0
  linkRate := 0
  linkWidth := 0
  ltr := none
  doeBusy := true
  doeError := false
  doeReady := none

/-- The clock after power-on (R632). -/
def TimeUnitBlock.init : TimeUnitBlock where
  halfCycle := false
  sec := 0
  ns := 0
  frac := 0
  rate := 0
  sync := 0
  latchNs := 0
  latchFrac := 0
  utcOffset := 37
  ptpCfg := 0
  tick := 0
  txq := []
  txqSec := 0
  taken := 0
  read := 0
  dropped := 0
  gmId := 0
  offsetNs := 0
  steps := 0
  units := []

/-- Control cores and the log after power-on. -/
def FwUnit.init : FwUnit where
  cores := []
  logIndex := 0
  log := []
  levels := [3, 3, 3, 3]
  trace := 0
  heldDispatch := []
  heldComplete := []
  waiting3 := []

/-- The event gatherer after power-on. -/
def EvgUnit.init : EvgUnit where
  sources := []
  prio := []
  saved := none

/-- Power and thermal controllers after power-on. -/
def PowerUnit.init : PowerUnit where
  state := 0
  pll := false
  pacing := false
  thermal := 0
  imbalance := 0
  power := 0
  hard := false
  sampleLimit := false
  step := 0
  stepPending := false
  corePhase := 0
  capSet := 600
  capInForce := 600
  advertised := 600
  pllIdleUs := 1000
  sampleMw := 0
  avgMw := 0
  temps := [0, 0, 0, 0, 0]
  vdd := [0, 0, 0, 0]
  throttleMs := 0
  hardEvents := 0
  imbalances := 0
  capMs := 0
  pacedMs := 0
  peakMw := 0
  hot := false
  unbalanced := false
  hotSamples := 0
  coolSamples := 0
  unbalSamples := 0
  evenSamples := 0
  underSamples := 0
  belowMs := 0
  overMs := 0
  vBeyond := false
  trip := false
  aux := true
  auxKept := true
  main := true
  bringUp := 0
  d3Pending := false
  d0Pending := false

/-- Device memory after power-on: nothing has been written, and every byte up to the end of hub SRAM is open. -/
def MemUnit.init : MemUnit where
  cells := []
  lost := [⟨0, 0x5004000000, 0, 0⟩]
  tags := []
  poison := []
  ddr := []
  pil := []
  hubPoison := []
  scratchPoison := []

/-- Video engines and scaler units after PERST#. -/
def VideoUnit.init : VideoUnit where
  engines := []
  decodePeak := 0
  encodePeak := 0
  scalers := []

/-- The pair after PERST#. -/
def PairUnit.init : PairUnit where
  mode := 0
  role := 0
  inSync := false
  lanes := 0
  authenticated := false
  partnerSerial := 0
  failovers := 0
  sendSeq := 0
  ackSeq := 0
  waiting := []
  mirrored := {}
  replica := {}
  ownJoin := none
  partnerJoin := none
  evacuating := false
  evacuated := false
  failover := none
  lastBeat := 0
  lastNetBeat := 0
  hostLost := false
  checkpoints := []

/-- Security state after PERST#, from the fuses and the flash. -/
def SecUnit.init : SecUnit where
  securityVersion := Config.fusedSecurityVersion.val
  fkRevoked := Config.fkRevoked
  required := Config.policyRequired
  jtagDisable := Config.jtagDisable
  fwLocked := false
  unlocked := false
  chainValid := false
  ownerValid := 0
  signer := 0
  unlockFails := 0
  nonce := none
  unlocking := false
  fwDigest := []
  fwSecurity := 0
  spdm := [0, 0, 0]

/-- The board after power-on. -/
def BoardUnit.init : BoardUnit where
  locate := false
  flashUntil := 0
  smbusAddr := none
  smbusPrepared := false
  eid := 0
  modules := [none, none]
  portsUp := List.replicate 8 false
  inputMv := 12000
  pulseHigh := false
  lastEdge := none

/-- Counters after power-on. -/
def CardCounters.init : CardCounters where
  stitchId := 1
  itemId := 1
  order := 0
  corrected := 0
  contained := 0
  kinds := []
  produced := 0
  delivered := 0
  dropped := [0, 0, 0, 0, 0]
  posted := 0
  completed := 0
  cancelled := 0
  hostPath := []
  linksDown := []
  linkRetries := []
  links := []

/-- The card right after power is applied, with PERST# asserted: HEV.STATE reads ROM and nothing has run. -/
def State.reset : State where
  pending := []
  due := []
  obj := {}
  host := HostUnit.init
  pcie := PcieUnit.init
  time := TimeUnitBlock.init
  fw := FwUnit.init
  evg := EvgUnit.init
  power := PowerUnit.init
  mem := MemUnit.init
  video := VideoUnit.init
  cores := []
  ppu := []
  pair := PairUnit.init
  sec := SecUnit.init
  board := BoardUnit.init
  ctr := CardCounters.init
  gens := []
  fresh := 1
  out := []

/-- The outcome of a step of this card. -/
abbrev Result := Host.Outcome State Fault Refusal

end Sys2Proof.Machine
end

