-- ==== Sys2Proof/Machine/Ops.lean ====
section
/-! DEFINITION. Sparse maps, the updates of the state's units, free values, and what leaves the card. -/

namespace Sys2Proof

/-- The value of a sparse map at a key. -/
def SMap.get {α : Type} (d : α) : SMap α → Nat → α
  | [], _ => d
  | (k, v) :: m, n => if k = n then v else if n < k then d else SMap.get d m n

/-- A sparse map with the value at a key replaced, in canonical form. -/
def SMap.set {α : Type} [DecidableEq α] (d : α) : SMap α → Nat → α → SMap α
  | [], n, x => if x = d then [] else [(n, x)]
  | (k, v) :: m, n, x =>
    if n < k then (if x = d then (k, v) :: m else (n, x) :: (k, v) :: m)
    else if k = n then (if x = d then m else (n, x) :: m)
    else (k, v) :: SMap.set d m n x

/-- A sparse map with the value at a key changed by a function. -/
def SMap.modify {α : Type} [DecidableEq α] (d : α) (m : SMap α) (n : Nat) (f : α → α) : SMap α :=
  SMap.set d m n (f (SMap.get d m n))

/-- A sparse map with every listed value changed by a function of its key and itself, in canonical form. -/
def SMap.mapVals {α : Type} [DecidableEq α] (d : α) (f : Nat → α → α) (m : SMap α) : SMap α :=
  (m.map fun c => (c.1, f c.1 c.2)).filter fun c => !decide (c.2 = d)

/-- Every key of a sparse map is at least `lo`, the keys rise strictly, and no value is the default. -/
def SMap.wfFrom {α : Type} [DecidableEq α] (d : α) : Nat → SMap α → Bool
  | _, [] => true
  | lo, (k, v) :: m => decide (lo ≤ k) && !decide (v = d) && SMap.wfFrom d (k + 1) m

/-- The canonical form of a sparse map. -/
def SMap.wf {α : Type} [DecidableEq α] (d : α) (m : SMap α) : Bool := SMap.wfFrom d 0 m

/-- A list with element `n` replaced (unchanged when there is none). -/
def listSet {α : Type} : List α → Nat → α → List α
  | [], _, _ => []
  | _ :: l, 0, x => x :: l
  | y :: l, n + 1, x => y :: listSet l n x

/-- A list of counters with element `n` raised by `k`. -/
def listAdd : List Nat → Nat → Nat → List Nat
  | [], _, _ => []
  | y :: l, 0, k => (y + k) :: l
  | y :: l, n + 1, k => y :: listAdd l n k

/-- The elements of a list with those that meet a test changed. -/
def listUpd {α : Type} (p : α → Bool) (f : α → α) (l : List α) : List α :=
  l.map fun x => if p x then f x else x

/-- A card time as nanoseconds. -/
def CardTime.toNs (t : CardTime) : Nat := t.sec * 1000000000 + t.ns
/-- Nanoseconds as a card time. -/
def CardTime.ofNs (n : Nat) : CardTime := ⟨n / 1000000000, n % 1000000000⟩
/-- A card time moved by a number of nanoseconds, not below 0. -/
def CardTime.add (t : CardTime) (d : Int) : CardTime := CardTime.ofNs ((t.toNs : Int) + d).toNat
/-- One card time is before another. -/
def CardTime.lt (a b : CardTime) : Bool := decide (a.toNs < b.toNs)

/-- The handles of a type that an object holds. -/
def Objects.handles (o : Objects) (type : Nat) : List Handle :=
  match type with
  | 1 => o.sessions.map (·.handle)
  | 2 => o.streams.map (·.handle)
  | 3 => o.models.map (·.handle)
  | 4 => (o.bobbins.filter (!·.isPrefix)).map (·.handle)
  | 5 => (o.bobbins.filter (·.isPrefix)).map (·.handle)
  | 6 => o.pools.map (·.handle)
  | 7 => o.clients.map (·.handle)
  | 8 => o.pageSets.map (·.handle)
  | 9 => o.units.map (·.handle)
  | 10 => o.flows.map (·.handle)
  | 11 => o.partitions.map (·.handle)
  | _ => []

namespace Machine

/-! Updates of one unit, everything else as it is. -/

def State.modObj (f : Objects → Objects) (s : State) : State := { s with obj := f s.obj }
def State.modHost (f : HostUnit → HostUnit) (s : State) : State := { s with host := f s.host }
def State.modPcie (f : PcieUnit → PcieUnit) (s : State) : State := { s with pcie := f s.pcie }
def State.modTime (f : TimeUnitBlock → TimeUnitBlock) (s : State) : State := { s with time := f s.time }
def State.modFw (f : FwUnit → FwUnit) (s : State) : State := { s with fw := f s.fw }
def State.modEvg (f : EvgUnit → EvgUnit) (s : State) : State := { s with evg := f s.evg }
def State.modPower (f : PowerUnit → PowerUnit) (s : State) : State := { s with power := f s.power }
def State.modMem (f : MemUnit → MemUnit) (s : State) : State := { s with mem := f s.mem }
def State.modVideo (f : VideoUnit → VideoUnit) (s : State) : State := { s with video := f s.video }
def State.modCores (f : SMap ComputeCore → SMap ComputeCore) (s : State) : State := { s with cores := f s.cores }
def State.modPpu (f : SMap PpuUnit → SMap PpuUnit) (s : State) : State := { s with ppu := f s.ppu }
def State.modPair (f : PairUnit → PairUnit) (s : State) : State := { s with pair := f s.pair }
def State.modSec (f : SecUnit → SecUnit) (s : State) : State := { s with sec := f s.sec }
def State.modBoard (f : BoardUnit → BoardUnit) (s : State) : State := { s with board := f s.board }
def State.modCtr (f : CardCounters → CardCounters) (s : State) : State := { s with ctr := f s.ctr }
def State.modGens (f : SMap Nat → SMap Nat) (s : State) : State := { s with gens := f s.gens }
/-- The next free value is used. -/
def State.useFresh (s : State) : State := { s with fresh := s.fresh + 1 }
/-- `n` free values are used. -/
def State.useFreshN (n : Nat) (s : State) : State := { s with fresh := s.fresh + n }
/-- A message leaves the card. -/
def State.push (m : OutMsg) (s : State) : State := { s with out := s.out ++ [m] }

/-- Compute core `n`. -/
def State.core (s : State) (n : Nat) : ComputeCore := SMap.get {} s.cores n
/-- Compute core `n` changed. -/
def State.modCore (n : Nat) (f : ComputeCore → ComputeCore) (s : State) : State :=
  s.modCores fun m => SMap.modify {} m n f
/-- Mailbox `m`; 32 is the boot mailbox. -/
def State.mbox (s : State) (m : Nat) : Mailbox := SMap.get {} s.host.mboxes m
/-- Mailbox `m` changed. -/
def State.modMbox (m : Nat) (f : Mailbox → Mailbox) (s : State) : State :=
  s.modHost fun h => { h with mboxes := SMap.modify {} h.mboxes m f }
/-- Control core `c`; 4 is the boot core. -/
def State.cc (s : State) (c : Nat) : ControlCore := SMap.get {} s.fw.cores c
/-- Control core `c` changed. -/
def State.modCc (c : Nat) (f : ControlCore → ControlCore) (s : State) : State :=
  s.modFw fun w => { w with cores := SMap.modify {} w.cores c f }
/-- Event source `n`. -/
def State.src (s : State) (n : Nat) : EvgSource := SMap.get {} s.evg.sources n
/-- Event source `n` changed. -/
def State.modSrc (n : Nat) (f : EvgSource → EvgSource) (s : State) : State :=
  s.modEvg fun e => { e with sources := SMap.modify {} e.sources n f }
/-- DDR channel `c`. -/
def State.ddr (s : State) (c : Nat) : DdrChannel := SMap.get {} s.mem.ddr c
/-- DDR channel `c` changed. -/
def State.modDdr (c : Nat) (f : DdrChannel → DdrChannel) (s : State) : State :=
  s.modMem fun m => { m with ddr := SMap.modify {} m.ddr c f }
/-- Video engine `e`. -/
def State.eng (s : State) (e : Nat) : VideoEngine := SMap.get {} s.video.engines e
/-- Video engine `e` changed. -/
def State.modEng (e : Nat) (f : VideoEngine → VideoEngine) (s : State) : State :=
  s.modVideo fun v => { v with engines := SMap.modify {} v.engines e f }
/-- Scaler unit `u`. -/
def State.scl (s : State) (u : Nat) : ScalerUnit := SMap.get {} s.video.scalers u
/-- Scaler unit `u` changed. -/
def State.modScl (u : Nat) (f : ScalerUnit → ScalerUnit) (s : State) : State :=
  s.modVideo fun v => { v with scalers := SMap.modify {} v.scalers u f }
/-- Pillow of stack `k`. -/
def State.pil (s : State) (k : Nat) : Pillow := SMap.get {} s.mem.pil k
/-- Pillow of stack `k` changed. -/
def State.modPil (k : Nat) (f : Pillow → Pillow) (s : State) : State :=
  s.modMem fun m => { m with pil := SMap.modify {} m.pil k f }
/-- Time unit `u`. -/
def State.tu (s : State) (u : Nat) : TimeUnit := SMap.get {} s.time.units u
/-- Time unit `u` changed. -/
def State.modTu (u : Nat) (f : TimeUnit → TimeUnit) (s : State) : State :=
  s.modTime fun t => { t with units := SMap.modify {} t.units u f }

/-- Card time now, to the nanosecond (R629). -/
def State.now (s : State) : CardTime := ⟨s.time.sec, s.time.ns⟩

/-! ## What leaves the card -/

/-- The requests of a write: none above Max_Payload_Size, none across a 4 KiB boundary (R607). -/
def writePieces (maxPayload : Nat) (relaxed : Bool) : Nat → Nat → List Byte → List OutMsg
  | 0, _, _ => []
  | fuel + 1, a, bs =>
    if bs = [] then []
    else
      let k := min maxPayload (4096 - a % 4096)
      .hostWrite a (bs.take k) relaxed :: writePieces maxPayload relaxed fuel (a + k) (bs.drop k)

/-- What leaves the endpoint for a request of the card: a write of contents asks for Relaxed Ordering, which Enable Relaxed
Ordering lets it set (R607, R609). -/
def linkMessages (p : PcieUnit) : OutMsg → List OutMsg
  | .hostWrite a bs r => writePieces p.maxPayload (r && p.relaxed) (bs.length + 1) a bs
  | m => [m]

/-- A message goes out over the host link, which is in L0 for it (R621). -/
def State.pushLink (m : OutMsg) (s : State) : State :=
  (linkMessages s.pcie m).foldl (fun s m => s.push m) (s.modPcie fun p => { p with linkState := 0 })

/-- A request of the card goes out, or waits in order while Bus Master Enable is clear (R610). -/
def sendAs (w : HostWait) (m : OutMsg) (s : State) : State :=
  if s.pcie.bme then s.pushLink m else s.modPcie fun p => { p with waiting := p.waiting ++ [w] }

/-- A request of the card that belongs to no page. -/
def send (m : OutMsg) (s : State) : State := sendAs (.msg m) m s

/-- A write into a page, of its header or, with Relaxed Ordering, of its contents (R609). -/
def sendPage (set : Handle) (addr : Nat) (bytes : List Byte) (contents : Bool) (s : State) : State :=
  sendAs (.page set (.hostWrite addr bytes contents)) (.hostWrite addr bytes contents) s

/-- An MSI-X message. In the orphaned state none is sent (R563); a masked vector, a disabled function or a clear Bus Master
Enable sets the pending bit (R558, R610). -/
def sendMsix (v : Nat) (s : State) : State :=
  if s.host.state = .orphaned then s
  else if s.pcie.bme && s.pcie.msixEnable && !s.pcie.msixMask && !(SMap.get {} s.host.msix v).masked then s.pushLink (.msix v)
  else if s.host.pba.contains v then s
  else s.modHost fun h => { h with pba := h.pba ++ [v] }

/-- Pending vectors that may go now are sent, in ascending order of their setting (R558, R610). -/
def sendPendingMsix (s : State) : State :=
  if s.pcie.bme && s.pcie.msixEnable && !s.pcie.msixMask && !decide (s.host.state = .orphaned) then
    let may := s.host.pba.filter fun v => !(SMap.get {} s.host.msix v).masked
    let s := s.modHost fun h => { h with pba := h.pba.filter fun v => !may.contains v }
    may.foldl (fun s v => s.pushLink (.msix v)) s
  else s

/-- A bit of HEV.CAUSE is set: when it was clear and is enabled, HEV.VECTOR is sent (R558). -/
def setCause (bit : Nat) (s : State) : State :=
  if s.host.cause.getLsbD bit then s
  else
    let s := s.modHost fun h => { h with cause := h.cause ||| BitVec.ofNat 32 (2 ^ bit) }
    if s.host.causeEnable.getLsbD bit then sendMsix s.host.vector s else s

/-- LEASE_EXPIRED of HEV.CAUSE. -/
abbrev causeLease : Nat := 0
/-- READY_REACHED of HEV.CAUSE. -/
abbrev causeReady : Nat := 1
/-- CARD_FAULT of HEV.CAUSE. -/
abbrev causeFault : Nat := 2
/-- FW_CORE_RESTART of HEV.CAUSE. -/
abbrev causeRestart : Nat := 3
/-- EVENT_PENDING of HEV.CAUSE. -/
abbrev causeEvent : Nat := 4

/-- An entry of the log ring; its CODE belongs to the firmware release (R670 to R672). -/
def logWrite (core level : Nat) (args : List Nat) (s : State) : State :=
  s.modFw fun w =>
    { w with
      log := (LogEntry.mk s.time.tick core level (Config.logCode w.logIndex).toNat args (w.logIndex % 2 ^ 32)
        :: w.log).take 131072
      logIndex := w.logIndex + 1 }

/-- Trace point `t` is reached: an entry of level 6 when its mask bit is set (R673). -/
def traceHit (core t : Nat) (args : List Nat) (s : State) : State :=
  if s.fw.trace.getLsbD t then
    s.modFw fun w =>
      { w with
        log := (LogEntry.mk s.time.tick core 6 (0x8000 + t) args (w.logIndex % 2 ^ 32) :: w.log).take 131072
        logIndex := w.logIndex + 1 }
  else s

/-! ## Free values -/

/-- A list of `n` free bytes. -/
def freeBytes (n : Nat) (s : State) : List Byte := (List.range n).map fun i => Config.freeByte (s.fresh + i)

/-! ## Handles -/

/-- Handle types of Table 0-5. -/
abbrev tSession : Nat := 1
abbrev tStream : Nat := 2
abbrev tModel : Nat := 3
abbrev tBobbin : Nat := 4
abbrev tPrefix : Nat := 5
abbrev tPool : Nat := 6
abbrev tClient : Nat := 7
abbrev tPageSet : Nat := 8
abbrev tUnit : Nat := 9
abbrev tFlow : Nat := 10
abbrev tPartition : Nat := 11

/-- The lowest of `k`, `k + step`, … that is in no list, in at most `fuel` tries. -/
def lowestFree (used : List Nat) (step : Nat) : Nat → Nat → Nat
  | 0, k => k
  | fuel + 1, k => if used.contains k then lowestFree used step fuel (k + step) else k

/-- The INDEX that a new object takes: the lowest one that neither this card nor a replica that it holds occupies; in SHARED
mode even on the senior card and odd on the junior (R734). -/
def newIndex (s : State) (type : Nat) : Nat :=
  let used := (s.obj.handles type).map (·.index)
  if s.pair.mode = 2 then
    lowestFree used 2 (used.length + 1) (if s.pair.partnerSerial < Config.serial.toNat then 1 else 0)
  else
    let used := used ++ (s.pair.replica.handles type).map (·.index)
    lowestFree used 1 (used.length + 1) 0

/-- GEN of the next handle of an index: 1 at first, then one more each time, from 1,023 to 1 (R11). -/
def nextGen (g : Nat) : Nat := if g = 1023 then 1 else g + 1

/-- The handle that a new object of a type takes (R8 to R11). -/
def newHandle (s : State) (type : Nat) : Handle :=
  let i := newIndex s type
  Handle.make type (nextGen (SMap.get 0 s.gens (type * 65536 + i))) i

/-- The handle at an index that the hardware fixes, such as a time unit's. -/
def fixedHandle (s : State) (type index : Nat) : Handle :=
  Handle.make type (nextGen (SMap.get 0 s.gens (type * 65536 + index))) index

/-- A handle is issued: its GEN is kept. -/
def issued (h : Handle) (s : State) : State :=
  s.modGens fun g => SMap.set 0 g (h.toNat / 2 ^ 26 * 65536 + h.toNat % 2 ^ 16) (h.toNat / 2 ^ 16 % 2 ^ 10)

/-- Objects of a type on this card and, in SHARED mode, on the partner, for the count limits (R734). -/
def countOf (s : State) (type : Nat) : Nat :=
  (s.obj.handles type).length + (if s.pair.mode = 2 then (s.pair.replica.handles type).length else 0)

/-! ## Deadlines (R653) -/

/-- A command that comes through a mailbox. -/
def mailboxCommand : Instr → Bool
  | .openSession .. | .closeSession .. | .leaseRenew .. | .resync .. | .adopt .. | .resetWork .. | .audit ..
  | .streamOpen .. | .streamClose .. | .streamFeed .. | .flowSetAdd .. | .flowSetModify .. | .flowSetRemove ..
  | .flowSetAddrAdd .. | .flowSetAddrRemove .. | .keyPicture .. | .encodeOpen .. | .streamQuery .. | .eyeletPolicy ..
  | .modelLoad .. | .modelUnload .. | .modelPinSet .. | .modelPinClear .. | .pillowPlanSet .. | .pillowPlanClear ..
  | .stitchPost .. | .stitchCancel .. | .clientSetCreate .. | .clientSetModify .. | .clientSetRemove .. | .clientStats ..
  | .partitionSetCreate .. | .partitionSetModify .. | .partitionSetRemove .. | .bobbinCreate .. | .bobbinRelease ..
  | .prefixCreate .. | .prefixFork .. | .poolCreate .. | .poolAlloc .. | .poolFreeUnref .. | .poolFreeRef ..
  | .poolFreeDestroy .. | .poolStats .. | .pagesPostCreate .. | .pagesPostAdd .. | .picotRouteDestSet ..
  | .picotRouteDestRemove .. | .picotRouteStreamSet .. | .picotRouteStats .. | .timeStep .. | .timeRate ..
  | .timeUnitClaim .. | .timeUnitRelease .. | .pairJoin .. | .pairEvacuate .. | .pairStatus .. | .powerCap ..
  | .powerStateNap .. | .powerStateReady .. | .logConfig .. | .traceSetEnable .. | .traceSetDisable ..
  | .traceSetReplace .. | .measurements .. | .unknownOpcode .. => true
  | _ => false

/-- A deadline: a moment that the card evaluates, as against an arrival, which it records (R653). -/
def isDeadline : Instr → Bool
  | .jitterGapDeadline _ | .pictureAbandon _ | .dispatchDecision _ | .leaseExpiry | .streamFeedTimeout _ | .pairJoinTimeout
  | .bootLoadTimeout | .pcieCompletionTimeout _ | .stitchTimeout .. | .holdoverTimeout | .watchdogExpiry _
  | .bootCoreWatchdogExpiry | .brideHeartbeatTimeout _ | .mirrorAckTimeout _ | .hostLinkLossTimeout | .pllIdleStop
  | .picotPageFlush _ | .completionPageFlush _ => true
  | _ => false

/-- In one tick `a` is recorded before deadline `d` is evaluated: every arrival is, and before a dispatch decision so is what
else can put an item into a ready set (R653 and its instances R396, R434, R490, R522, R562). -/
def precedes (d a : Instr) : Bool :=
  isDeadline d &&
    (!isDeadline a ||
      match d, a with
      | .dispatchDecision _, .pictureAbandon _ | .dispatchDecision _, .jitterGapDeadline _ => true
      | _, _ => false)

/-- What precedes a deadline still waits, in the queue or among the deadlines that wait. No time passes while a command waits, so
all that wait fall in the present tick. -/
def mustDefer (d : Instr) (s : State) : Bool := (s.pending ++ s.due).any (precedes d)

/-- A deadline's effect, deferred to the end of the tick while an arrival that bears on it waits (R653). -/
def atDeadline (d : Instr) (run : State → Result) (s : State) : Result :=
  if mustDefer d s then .next { s with due := s.due ++ [d] } else run s

end Machine
end Sys2Proof
end

