-- ==== Sys2Proof/Machine/Memory.lean ====
section
/-! DEFINITION. Device memory: the address map, bytes, lines, tags and poison (chapter 11). -/

namespace Sys2Proof.Machine

/-! ## The address map (Table 11-1) -/

/-- What an address names. -/
inductive Area where
  | ddr | ddrPrivate | pillow | scratch | hub | hubPrivate | control | reserved
  deriving DecidableEq, Repr

/-- Device address of the pillow of stack 0. -/
abbrev pillowBase : Nat := 0x4000000000
/-- Bytes of a stack's pillow. -/
abbrev pillowBytes : Nat := 0x30000000
/-- Device address of the scratch of core 0. -/
abbrev scratchBase : Nat := 0x4800000000
/-- Bytes of a core's scratch. -/
abbrev scratchBytes : Nat := 0x800000
/-- Device address of hub SRAM. -/
abbrev hubBase : Nat := 0x5000000000
/-- Device address of the shared range of hub SRAM (Table 11-3). -/
abbrev hubShared : Nat := 0x5002000000
/-- End of hub SRAM. -/
abbrev hubEnd : Nat := 0x5004000000
/-- End of the general DDR range. -/
abbrev ddrGeneralEnd : Nat := 0x1F00000000
/-- End of DDR. -/
abbrev ddrEnd : Nat := 0x2000000000
/-- A granule of pillow. -/
abbrev granuleBytes : Nat := 0x200000

/-- The area of an address (R324, R337). -/
def areaOf (a : Nat) : Area :=
  if a < ddrGeneralEnd then .ddr
  else if a < ddrEnd then .ddrPrivate
  else if a < pillowBase then .reserved
  else if a < 0x40C0000000 then .pillow
  else if a < scratchBase then .reserved
  else if a < 0x4840000000 then .scratch
  else if a < hubBase then .reserved
  else if a < hubShared then .hubPrivate
  else if a < hubEnd then .hub
  else if a < 0x6000000000 then .reserved
  else if a < 0x6100000000 then .control
  else .reserved

/-- An area that shuttles, commands and BAR2 may reach. -/
def Area.shared : Area → Bool
  | .ddr | .pillow | .scratch | .hub => true
  | _ => false

/-- DDR channel of an address (R339). -/
def channelOf (a : Nat) : Nat := a / 4096 % 4
/-- Channel-local address of a DDR address (R339). -/
def channelLocal (a : Nat) : Nat := a / 16384 * 4096 + a % 4096
/-- Device address of a channel-local address. -/
def channelGlobal (c l : Nat) : Nat := l / 4096 * 16384 + c * 4096 + l % 4096

/-! ## Where a byte lies in its memory -/

/-- Bank and line within the bank of a byte at an offset of a stack's pillow: 192 banks of 4 MiB (R331). -/
def pillowBank (o : Nat) : Nat := o / 64 % 192
/-- Line of the bank. -/
def pillowLine (o : Nat) : Nat := o / 12288

/-- Table 11-4: subchannels of a channel, bank groups and banks of a group of a device, rows of a bank, and bytes of a page of
a subchannel. Each subchannel has one rank. -/
abbrev ddrSubchannels : Nat := 2
abbrev ddrRanks : Nat := 1
abbrev ddrBankGroups : Nat := 8
abbrev ddrBanks : Nat := 4
abbrev ddrRows : Nat := 131072
abbrev ddrPage : Nat := 4096
/-- Bytes of a DDR channel. -/
abbrev channelBytes : Nat := 0x800000000

/-- The place of a byte in its DDR channel (Table 11-5). -/
structure DdrPlace where
  byte : Nat
  subchannel : Nat
  /-- index of the line within its row, 0 to 63 -/
  column : Nat
  bankGroup : Nat
  bank : Nat
  row : Nat
  deriving DecidableEq, Repr

/-- A channel-local address decoded (Table 11-5). -/
def ddrPlace (l : Nat) : DdrPlace where
  byte := l % 64
  subchannel := l / 2 ^ 6 % 2
  column := l / 2 ^ 17 % 2 * 32 + l / 2 ^ 7 % 32
  bankGroup := l / 2 ^ 12 % 8
  bank := l / 2 ^ 15 % 4
  row := l / 2 ^ 18 % 2 ^ 17

/-- Device column address: a burst of 16 for each line of a row (Table 11-5). -/
def DdrPlace.deviceColumn (p : DdrPlace) : Nat := 16 * p.column
/-- Number of the bank in its channel, over subchannels and bank groups. -/
def DdrPlace.bankIndex (p : DdrPlace) : Nat := (p.subchannel * ddrBankGroups + p.bankGroup) * ddrBanks + p.bank

/-- The pieces of a run of bytes, each within one 64-byte line. -/
def linePieces : Nat → Nat → Nat → List (Nat × Nat)
  | 0, _, _ => []
  | fuel + 1, a, n =>
    if n = 0 then []
    else
      let k := min n (64 - a % 64)
      (a, k) :: linePieces fuel (a + k) (n - k)

/-- The pieces of `n` bytes at `a`. -/
def pieces (a n : Nat) : List (Nat × Nat) := linePieces (n / 64 + 2) a n

/-! ## Bytes -/

/-- What a byte that no entry lists reads as where its contents are not open: zero, as R345 and R689 leave memory. -/
abbrev memDefault : Byte := 0

/-- The open byte at an address, when its contents are open. -/
def lostAt : List LostExtent → Nat → Option Byte
  | [], _ => none
  | e :: l, a =>
    if e.first ≤ a ∧ a < e.first + e.count then some (Config.lostByte e.loss (e.origin + (a - e.first))) else lostAt l a

/-- An extent less `n` bytes from `a` on. -/
def cutLost (a n : Nat) (e : LostExtent) : List LostExtent :=
  (if e.first < a then [{ e with count := min e.count (a - e.first) }] else []) ++
    (if a + n < e.first + e.count then
      [⟨max e.first (a + n), e.first + e.count - max e.first (a + n), e.loss, e.origin + (max e.first (a + n) - e.first)⟩]
    else [])

/-- Extents less `n` bytes from `a` on. -/
def forgetLost (a n : Nat) (l : List LostExtent) : List LostExtent := (l.map (cutLost a n)).flatten

/-- The byte at an address. -/
def memByte (s : State) (a : Nat) : Byte := (lostAt s.mem.lost a).getD (SMap.get memDefault s.mem.cells a)

/-- `n` bytes from an address on. -/
def memRead (s : State) (a n : Nat) : List Byte := (List.range n).map fun i => memByte s (a + i)

/-- The little-endian number in `n` bytes at an address. -/
def memNat (s : State) (a n : Nat) : Nat := leNat (memRead s a n)

/-- Bytes written from an address on, into a cell list. -/
def cellsWrite (cells : SMap Byte) : Nat → List Byte → SMap Byte
  | _, [] => cells
  | a, b :: bs => cellsWrite (SMap.set memDefault cells a b) (a + 1) bs

/-- Bytes written from an address on, with no regard to tags or poison. -/
def rawWrite (a : Nat) (bs : List Byte) (s : State) : State :=
  s.modMem fun m => { m with cells := cellsWrite m.cells a bs, lost := forgetLost a bs.length m.lost }

/-- Entries of a cell list outside `n` bytes from `a` on. -/
def cellsClear (a n : Nat) (cells : SMap Byte) : SMap Byte := cells.filter fun c => decide (c.1 < a) || decide (a + n ≤ c.1)

/-- Line numbers of a list less those of whole lines within `n` bytes from `a` on. -/
def outsideLines (a n : Nat) (l : List Nat) : List Nat := l.filter fun x => decide (64 * x < a) || decide (a + n < 64 * x + 64)

/-- Whole lines within `n` bytes from `a` on hold no error any more. -/
def MemUnit.forgetLines (a n : Nat) (m : MemUnit) : MemUnit :=
  { m with
    latent := m.latent.filter fun x => decide (64 * x.1 < a) || decide (a + n < 64 * x.1 + 64)
    poison := outsideLines a n m.poison
    hubPoison := outsideLines a n m.hubPoison
    scratchPoison := outsideLines a n m.scratchPoison
    pil := SMap.mapVals {} (fun _ p => { p with poison := outsideLines a n p.poison }) m.pil }

/-- A range becomes zero: its whole lines are written, which clears their poison (R342, R357). -/
def zeroRange (a n : Nat) (s : State) : State :=
  s.modMem fun m => MemUnit.forgetLines a n { m with cells := cellsClear a n m.cells, lost := forgetLost a n m.lost }

/-- `n` bytes of cells from `src` on, put at `dst` in place of what was there. -/
def cellsCopy (src dst n : Nat) (cells : SMap Byte) : SMap Byte :=
  (cells.filter fun c => decide (c.1 < dst)) ++
    ((cells.filter fun c => decide (src ≤ c.1) && decide (c.1 < src + n)).map fun c => (c.1 - src + dst, c.2)) ++
      cells.filter fun c => decide (dst + n ≤ c.1)

/-- Open extents within `n` bytes from `src` on, as they lie after a copy to `dst`. -/
def lostCopy (src dst n : Nat) (l : List LostExtent) : List LostExtent :=
  let upper := (l.map fun e => cutLost 0 src e).flatten
  let mid := (upper.map fun e => cutLost (src + n) (e.first + e.count) e).flatten
  mid.map fun e => { e with first := e.first - src + dst }

/-- `n` bytes copied within device memory, with no regard to tags or poison. -/
def copyRange (src dst n : Nat) (s : State) : State :=
  s.modMem fun m =>
    { m with cells := cellsCopy src dst n m.cells, lost := forgetLost dst n m.lost ++ lostCopy src dst n m.lost }

/-- Areas whose contents are lost but for extents that are kept: every byte of them is open from now on. -/
def loseAreas (areas keep : List (Nat × Nat)) (s : State) : State :=
  (s.modMem fun m =>
    let gone := keep.foldl (fun l k => forgetLost k.1 k.2 l) (areas.map fun a => (⟨a.1, a.2, s.fresh, a.1⟩ : LostExtent))
    { m with
      cells := gone.foldl (fun c e => cellsClear e.first e.count c) m.cells
      lost := gone.foldl (fun l e => forgetLost e.first e.count l) m.lost ++ gone
      latent := m.latent.filter fun x => !gone.any fun e => decide (e.first ≤ 64 * x.1) && decide (64 * x.1 < e.first + e.count) }).useFresh

/-- The canonical form of the byte list. -/
def Memory.wf (cells : SMap Byte) : Bool := SMap.wf memDefault cells

/-! ## Line tags -/

/-- A line is one of an extent's. -/
def tagCovers (e : TagExtent) (line : Nat) : Bool := decide (e.first ≤ line) && decide (line < e.first + e.count)

/-- A line of a rewrite that is not complete has not been seen to carry the new tag. -/
def tagUnseen (e : TagExtent) (line : Nat) : Bool := e.pending && !e.done.contains line

/-- The tag of a line: POOL and GEN. A line not seen to carry the tag of a pending rewrite has the old one. -/
def tagOf : List TagExtent → Nat → Nat × Nat
  | [], _ => (0, 0)
  | e :: es, line => if tagCovers e line && !tagUnseen e line then (e.pool, e.gen) else tagOf es line

/-- Whether each pending rewrite of a line has reached it is settled by `pick`, newest rewrite first: once it has, the line
carries the new tag for good (R343, R375). -/
def settleTags (pick : Nat → Bool) (line : Nat) : Nat → List TagExtent → List TagExtent
  | _, [] => []
  | i, e :: es =>
    if tagCovers e line then
      (if tagUnseen e line then
        (if pick i then { e with done := line :: e.done } :: es else e :: settleTags pick line (i + 1) es)
      else e :: es)
    else e :: settleTags pick line i es

/-- An access reaches a line: the rewrites under way have reached it or not, and the one that has cleared its POISON (R343,
R375). -/
def settleLine (line : Nat) (s : State) : State :=
  let tags := settleTags (fun i => Config.freeBool (s.fresh + i)) line 0 s.mem.tags
  if tags = s.mem.tags then s.useFreshN s.mem.tags.length
  else
    (s.modMem fun m => { m with tags := tags, poison := m.poison.filter (· != line) }).useFreshN s.mem.tags.length

/-- Lines begin a tag rewrite (R343, R375). -/
def beginRewrite (e : TagExtent) (s : State) : State := s.modMem fun m => { m with tags := { e with pending := true } :: m.tags }

/-- Lines `first` to `first + count - 1` take a tag at once, and lose their POISON (R343). -/
def tagRewrite (first count pool gen : Nat) (s : State) : State :=
  s.modMem fun m =>
    { m with
      tags := { first := first, count := count, pool := pool, gen := gen, pending := false } :: m.tags
      poison := m.poison.filter fun l => decide (l < first) || decide (first + count ≤ l) }

/-- A rewrite for a pool's buffer, or for a run by its first granule, that is not complete. -/
def rewriteOn (owner : Handle) (buffer : Nat) (e : TagExtent) : Bool :=
  decide (e.owner = owner) && decide (e.buffer = buffer) && e.pending

/-- The oldest rewrite for a pool's buffer is complete: the extents, and the extent as it was. -/
def endOldest (owner : Handle) (buffer : Nat) : List TagExtent → List TagExtent × Option TagExtent
  | [] => ([], none)
  | e :: es =>
    match endOldest owner buffer es with
    | (l, some x) => (e :: l, some x)
    | (l, none) =>
      if rewriteOn owner buffer e then ({ e with pending := false, done := [], waiter := none } :: l, some e) else (e :: l, none)

/-- The oldest rewrite for a pool's buffer is complete: every line carries the new tag, and the lines that take it only now lose
their POISON. -/
def tagDone (owner : Handle) (buffer : Nat) (s : State) : State :=
  match endOldest owner buffer s.mem.tags with
  | (_, none) => s
  | (l, some e) =>
    s.modMem fun m =>
      { m with tags := l, poison := m.poison.filter fun x => !(tagCovers e x && !e.done.contains x) }

/-- Some rewrite for a pool's buffer, or for a run by its first granule, is not complete. -/
def tagPending (owner : Handle) (buffer : Nat) (s : State) : Bool := s.mem.tags.any (rewriteOn owner buffer)

/-- The protected tag word of a line: POOL, GEN, POISON, reserved bits of 0, and the check bits (R341, Table 11-6). -/
def tagWord (s : State) (line : Nat) : W64 :=
  let t := tagOf s.mem.tags line
  let tag : BitVec 56 := BitVec.ofNat 56 (t.1 % 2 ^ 8 + 2 ^ 8 * (t.2 % 2 ^ 16) + 2 ^ 24 * (s.mem.poison.contains line).toNat)
  Config.check64 tag ++ tag

/-- What the ECC device carries in a beat of a line's burst of 16: in beat 2 i the check bits of codeword i, in beat 2 i + 1
byte i of the protected tag word (R340). -/
def eccBeat (data : List Byte) (word : W64) (beat : Nat) : Byte :=
  let i := beat / 2
  if beat % 2 = 0 then Config.check72 (BitVec.ofNat 64 (leNat ((data.drop (8 * i)).take 8)))
  else BitVec.ofNat 8 (word.toNat / 2 ^ (8 * i))

/-! ## Poison -/

/-- The channel of a DDR address is in FAULT: every access to its lines fails (R354). -/
def faulted (s : State) (a : Nat) : Bool := decide (a < ddrEnd) && decide ((s.ddr (channelOf a)).state = 3)

/-- The line at an address reports poison (R342, R357). -/
def poisoned (s : State) (a : Nat) : Bool :=
  match areaOf a with
  | .ddr | .ddrPrivate => s.mem.poison.contains (a / 64) || faulted s a
  | .pillow => (s.pil ((a - pillowBase) / pillowBytes)).poison.contains (a / 64)
  | .hub | .hubPrivate => s.mem.hubPoison.contains (a / 64)
  | .scratch => s.mem.scratchPoison.contains (a / 64)
  | _ => false

/-- The line at an address becomes poisoned. -/
def poisonLine (a : Nat) (s : State) : State :=
  if poisoned s a then s
  else
    match areaOf a with
    | .ddr | .ddrPrivate => s.modMem fun m => { m with poison := (a / 64) :: m.poison }
    | .pillow => s.modPil ((a - pillowBase) / pillowBytes) fun p => { p with poison := p.poison ++ [a / 64] }
    | .hub | .hubPrivate => s.modMem fun m => { m with hubPoison := m.hubPoison ++ [a / 64] }
    | .scratch => s.modMem fun m => { m with scratchPoison := m.scratchPoison ++ [a / 64] }
    | _ => s

/-- A full-line write clears the poison of the line at an address (R342, R357). -/
def unpoisonLine (a : Nat) (s : State) : State :=
  match areaOf a with
  | .ddr | .ddrPrivate => s.modMem fun m => { m with poison := m.poison.filter (· != a / 64) }
  | .pillow =>
    s.modPil ((a - pillowBase) / pillowBytes) fun p => { p with poison := p.poison.filter (· != a / 64) }
  | .hub | .hubPrivate => s.modMem fun m => { m with hubPoison := m.hubPoison.filter (· != a / 64) }
  | .scratch => s.modMem fun m => { m with scratchPoison := m.scratchPoison.filter (· != a / 64) }
  | _ => s

/-- A poison list of 64 entries has overflowed (R357). -/
def poisonOverflow (s : State) (a : Nat) : Bool :=
  match areaOf a with
  | .pillow => decide (64 < (s.pil ((a - pillowBase) / pillowBytes)).poison.length)
  | .hub | .hubPrivate => decide (64 < s.mem.hubPoison.length)
  | _ => false

/-- A write of one piece within a line: a full line clears poison; a partial write to a poisoned DDR line writes nothing
(R342), and so does a write to a channel in FAULT (R354). -/
def pieceWrite (a : Nat) (bs : List Byte) (s : State) : State :=
  if faulted s a then s
  else if bs.length = 64 then unpoisonLine a (rawWrite a bs s)
  else if a < ddrEnd ∧ poisoned s a = true then s
  else rawWrite a bs s

/-- Pieces written in ascending order, but for those whose lines `bad` names: their writes have failed (R344). -/
def piecesWrite (bad : List Nat) : List (Nat × Nat) → List Byte → State → State
  | [], _, s => s
  | (a, k) :: ps, bs, s => piecesWrite bad ps (bs.drop k) (if bad.contains (a / 64) then s else pieceWrite a (bs.take k) s)

/-- Some piece of a write is not written: its line's tag word is lost, it is a partial write to a DDR line whose POISON is set,
or its channel is in FAULT. The writer receives an uncorrectable memory error (R342, R344, R354). -/
def dropsPiece (bad : List Nat) (s : State) (to_ : List (Nat × Nat)) : Bool :=
  to_.any fun x => bad.contains (x.1 / 64) || faulted s x.1 || decide (x.2 < 64) && decide (x.1 < ddrEnd) && poisoned s x.1

/-- A write to device memory under R330 and R342. -/
def memWrite (a : Nat) (bs : List Byte) (s : State) : State := piecesWrite [] (pieces a bs.length) bs s

/-- Some line of `n` bytes at `a` reports poison. -/
def rangePoisoned (s : State) (a n : Nat) : Bool := (pieces a n).any fun p => poisoned s p.1

/-- Lines of `n` bytes at `a` that report poison, by the lists. -/
def poisonedLines (s : State) (a n : Nat) : List Nat :=
  let here (l : List Nat) : List Nat := l.filter fun x => decide (a / 64 ≤ x) && decide (x ≤ (a + n - 1) / 64)
  here s.mem.poison ++ here s.mem.hubPoison ++ here s.mem.scratchPoison ++
    ((List.range 4).map fun k => here (s.pil k).poison).flatten

/-- `n` bytes at an address touch a channel in FAULT. -/
def rangeFaulted (s : State) (a n : Nat) : Bool :=
  (List.range 4).any fun i => decide (i ≤ (a + n - 1) / 4096 - a / 4096) && decide (n ≠ 0) && faulted s (a + 4096 * i)

/-- A range that no poison touches, in the lists or by a channel in FAULT. -/
def rangeClean (s : State) (a n : Nat) : Bool := (poisonedLines s a n).isEmpty && !rangeFaulted s a n

/-- Lines of `n` bytes at an address that report poison, those of a channel in FAULT among them (R354). -/
def badLines (s : State) (a n : Nat) : List Nat :=
  poisonedLines s a n ++
    (if rangeFaulted s a n then ((pieces a n).filter fun x => faulted s x.1).map (·.1 / 64) else [])

/-- Pieces copied one by one: each is a write under R342, and poison of what is read goes with it (R358). -/
def copyPieces (bad : List Nat) (src dst : Nat) : List (Nat × Nat) → State → State
  | [], s => s
  | (a, k) :: ps, s =>
    let from_ := src + (a - dst)
    let poison := rangePoisoned s from_ k
    let s := if bad.contains (a / 64) then s else pieceWrite a (memRead s from_ k) s
    copyPieces bad src dst ps (if poison then poisonLine a s else s)

/-- `n` bytes copied within device memory: full lines lose their poison, a partial write to a poisoned DDR line writes
nothing, a line in `bad` takes nothing, and poisoned data stay poisoned where they go (R342, R344, R357, R358). -/
def copyMem (bad : List Nat) (src dst n : Nat) (s : State) : State :=
  if rangeClean s src n && rangeClean s dst n && bad.isEmpty then copyRange src dst n s
  else copyPieces bad src dst (pieces dst n) s

/-- A zero-filled DDR of TAG 0, as training leaves it (R345). -/
def ddrZero (s : State) : State :=
  s.modMem fun m =>
    MemUnit.forgetLines 0 ddrEnd { m with cells := cellsClear 0 ddrEnd m.cells, lost := forgetLost 0 ddrEnd m.lost, tags := [] }

/-- Pillow address of a stack's offset. -/
def pillowAt (stack offset : Nat) : Nat := pillowBase + stack * pillowBytes + offset
/-- Scratch address of a core's offset. -/
def scratchAt (core offset : Nat) : Nat := scratchBase + core * scratchBytes + offset % scratchBytes

/-- `n` bytes of a core's scratch; offsets wrap at 8 MiB (R171). -/
def scratchRead (s : State) (core offset n : Nat) : List Byte :=
  (List.range n).map fun i => memByte s (scratchAt core (offset + i))

/-- Bytes written to a core's scratch. -/
def scratchWrite (core : Nat) : Nat → List Byte → State → State
  | _, [], s => s
  | o, b :: bs, s => scratchWrite core (o + 1) bs (rawWrite (scratchAt core o) [b] s)

end Sys2Proof.Machine
end

