-- ==== Sys2Proof/Machine/Numerics.lean ====
section
/-! DEFINITION. The number formats, exact values, roundings and conversions of the card (chapter 2). -/

namespace Sys2Proof

/-- An exact value: `± man × 2 ^ exp`, an infinity, or not a number. A zero keeps its sign. -/
inductive Val where
  | num (neg : Bool) (man : Nat) (exp : Int)
  | inf (neg : Bool)
  | nan
  deriving DecidableEq, Repr

/-- A floating-point format (Table 2-2). `special` is 0 for IEEE infinities and NaNs, 1 for E4M3, 2 for none. -/
structure FloatFmt where
  ebits : Nat
  fbits : Nat
  bias : Nat
  special : Nat
  deriving DecidableEq, Repr

def fmtE4M3 : FloatFmt := ⟨4, 3, 7, 1⟩
def fmtE5M2 : FloatFmt := ⟨5, 2, 15, 0⟩
def fmtE2M3 : FloatFmt := ⟨2, 3, 1, 2⟩
def fmtE3M2 : FloatFmt := ⟨3, 2, 3, 2⟩
def fmtE2M1 : FloatFmt := ⟨2, 1, 1, 2⟩
def fmtBf16 : FloatFmt := ⟨8, 7, 127, 0⟩
def fmtFp16 : FloatFmt := ⟨5, 10, 15, 0⟩
def fmtFp32 : FloatFmt := ⟨8, 23, 127, 0⟩

/-- The value of an encoding (R45, Table 2-2). -/
def FloatFmt.decode (f : FloatFmt) (code : Nat) : Val :=
  let neg := code / 2 ^ (f.ebits + f.fbits) % 2 = 1
  let e := code / 2 ^ f.fbits % 2 ^ f.ebits
  let m := code % 2 ^ f.fbits
  let top := 2 ^ f.ebits - 1
  if f.special = 0 ∧ e = top then (if m = 0 then .inf neg else .nan)
  else if f.special = 1 ∧ e = top ∧ m = 2 ^ f.fbits - 1 then .nan
  else if e = 0 then .num neg m (1 - f.bias - f.fbits)
  else .num neg (2 ^ f.fbits + m) (e - f.bias - f.fbits)

/-- `m × 2 ^ k` rounded to the nearest integer, ties to even (R57). -/
def rneScaled (m : Nat) (k : Int) : Nat :=
  if 0 ≤ k then m * 2 ^ k.toNat
  else
    let n := (-k).toNat
    let q := m / 2 ^ n
    let r := m % 2 ^ n
    let half := 2 ^ (n - 1)
    if half < r ∨ (r = half ∧ q % 2 = 1) then q + 1 else q

/-- `floor (m × 2 ^ k)`. -/
def floorScaled (m : Nat) (k : Int) : Nat := if 0 ≤ k then m * 2 ^ k.toNat else m / 2 ^ (-k).toNat

/-- The exponent of the spacing of a format at a non-zero magnitude: the subnormal spacing below the normal range. -/
def FloatFmt.quantum (f : FloatFmt) (man : Nat) (exp : Int) : Int :=
  max (exp + man.log2) (1 - f.bias) - f.fbits

/-- Encoding of the largest finite value, sign clear. -/
def FloatFmt.maxCode (f : FloatFmt) : Nat :=
  match f.special with
  | 0 => (2 ^ f.ebits - 1) * 2 ^ f.fbits - 1
  | 1 => 2 ^ (f.ebits + f.fbits) - 2
  | _ => 2 ^ (f.ebits + f.fbits) - 1

/-- Canonical NaN (Table 2-5). -/
def FloatFmt.nanCode (f : FloatFmt) : Nat :=
  match f.special with
  | 0 => (2 ^ f.ebits - 1) * 2 ^ f.fbits + 2 ^ (f.fbits - 1)
  | _ => 2 ^ (f.ebits + f.fbits) - 1

/-- Encoding of an infinity, sign clear; a format without one has its largest finite value instead (R58). -/
def FloatFmt.infCode (f : FloatFmt) : Nat := if f.special = 0 then (2 ^ f.ebits - 1) * 2 ^ f.fbits else f.maxCode

/-- A sign put on an encoding. -/
def FloatFmt.signed (f : FloatFmt) (neg : Bool) (code : Nat) : Nat := neg.toNat * 2 ^ (f.ebits + f.fbits) + code

/-- Encoding of `n` units of spacing `2 ^ q`, sign clear, which overflows to `big`. -/
def FloatFmt.pack (f : FloatFmt) (q : Int) (n big : Nat) : Nat :=
  let code := (q + f.fbits + f.bias - 1).toNat * 2 ^ f.fbits + n
  if f.maxCode < code then big else code

/-- Conversion to a floating-point format, to nearest with ties to even (R57 to R63). -/
def FloatFmt.encode (f : FloatFmt) : Val → Nat
  | .nan => f.nanCode
  | .inf neg => f.signed neg f.infCode
  | .num neg 0 _ => f.signed neg 0
  | .num neg m e =>
    let q := f.quantum m e
    f.signed neg (f.pack q (rneScaled m (e - q)) f.infCode)

/-! ## Arithmetic on exact values (IEEE 754 rules for zeros, infinities and NaN) -/

/-- Sum of two finite values, as a signed multiple of the lower exponent. -/
def addFin (na : Bool) (ma : Nat) (ea : Int) (nb : Bool) (mb : Nat) (eb : Int) : Val :=
  let e := min ea eb
  let a : Int := (if na then -1 else 1) * ((ma * 2 ^ (ea - e).toNat : Nat) : Int)
  let b : Int := (if nb then -1 else 1) * ((mb * 2 ^ (eb - e).toNat : Nat) : Int)
  let s := a + b
  if s = 0 then .num (decide (ma = 0) && decide (mb = 0) && na && nb) 0 e else .num (decide (s < 0)) s.natAbs e

/-- Exact sum. -/
def Val.add : Val → Val → Val
  | .nan, _ => .nan
  | _, .nan => .nan
  | .inf a, .inf b => if a = b then .inf a else .nan
  | .inf a, .num .. => .inf a
  | .num .., .inf b => .inf b
  | .num na ma ea, .num nb mb eb => addFin na ma ea nb mb eb

/-- Negation. -/
def Val.neg : Val → Val
  | .nan => .nan
  | .inf a => .inf !a
  | .num n m e => .num (!n) m e

/-- Exact product. -/
def Val.mul : Val → Val → Val
  | .nan, _ => .nan
  | _, .nan => .nan
  | .inf a, .inf b => .inf (a != b)
  | .inf a, .num n m _ => if m = 0 then .nan else .inf (a != n)
  | .num n m _, .inf b => if m = 0 then .nan else .inf (n != b)
  | .num na ma ea, .num nb mb eb => .num (na != nb) (ma * mb) (ea + eb)

/-- Product with a power of two. -/
def Val.scale (k : Int) : Val → Val
  | .num n m e => .num n m (e + k)
  | v => v

/-- Sign of a value: negative. -/
def Val.isNeg : Val → Bool
  | .num n m _ => n && decide (m ≠ 0)
  | .inf n => n
  | .nan => false

/-- The value is a zero. -/
def Val.isZero : Val → Bool
  | .num _ 0 _ => true
  | _ => false

/-- The value is not a number. -/
def Val.isNan : Val → Bool
  | .nan => true
  | _ => false

/-- The value is finite. -/
def Val.isFin : Val → Bool
  | .num .. => true
  | _ => false

/-- Comparison of values that are numbers: strictly less, zeros of both signs equal; false with a NaN. -/
def Val.lt : Val → Val → Bool
  | .nan, _ => false
  | _, .nan => false
  | .inf a, .inf b => a && !b
  | .inf a, .num .. => a
  | .num .., .inf b => !b
  | .num na ma ea, .num nb mb eb => (addFin na ma ea (!nb) mb eb).isNeg

/-- Equal as numbers; false with a NaN. -/
def Val.eqv (a b : Val) : Bool := !a.isNan && !b.isNan && !a.lt b && !b.lt a

/-- An integer as a value. -/
def Val.ofInt (n : Int) : Val := .num (decide (n < 0)) n.natAbs 0

/-- `n / d` of two naturals as a value, exact or with a last bit that only marks it inexact, which no rounding to 64
bits or fewer can tell from the exact quotient. -/
def Val.ratio (neg : Bool) (n d : Nat) : Val :=
  let k := 400 + d.log2
  let q := n * 2 ^ k / d
  .num neg (2 * q + (if n * 2 ^ k % d = 0 then 0 else 1)) (-(k + 1 : Int))

/-! ## Integer formats (R42, R60) -/

/-- Range of an integer format code, with its bits. -/
def intRange (code : Nat) : Option (Int × Int × Nat) :=
  match code with
  | 0x01 => some (-128, 127, 8)
  | 0x02 => some (0, 255, 8)
  | 0x03 => some (-8, 7, 4)
  | 0x04 => some (0, 15, 4)
  | 0x05 => some (-2147483648, 2147483647, 32)
  | _ => none

/-- A number clamped to a range. -/
def clampInt (lo hi n : Int) : Int := max lo (min hi n)

/-- Conversion to an integer, ties to even, then clamped; NaN gives 0 (R60). -/
def Val.toIntRne (lo hi : Int) : Val → Int
  | .nan => 0
  | .inf n => if n then lo else hi
  | .num n m e => clampInt lo hi ((if n then -1 else 1) * (rneScaled m e : Int))

/-- Bits of an integer in two's complement. -/
def intCode (bits : Nat) (n : Int) : Nat := (n % (2 ^ bits : Nat)).toNat

/-- The two's complement number of `bits` bits. -/
def signExt (bits code : Nat) : Int :=
  let c := code % 2 ^ bits
  if c < 2 ^ (bits - 1) then c else (c : Int) - 2 ^ bits

/-! ## Format codes (Table 2-1) -/

/-- The floating-point format of a code. -/
def floatOf (code : Nat) : Option FloatFmt :=
  match code with
  | 0x10 | 0x20 => some fmtE4M3
  | 0x11 | 0x21 => some fmtE5M2
  | 0x22 => some fmtE2M3
  | 0x23 => some fmtE3M2
  | 0x24 => some fmtE2M1
  | 0x30 => some fmtBf16
  | 0x31 => some fmtFp16
  | 0x32 => some fmtFp32
  | _ => none

/-- Codes of Table 2-1. -/
def fmtCodes : List Nat :=
  [0x01, 0x02, 0x03, 0x04, 0x05, 0x10, 0x11, 0x20, 0x21, 0x22, 0x23, 0x24, 0x25, 0x30, 0x31, 0x32, 0x40]

/-- Microscaling formats. -/
def isMx (code : Nat) : Bool := decide (0x20 ≤ code ∧ code ≤ 0x25)

/-- Bits of an element of a format. -/
def elemBits (code : Nat) : Nat :=
  match code with
  | 0x03 | 0x04 | 0x24 | 0x40 => 4
  | 0x22 | 0x23 => 6
  | 0x05 | 0x32 => 32
  | 0x30 | 0x31 => 16
  | _ => 8

/-- 256 times the filet grid (Table 2-3). -/
def filetGrid : List Int := [-256, -186, -135, -97, -68, -45, -27, -12, 0, 15, 32, 53, 80, 114, 160, 256]

/-- Value of an element, less its block scale (R42, R45, R48, R53). -/
def elemVal (code raw : Nat) : Val :=
  match code with
  | 0x01 => .ofInt (signExt 8 raw)
  | 0x02 => .ofInt (raw % 256)
  | 0x03 => .ofInt (signExt 4 raw)
  | 0x04 => .ofInt (raw % 16)
  | 0x05 => .ofInt (signExt 32 raw)
  | 0x25 => (Val.ofInt (signExt 8 raw)).scale (-6)
  | 0x40 => (Val.ofInt (filetGrid.getD (raw % 16) 0)).scale (-8)
  | c => match floatOf c with
    | some f => f.decode raw
    | none => .nan

/-- Element `i` of packed bytes of a format (R43, R49). -/
def elemRaw (code : Nat) (bytes : List Byte) (i : Nat) : Nat :=
  match elemBits code with
  | 4 => (bytes.getD (i / 2) 0).toNat / 16 ^ (i % 2) % 16
  | 6 => leNat ((bytes.drop (i / 4 * 3)).take 3) / 64 ^ (i % 4) % 64
  | b => leNat ((bytes.drop (i * (b / 8))).take (b / 8))

/-- Conversion of a value to a format code, to nearest with ties to even (R57 to R61). -/
def convertRne (code : Nat) (v : Val) : Nat :=
  match intRange code with
  | some (lo, hi, b) => intCode b (v.toIntRne lo hi)
  | none => match floatOf code with
    | some f => f.encode v
    | none => 0

/-- Encodings of elements packed into bytes, an odd 4-bit count padded with a zero nibble (R43, R44). -/
def packElems (code : Nat) (xs : List Nat) : List Byte :=
  if elemBits code = 4 then
    (List.range ((xs.length + 1) / 2)).map fun i => BitVec.ofNat 8 (xs.getD (2 * i) 0 + 16 * xs.getD (2 * i + 1) 0)
  else (xs.map (leBytes (elemBits code / 8))).flatten

/-! ## FP32 (W32) -/

def fp32 (w : W32) : Val := fmtFp32.decode w.toNat
def rne32 (v : Val) : W32 := BitVec.ofNat 32 (fmtFp32.encode v)
def fadd (a b : W32) : W32 := rne32 ((fp32 a).add (fp32 b))
def fsub (a b : W32) : W32 := rne32 ((fp32 a).add (fp32 b).neg)
def fmul (a b : W32) : W32 := rne32 ((fp32 a).mul (fp32 b))
def ffma (a b c : W32) : W32 := rne32 (((fp32 a).mul (fp32 b)).add (fp32 c))
def bf16 (n : Nat) : Val := fmtBf16.decode n

/-- Finite FP32 encoding. -/
def finite32 (w : W32) : Bool := (fp32 w).isFin

/-- Quotient of two FP32 values, rounded once: IEEE 754 division. -/
def fdivVal : Val → Val → Val
  | .nan, _ => .nan
  | _, .nan => .nan
  | .inf _, .inf _ => .nan
  | .inf a, .num n _ _ => .inf (a != n)
  | .num n _ _, .inf b => .num (n != b) 0 0
  | .num na ma ea, .num nb mb eb =>
    if mb = 0 then (if ma = 0 then .nan else .inf (na != nb))
    else if ma = 0 then .num (na != nb) 0 0
    else (Val.ratio (na != nb) ma mb).scale (ea - eb)

/-- The error-free sum of R110. -/
def twoSum (a b : W32) : W32 × W32 :=
  let x := fadd a b
  let bb := fsub x a
  (x, fadd (fsub a (fsub x bb)) (fsub b bb))

/-! ## Stochastic rounding (R64 to R67) -/

/-- Seed of core `k`'s generator (R65). -/
def rngSeed (seed : W64) (k : Nat) : W64 :=
  let s := seed ^^^ (BitVec.ofNat 64 ((k + 1) * 0x9E3779B97F4A7C15))
  if s = 0 then 1 else s

/-- One step of the generator. -/
def rngNext (s : W64) : W64 :=
  let s := s ^^^ (s <<< 13)
  let s := s ^^^ (s >>> 7)
  s ^^^ (s <<< 17)

/-- The 16 bits that a generator state gives. -/
def rngBits (s : W64) : Nat := (s >>> 48).toNat

/-- `n` steps of the generator. -/
def rngSkip : Nat → W64 → W64
  | 0, s => s
  | n + 1, s => rngSkip n (rngNext s)

/-- Rounding by a draw `r` (R65, R67). -/
def stochasticRound (code : Nat) (r : Nat) (v : Val) : Nat :=
  match v with
  | .num neg m e =>
    match intRange code with
    | some (lo, hi, b) =>
      let f := floorScaled m (e + 16) % 65536
      let t := floorScaled m e + (if 65536 ≤ f + r then 1 else 0)
      intCode b (clampInt lo hi ((if neg then -1 else 1) * (t : Int)))
    | none =>
      match floatOf code with
      | none => 0
      | some fm =>
        if m = 0 then fm.signed neg 0
        else
          let q := fm.quantum m e
          let f := floorScaled m (e - q + 16) % 65536
          let t := floorScaled m (e - q) + (if 65536 ≤ f + r then 1 else 0)
          fm.signed neg (fm.pack q t fm.maxCode)
  | v => convertRne code v

end Sys2Proof
end

