-- ==== Sys2Proof/Machine/Operands.lean ====
section
/-! DEFINITION. Operands of the core's operations: address registers, row sizes and formats of array operations, row masks,
block scales, and the rows that the window feeder assembles (chapters 3, 6 and 8). -/

namespace Sys2Proof

/-- Reduction extent of a row (R69). -/
def Mode.k : Mode → Nat
  | .i8 | .f8 | .f16 => 32
  | .i4 | .f4 | .ft => 64

/-- Accumulation is INT32. -/
def Mode.integer : Mode → Bool
  | .i8 | .i4 => true
  | _ => false

/-- Bytes of an activation row (Table 3-1). -/
def Mode.rowBytes (m : Mode) (fmt : Nat) : Nat :=
  match m with
  | .i8 | .i4 | .f4 => 32
  | .f8 => if elemBits fmt = 6 then 24 else 32
  | .ft => 128
  | .f16 => 64

/-- Bytes of a weight array row (Table 3-1). -/
def Mode.weightBytes (m : Mode) (fmt : Nat) : Nat :=
  match m with
  | .i8 => if elemBits fmt = 4 then 16 else 32
  | .i4 | .f4 | .ft => 32
  | .f8 => if elemBits fmt = 6 then 24 else 32
  | .f16 => 64

/-- Block scale bytes of an activation row, or of a weight column (Table 3-1, R94). -/
def Mode.scaleBytes (m : Mode) (fmt : Nat) : Nat :=
  if isMx fmt then (match m with
    | .f4 => 2
    | _ => 1)
  else 0

/-- Encoding of the weight of reduction index `k` in column `j` (R69, Table 3-1). -/
def Mode.weightRaw (m : Mode) (fmt : Nat) (rows : List (List Byte)) (k j : Nat) : Nat :=
  match m with
  | .i8 | .f8 | .f16 => elemRaw fmt (rows.getD k []) j
  | .i4 | .f4 | .ft => ((rows.getD (k / 2) []).getD j 0).toNat / 16 ^ (k % 2) % 16

/-- Address and stride of an address register. -/
def ComputeCore.ar (c : ComputeCore) (n : Nat) : Nat × Int := SMap.get (0, 0) c.ars n
/-- ADDR of an address register. -/
def ComputeCore.addr (c : ComputeCore) (n : Nat) : Nat := (c.ar n).1
/-- An address register changed; ADDR wraps at 8 MiB (R171). -/
def ComputeCore.setAr (c : ComputeCore) (n : Nat) (addr : Int) (stride : Int) : ComputeCore :=
  { c with ars := SMap.set (0, 0) c.ars n ((addr % 8388608).toNat, stride) }

/-- A vector register's 256 bytes. -/
def ComputeCore.vreg (c : ComputeCore) (n : Nat) : List Byte :=
  let l := SMap.get [] c.vregs n
  if l = [] then zeroBytes 256 else l
/-- A vector register written; a register of zeros is unlisted. -/
def ComputeCore.setVreg (c : ComputeCore) (n : Nat) (bs : List Byte) : ComputeCore :=
  { c with vregs := SMap.set [] c.vregs n (if bs.all (· = 0) then [] else bs) }

/-- Array `a` of a core. -/
def ComputeCore.array (c : ComputeCore) (a : Nat) : Array4 := SMap.get {} c.arrays a
/-- Array `a` of a core changed. -/
def ComputeCore.modArray (c : ComputeCore) (a : Nat) (f : Array4 → Array4) : ComputeCore :=
  { c with arrays := SMap.modify {} c.arrays a f }

/-- A hoop of an array: A when `b` is false. -/
def Array4.hoopOf (x : Array4) (b : Bool) : Hoop := if b then x.hoopB else x.hoopA
/-- A hoop of an array changed. -/
def Array4.modHoop (x : Array4) (b : Bool) (f : Hoop → Hoop) : Array4 :=
  if b then { x with hoopB := f x.hoopB } else { x with hoopA := f x.hoopA }
/-- Operations since a hoop's latest `CLEAR`. -/
def Array4.window (x : Array4) (b : Bool) : List WindowOp := if b then x.windowB else x.windowA

/-- Row `i` of an operation is masked (Table 6-5 `ROWMASK`). -/
def RowOp.masked (o : RowOp) (lens : List Nat) (i : Nat) : Bool :=
  match o.mask with
  | none => false
  | some (l, base) => decide (lens.getD l 0 ≤ base + i)

/-- Hoop of row `i` (R82). -/
def RowOp.hoopFor (o : RowOp) (i : Nat) : Bool := if i / 32 % 2 = 0 then o.hoop else !o.hoop

/-- Window mode (R245). -/
def RowOp.window (o : RowOp) : Bool := decide (o.stride = -1)

/-! ## The window feeder (chapter 8) -/

/-- A window descriptor (Table 8-2). -/
structure WinDesc where
  op : Nat
  blocked : Bool
  tapInner : Bool
  padMode : Nat
  regroup : Nat
  kh : Nat
  kw : Nat
  dy : Nat
  dx : Nat
  sy : Nat
  sx : Nat
  padTop : Nat
  padBottom : Nat
  padLeft : Nat
  padRight : Nat
  padValue : Nat
  inH : Nat
  inW : Nat
  outH : Nat
  outW : Nat
  channels : Nat
  row0 : Nat
  rows : Nat
  base : Nat
  planeStride : Nat
  rowPitch : Nat
  k0 : Nat
  pos0 : Nat
  deriving DecidableEq, Repr

/-- A little-endian field of some bytes. -/
def field (bs : List Byte) (off n : Nat) : Nat := leNat ((bs.drop off).take n)

/-- A window descriptor from its 64 bytes (Table 8-2). -/
def WinDesc.parse (b : List Byte) : WinDesc where
  op := field b 0 1
  blocked := decide (field b 1 1 % 2 = 1)
  tapInner := decide (field b 1 1 / 2 % 2 = 1)
  padMode := field b 2 1
  regroup := field b 3 1
  kh := field b 4 1
  kw := field b 5 1
  dy := field b 6 1
  dx := field b 7 1
  sy := field b 8 1
  sx := field b 9 1
  padTop := field b 10 1
  padBottom := field b 11 1
  padLeft := field b 12 1
  padRight := field b 13 1
  padValue := field b 14 2
  inH := field b 16 2
  inW := field b 18 2
  outH := field b 20 2
  outW := field b 22 2
  channels := field b 24 2
  row0 := field b 26 2
  rows := field b 28 2
  base := field b 32 4
  planeStride := field b 36 4
  rowPitch := field b 40 4
  k0 := field b 44 4
  pos0 := field b 48 4

/-- Factor of space-to-depth, 1 when there is none. -/
def WinDesc.s2d (d : WinDesc) : Nat := if 1 ≤ d.regroup ∧ d.regroup ≤ 3 then 2 ^ d.regroup else 1
/-- Factor of depth-to-space, 1 when there is none. -/
def WinDesc.d2s (d : WinDesc) : Nat := if 5 ≤ d.regroup ∧ d.regroup ≤ 7 then 2 ^ (d.regroup - 4) else 1
/-- Presented channels, rows and columns (R264, R265). -/
def WinDesc.presC (d : WinDesc) : Nat := d.channels * d.s2d ^ 2 / d.d2s ^ 2
def WinDesc.presH (d : WinDesc) : Nat := ceilDiv d.inH d.s2d * d.d2s
def WinDesc.presW (d : WinDesc) : Nat := ceilDiv d.inW d.s2d * d.d2s
/-- Taps. -/
def WinDesc.taps (d : WinDesc) : Nat := d.kh * d.kw

/-- Scratch offset of a stored element (Table 8-1). -/
def WinDesc.offset (d : WinDesc) (size c y x : Nat) : Nat :=
  let row : Int := ((y : Int) - d.row0) * d.rowPitch
  let plane := if d.blocked then c / 32 * d.planeStride else c * d.planeStride
  let col := if d.blocked then (32 * x + c % 32) * size else x * size
  (((d.base + plane + col : Nat) : Int) + row).toNat

/-- The stored element that a presented one names, or none beyond the stored image (R264, R265). -/
def WinDesc.stored (d : WinDesc) (c y x : Nat) : Option (Nat × Nat × Nat) :=
  if d.s2d ≠ 1 then
    let f := d.s2d
    let sy := y * f + c % (f * f) / f
    let sx := x * f + c % f
    if sy < d.inH ∧ sx < d.inW then some (c / (f * f), sy, sx) else none
  else if d.d2s ≠ 1 then
    let f := d.d2s
    some (c * (f * f) + y % f * f + x % f, y / f, x / f)
  else some (c, y, x)

/-- `fold` of R254. -/
def foldIndex (replicate : Bool) (y : Int) (n : Nat) : Nat :=
  if replicate then (min (max y 0) ((n : Int) - 1)).toNat
  else if n = 1 then 0
  else
    let m := 2 * (n - 1)
    let y := (y % (m : Nat)).toNat
    if n ≤ y then m - y else y

namespace Machine

/-- Encoding of a presented element. -/
def winElement (s : State) (core : Nat) (d : WinDesc) (size c y x : Nat) : Nat :=
  match d.stored c y x with
  | none => d.padValue % 256 ^ size
  | some (sc, sy, sx) => leNat (scratchRead s core (d.offset size sc sy sx) size)

/-- Encoding that a tap of channel `c` reads (R252, R254). -/
def winTap (s : State) (core : Nat) (d : WinDesc) (size c tap pos : Nat) : Nat :=
  let oy := pos / d.outW
  let ox := pos % d.outW
  let iy : Int := (oy * d.sy + tap / d.kw * d.dy : Nat) - (d.padTop : Int)
  let ix : Int := (ox * d.sx + tap % d.kw * d.dx : Nat) - (d.padLeft : Int)
  if 0 ≤ iy ∧ iy < d.presH ∧ 0 ≤ ix ∧ ix < d.presW then winElement s core d size c iy.toNat ix.toNat
  else if d.padMode = 0 then d.padValue % 256 ^ size
  else
    let r := decide (d.padMode = 1)
    winElement s core d size c (foldIndex r iy d.presH) (foldIndex r ix d.presW)

/-- Element `j` of a CONV row: the tap value of index `k0 + j`, 0 beyond the channels or the taps (R253). -/
def convElement (s : State) (core : Nat) (d : WinDesc) (kRow size pos j : Nat) : Nat :=
  let k := d.k0 + j
  let cp := roundUp kRow d.presC
  let (c, t) := if d.tapInner then (k / d.taps, k % d.taps) else (k % cp, k / cp)
  if d.presC ≤ c ∨ d.taps ≤ t then 0 else winTap s core d size c t pos

/-- Which of two encodings a maximum keeps: a NaN beats every value, +0 ranks above −0 (R261). -/
def poolMax (fmt a b : Nat) : Nat :=
  let x := elemVal fmt a
  let y := elemVal fmt b
  if x.isNan then a
  else if y.isNan then b
  else if x.lt y then b
  else if y.lt x then a
  else match x with
    | .num true 0 _ => b
    | _ => a

/-- The element of tap `t` and channel `k0 + j` in a pooling operation (R259). A channel at or above C′ reads as zero: R253 says so
for CONV, R259 is silent (DESIGN CHOICE, log entry 141). -/
def poolElement (s : State) (core : Nat) (d : WinDesc) (size t pos j : Nat) : Nat :=
  if d.presC ≤ d.k0 + j then 0 else winTap s core d size (d.k0 + j) t pos

/-- The rows that the window feeder presents for row `i`: one, or one for each tap of POOL_AVG (R251, R253, R261, R262). -/
def windowRows (s : State) (core : Nat) (o : RowOp) (i : Nat) : List (List Byte) :=
  let d := WinDesc.parse o.desc
  let size := elemBits o.fmt / 8
  let pos := d.pos0 + i
  if d.op = 0 then
    [packElems o.fmt ((List.range o.mode.k).map fun j => convElement s core d o.mode.k size pos j)]
  else
    let tap (t : Nat) : List Nat := (List.range 32).map fun j => poolElement s core d size t pos j
    if d.op = 1 then
      [packElems o.fmt ((List.range 32).map fun j =>
        (List.range (d.taps - 1)).foldl (fun m t => poolMax o.fmt m (poolElement s core d size (t + 1) pos j))
          (poolElement s core d size 0 pos j))]
    else (List.range d.taps).map fun t => packElems o.fmt (tap t)

/-- Number of rows that enter for row `i`. -/
def rowCount (o : RowOp) : Nat :=
  if o.window then
    let d := WinDesc.parse o.desc
    if d.op = 2 then d.taps else 1
  else 1

/-- The bytes of activation row `i`, a masked row entering as zero and not read (R72, R168). -/
def activationRows (s : State) (core : Nat) (lens : List Nat) (o : RowOp) (i : Nat) : List (List Byte) :=
  if o.masked lens i then List.replicate (rowCount o) (zeroBytes (o.mode.rowBytes o.fmt))
  else if o.window then windowRows s core o i
  else
    [scratchRead s core ((((o.addr : Int) + i * o.stride) % 8388608).toNat) (o.mode.rowBytes o.fmt)]

/-- The block scale bytes of activation row `i` (R94). Those of a masked row, which is not read, count as 127. -/
def activationScales (s : State) (core : Nat) (lens : List Nat) (o : RowOp) (i : Nat) : List Byte :=
  match o.scales with
  | none => []
  | some (a, st) =>
    if o.masked lens i then List.replicate (o.mode.scaleBytes o.fmt) 127
    else scratchRead s core ((((a : Int) + i * st) % 8388608).toNat) (o.mode.scaleBytes o.fmt)

/-- Row group `g`'s slice of a row (R87). -/
def groupSlice (o : RowOp) (g : Nat) (row : List Byte) : List Byte :=
  let n := o.mode.rowBytes o.fmt / 4
  (row.drop (g * n)).take n

/-- The weight rows and the column scales of a load, as scratch holds them now (R72, R94). -/
def weightRows (s : State) (core : Nat) (o : LoadOp) : List (List Byte) × List Byte :=
  ((List.range 32).map fun (r : Nat) =>
      scratchRead s core ((((o.addr : Int) + r * o.stride) % 8388608).toNat) (o.mode.weightBytes o.fmt),
    match o.scales with
    | none => []
    | some a => scratchRead s core a (32 * o.mode.scaleBytes o.fmt))

end Machine
end Sys2Proof
end

