-- ==== Sys2Proof/Machine/Bundle.lean ====
section
/-! DEFINITION. Bundles and shuttle descriptors as a pricking holds them, and the checks that a bundle or a descriptor must
pass by itself (chapter 6, Tables 6-2 to 6-10; R161, R163, R166, R168, R172 to R175, R184, R795). -/

namespace Sys2Proof

/-- Bits `lo` to `lo + n - 1` of a number. -/
def bitsAt (v lo n : Nat) : Nat := v / 2 ^ lo % 2 ^ n

/-- A signed field of `n` bits. -/
def signedBits (v lo n : Nat) : Int :=
  let x := bitsAt v lo n
  if x < 2 ^ (n - 1) then (x : Int) else (x : Int) - (2 ^ n : Nat)

/-- A signed little-endian field of 4 bytes. -/
def fieldInt (bs : List Byte) (off : Nat) : Int := signedBits (field bs off 4) 0 32

/-- Bundle `i` of a CODE section, as a number of 256 bits. -/
def bundleAt (code : List Byte) (i : Nat) : Nat := leNat ((code.drop (32 * i)).take 32)

/-- The slots of a bundle: VALID bit, lowest bit and width (Table 6-2). -/
def bundleSlots : List (Nat × Nat × Nat) := [(0, 16, 48), (1, 64, 48), (2, 112, 64), (3, 176, 32), (4, 208, 48)]

/-- A slot of a bundle, none when it is not VALID. -/
def slotOf (b : Nat) (i : Nat) : Option Nat :=
  match bundleSlots[i]? with
  | none => none
  | some (v, lo, n) => if b.testBit v then some (bitsAt b lo n) else none

/-- The ARRAY slot (Table 6-3). -/
structure ArraySlot where
  op : Nat
  array : Nat
  hoop : Nat
  fmt : Nat
  areg : Nat
  sreg : Nat
  nm1 : Nat
  mode : Nat
  reserved : Nat
  deriving DecidableEq, Repr

/-- An ARRAY slot from its bits. -/
def ArraySlot.parse (v : Nat) : ArraySlot where
  op := bitsAt v 0 2
  array := bitsAt v 2 2
  hoop := bitsAt v 4 1
  fmt := bitsAt v 5 8
  areg := bitsAt v 13 5
  sreg := bitsAt v 18 5
  nm1 := bitsAt v 24 16
  mode := bitsAt v 40 3
  reserved := bitsAt v 23 1 + bitsAt v 43 5

/-- Table 2-4: a weight and an activation format pair in a mode. -/
def pairOk (mode w a : Nat) : Bool :=
  let f8 := [0x10, 0x11, 0x20, 0x21, 0x22, 0x23, 0x25]
  match mode with
  | 0 => [1, 2, 3, 4].contains w && [1, 2].contains a
  | 1 => [3, 4].contains w && [3, 4].contains a
  | 2 => f8.contains w && f8.contains a
  | 3 => decide (w = 0x24) && decide (a = 0x24)
  | 4 => decide (w = 0x40) && [0x30, 0x31].contains a
  | 5 => decide (w = a) && [0x30, 0x31].contains w
  | _ => false

/-- An ARRAY slot keeps Table 6-3 (R163, R80). -/
def ArraySlot.ok (a : ArraySlot) : Bool :=
  decide (a.reserved = 0) && decide (a.mode ≤ 5) &&
    (match a.op with
    | 0 => decide (a.nm1 = 0)
    | 1 => decide (a.nm1 = 31)
    | 2 => true
    | _ => decide (a.nm1 = 0) && decide (a.fmt = 0) && decide (a.sreg = 0)) &&
    (decide (a.sreg = 0) || isMx a.fmt)

/-- The formats of an ARRAY slot pair with some other in its mode (R41, R56). -/
def ArraySlot.fmtOk (a : ArraySlot) : Bool :=
  match a.op with
  | 0 => fmtCodes.any fun x => pairOk a.mode a.fmt x
  | 1 | 2 => fmtCodes.any fun w => pairOk a.mode w a.fmt
  | _ => true

/-- The DRAIN slot keeps Table 6-4; the vector unit takes PLAIN drains only (R115, R166, Table 4-5). -/
def drainSlotOk (v : Nat) : Bool :=
  decide (bitsAt v 0 2 ≠ 3) && decide (bitsAt v 18 30 = 0) && (decide (bitsAt v 7 1 = 0) || decide (bitsAt v 0 2 = 0))

/-- Operations of Table 6-7. -/
def vectorOps : List Nat :=
  [1, 2, 3, 4, 5, 6, 7, 8, 9, 10, 0x10, 0x11, 0x12, 0x13, 0x14, 0x15, 0x16, 0x17, 0x20, 0x21, 0x22, 0x23, 0x30, 0x31, 0x32,
    0x40, 0x41]

/-- A lane format that an operation takes (R173, Table 6-7). -/
def laneOk (op lfmt : Nat) : Bool :=
  if [0x20, 0x23, 0x40, 0x41].contains op then decide (lfmt = 0)
  else if [1, 2, 5, 6, 7, 8, 9, 10, 0x30, 0x31, 0x32].contains op then decide (lfmt ≤ 2)
  else decide (lfmt ≤ 1)

/-- IMM of a vector operation (Table 6-6, R175, R795). -/
def immOk (op lfmt imm : Nat) : Bool :=
  match op with
  | 0x07 => decide (imm ≤ 2)
  | 0x09 => true
  | 0x0A =>
    let target := imm % 256
    let m := imm / 256 % 4
    let lanes := 64 * 2 ^ lfmt
    [0x01, 0x02, 0x03, 0x04, 0x05, 0x10, 0x11, 0x30, 0x31, 0x32].contains target && decide (imm / 1024 = 0) &&
      decide (m * min lanes (2048 / elemBits target) < lanes)
  | 0x40 | 0x41 => decide (imm < 32)
  | _ => decide (imm = 0)

/-- The VECTOR slot keeps Tables 6-6 and 6-7. -/
def vectorSlotOk (v : Nat) : Bool :=
  let op := bitsAt v 32 8
  let lfmt := bitsAt v 40 2
  vectorOps.contains op && laneOk op lfmt && immOk op lfmt (bitsAt v 0 32) && decide (bitsAt v 62 2 = 0) &&
    (!([0x20, 0x23].contains op) || decide (bitsAt v 42 5 ≤ 30))

/-- The SHUTTLE slot keeps Table 6-9. -/
def shuttleSlotOk (v : Nat) : Bool :=
  decide (bitsAt v 19 13 = 0) &&
    match bitsAt v 0 2 with
    | 0 => true
    | 1 => decide (bitsAt v 7 12 = 0)
    | _ => false

/-- Operand bits of a CONTROL operation, lowest bit and width each; none for a reserved code (Table 6-5). -/
def controlFields (v : Nat) : Option (List (Nat × Nat)) :=
  match bitsAt v 0 6 with
  | 0x01 => some (if v.testBit 8 then [(6, 2), (8, 1), (9, 4), (25, 14)] else [(6, 2), (8, 1), (9, 16), (25, 14)])
  | 0x02 => some [(6, 14)]
  | 0x03 => some [(6, 4)]
  | 0x04 => some [(6, 4), (10, 14), (24, 24)]
  | 0x05 => some [(6, 10)]
  | 0x06 => some [(6, 2), (8, 4), (12, 24), (36, 1)]
  | 0x08 => some [(6, 5), (11, 23)]
  | 0x09 | 0x0A => some [(6, 5), (11, 24)]
  | 0x0B => some [(6, 5), (11, 4), (15, 24)]
  | 0x3F => some []
  | _ => none

/-- The CONTROL slot holds nothing but its code and its operands (R168). -/
def controlSlotOk (v : Nat) : Bool :=
  match controlFields v with
  | none => false
  | some fs => decide (v = bitsAt v 0 6 + fs.foldl (fun n f => n + bitsAt v f.1 f.2 * 2 ^ f.1) 0)

/-- A slot that is not VALID is zero, and so are the reserved bits of the bundle (R161). -/
def bundleShapeOk (b : Nat) : Bool :=
  decide (bitsAt b 5 11 = 0) && bundleSlots.all fun s => b.testBit s.1 || decide (bitsAt b s.2.1 s.2.2 = 0)

/-- A bundle's slots by themselves (subcode CODE). -/
def bundleOk (b : Nat) : Bool :=
  let test (i : Nat) (p : Nat → Bool) : Bool := match slotOf b i with
    | none => true
    | some v => p v
  bundleShapeOk b && test 0 (fun v => (ArraySlot.parse v).ok) && test 1 drainSlotOk && test 2 vectorSlotOk &&
    test 3 shuttleSlotOk && test 4 controlSlotOk

/-- Branch targets lie within the code, and a `TSKIP` within its table (Table 7-12 CODE). -/
def branchOk (n skips v : Nat) : Bool :=
  match bitsAt v 0 6 with
  | 0x02 => decide (bitsAt v 6 14 < n)
  | 0x04 => decide (bitsAt v 10 14 < n)
  | 0x05 => decide (bitsAt v 6 10 < skips)
  | _ => true

/-- Loops nest as R169 says, over the bundles in order: `opened` holds the LEVEL and END of the enclosing ones. -/
def loopsOk (code : List Byte) (n : Nat) : Nat → Nat → List (Nat × Nat) → Bool
  | 0, _, _ => true
  | left + 1, i, opened =>
    let opened := opened.filter fun o => decide (i ≤ o.2)
    match slotOf (bundleAt code i) 4 with
    | none => loopsOk code n left (i + 1) opened
    | some v =>
      if bitsAt v 0 6 = 1 then
        let last := bitsAt v 25 14
        let level := bitsAt v 6 2
        decide (i < last) && decide (last < n) && (opened.all fun o => decide (last ≤ o.2)) &&
          !(opened.map (·.1)).contains level && (v.testBit 8 || decide (1 ≤ bitsAt v 9 16)) &&
          loopsOk code n left (i + 1) ((level, last) :: opened)
      else loopsOk code n left (i + 1) opened

/-- The checks of subcode CODE on one role's bundles that need no path. -/
def codeOk (code : List Byte) (n skips : Nat) : Bool :=
  ((List.range n).all fun i =>
    bundleOk (bundleAt code i) && match slotOf (bundleAt code i) 4 with
      | none => true
      | some v => branchOk n skips v) && loopsOk code n n 0 []

/-! ## Descriptors (Table 6-10) -/

/-- A descriptor from its 64 bytes. -/
def Desc.parse (b : List Byte) : Desc where
  form := field b 0 1
  gate := (field b 1 1).testBit 0
  srcSlot := (field b 1 1).testBit 1
  dstSlot := (field b 1 1).testBit 2
  slot := field b 2 2
  src := BitVec.ofNat 64 (field b 8 8)
  dst := BitVec.ofNat 64 (field b 16 8)
  count0 := field b 0x18 4
  count1 := field b 0x1C 4
  count2 := field b 0x20 4
  sstride1 := fieldInt b 0x24
  sstride2 := fieldInt b 0x28
  dstride1 := fieldInt b 0x2C
  dstride2 := fieldInt b 0x30
  gateBase := field b 0x34 4
  gateStep := field b 0x38 4
  lenDim := field b 0x3C 1
  lenReg := field b 0x3D 1

/-- Bytes of a structure are zero outside some fields, each an offset and a length. -/
def zeroOutside (b : List Byte) (fields : List (Nat × Nat)) : Bool :=
  (List.range b.length).all fun i =>
    (fields.any fun f => decide (f.1 ≤ i) && decide (i < f.1 + f.2)) || decide (b.getD i 0 = 0)

/-- A descriptor keeps Table 6-10 and R184. -/
def descOk (b : List Byte) : Bool :=
  let d := Desc.parse b
  let big := 2 ^ 24
  if d.form = 5 then zeroOutside b [(0, 1), (8, 8)]
  else
    decide (1 ≤ d.form ∧ d.form ≤ 4) && decide (field b 1 1 < 8) && zeroOutside b [(0, 4), (8, 0x36)] &&
      decide (1 ≤ d.count0 ∧ d.count0 ≤ big) && decide (1 ≤ d.count1 ∧ d.count1 ≤ big) &&
      decide (1 ≤ d.count2 ∧ d.count2 ≤ big) && (decide (d.form ≠ 1) || decide (d.count1 = 1)) &&
      (decide (d.form = 3) || decide (d.count2 = 1)) && decide (d.lenDim ≤ 2) && decide (d.lenReg ≤ 15)

end Sys2Proof
end

