-- ==== Sys2Proof/Machine/Aer.lean ====
section
/-! DEFINITION. Advanced Error Reporting: the status, severity, mask and header log of the endpoint's errors, and the messages that
report them (R600, R614 to R616, Table 20-3). What the manual leaves to the PCI Express Base Specification is as that has it
(PRESUMED, log entry 146). -/

namespace Sys2Proof

/-- What a configuration byte that is kept as written reads until it is written: default severities of AER, no margining command
on a lane, the exchange of Data Link features enabled. -/
def cfgDefault (off : Nat) : Byte :=
  if 0x10C ≤ off ∧ off < 0x110 then BitVec.ofNat 8 (0x462030 / 256 ^ (off - 0x10C))
  else if 0x208 ≤ off ∧ off < 0x248 then BitVec.ofNat 8 (0x9C38 / 256 ^ (off % 4))
  else if off = 0x26F then 0x80
  else 0

/-- A configuration byte that is kept as written. -/
def PcieUnit.kept (p : PcieUnit) (off : Nat) : Byte := SMap.get (cfgDefault off) p.cfg off

/-- AER severity of an uncorrectable error: fatal. -/
def PcieUnit.fatal (p : PcieUnit) (bit : Nat) : Bool := (p.kept (0x10C + bit / 8)).getLsbD (bit % 8)

/-- Command: Parity Error Response. -/
def PcieUnit.parityResponse (p : PcieUnit) : Bool := (p.kept 0x04).getLsbD 6
/-- Command: SERR# Enable. -/
def PcieUnit.serrEnable (p : PcieUnit) : Bool := (p.kept 0x05).getLsbD 0

/-- Bits of AER Uncorrectable Error Status. -/
abbrev ueCompletionTimeout : Nat := 14
abbrev uePoisoned : Nat := 12
abbrev ueUnexpected : Nat := 16
abbrev ueUnsupported : Nat := 20
abbrev ueInternal : Nat := 22
/-- Bits of AER Correctable Error Status. -/
abbrev ceAdvisory : Nat := 13
abbrev ceInternal : Nat := 14

namespace Machine

/-- A bit of the Status register is set (R600). -/
def statusBit (bit : Nat) (s : State) : State := s.modPcie fun p => { p with status := p.status ||| BitVec.ofNat 16 (2 ^ bit) }

/-- An error message goes out, 0 correctable, 1 non-fatal, 2 fatal, where Device Control lets it, or for an uncorrectable error
SERR# Enable. -/
def errorMessage (level : Nat) (s : State) : State :=
  let serr := s.pcie.serrEnable && decide (level ≠ 0)
  let s' := if serr then statusBit 14 s else s
  if (s.pcie.kept 0x68).getLsbD level || serr then s'.push (.errorMessage level) else s'

/-- Bits of Device Status are set. -/
def deviceStatus (bits : Nat) (s : State) : State := s.modPcie fun p => { p with devStatus := p.devStatus ||| BitVec.ofNat 4 bits }

/-- A correctable error: its status, and its message unless it is masked. -/
def correctableError (bit : Nat) (s : State) : State :=
  let s := deviceStatus 1 (s.modPcie fun p => { p with corr := p.corr ||| BitVec.ofNat 32 (2 ^ bit) })
  if s.pcie.corrMask.getLsbD bit then s else errorMessage 0 s

/-- The header log takes the header of a TLP in error that is not masked, unless it holds the header of an earlier error whose
status still stands. -/
def logHeader (bit : Nat) (header : List Byte) (s : State) : State :=
  if s.pcie.uncorrMask.getLsbD bit || s.pcie.uncorr.getLsbD s.pcie.firstError then s
  else s.modPcie fun p => { p with firstError := bit, headerLog := header }

/-- An uncorrectable error of a TLP with its header: its status by its severity, the header log, and its message unless it is
masked; an advisory one that is not fatal is reported as correctable. -/
def uncorrectableError (bit : Nat) (advisory : Bool) (header : List Byte) (s : State) : State :=
  let ur := if bit = ueUnsupported then 8 else 0
  let masked := s.pcie.uncorrMask.getLsbD bit
  let s := logHeader bit header s
  let s := s.modPcie fun p => { p with uncorr := p.uncorr ||| BitVec.ofNat 32 (2 ^ bit) }
  if s.pcie.fatal bit then (deviceStatus (4 + ur) s |> fun s => if masked then s else errorMessage 2 s)
  else if advisory then correctableError ceAdvisory (deviceStatus ur s)
  else (deviceStatus (2 + ur) s |> fun s => if masked then s else errorMessage 1 s)

/-- A card fault is reported through AER as an internal error (R614, Table 20-3). -/
def internalError (correctable : Bool) (s : State) : State :=
  if correctable then correctableError ceInternal s else uncorrectableError ueInternal false (List.replicate 16 0xFF) s

/-- A request that the endpoint does not complete: Unsupported Request, which a non-posted one is answered with (R614, R616). -/
def unsupportedTlp (posted : Bool) (header : List Byte) (s : State) : State :=
  let s := uncorrectableError ueUnsupported (!posted) header s
  if posted then s else s.push .unsupported

/-- The same for a request whose header the model does not hold: the header is free. -/
def unsupported (posted : Bool) (s : State) : State := (unsupportedTlp posted (freeBytes 16 s) s).useFreshN 16

/-- A poisoned TLP that the card receives (R615). -/
def poisonedTlp (header : List Byte) (s : State) : State := statusBit 15 (uncorrectableError uePoisoned true header s)

end Machine
end Sys2Proof
end

