-- ==== Sys2Proof/Machine/Mirror.lean ====
section
/-! DEFINITION. Objects as they cross the bride, and what waits for the partner (R735 to R738). -/

namespace Sys2Proof

/-- Replace the element with the same key, or append. -/
def upsert {α κ : Type} [DecidableEq κ] (key : α → κ) (x : α) (l : List α) : List α :=
  if l.any (fun y => decide (key y = key x)) then l.map fun y => if key y = key x then x else y else l ++ [x]

/-- Remove the elements with a key. -/
def removeKey {α κ : Type} [DecidableEq κ] (key : α → κ) (k : κ) (l : List α) : List α :=
  l.filter fun y => !decide (key y = k)

/-- What turns an old list of objects into a new one: those that end go first, as a leave comes before a join (R306, R323). -/
def diffBy {α κ : Type} [DecidableEq α] [DecidableEq κ] (key : α → κ) (mk gone : α → ObjRec) (old new : List α) :
    List ObjRec :=
  (old.filter fun x => !new.any fun y => decide (key y = key x)).map gone ++
    (new.filter fun x => !old.contains x).map mk

/-- What turns old objects into new ones (R735). -/
def Objects.diff (old new : Objects) : List ObjRec :=
  diffBy (·.handle) .session (fun x => .gone x.handle) old.sessions new.sessions ++
  diffBy (·.handle) .stream (fun x => .gone x.handle) old.streams new.streams ++
  diffBy (·.handle) .flow (fun x => .gone x.handle) old.flows new.flows ++
  diffBy (·.handle) .model (fun x => .gone x.handle) old.models new.models ++
  diffBy (·.handle) .bobbin (fun x => .gone x.handle) old.bobbins new.bobbins ++
  diffBy (·.handle) .pool (fun x => .gone x.handle) old.pools new.pools ++
  diffBy (·.handle) .client (fun x => .gone x.handle) old.clients new.clients ++
  diffBy (·.handle) .pageSet (fun x => .gone x.handle) old.pageSets new.pageSets ++
  diffBy (·.handle) .unit (fun x => .gone x.handle) old.units new.units ++
  diffBy (·.handle) .partition (fun x => .gone x.handle) old.partitions new.partitions ++
  diffBy (·.id) .stitch (fun x => .stitchGone x.id) old.stitches new.stitches ++
  diffBy (·.id) .item (fun x => .itemGone x.id) old.items new.items ++
  diffBy (·.id) .dest (fun x => .destGone x.id) old.dests new.dests ++
  diffBy (·.stream) .route (fun x => .routeGone x.stream) old.routes new.routes ++
  diffBy id .addr .addrGone old.addrs new.addrs ++
  diffBy id .group .groupGone old.groups new.groups ++
  diffBy id .region .regionGone old.regions new.regions ++
  (if old.heldPicots = new.heldPicots then [] else [.picotsHeld new.heldPicots])

/-- The objects after one mirrored change. -/
def Objects.apply (o : Objects) : ObjRec → Objects
  | .session x => { o with sessions := upsert (·.handle) x o.sessions }
  | .stream x => { o with streams := upsert (·.handle) x o.streams }
  | .flow x => { o with flows := upsert (·.handle) x o.flows }
  | .model x => { o with models := upsert (·.handle) x o.models }
  | .bobbin x => { o with bobbins := upsert (·.handle) x o.bobbins }
  | .pool x => { o with pools := upsert (·.handle) x o.pools }
  | .client x => { o with clients := upsert (·.handle) x o.clients }
  | .pageSet x => { o with pageSets := upsert (·.handle) x o.pageSets }
  | .unit x => { o with units := upsert (·.handle) x o.units }
  | .partition x => { o with partitions := upsert (·.handle) x o.partitions }
  | .stitch x => { o with stitches := upsert (·.id) x o.stitches }
  | .item x => { o with items := upsert (·.id) x o.items }
  | .dest x => { o with dests := upsert (·.id) x o.dests }
  | .route x => { o with routes := upsert (·.stream) x o.routes }
  | .addr x => { o with addrs := upsert id x o.addrs }
  | .group x => { o with groups := upsert id x o.groups }
  | .region x => { o with regions := upsert id x o.regions }
  | .gone h =>
    { o with
      sessions := removeKey (·.handle) h o.sessions
      streams := removeKey (·.handle) h o.streams
      flows := removeKey (·.handle) h o.flows
      models := removeKey (·.handle) h o.models
      bobbins := removeKey (·.handle) h o.bobbins
      pools := removeKey (·.handle) h o.pools
      clients := removeKey (·.handle) h o.clients
      pageSets := removeKey (·.handle) h o.pageSets
      units := removeKey (·.handle) h o.units
      partitions := removeKey (·.handle) h o.partitions }
  | .stitchGone i => { o with stitches := removeKey (·.id) i o.stitches }
  | .itemGone i => { o with items := removeKey (·.id) i o.items }
  | .destGone i => { o with dests := removeKey (·.id) i o.dests }
  | .routeGone h => { o with routes := removeKey (·.stream) h o.routes }
  | .addrGone x => { o with addrs := removeKey id x o.addrs }
  | .groupGone x => { o with groups := removeKey id x o.groups }
  | .regionGone x => { o with regions := removeKey id x o.regions }
  | .picotsHeld l => { o with heldPicots := l }

/-- A replica stream after a record of it, on a card that decodes it in shadow: what the shadow decode keeps stays (R739). -/
def Stream.follow (y x : Stream) : Stream :=
  if x.enc.isSome then x
  else
    { x with
      outBufs := y.outBufs, parse := y.parse, nextFrame := y.nextFrame, marked := y.marked, parsed := y.parsed
      refPics := y.refPics, grainSent := y.grainSent, statusCount := y.statusCount, lastDecoded := y.lastDecoded
      lastForwarded := y.lastForwarded, aus := y.aus, pics := y.pics, parsing := y.parsing, cra := y.cra
      skipReason := y.skipReason, closedFrames := y.closedFrames, dec := y.dec
      outputs := (List.range x.outputs.length).zipWith
        (fun n o => { o with ctr := ((y.outputs[n]?).map (·.ctr)).getD o.ctr }) x.outputs }

/-- A stream as its shadow decode begins: what an engine of the active card decodes waits for an engine of this one. -/
def Stream.beginShadow (x : Stream) (tick : Nat) : Stream :=
  { x with pics := x.pics.map fun p => match p.phase with
      | .onEngine _ | .parkedSlice => { p with phase := .queued tick, started := false, decoded := 0, rowsDone := 0, luma := [], chromaRows := [] }
      | _ => p }

/-- Two records of one item of a picture. -/
def Item.same (i k : Item) : Bool :=
  decide (i.id = k.id) ||
    (decide (i.stream = k.stream) && decide (i.output = k.output) && decide (i.frame = k.frame) &&
      (decide (i.kind ≠ 4) || decide (i.buf = k.buf)))

/-- The replicas after one mirrored change, on a card that decodes and scales them in shadow (R739): an item that the shadow
writes takes the active card's number and binding, and keeps its rows. -/
def Objects.follow (o : Objects) (tick : Nat) : ObjRec → Objects
  | .stream x =>
    match o.streams.find? fun y => decide (y.handle = x.handle) with
    | some y => o.apply (.stream (y.follow x))
    | none => o.apply (.stream (x.beginShadow tick))
  | .item x =>
    match o.items.find? fun y => y.same x with
    | some y =>
      let z := if y.foreign then { x with foreign := true } else { y with id := x.id, state := x.state }
      { o with
        items := listUpd (fun k => decide (k.id = y.id)) (fun _ => z) o.items
        jobs := listUpd (fun j => decide (j.item = y.id) && decide (j.item ≠ 0)) (fun j => { j with item := x.id }) o.jobs }
    | none => o.apply (.item { x with foreign := true })
  | .itemGone i =>
    { o.apply (.itemGone i) with
      jobs := (o.jobs.filter fun j => !(decide (j.item = i) && !j.running)).map fun j =>
        if j.item = i then { j with ended := true } else j }
  | r => o.apply r

/-- The objects after a list of mirrored changes. -/
def Objects.applyAll (o : Objects) (rs : List ObjRec) : Objects := rs.foldl Objects.apply o

namespace Machine

/-- The pair is healthy: formed and in sync (R732). -/
def healthy (s : State) : Bool := decide (s.pair.mode ≠ 0) && s.pair.inSync

/-- PAIR code of HEALTH, HEV.STATE and `PAIR_STATUS` (Table 17-4). -/
def pairCode (s : State) : Nat :=
  if s.pair.mode = 2 then 3 else if s.pair.mode = 1 then (if s.pair.role = 2 then 2 else 1) else 0

/-- This card is the standby of a MIRRORED pair: it decodes and scales the active card's streams in shadow (R735, R739). -/
def shadowing (s : State) : Bool := decide (s.pair.mode = 1) && decide (s.pair.role = 2)

/-- The state as the shadow decode sees it: the replicas are its objects, and nothing of it is mirrored. -/
def enterShadow (s : State) : State :=
  { s with obj := s.pair.replica, pair := { s.pair with mode := 0, replica := {} } }

/-- The state after a step of the shadow decode: the replicas, the units and the memory that it changed. No picot, record or
other message leaves by it, and encode streams follow the active card (R739). -/
def leaveShadow (s w : State) : State :=
  let old := s.pair.replica
  let enc (x : Stream) : Option EncodeState := (old.streams.find? fun y => decide (y.handle = x.handle)).bind (·.enc)
  { w with
    out := s.out
    obj := s.obj
    ctr := { w.ctr with produced := s.ctr.produced, delivered := s.ctr.delivered, dropped := s.ctr.dropped }
    pair := { s.pair with replica := { w.obj with
      streams := w.obj.streams.map fun x => { x with enc := enc x }
      jobs := w.obj.jobs.filter fun j => j.encode.isNone
      dests := old.dests, heldPicots := old.heldPicots, heldRecs := old.heldRecs, pageSets := old.pageSets } } }

/-- A change of the decode and scaler units goes to the replicas on a card that works in shadow (R739). -/
def shadowed (f : State → State) (s : State) : State := if shadowing s then leaveShadow s (f (enterShadow s)) else f s

/-- An event of the decode and scaler units goes to the replicas on a card that works in shadow (R739). -/
def onShadow (f : State → Result) (s : State) : Result :=
  if shadowing s then
    match f (enterShadow s) with
    | .next w => .next (leaveShadow s w)
    | r => r
  else f s

/-- What crosses the bride of a change in a mode: items only in MIRRORED mode (Table 24-3). -/
def mirrors (mode : Nat) : ObjRec → Bool
  | .item _ | .itemGone _ => decide (mode = 1)
  | _ => true

/-- Changes of this card's objects that the partner has not been sent. -/
def unsent (s : State) : List ObjRec := (Objects.diff s.pair.mirrored s.obj).filter (mirrors s.pair.mode)

/-- Changes of this card's objects that the partner has not been sent are sent as one mirror item (R735). -/
def mirrorFlush (s : State) : State :=
  if healthy s then
    match unsent s with
    | [] => s
    | rs =>
      let n := s.pair.sendSeq + 1
      (s.modPair fun p => { p with sendSeq := n, mirrored := s.obj }).push (.bride (.mirror n rs))
  else s

/-- A mirror item of another kind is sent; it takes the next number (R735). -/
def mirrorItem (f : Nat → BrideMsg) (s : State) : State :=
  if healthy s then
    let s := mirrorFlush s
    let n := s.pair.sendSeq + 1
    (s.modPair fun p => { p with sendSeq := n }).push (.bride (f n))
  else s

/-- Something must wait for the partner's acknowledgement (R736). -/
def mustWait (s : State) : Bool := healthy s && decide (s.pair.ackSeq < s.pair.sendSeq)

/-- An output that must follow its mirror item: it waits for the acknowledgement, in order. -/
def defer (d : Deferred) (s : State) : State :=
  s.modPair fun p => { p with waiting := p.waiting ++ [(p.sendSeq, d)] }

/-- A page's DONE is written, or a datagram is sent: the picots up to a SEQUENCE are delivered, and counted, but those that were
delivered before (R531, R568). -/
def Dest.settle (d : Dest) (lastSeq : Nat) : Dest :=
  { d with
    awaiting := d.awaiting.filter fun p => decide (lastSeq < p.seq)
    delivered := d.delivered + (d.awaiting.filter fun p => decide (p.seq ≤ lastSeq ∧ d.deliveredSeq < p.seq)).length
    deliveredSeq := max d.deliveredSeq lastSeq
    pages := d.pages + 1 }

/-- The card's count follows a destination's (R531). -/
def countDelivered (dest lastSeq : Nat) (s : State) : State :=
  match s.obj.dests.find? fun d => decide (d.id = dest) with
  | none => s
  | some d =>
    let d' := Dest.settle d lastSeq
    let s := s.modCtr fun c => { c with delivered := c.delivered + (d'.delivered - d.delivered) }
    s.modObj fun o => { o with dests := listUpd (fun d => decide (d.id = dest)) (fun _ => d') o.dests }

end Machine
end Sys2Proof
end

