-- ==== Sys2Proof/Machine/HostOps.lean ====
section
/-! DEFINITION. Completion pages, records, events, faults, and the mailbox protocol (chapters 18, 19 and 24). -/

namespace Sys2Proof

/-- A stitch completion record (Table 16-7). -/
def StitchRec.bytes (r : StitchRec) : List Byte :=
  leBytes 1 1 ++ leBytes 1 1 ++ leBytes 1 r.outcome ++ leBytes 1 r.cls ++ leBytes 2 r.status ++ leBytes 2 r.detail ++
  leBytes 8 r.id ++ leBytes 4 r.tag ++ leBytes 4 r.partition.toNat ++ leBytes 4 r.model.toNat ++
  leBytes 4 r.client.toNat ++ leBytes 8 r.start.sec ++ leBytes 4 r.start.ns ++ leBytes 4 (min r.waitUs (2 ^ 32 - 1)) ++
  leBytes 8 r.finish.sec ++ leBytes 4 r.finish.ns ++ leBytes 4 r.residencyUs ++ leBytes 8 r.cycles ++
  (r.slip.map fun x => leBytes 4 (min x (2 ^ 32 - 1))).flatten ++ leBytes 8 r.late ++ leBytes 4 r.ovfTiles ++
  leBytes 4 r.replays ++ leBytes 1 r.stepMax ++ leBytes 1 (r.debt.toNat + 2 * r.rerun.toNat) ++
  leBytes 2 r.joinFailed ++ leBytes 4 (128 + 8 * r.frames.length) ++ zeroBytes 8 ++
  (r.frames.map (leBytes 8)).flatten

/-- An event record (R554). -/
def EventRec.bytes (r : EventRec) : List Byte :=
  leBytes 1 1 ++ leBytes 1 2 ++ leBytes 2 r.code ++ leBytes 4 r.source ++ leBytes 8 r.time.sec ++ leBytes 4 r.time.ns ++
  zeroBytes 4 ++ ((List.range 4).map fun i => leBytes 8 (r.args.getD i 0)).flatten ++ zeroBytes 8

/-- The bytes of a record, padded to the next record's start (R554). -/
def CRec.bytes : CRec → List Byte
  | .stitch r => r.bytes
  | .event r => r.bytes

/-- Bytes that a record takes in a page. -/
def CRec.size : CRec → Nat
  | .stitch r => 128 + 8 * r.frames.length
  | .event _ => 64

/-- A core that stops at once: nothing of it remains in flight. -/
def ComputeCore.halt (c : ComputeCore) : ComputeCore :=
  { c with run := 0, arrays := [], sh0 := [], sh1 := [], knot := none, loops := [], counting := false }

namespace Machine

/-! ## Completion pages -/

/-- Bytes of a page (R552). -/
abbrev pageBytes : Nat := 65536

/-- The page set of KIND COMPLETION of a session. -/
def completionSet (s : State) (sess : Handle) : Option PageSet :=
  s.obj.pageSets.find? fun p => decide (p.session = sess) && decide (p.kind = 1)

/-- A page set replaced. -/
def setPageSet (p : PageSet) (s : State) : State :=
  s.modObj fun o => { o with pageSets := upsert (·.handle) p o.pageSets }

/-- A page's DONE is written and its set's vector sent: the page counts as filled, and the picots of a picot page as delivered
(R526, R531, R553, R554). A page that was discarded meanwhile gets none (R568). -/
def finishDone (d : DoneInfo) (s : State) : State :=
  match s.obj.pageSets.find? fun p => decide (p.handle = d.pageSet) with
  | none => s
  | some p =>
    if p.undone.contains d.addr then
      let s := s.pushLink (.hostWrite (d.addr + 0x3C) (leBytes 4 d.seq) false)
      let s := setPageSet { p with undone := p.undone.filter (· ≠ d.addr), filledCount := p.filledCount + 1 } s
      let s := match d.dest with
        | none => s
        | some i => countDelivered i d.lastSeq s
      sendMsix p.vector s
    else s

/-- A page's DONE goes out, or waits while Bus Master Enable is clear or the card is orphaned (R563, R610). -/
def sendDone (d : DoneInfo) (s : State) : State :=
  if s.pcie.bme && !decide (s.host.state = .orphaned) then finishDone d s
  else s.modPcie fun p => { p with waiting := p.waiting ++ [.done d] }

/-- A page's DONE follows its contents, after the partner's acknowledgement where there is one (R554, R736). -/
def writeDone (d : DoneInfo) (s : State) : State :=
  let s := mirrorFlush s
  if mustWait s then defer (.done d) s else sendDone d s

/-- What waits to be written into pages of a set never is. -/
def dropPageWrites (set : Handle) (s : State) : State :=
  let s := s.modPcie fun p =>
    { p with waiting := p.waiting.filter fun w => match w with
        | .msg _ | .resync _ _ _ | .read _ => true
        | .page x _ => decide (x ≠ set)
        | .done d => decide (d.pageSet ≠ set) }
  s.modPair fun p =>
    { p with waiting := p.waiting.filter fun w => match w.2 with
        | .done d => decide (d.pageSet ≠ set)
        | _ => true }

/-- Header of a completion page before DONE (Table 18-6). -/
def completionHeader (count fill seq : Nat) (sess : Handle) : List Byte :=
  leBytes 1 1 ++ leBytes 1 1 ++ leBytes 2 count ++ leBytes 4 fill ++ leBytes 8 seq ++ leBytes 4 sess.toNat ++ zeroBytes 40

/-- The page that a completion page set is filling is delivered (R554). -/
def deliverCompletion (p : PageSet) (s : State) : State :=
  match p.posted with
  | [] => s
  | addr :: rest =>
    if p.fill = 0 then s
    else
      let seq := p.pageSeq + 1
      let s := sendPage p.handle addr (completionHeader p.filling.length p.fill seq p.session) false s
      let s := sendPage p.handle (addr + 0x40) (p.filling.map CRec.bytes).flatten true s
      let s := setPageSet
        { p with
          posted := rest, pageSeq := seq, filling := [], fill := 0, undone := p.undone ++ [addr]
          sent := p.sent ++ [⟨addr, seq, 0, p.filling, []⟩] } s
      writeDone ⟨p.handle, addr, seq, none, 0⟩ s

/-- Host writes of pages have stopped: the orphaned state, FAULT, or a session taken over and held (R563, R744, R750). -/
def pagesStopped (s : State) (sess : Handle) : Bool :=
  decide (s.host.state = .orphaned) || decide (s.host.state = .fault) ||
    s.obj.sessions.any fun x => decide (x.handle = sess) && x.held

/-- A record is appended to the open page, which is opened first when none is. -/
def appendRecord (p : PageSet) (r : CRec) (s : State) : State :=
  let fill := if p.fill = 0 then 64 else p.fill
  setPageSet
    { p with
      filling := p.filling ++ [r], fill := fill + r.size, since := if p.fill = 0 then s.time.tick else p.since } s

/-- A record for a session is placed in its page, if one has room; a page in which it does not fit is delivered first (R554). -/
def tryPlace (sess : Handle) (r : CRec) (s : State) : Bool × State :=
  if pagesStopped s sess then (false, s)
  else
    match completionSet s sess with
    | none => (false, s)
    | some p =>
      let s := if p.fill ≠ 0 ∧ pageBytes < p.fill + r.size then deliverCompletion p s else s
      match completionSet s sess with
      | none => (false, s)
      | some p => if p.posted = [] then (false, s) else (true, appendRecord p r s)

/-- A completion record of a session is placed, or held with EVENT_PENDING set (R559); none passes one that is held. -/
def placeRecord (sess : Handle) (r : CRec) (s : State) : State :=
  let hold (s : State) : State := setCause causeEvent (s.modObj fun o => { o with heldRecs := o.heldRecs ++ [(sess, r)] })
  if s.obj.heldRecs.any fun x => decide (x.1 = sess) then hold s
  else
    match tryPlace sess r s with
    | (true, s) => s
    | (false, s) => hold s

/-- Held records are placed, in order, as far as pages allow. -/
def pumpRecords (s : State) : State :=
  let held := s.obj.heldRecs
  held.foldl
    (fun s x =>
      let keep (s : State) : State := s.modObj fun o => { o with heldRecs := o.heldRecs ++ [x] }
      if s.obj.heldRecs.any fun y => decide (y.1 = x.1) then keep s
      else
        match tryPlace x.1 x.2 s with
        | (true, s) => s
        | (false, s) => keep s)
    (s.modObj fun o => { o with heldRecs := [] })

/-! ## Events -/

/-- Event codes of Table 18-7a. -/
abbrev evRestart : Nat := 1
abbrev evImbalance : Nat := 2
abbrev evContained : Nat := 3
abbrev evCardFault : Nat := 4
abbrev evPairState : Nat := 5
abbrev evFailover : Nat := 6
abbrev evPowerLimit : Nat := 7
abbrev evLost : Nat := 8
abbrev evAdopted : Nat := 9

/-- Sessions that receive events. -/
def eventSessions (s : State) : List Handle := (s.obj.sessions.filter (·.events)).map (·.handle)

/-- An event in the store, with the sessions whose pages have it already. -/
abbrev StoredEvent := EventRec × List Handle

/-- A store above 4,096 records loses its oldest event to one EVENTS_LOST record that counts the dropped run (R556). A session
that has had every event of the run needs no such record (DESIGN CHOICE, log entry 165). -/
def trimEvents (now : CardTime) (store : List StoredEvent) : List StoredEvent :=
  if store.length ≤ 4096 then store
  else
    match store with
    | a :: b :: rest =>
      let both := a.2.filter fun h => b.2.contains h
      if a.1.code = evLost then (⟨evLost, 0, a.1.time, [a.1.args.getD 0 0 + 1, 0, 0, 0]⟩, both) :: rest
      else if b.1.code = evLost then (⟨evLost, 0, now, [b.1.args.getD 0 0 + 1, 0, 0, 0]⟩, both) :: rest
      else (⟨evLost, 0, now, [2, 0, 0, 0]⟩, both) :: rest
    | l => l

/-- The events of the store that a session has not had are placed in its pages, in order, as far as these have room; a completion
record that is held goes first. The store with what the session has then. -/
def eventsFor (h : Handle) : List StoredEvent → State → List StoredEvent × State
  | [], s => ([], s)
  | e :: l, s =>
    if e.2.contains h then
      let (l, s) := eventsFor h l s
      (e :: l, s)
    else if s.obj.heldRecs.any fun x => decide (x.1 = h) then (e :: l, s)
    else
      match tryPlace h (.event e.1) s with
      | (false, s) => (e :: l, s)
      | (true, s) =>
        let (l, s) := eventsFor h l s
        ((e.1, e.2 ++ [h]) :: l, s)

/-- The event store empties into the pages of the sessions opened with EVENTS: an event leaves it once each of them has it
(R556). -/
def drainEvents (s : State) : State :=
  let all := eventSessions s
  let s := all.foldl
    (fun s h =>
      let (l, s) := eventsFor h s.host.events s
      s.modHost fun x => { x with events := l }) s
  s.modHost fun x => { x with events := x.events.filter fun e => all.isEmpty || !all.all fun h => e.2.contains h }

/-- An event is written to every session opened with EVENTS; for those whose pages have no room it waits in the event store
(R556, R559). -/
def issueEvent (code source : Nat) (args : List Nat) (s : State) : State :=
  let e : EventRec := ⟨code, source, s.now, (args ++ [0, 0, 0, 0]).take 4⟩
  let s := drainEvents (s.modHost fun h => { h with events := h.events ++ [(e, [])] })
  if s.host.events = [] then s
  else setCause causeEvent (s.modHost fun h => { h with events := trimEvents s.now h.events })

/-! ## Faults -/

/-- Fault kinds of Table 24-1 that the text names. -/
abbrev fkComputeUe : Nat := 4
abbrev fkPillowRo : Nat := 5
abbrev fkVideoPoison : Nat := 6
abbrev fkStitchTimeout : Nat := 7
abbrev fkCoreRestart : Nat := 8
abbrev fkRerunFailed : Nat := 9
abbrev fkDataPoison : Nat := 10
abbrev fkDdrChannel : Nat := 11
abbrev fkPoisonList : Nat := 12
abbrev fkDieLinkDown : Nat := 13
abbrev fkRestartStorm : Nat := 14
abbrev fkBootWatchdog : Nat := 15
abbrev fkImageUe : Nat := 16
abbrev fkAudit : Nat := 17
abbrev fkTrip : Nat := 18
abbrev fkHostLost : Nat := 19
abbrev fkTraining : Nat := 20
abbrev fkSelfTest : Nat := 21

/-- A corrected fault is counted and nothing else (R721, R725). -/
def corrected (s : State) : State := s.modCtr fun c => { c with corrected := c.corrected + 1 }

/-- As many corrected faults. -/
def correctedBy (n : Nat) (s : State) : State := s.modCtr fun c => { c with corrected := c.corrected + n }

/-- A contained fault: counted, one CONTAINED_FAULT event, one Corrected Internal Error (R725, R727). -/
def contained (kind unit handle stitch : Nat) (s : State) : State :=
  let s := s.modCtr fun c => { c with contained := c.contained + 1, kinds := SMap.modify 0 c.kinds kind (· + 1) }
  internalError true
    (issueEvent evContained unit [kind, handle, SMap.get 0 s.ctr.kinds kind, stitch] s)

/-- Running stitches are abandoned (R744). A job that a post-processing unit has started still runs to completion (R197). -/
def abandonRunning (s : State) : State :=
  (s.modCores (SMap.mapVals {} fun _ c => if c.run = 0 then c else c.halt)).modPpu
    (SMap.mapVals {} fun _ u => { u with jobs := (u.jobs.filter (·.started)).map fun j => { j with left := true } })

/-- The card enters FAULT: HEV.STATE, HEV.FAULT_CODE, HEV.CAUSE, a log entry of level 0, the CARD_FAULT event and the
Uncorrectable Internal Error (R694, R726, Table 20-3). -/
def enterFault (kind unit : Nat) (s : State) : State :=
  let s := issueEvent evCardFault unit [kind, 0, 0, s.time.tick] s
  let s := s.modHost fun h => { h with state := .fault, faultCode := kind + 256 * unit, faultWait := none }
  internalError false (logWrite 0 0 [kind, unit] (setCause causeFault (abandonRunning s)))

/-- Some partition has a stitch running. -/
def anyRunning (s : State) : Bool := s.obj.partitions.any (·.running.isSome)

/-- An escalated fault: the partner takes the card's work, or the card enters FAULT, after the running stitches where the
kind leaves them able to run (R726, R744). -/
def escalate (kind unit : Nat) (s : State) : State :=
  if s.host.state = .fault then s
  else if healthy s then
    let s := abandonRunning s
    let s := s.push (.bride (.fault kind))
    let s := s.modPair fun p => { p with mode := 0, role := 0, inSync := false, waiting := [] }
    let s := s.modHost fun h => { h with state := .fault, faultCode := kind + 256 * unit }
    internalError false s
  else if (kind = fkRerunFailed ∨ kind = fkDataPoison ∨ kind = fkDieLinkDown) ∧ anyRunning s = true then
    if s.host.faultWait.isSome then s else s.modHost fun h => { h with faultWait := some (kind, unit) }
  else enterFault kind unit s

/-- A card fault that waited for the running stitches is taken once none runs (R726). -/
def faultIfIdle (s : State) : State :=
  match s.host.faultWait with
  | none => s
  | some (k, u) => if anyRunning s then s else enterFault k u s

/-! ## Ledgers (R595, R728) -/

/-- A conservation ledger: its code in Table 19-9, its unit, its terms in the order of its equation, and whether it
balances. -/
structure Ledger where
  code : Nat
  unit : Nat
  terms : List Nat
  balanced : Bool
  deriving DecidableEq, Repr

/-- A ledger whose first term equals the sum of the others. -/
def Ledger.ofSum (code unit left : Nat) (right : List Nat) : Ledger :=
  ⟨code, unit, left :: right, decide (left = right.foldl (· + ·) 0)⟩

/-- A ledger of two left terms that equal the third. -/
def Ledger.ofTotal (code unit a b total : Nat) : Ledger := ⟨code, unit, [a, b, total], decide (a + b = total)⟩

/-- A ledger found out of balance is an escalated fault with its code as unit (R728). -/
def checkLedger (l : Ledger) (s : State) : State := if l.balanced then s else escalate fkAudit l.code s

/-- Ledgers of a unit that is removed are checked (R728). -/
def checkLedgers (ls : List Ledger) (s : State) : State := ls.foldl (fun s l => checkLedger l s) s

/-! ## Mailboxes -/

/-- Status codes of Table 18-9. -/
abbrev stOk : Nat := 0
abbrev stBadOpcode : Nat := 1
abbrev stBadValue : Nat := 2
abbrev stBadVersion : Nat := 3
abbrev stNoSession : Nat := 4
abbrev stBusyResource : Nat := 5
abbrev stNoSpace : Nat := 6
abbrev stBadPointer : Nat := 7
abbrev stStalePointer : Nat := 8
abbrev stLimitExceeded : Nat := 9
abbrev stPrickingRejected : Nat := 10
abbrev stNotFound : Nat := 11
abbrev stWrongState : Nat := 12
abbrev stOrphaned : Nat := 13
abbrev stTimeout : Nat := 14
abbrev stDenied : Nat := 15
abbrev stPartnerAbsent : Nat := 16

/-- What the own part of a command comes to. A failing command leaves the state as it was (R571). -/
inductive Reply where
  /-- `ST_OK` with its response -/
  | ok (s : State) (resp : List Byte)
  | fail (status : Nat) (detail : Nat) (resp : List Byte)
  /-- a failure of which a counter of a register block (R382), a read of the host or a free value leaves a trace -/
  | counted (s : State) (status : Nat) (detail : Nat) (resp : List Byte)
  /-- answered later (R544) -/
  | wait (s : State)

/-- A failure with DETAIL 0 and no response. -/
abbrev Reply.no (status : Nat) : Reply := .fail status 0 []

/-- What sets a command apart in the checks of R574. -/
structure CmdKind where
  /-- session-less (R549) -/
  sessionless : Bool := false
  /-- served in the orphaned state (R563) -/
  orphan : Bool := false
  /-- served in FAULT and while `RESET_WORK` is in flight (R694, R576) -/
  always : Bool := false
  /-- taken by a mirrored standby (R733) -/
  standby : Bool := false
  deriving DecidableEq, Repr

/-- The session that a command names, when it is open. -/
def findSession (s : State) (h : Handle) : Option Session := s.obj.sessions.find? fun x => decide (x.handle = h)

/-- `RESET_WORK`, or what acts as it, is under way (R569, R618). -/
def resetting (s : State) : Bool := s.host.ending

/-- The checks of a command before its own: the first failure gives the status (R574). `len` is the size of the request's
layout, rounded up to 8 (R573). -/
def precheck (k : CmdKind) (h : Hdr) (len : Nat) (s : State) : Option Nat :=
  if s.host.state = .fault ∧ k.always = false then some stWrongState
  else if h.headerReserved ∨ 4032 < h.length then some stBadValue
  else if resetting s = true ∧ k.always = false then some stWrongState
  else if s.host.state = .orphaned ∧ k.orphan = false then some stOrphaned
  else
    match k.sessionless, findSession s h.session with
    | false, none => some stNoSession
    | sl, sess =>
      if (sess.any (·.held)) ∧ k.orphan = false then some stOrphaned
      else if s.pair.mode = 1 ∧ s.pair.role = 2 ∧ k.standby = false then some stWrongState
      else if h.version ≠ (if sl then 1 else (sess.map (·.proto)).getD 1) then some stBadVersion
      else if h.length ≠ len ∨ h.bodyReserved then some stBadValue
      else none

/-- The lease restarts (R561). -/
def renewLease (s : State) : State := s.modHost fun h => { h with leaseLeft := some (h.leaseMs * 25000) }

/-- A command that names an open session renews the lease outside the orphaned state (R561); a held session takes no part
in it (R750). -/
def renewFor (h : Hdr) (s : State) : State :=
  match findSession s h.session with
  | none => s
  | some x => if s.host.state = .orphaned ∨ x.held then s else renewLease s

/-- The answer is written: payload, LENGTH, STATUS, DETAIL, OWNER with OWN clear and SEQ unchanged, then the vector when
IRQ is set (R541). -/
def writeAnswer (h : Hdr) (status detail : Nat) (resp : List Byte) (s : State) : State :=
  let s := s.modMbox h.mbox fun m =>
    { m with
      payload := ((List.range resp.length).zip resp).foldl (fun p x => SMap.set 0 p x.1 x.2) m.payload
      length := resp.length
      status := status
      detail := detail
      own := false }
  let s := s.modHost fun x => { x with long := x.long.filter fun l => !decide (l.hdr.mbox = h.mbox) }
  let s := renewFor h s
  if h.irq then sendMsix h.vector s else s

/-- An answer: at once, or after the partner has acknowledged the command's mirror item (R736). `before` is what a refusal
of the partner brings back (R738). -/
def answer (h : Hdr) (status detail : Nat) (resp : List Byte) (before : Objects) (s : State) : State :=
  let undo := if healthy s then Objects.diff s.obj before else []
  let s := mirrorFlush s
  if mustWait s then defer (.answer h status detail resp undo) s else writeAnswer h status detail resp s

/-- A command is taken: its checks, its own part, its answer. -/
def serve (k : CmdKind) (h : Hdr) (len : Nat) (body : State → Reply) (s : State) : State :=
  let s := renewFor h s
  match precheck k h len s with
  | some st => answer h st 0 [] s.obj s
  | none =>
    match body s with
    | .ok s' r => answer h stOk 0 r s.obj s'
    | .fail st d r => answer h st d r s.obj s
    | .counted s' st d r => answer h st d r s.obj s'
    | .wait s' => mirrorFlush s'

/-- The mailbox takes its header and OWN. -/
def takeOwner (h : Hdr) (opcode : Nat) (s : State) : State :=
  s.modMbox h.mbox fun m =>
    { m with
      own := true
      seq := h.seq
      opcode := opcode
      irq := h.irq
      vector := h.vector
      session := h.session
      length := h.length }

/-- Commands are held, not taken: before READY, in SLEEP and on the way out of it or of NAP, and while core 0 restarts
(R693, R619, R703, R664). -/
def holding (s : State) : Bool :=
  decide (s.host.state = .rom) || decide (s.host.state = .starting) || decide (3 ≤ s.power.state) ||
    decide ((s.cc 0).run ≠ 1)

/-- What core 3 does at a request: at once while it runs; a request that comes while it restarts or sleeps waits for it (R628, R655,
R666). A halted core does nothing. -/
def forCore3 (i : Instr) (f : State → State) (s : State) : State :=
  if (s.cc 3).run = 1 then f s
  else if (s.cc 3).run = 2 then s
  else s.modFw fun w => { w with waiting3 := w.waiting3 ++ [i] }

/-- The control core that works for a stream: 1 for an even INDEX, 2 for an odd one (Table 22-1). -/
def streamCore (stream : Handle) : Nat := 1 + stream.index % 2

/-- The control core of a stream runs. -/
def coreServes (s : State) (stream : Handle) : Bool := decide ((s.cc (streamCore stream)).run = 1)

/-! ## Requests of the host -/

/-- The link has carried a request of the host. -/
def State.linkActive (s : State) : State := s.modPcie fun p => { p with linkState := 0 }

/-- What a memory request of the host does, posted or not: nothing reaches the card while the link is down; it is completed in
D0 with Memory Space Enable, and gets Unsupported Request otherwise (R616, R617). -/
def hostAccess (posted : Bool) (f : State → State) (s : State) : State :=
  if s.pcie.linkUp = false then s
  else if s.pcie.mse && !s.pcie.d3hot then f s.linkActive
  else unsupported posted s.linkActive

/-- The same for a request that may have no defined effect. -/
def barAccess (posted : Bool) (f : State → Result) (s : State) : Result :=
  if s.pcie.linkUp = false then .next s
  else if s.pcie.mse && !s.pcie.d3hot then f s.linkActive
  else .next (unsupported posted s.linkActive)

/-- A TLP other than a memory request of the host: none reaches the card while the link is down. -/
def linkAccess (f : State → Result) (s : State) : Result := if s.pcie.linkUp = false then .next s else f s.linkActive

/-- A configuration request of the host. In step 0 of bring-up it is answered with Configuration Request Retry Status (R622, Table
23-1); while the link is down none reaches the card. -/
def cfgAccess (f : State → Result) (s : State) : Result :=
  if s.pcie.linkUp then f s.linkActive
  else if !s.pcie.perst && s.power.main && !s.power.trip && decide (s.power.bringUp = 0) then .next (s.push .configRetry)
  else .next s

/-- An OWNER write that sets OWN in mailboxes 0 to 31 (R540): discarded and counted while OWN is 1; never served while JTAG
is unlocked (R768); held while the card takes no command, which wakes it from NAP (R698); taken otherwise, when `run` is
what it does. -/
def ownerWrite (h : Hdr) (opcode : Nat) (i : Instr) (run : State → State) (s : State) : State :=
  if (s.mbox h.mbox).own then s.modHost fun x => { x with discards := satAdd32 x.discards 1 }
  else
    let s := takeOwner h opcode s
    if s.sec.unlocked then s
    else if holding s = true ∧ s.host.state ≠ .fault then
      let s := s.modHost fun x => { x with held := x.held ++ [i] }
      if s.power.state = 3 then s.modPower fun p => { p with state := 5 } else s
    else run s

/-- A mailbox command of the host: its OWNER write, when that write reaches the card. -/
def enter (h : Hdr) (opcode : Nat) (i : Instr) (run : State → State) : State → State :=
  hostAccess true (ownerWrite h opcode i run)

/-- Kinds of command. -/
abbrev kPlain : CmdKind := {}
abbrev kStandby : CmdKind := { standby := true }
abbrev kOpen : CmdKind := { sessionless := true, standby := true }
abbrev kResync : CmdKind := { sessionless := true, orphan := true, always := true, standby := true }
abbrev kAdopt : CmdKind := { sessionless := true, orphan := true }

/-- A handle that a command names: of the right TYPE, occupied with the current GEN, and of the command's session (R12,
R550). `own` finds it in the objects with its session. -/
def checkHandle (h : Handle) (type : Nat) (found : Option Handle) (sess : Handle) : Option Nat :=
  if h.type ≠ type then some stBadValue
  else
    match found with
    | none => some stNotFound
    | some owner => if owner = sess then none else some stNotFound

/-- A long command is put in flight. -/
def startLong (l : LongCmd) (s : State) : State := s.modHost fun h => { h with long := h.long ++ [l] }

/-- A long command that names the object is in flight (R576). -/
def namedBusy (s : State) (h : Handle) : Bool :=
  s.host.long.any fun l => match l with
    | .streamFeed _ f _ _ _ _ _ => decide (f.stream = h)
    | .modelPin _ m p _ => decide (m = h) || decide (p = h)
    | _ => false

/-- The check of a handle, and that no long command in flight names its object. -/
def checkFree (s : State) (h : Handle) (type : Nat) (found : Option Handle) (sess : Handle) : Option Nat :=
  match checkHandle h type found sess with
  | some st => some st
  | none => if namedBusy s h then some stBusyResource else none

end Machine
end Sys2Proof
end

