-- ==== Sys2Proof/Machine/Links.lean ====
section
/-! DEFINITION. The die links: their endpoints, the way that traffic takes over them, and their credits (R24, R25, R27,
Table 1-2). A node is a stack, 0 to 3, or the hub, 4. -/

namespace Sys2Proof

/-- Endpoints of the die links DL01, DL12, DL23, DL30 and DLH0 to DLH3 (Table 1-2). -/
def dieLinks : List (Nat × Nat) := [(0, 1), (1, 2), (2, 3), (3, 0), (4, 0), (4, 1), (4, 2), (4, 3)]

/-- The port by which a node sends to a node at the other end of a link: twice the link's number for its first endpoint, one more
for its second. -/
def linkPort (a b : Nat) : Option Nat :=
  match dieLinks.findIdx? (· = (a, b)), dieLinks.findIdx? (· = (b, a)) with
  | some l, _ => some (2 * l)
  | none, some l => some (2 * l + 1)
  | none, none => none

/-- Nodes that traffic passes on its way: between diagonally opposite stacks always through the stack after its source, and
between a stack and another stack's DDR channel through the hub (R25). -/
def linkPath (ddr : Bool) (a b : Nat) : List Nat :=
  if a = b then []
  else if a = 4 ∨ b = 4 then [a, b]
  else if ddr then [a, 4, b]
  else if b = (a + 2) % 4 then [a, (a + 1) % 4, b]
  else [a, b]

/-- The ports that send along a way. -/
def pathPorts : List Nat → List Nat
  | a :: b :: l => (linkPort a b).toList ++ pathPorts (b :: l)
  | _ => []

namespace Machine

/-- Node at which an address lies. -/
def homeNode (a : Nat) : Nat :=
  match areaOf a with
  | .ddr | .ddrPrivate => channelOf a
  | .pillow => (a - pillowBase) / pillowBytes
  | .scratch => (a - scratchBase) / scratchBytes / 32
  | .hub | .hubPrivate | .control | .reserved => 4

/-- A flit of a line goes from a node to the line's home, or comes from it, and takes a credit at each port on its way. -/
def carryLine (node : Nat) (out : Bool) (a : Nat) (s : State) : State :=
  let ddr := decide (a < ddrEnd)
  let path := if out then linkPath ddr node (homeNode a) else linkPath ddr (homeNode a) node
  s.modCtr fun c =>
    { c with links := (pathPorts path).foldl (fun m p => SMap.modify {} m p LinkCredits.take) c.links }

/-- The pieces of a write go from a node to their homes, or those of a read come from them. -/
def carry (node : Nat) (out : Bool) (ps : List (Nat × Nat)) (s : State) : State :=
  ps.foldl (fun s p => carryLine node out p.1 s) s

/-- Credits that are in flight come back. -/
def settleLinks (s : State) : State :=
  s.modCtr fun c => { c with links := SMap.mapVals {} (fun _ c => c.settle) c.links }

end Machine
end Sys2Proof
end

