-- ==== Sys2Proof/Machine/Ecc.lean ====
section
/-! DEFINITION. What an access does apart from its bytes: the findings of the error codes, the banks it activates, and the
settling of a tag rewrite under way (R343, R344, R352, R353, R357); and the accesses of the hub's units (R27, R342). -/

namespace Sys2Proof

/-- A channel works: it is trained and out of self-refresh. -/
def DdrChannel.works (c : DdrChannel) : Bool := decide (c.state = 2) && !c.selfRefresh

/-- A channel issues the command of a line: a bank that has another row open, or none, activates the line's row, which its
rolling count counts; the retry buffer of 64 commands takes it (R338, R339, R352, R353). -/
def DdrChannel.issue (c : DdrChannel) (l : Nat) : DdrChannel :=
  let p := Machine.ddrPlace l
  let c := { c with retry := (l / 64 :: c.retry).take 64 }
  if SMap.get 0 c.openRows p.bankIndex = p.row + 1 then c
  else
    { c with
      openRows := SMap.set 0 c.openRows p.bankIndex (p.row + 1)
      activations := SMap.modify 0 c.activations p.bankIndex (· + 1) }

/-- Postponed refreshes are issued back to back (R351). -/
def DdrChannel.issuePostponed (c : DdrChannel) : DdrChannel :=
  { c with refreshes := c.refreshes + c.refOutstanding, refOutstanding := 0 }

/-- Refresh management of a bank is issued: its rolling activation count falls by what the devices' mode registers set for one
command. It is mandatory where the devices require it at once, which the model takes to be from a count of
`Config.rfmUrgent` on (R352; the two settings are the devices', log entry 137). -/
def DdrChannel.manage (c : DdrChannel) (bank : Nat) : DdrChannel :=
  let n := SMap.get 0 c.activations bank
  { c with
    rfm := c.rfm + 1
    rfmUrgent := c.rfmUrgent + (decide (Config.rfmUrgent ≤ n)).toNat
    activations := SMap.set 0 c.activations bank (n - Config.rfmCredit) }

/-- The controller carries something out. -/
def DdrChannel.carryOut (c : DdrChannel) : DdrWork → DdrChannel
  | .line l => c.issue l
  | .refresh => { c.issuePostponed with refreshes := c.issuePostponed.refreshes + 1 }
  | .mandatory => { c with refreshes := c.refreshes + 1 }
  | .postponed => c.issuePostponed
  | .manage bank => c.manage bank
  | .dqs => { c with dqsRuns := c.dqsRuns + 1 }
  | .zq => { c with zqRuns := c.zqRuns + 1 }

/-- The controller issues something to its devices, or keeps it until ALERT_n clears (R353). -/
def DdrChannel.order (w : DdrWork) (c : DdrChannel) : DdrChannel :=
  if c.alert then { c with waiting := c.waiting ++ [w] } else c.carryOut w

/-- ALERT_n clears: what waited for it is issued, in order (R353). -/
def DdrChannel.resume (c : DdrChannel) : DdrChannel := c.waiting.foldl DdrChannel.carryOut { c with alert := false, waiting := [] }

namespace Machine

/-- A poison list that has overflowed is escalated (R357). -/
def overflowCheck (a unit : Nat) (s : State) : State :=
  if poisonOverflow s a then escalate fkPoisonList unit s else s

/-- A read of a DDR line finds what it finds: single-bit errors are corrected and counted; a double-bit error poisons the line;
a line whose tag word is lost matches no pointer and is poisoned (R344, R357). -/
def ddrFinding (a : Nat) (f : EccFinding) (s : State) : State :=
  let c := channelOf a
  match f with
  | .clean => s
  | .single => corrected (s.modDdr c fun d => { d with ce := d.ce + 1 })
  | .double => poisonLine a (s.modDdr c fun d => { d with ue := d.ue + 1 })
  | .tagSingle => corrected (s.modDdr c fun d => { d with tagCe := d.tagCe + 1 })
  | .tagDouble => poisonLine a (tagRewrite (a / 64) 1 0 0 s)

/-- A read of a line of a stack's pillow finds what it finds; pillow lines carry no tag (R189, R357). -/
def pillowFinding (a : Nat) (f : EccFinding) (s : State) : State :=
  let k := (a - pillowBase) / pillowBytes
  match f with
  | .single => corrected (s.modPil k fun d => { d with ce := d.ce + 1 })
  | .double => overflowCheck a k (poisonLine a (s.modPil k fun d => { d with ue := d.ue + 1 }))
  | .clean | .tagSingle | .tagDouble => s

/-- A read of a line of hub SRAM finds what it finds (R357). -/
def hubFinding (a : Nat) (f : EccFinding) (s : State) : State :=
  match f with
  | .single => corrected s
  | .double => overflowCheck a 0 (poisonLine a s)
  | .clean | .tagSingle | .tagDouble => s

/-- What the code of a line finds when an access reads it. A single-bit error of scratch is corrected and counted (R160); its
double-bit errors are the command COMPUTE_UNCORRECTABLE_ERROR. -/
def eccFinding (a : Nat) (f : EccFinding) (s : State) : State :=
  match areaOf a with
  | .ddr | .ddrPrivate => ddrFinding a f s
  | .pillow => pillowFinding a f s
  | .hub | .hubPrivate => hubFinding a f s
  | .scratch => if f = .single then corrected s else s
  | .control | .reserved => s

/-- Errors come to lie in lines. An access that reaches such a line finds them, whoever makes it. -/
def upset (ecc : List (Nat × EccFinding)) (s : State) : State :=
  s.modMem fun m => { m with latent := (ecc.filter fun x => decide (x.2 ≠ .clean)) ++ m.latent }

/-- What the codes of the line at an address will find. -/
def latentAt (s : State) (a : Nat) : EccFinding := ((s.mem.latent.find? fun x => decide (x.1 = a / 64)).map (·.2)).getD .clean

/-- What an access finds of what a line holds: a write of the whole line reads no data, so that only its tag word is found bad
(R342, R344). -/
def foundBy (whole : Bool) (f : EccFinding) : EccFinding :=
  match f with
  | .single | .double => if whole then .clean else f
  | .clean | .tagSingle | .tagDouble => f

/-- An access reaches a line, a write of the whole of it or another: in DDR its channel issues the command and a tag rewrite
under way is settled; then its codes find what they find. A channel in FAULT accepts no request (R354). -/
def accessLine (whole : Bool) (a : Nat) (s : State) : State :=
  if faulted s a then s
  else
    let f := foundBy whole (latentAt s a)
    let s := s.modMem fun m => { m with latent := m.latent.filter fun x => decide (x.1 ≠ a / 64) }
    let s := if a < ddrEnd then settleLine (a / 64) (s.modDdr (channelOf a) (DdrChannel.order (.line (channelLocal a)))) else s
    eccFinding a f s

/-- A copy of a whole area reads, or writes whole, the lines of `n` bytes from an address: those in which errors lie are found
(R357). -/
def rangeFinds (whole : Bool) (a n : Nat) (s : State) : State :=
  (s.mem.latent.filter fun x => decide (a ≤ 64 * x.1) && decide (64 * x.1 < a + n)).foldl
    (fun s x => accessLine whole (64 * x.1) s) s

/-- An access, a write or a read, reaches the lines of its pieces, in order. -/
def accessPieces (write : Bool) (ps : List (Nat × Nat)) (s : State) : State :=
  ps.foldl (fun s p => accessLine (write && decide (p.2 = 64)) p.1 s) s

/-- Lines of a write whose tag word is lost: a write with no tag fails there (R344). -/
def badTags (s : State) (ps : List (Nat × Nat)) : List Nat :=
  (ps.filter fun x => decide (x.1 < ddrEnd) && decide (latentAt s x.1 = .tagDouble)).map (·.1 / 64)

/-! ## Accesses of the hub's units and of control core 0 -/

/-- `n` bytes at an address are read from the hub. -/
def hubLoad (a n : Nat) (s : State) : State := accessPieces false (pieces a n) (carry 4 false (pieces a n) s)

/-- Whether a piece of bytes written from the hub was not written, and the write. -/
def hubWrite (a : Nat) (bs : List Byte) (s : State) : Bool × State :=
  let ps := pieces a bs.length
  let bad := badTags s ps
  let s := accessPieces true ps (carry 4 true ps s)
  (dropsPiece bad s ps, piecesWrite bad ps bs s)

/-- An uncorrectable memory error that nothing nearer handles is escalated (R342, Table 24-1). Table 24-1 names no kind for a
writer that is neither a stitch nor a video unit: the model takes DATA_POISON (DESIGN CHOICE, log entry 163). -/
def uncorrectable (failed : Bool) (s : State) : State := if failed then escalate fkDataPoison 0 s else s

/-- `n` bytes are read by control core 0, which nothing nearer handles poison for (R358, Table 24-1). -/
def hubRead (a n : Nat) (s : State) : State :=
  let s := hubLoad a n s
  uncorrectable (rangePoisoned s a n) s

/-- Bytes written from the hub by control core 0. -/
def hubStore (a : Nat) (bs : List Byte) (s : State) : State :=
  let r := hubWrite a bs s
  uncorrectable r.1 r.2

/-- `n` bytes copied within device memory by the hub. Poison of what is read goes with the bytes, and a poison list that
overflows is escalated (R342, R357, R358). -/
def hubCopy (src dst n : Nat) (s : State) : State :=
  let to_ := pieces dst n
  let s := hubLoad src n s
  let bad := badTags s to_
  let s := accessPieces true to_ (carry 4 true to_ s)
  let poison := rangePoisoned s src n
  let failed := dropsPiece bad s to_
  let s := copyMem bad src dst n s
  uncorrectable failed (if poison then overflowCheck dst ((dst - pillowBase) / pillowBytes) s else s)

end Machine
end Sys2Proof
end

