-- ==== Sys2Proof/Machine/Pools.lean ====
section
/-! DEFINITION. Buffer pools, bobbin arenas and the pillow plan: their operations and their commands (chapter 12, R334,
R585, R589). -/

namespace Sys2Proof

/-- Bytes of a buffer. -/
def Pool.bufBytes (p : Pool) : Nat := 2 ^ p.bufLog2
/-- Bytes of a pool in each of its stacks. -/
def Pool.bytes (p : Pool) : Nat := p.count * p.bufBytes
/-- Buffer `j` (R369). -/
def Pool.buf (p : Pool) (j : Nat) : Buf := SMap.get {} p.bufs j
/-- Buffer `j` changed. -/
def Pool.modBuf (p : Pool) (j : Nat) (f : Buf → Buf) : Pool := { p with bufs := SMap.modify {} p.bufs j f }
/-- Allocated buffers. -/
def Pool.allocated (p : Pool) : Nat := (p.bufs.filter fun x => x.2.allocated).length
/-- Free buffers (R381). -/
def Pool.free (p : Pool) : Nat := p.count - p.allocated
/-- Pool id (R367). -/
def Pool.id (p : Pool) : Nat := p.handle.index + 1
/-- Address of buffer `j`. -/
def Pool.addrOf (p : Pool) (j : Nat) : Nat := p.base + j * p.bufBytes

/-- The lowest index from `n` on that is not allocated. -/
def firstFree : SMap Buf → Nat → Nat
  | [], n => n
  | (k, b) :: m, n => if k = n then (if b.allocated then firstFree m (n + 1) else n) else n

/-- The lowest run of `n` free granules among `count`, from candidate `c` on (R379). -/
def firstRun : SMap Buf → Nat → Nat → Nat → Option Nat
  | [], n, count, c => if c + n ≤ count then some c else none
  | (k, b) :: m, n, count, c =>
    if b.allocated then (if c + n ≤ k then some c else firstRun m n count (k + 1)) else firstRun m n count c

/-- The next generation of a buffer (R370). -/
def nextBufGen (g : Nat) : Nat := if g = 65535 then 1 else g + 1

/-- Some buffer is allocated. -/
def Pool.inUse (p : Pool) : Bool := p.bufs.any fun x => x.2.allocated

/-- The largest generation of granules `g` to `g + n - 1` (R380). -/
def Pool.maxGen (p : Pool) (g n : Nat) : Nat := (List.range n).foldl (fun m i => max m (p.buf (g + i)).gen) 1

/-- A buffer is taken: count 1, marked allocated (Table 12-3 ALLOC, R375). -/
def Pool.take (p : Pool) (j : Nat) : Pool :=
  let q := p.modBuf j fun b => { b with allocated := true, count := 1 }
  { q with allocs := q.allocs + 1, lowFree := min q.lowFree q.free }

/-- The final free of a buffer: its generation rises and it is free (R374). A tag rewrite under way is the memory's and goes on,
and an allocation that waits for it still completes when it ends (R375). -/
def Pool.release (p : Pool) (j : Nat) : Pool :=
  let q := p.modBuf j fun b => { b with allocated := false, count := 0, gen := nextBufGen b.gen }
  { q with finalFrees := q.finalFrees + 1 }

/-- A count goes down by one, with the final free at 0 (Table 12-3 UNREF). -/
def Pool.unref (p : Pool) (j : Nat) : Pool :=
  let b := p.buf j
  if b.count ≤ 1 then p.release j else p.modBuf j fun b => { b with count := b.count - 1 }

/-- A run of granules is taken at the largest generation among them (R380). -/
def Pool.takeRun (p : Pool) (g n : Nat) : Pool :=
  let top := p.maxGen g n
  let q := (List.range n).foldl
    (fun q i => q.modBuf (g + i) fun b =>
      { b with allocated := true, count := if i = 0 then 1 else 0, gen := top }) p
  { q with allocs := q.allocs + 1, lowFree := min q.lowFree q.free }

/-- The final free of a run (R380). -/
def Pool.releaseRun (p : Pool) (g n : Nat) : Pool :=
  let q := (List.range n).foldl (fun q i => { q.release (g + i) with finalFrees := q.finalFrees }) p
  { q with finalFrees := q.finalFrees + 1 }

namespace Machine

/-- A pool by its handle. -/
def findPool (s : State) (h : Handle) : Option Pool := s.obj.pools.find? fun p => decide (p.handle = h)
/-- A pool changed. -/
def modPool (h : Handle) (f : Pool → Pool) (s : State) : State :=
  s.modObj fun o => { o with pools := listUpd (fun p => decide (p.handle = h)) f o.pools }

/-- An allocation from a pool or an arena has failed for want of space: HUB.POOL_NO_SPACE (Table 12-4). -/
def countNoSpace (h : Handle) (s : State) : State := modPool h (fun p => { p with noSpace := p.noSpace + 1 }) s

/-- Stacks of a mask. -/
def maskStacks (m : Nat) : List Nat := (List.range 4).filter fun k => m.testBit k

/-! ## Placing (R365) -/

/-- Extents that are taken in DDR or hub SRAM: pools, model places and partition places of this card and of the replicas it
holds. -/
def takenExtents (o : Objects) (space : Nat) : List (Nat × Nat) :=
  (o.pools.filter fun p => decide (p.space = space)).map (fun p => (p.base, p.bytes)) ++
  (if space = 2 then o.models.map fun m => (m.ddrBase, m.ddrBytes) else []) ++
  (o.partitions.map fun p => p.places.map fun x =>
    if space = 2 then (x.ddrBase, x.ddrBytes) else (x.hubBase, x.hubBytes)).flatten

/-- `a` to `a + n - 1` meets none of the extents. -/
def clearOf (ext : List (Nat × Nat)) (a n : Nat) : Bool :=
  ext.all fun e => decide (e.2 = 0) || decide (a + n ≤ e.1) || decide (e.1 + e.2 ≤ a)

/-- The lowest extent of `n` bytes aligned to `align` in `lo` to `hi - 1` that meets none of the taken ones. -/
def lowestExtent (ext : List (Nat × Nat)) (lo hi align n : Nat) : Option Nat :=
  let cands := (lo :: ext.map fun e => e.1 + e.2).map fun a => roundUp align (max a lo)
  let fits := cands.filter fun a => decide (a + n ≤ hi) && clearOf ext a n
  fits.foldl (fun m a => match m with
    | none => some a
    | some b => some (min a b)) none

/-- The lowest free extent in DDR (2) or hub SRAM (3). -/
def placeExtent (s : State) (space align n : Nat) : Option Nat :=
  let ext := takenExtents s.obj space ++ takenExtents s.pair.replica space
  if space = 2 then lowestExtent ext 0 ddrGeneralEnd align n else lowestExtent ext hubShared hubEnd align n

/-- A region covers granules of a stack, for a kind. -/
def regionCovers (r : Region) (kind stack g n : Nat) : Bool :=
  decide (r.kind = kind) && r.stackMask.testBit stack && decide (r.g0 ≤ g) && decide (g + n ≤ r.g0 + r.count)

/-- Offsets of a pillow pool meet another pillow pool in some stack. -/
def pillowOverlap (o : Objects) (mask off n : Nat) : Bool :=
  o.pools.any fun p =>
    decide (p.space = 1) && (maskStacks mask).any (fun k => p.stackMask.testBit k) &&
      decide (off < p.regionOffset + p.bytes) && decide (p.regionOffset < off + n)

/-! ## Commands -/

/-- The fields of Table 12-1 are in range (R366). -/
def poolFieldsOk (space bufLog2 flags count mask off : Nat) : Bool :=
  decide (1 ≤ space ∧ space ≤ 3) && decide (8 ≤ bufLog2 ∧ bufLog2 ≤ 28) && decide (flags < 2) &&
  (decide (flags = 0) || decide (bufLog2 = 21)) && decide (1 ≤ count ∧ count ≤ 2 ^ 20) &&
  (if space = 1 then decide (1 ≤ mask ∧ mask < 16) && decide (off % granuleBytes = 0) &&
      decide (off + count * 2 ^ bufLog2 ≤ pillowBytes)
    else decide (mask = 0) && decide (off = 0))

/-- A `PILLOW_PLAN` in flight names some of the granules (R576). -/
def planInFlight (s : State) (mask g0 count : Nat) : Bool :=
  s.host.long.any fun l => match l with
    | .pillowPlan _ m g n =>
      (maskStacks mask).any (fun k => m.testBit k) && decide (g < g0 + count) && decide (g0 < g + n)
    | _ => false

/-- `POOL_CREATE` (R364 to R367, R589). Pool ids end at 64, so a card of a SHARED pair whose share of them is in use creates no
more (R367, R734; DEDUCED, assumption 134). -/
def poolCreateBody (h : Hdr) (space bufLog2 flags count mask off : Nat) (s : State) : Reply :=
  if poolFieldsOk space bufLog2 flags count mask off = false then .no stBadValue
  else if 64 ≤ countOf s tPool ∨ 64 ≤ (newHandle s tPool).index then .no stLimitExceeded
  else
    let n := count * 2 ^ bufLog2
    let arena := decide (flags = 1)
    let make (base : Nat) : Reply :=
      let hd := newHandle s tPool
      let p : Pool :=
        { handle := hd, session := h.session, space := space, bufLog2 := bufLog2, arena := arena, count := count,
          stackMask := mask, base := base, regionOffset := off, lowFree := count }
      .ok (issued hd (s.modObj fun o => { o with pools := o.pools ++ [p] }))
        (leBytes 4 hd.toNat ++ zeroBytes 4 ++ leBytes 8 base)
    if space = 1 then
      let g := off / granuleBytes
      let k := ceilDiv n granuleBytes
      if planInFlight s mask g k then .no stBusyResource
      else if (maskStacks mask).all (fun st => s.obj.regions.any fun r => regionCovers r (if arena then 3 else 4) st g k)
          = false ∨ pillowOverlap s.obj mask off n = true then .no stBusyResource
      else make (pillowAt ((maskStacks mask).headD 0) off)
    else
      match placeExtent s space (2 ^ bufLog2) n with
      | none => .no stNoSpace
      | some base => make base

/-- The buffer reference and the pointer of an allocation: of a DDR buffer by the tag, whose pool id is not 0, and of another by
none (R371, R372). -/
def allocResponse (pool : Handle) (id g a : Nat) : List Byte :=
  let ptr := if id = 0 then a else g * 2 ^ 48 + id * 2 ^ 40 + a
  leBytes 4 pool.toNat ++ leBytes 2 g ++ zeroBytes 2 ++ leBytes 8 a ++ leBytes 8 ptr

/-- The tag rewrite that an allocation of `n` bytes from buffer or granule `j` on begins (R375, R380). -/
def poolRewrite (p : Pool) (j n gen : Nat) (waiter : Option Hdr) : TagExtent :=
  { first := p.addrOf j / 64, count := n / 64, pool := p.id, gen := gen, pending := true, owner := p.handle, buffer := j,
    waiter := waiter }

/-- A buffer of a pool is taken: its data are open to its owner, and a DDR buffer begins its tag rewrite (R375). -/
def takeBuf (p : Pool) (j : Nat) (waiter : Option Hdr) (s : State) : State :=
  let ddr := decide (p.space = 2)
  let s := loseAreas [(p.addrOf j, p.bufBytes)] [] s
  let s := modPool p.handle (fun q => q.take j) s
  if ddr then beginRewrite (poolRewrite p j p.bufBytes (p.buf j).gen waiter) s else s

/-- `POOL_ALLOC` (Table 12-3, R590): answered at once, or when the tag rewrite of a DDR buffer ends. -/
def poolAllocBody (h : Hdr) (pool : Handle) (s : State) : Reply :=
  match checkHandle pool tPool ((findPool s pool).map (·.session)) h.session, findPool s pool with
  | some st, _ => .no st
  | none, none => .no stNotFound
  | none, some p =>
    let rejected := modPool pool (fun q => { q with rejects := q.rejects + 1 }) s
    if p.arena then .counted rejected stWrongState 0 []
    else if p.space = 2 ∧ 22 < p.bufLog2 then .counted rejected stLimitExceeded 0 []
    else
      let j := firstFree p.bufs 0
      if p.count ≤ j then .counted (countNoSpace pool s) stNoSpace 0 []
      else if p.space = 2 then .wait (takeBuf p j (some h) s)
      else
        .ok (takeBuf p j none s) (allocResponse p.handle 0 (p.buf j).gen (p.addrOf j))

/-- The checks of REF and UNREF (Table 12-3, R378): the buffer, or the status. -/
def checkBuf (p : Pool) (b : BufRef) (up : Bool) : Except Nat Nat :=
  let off := b.addr - p.base
  let j := off / p.bufBytes
  if p.arena then .error stWrongState
  else if b.addr < p.base ∨ p.bytes ≤ off then .error stBadPointer
  else if off % p.bufBytes ≠ 0 then .error stBadPointer
  else if b.gen ≠ (p.buf j).gen then .error stStalePointer
  else if (p.buf j).count = 0 then .error stWrongState
  else if up ∧ 255 ≤ (p.buf j).count then .error stLimitExceeded
  else .ok j

/-- `POOL_FREE` without DESTROY: REF when `up`, UNREF otherwise (R373, R589). -/
def poolRefBody (h : Hdr) (b : BufRef) (up : Bool) (s : State) : Reply :=
  match checkHandle b.pool tPool ((findPool s b.pool).map (·.session)) h.session, findPool s b.pool with
  | some st, _ => .no st
  | none, none => .no stNotFound
  | none, some p =>
    match checkBuf p b up with
    | .error st => .counted (modPool b.pool (fun q => { q with rejects := q.rejects + 1 }) s) st 0 []
    | .ok j =>
      let p' := if up then p.modBuf j (fun x => { x with count := x.count + 1 }) else p.unref j
      .ok (modPool b.pool (fun _ => p') s) (leBytes 2 (p'.buf j).count ++ leBytes 2 (p'.buf j).gen)

/-- Ledgers of a pool: allocated + free = COUNT (R381); of an arena too, granules allocated = runs (R322). -/
def poolLedgers (s : State) (p : Pool) : List Ledger :=
  Ledger.ofTotal 2 p.handle.toNat p.allocated p.free p.count ::
    (if p.arena then
      [Ledger.ofSum 3 p.handle.toNat p.allocated
        [((s.obj.bobbins.filter fun b => decide (b.arena = p.handle) && !b.posted).map (·.granules)).foldl (· + ·) 0]]
    else [])

/-- A pool is removed, its ledgers checked. -/
def dropPool (h : Handle) (s : State) : State :=
  let s := match findPool s h with
    | none => s
    | some p => checkLedgers (poolLedgers s p) s
  s.modObj fun o => { o with pools := removeKey (·.handle) h o.pools }

/-- `POOL_FREE` with DESTROY (R368). No buffer is named, so the count and generation it returns are free (R589). -/
def poolDestroyBody (h : Hdr) (pool : Handle) (s : State) : Reply :=
  match checkHandle pool tPool ((findPool s pool).map (·.session)) h.session, findPool s pool with
  | some st, _ => .no st
  | none, none => .no stNotFound
  | none, some p =>
    if p.inUse then .counted (modPool pool (fun q => { q with rejects := q.rejects + 1 }) s) stBusyResource 0 []
    else .ok ((dropPool pool s).useFreshN 4) (freeBytes 4 s)

/-- Allocated buffers of a pool whose tag rewrite is not complete. -/
def rewritingBufs (s : State) (p : Pool) : Nat :=
  (p.bufs.filter fun x =>
    x.2.allocated && s.mem.tags.any fun e =>
      decide (e.owner = p.handle) && e.pending && tagCovers e (p.addrOf x.1 / 64)).length

/-- The register block of a pool (Table 12-4). -/
def poolBlock (s : State) (p : Pool) : List Byte :=
  leBytes 4 (1 + 2 * p.space + 8 * p.arena.toNat + 16 * p.bufLog2 + 512 * p.stackMask + 65536 * p.id) ++
  leBytes 4 p.count ++ leBytes 8 p.base ++ leBytes 4 p.allocated ++ leBytes 4 p.free ++
  leBytes 4 (rewritingBufs s p) ++ leBytes 4 p.lowFree ++
  leBytes 8 p.allocs ++ leBytes 8 p.finalFrees ++ leBytes 8 p.noSpace ++ leBytes 8 p.rejects

/-- `POOL_STATS` (R382). -/
def poolStatsBody (h : Hdr) (pool : Handle) (s : State) : Reply :=
  match checkHandle pool tPool ((findPool s pool).map (·.session)) h.session, findPool s pool with
  | some st, _ => .no st
  | none, none => .no stNotFound
  | none, some p => .ok s (poolBlock s p)

/-- The taking of the command. -/
def runPoolCreate (h : Hdr) (space bufLog2 flags count mask off : Nat) : State → State :=
  serve kPlain h 24 (poolCreateBody h space bufLog2 flags count mask off)

def execPoolCreate (h : Hdr) (space bufLog2 flags count mask off : Nat) (s : State) : Result :=
  .next (enter h 0x60 (.poolCreate h space bufLog2 flags count mask off) (runPoolCreate h space bufLog2 flags count mask off) s)

/-- The taking of the command. -/
def runPoolAlloc (h : Hdr) (pool : Handle) : State → State :=
  serve kPlain h 8 (poolAllocBody h pool)

def execPoolAlloc (h : Hdr) (pool : Handle) (s : State) : Result :=
  .next (enter h 0x61 (.poolAlloc h pool) (runPoolAlloc h pool) s)

/-- The taking of the command. -/
def runPoolFreeUnref (h : Hdr) (b : BufRef) : State → State :=
  serve kPlain h 24 (poolRefBody h b false)

def execPoolFreeUnref (h : Hdr) (b : BufRef) (s : State) : Result :=
  .next (enter h 0x62 (.poolFreeUnref h b) (runPoolFreeUnref h b) s)

/-- The taking of the command. -/
def runPoolFreeRef (h : Hdr) (b : BufRef) : State → State :=
  serve kPlain h 24 (poolRefBody h b true)

def execPoolFreeRef (h : Hdr) (b : BufRef) (s : State) : Result :=
  .next (enter h 0x62 (.poolFreeRef h b) (runPoolFreeRef h b) s)

/-- The taking of the command. -/
def runPoolFreeDestroy (h : Hdr) (pool : Handle) : State → State :=
  serve kPlain h 24 (poolDestroyBody h pool)

def execPoolFreeDestroy (h : Hdr) (pool : Handle) (s : State) : Result :=
  .next (enter h 0x62 (.poolFreeDestroy h pool) (runPoolFreeDestroy h pool) s)

/-- The taking of the command. -/
def runPoolStats (h : Hdr) (pool : Handle) : State → State :=
  serve kPlain h 8 (poolStatsBody h pool)

def execPoolStats (h : Hdr) (pool : Handle) (s : State) : Result :=
  .next (enter h 0x63 (.poolStats h pool) (runPoolStats h pool) s)

/-! ## The pillow plan -/

/-- The fields of Table 19-5 are in range. -/
def planFieldsOk (kind mask g0 count : Nat) : Bool :=
  decide (1 ≤ kind ∧ kind ≤ 4) && decide (1 ≤ mask ∧ mask < 16) && decide (g0 ≤ 383) &&
    decide (1 ≤ count ∧ g0 + count ≤ 384)

/-- Two ranges of granules meet in some stack of a mask. -/
def regionMeets (r : Region) (mask g0 count : Nat) : Bool :=
  (maskStacks mask).any (fun k => r.stackMask.testBit k) && decide (r.g0 < g0 + count) && decide (g0 < r.g0 + r.count)

/-- `PILLOW_PLAN` SET (R335, R585). -/
def planSetBody (h : Hdr) (kind mask g0 count : Nat) (s : State) : Reply :=
  if planFieldsOk kind mask g0 count = false then .no stBadValue
  else if planInFlight s mask g0 count || s.obj.regions.any fun r => regionMeets r mask g0 count then .no stBusyResource
  else
    .ok (startLong (.pillowPlan h mask g0 count)
      (s.modObj fun o => { o with regions := o.regions ++ [⟨kind, mask, g0, count, h.session⟩] })) []

/-- Stacks in which a partition has quads. -/
def partitionStacks (p : Partition) : List Nat := (List.range 4).filter fun k => decide (p.quads / 2 ^ (8 * k) % 256 ≠ 0)

/-- A partition names a region: by its MODEL_G0 or WORK_G0 of one of its stacks (R479). -/
def partitionNames (p : Partition) (r : Region) : Bool :=
  (partitionStacks p).any fun k =>
    r.stackMask.testBit k &&
      ((decide (r.kind = 1) && decide (p.modelG0.getD k 0xFFFF = r.g0)) ||
        (decide (r.kind = 2) && decide (p.workG0.getD k 0xFFFF = r.g0)))

/-- A pool or an arena lies in a region. -/
def poolInRegion (o : Objects) (r : Region) : Bool :=
  o.pools.any fun p =>
    decide (p.space = 1) &&
      regionMeets r p.stackMask (p.regionOffset / granuleBytes) (ceilDiv p.bytes granuleBytes)

/-- The granules of a region become zero and free (R585). -/
def clearRegion (r : Region) (s : State) : State :=
  let s := (maskStacks r.stackMask).foldl
    (fun s k => zeroRange (pillowAt k (r.g0 * granuleBytes)) (r.count * granuleBytes) s) s
  s.modObj fun o => { o with regions := o.regions.filter (· != r) }

/-- `PILLOW_PLAN` CLEAR, its checks in the order of R585. -/
def planClearBody (h : Hdr) (kind mask g0 count : Nat) (s : State) : Reply :=
  if planFieldsOk kind mask g0 count = false then .no stBadValue
  else if planInFlight s mask g0 count then .no stBusyResource
  else
    match s.obj.regions.find? fun r =>
      decide (r.kind = kind ∧ r.stackMask = mask ∧ r.g0 = g0 ∧ r.count = count) with
    | none => .no stNotFound
    | some r =>
      if (s.obj.partitions.any fun p => partitionNames p r) || poolInRegion s.obj r then .no stBusyResource
      else .ok (startLong (.pillowPlan h mask g0 count) (clearRegion r s)) []

/-- The taking of the command. -/
def runPillowPlanSet (h : Hdr) (kind mask g0 count : Nat) : State → State :=
  serve kPlain h 8 (planSetBody h kind mask g0 count)

def execPillowPlanSet (h : Hdr) (kind mask g0 count : Nat) (s : State) : Result :=
  .next (enter h 0x33 (.pillowPlanSet h kind mask g0 count) (runPillowPlanSet h kind mask g0 count) s)

/-- The taking of the command. -/
def runPillowPlanClear (h : Hdr) (kind mask g0 count : Nat) : State → State :=
  serve kPlain h 8 (planClearBody h kind mask g0 count)

def execPillowPlanClear (h : Hdr) (kind mask g0 count : Nat) (s : State) : Result :=
  .next (enter h 0x33 (.pillowPlanClear h kind mask g0 count) (runPillowPlanClear h kind mask g0 count) s)

/-- Free granules of a stack (R336). -/
def freeGranules (s : State) (k : Nat) : Nat :=
  384 - (s.obj.regions.filter fun r => r.stackMask.testBit k).foldl (fun n r => n + r.count) 0

end Machine
end Sys2Proof
end

