-- ==== Sys2Proof/Machine/Bobbins.lean ====
section
/-! DEFINITION. Bobbins and prefixes: their memory, their commands, their commits (chapter 10, R588). -/

namespace Sys2Proof

/-! ## Areas (Table 10-2, R289) -/

/-- Anchor tables. -/
def BobbinLayout.tables (l : BobbinLayout) : Nat := l.layers * l.anchors
/-- Bytes per latent record. -/
def BobbinLayout.rec_ (l : BobbinLayout) : Nat := 64 * ceilDiv (l.layers * (l.latW + 2)) 64
/-- Offset of the anchor slot table. -/
abbrev ancOff : Nat := 256
/-- Offset of the staging area. -/
def BobbinLayout.stgOff (l : BobbinLayout) : Nat := ancOff + l.tables * l.slots * 2 * l.anchorD
/-- Offset of the score table. -/
def BobbinLayout.scrOff (l : BobbinLayout) : Nat :=
  l.stgOff + l.stage * l.rec_ + l.tables * l.stage * 2 * l.anchorD
/-- Bytes of one score bank. -/
def BobbinLayout.bankBytes (l : BobbinLayout) : Nat := l.tables * l.slots * 16
/-- Offset of the latent area. -/
def BobbinLayout.latOff (l : BobbinLayout) : Nat := l.scrOff + 2 * l.bankBytes
/-- Bytes of a bobbin. -/
def BobbinLayout.size (l : BobbinLayout) (maxPos : Nat) : Nat := l.latOff + maxPos * l.rec_
/-- Granules of a bobbin's run. -/
def BobbinLayout.run (l : BobbinLayout) (maxPos : Nat) : Nat := ceilDiv (l.size maxPos) 2097152
/-- Offset of slot `s` of anchor table `t` (R292). -/
def BobbinLayout.slotOff (l : BobbinLayout) (t s : Nat) : Nat := ancOff + (t * l.slots + s) * 2 * l.anchorD
/-- Offset of anchor staging entry `i` of table `t` (R292). -/
def BobbinLayout.stageOff (l : BobbinLayout) (t i : Nat) : Nat :=
  l.stgOff + l.stage * l.rec_ + (t * l.stage + i) * 2 * l.anchorD
/-- Offset of score entry `(t, s)` of a bank (R293). -/
def BobbinLayout.scoreOff (l : BobbinLayout) (bank t s : Nat) : Nat :=
  l.scrOff + bank * l.bankBytes + (t * l.slots + s) * 16

/-- A bobbin still to be prepared (R577). -/
def Bobbin.preparing (b : Bobbin) : Bool := b.rewriting || decide (b.copying ≠ 0)

/-- The header (Table 10-3). -/
def Bobbin.header (b : Bobbin) : List Byte :=
  let l := b.layout
  leBytes 4 0x42584A54 ++ leBytes 1 1 ++
  leBytes 1 (b.isPrefix.toNat + 2 * b.link.isSome.toNat + 4 * b.cur.toNat) ++ leBytes 2 b.layoutIdx ++
  leBytes 4 b.handle.toNat ++ leBytes 4 b.model.toNat ++ leBytes 4 b.maxPos ++ leBytes 4 b.pos ++
  leBytes 4 ((b.link.map (·.toNat)).getD 0) ++ leBytes 4 b.linkLen ++ leBytes 8 l.stgOff ++ leBytes 8 l.scrOff ++
  leBytes 8 l.latOff ++ leBytes 4 l.rec_ ++ zeroBytes 4 ++ leBytes 8 (l.size b.maxPos) ++ leBytes 8 b.commits ++
  zeroBytes 176

namespace Machine

/-- A bobbin or prefix by its handle. -/
def findBobbin (s : State) (h : Handle) : Option Bobbin := s.obj.bobbins.find? fun b => decide (b.handle = h)
/-- A bobbin or prefix changed. -/
def modBobbin (h : Handle) (f : Bobbin → Bobbin) (s : State) : State :=
  s.modObj fun o => { o with bobbins := listUpd (fun b => decide (b.handle = h)) f o.bobbins }

/-- Addresses of a bobbin's copies: one in each stack of a pillow arena, one otherwise. -/
def bobbinBases (s : State) (b : Bobbin) : List Nat :=
  match findPool s b.arena with
  | none => []
  | some p =>
    if p.space = 1 then (maskStacks p.stackMask).map fun k => pillowAt k (p.regionOffset + b.g0 * granuleBytes)
    else [p.base + b.g0 * granuleBytes]

/-- The header of every copy is written (R290). -/
def writeHeader (h : Handle) (s : State) : State :=
  match findBobbin s h with
  | none => s
  | some b => (bobbinBases s b).foldl (fun s a => hubStore a b.header s) s

/-! ## References (R312, R313, R315) -/

/-- Linked bobbins, those of posted joins included. -/
def linksOf (s : State) (h : Handle) : Nat := (s.obj.bobbins.filter fun b => decide (b.link = some h)).length
/-- Stitches that pin a prefix. -/
def pinsOf (s : State) (h : Handle) : Nat := (s.obj.stitches.filter fun t => t.pinned.contains h).length

/-- A run goes back to its arena. -/
def returnRun (b : Bobbin) (s : State) : State := modPool b.arena (fun p => p.releaseRun b.g0 b.granules) s

/-- A bobbin's record is removed. -/
def dropBobbin (h : Handle) (s : State) : State :=
  s.modObj fun o => { o with bobbins := removeKey (·.handle) h o.bobbins }

/-- The reference count of a prefix is kept in its run's first granule; at zero the run is returned (R315, R380). -/
def settlePrefix (b : Bobbin) (s : State) : State :=
  let n := b.hostRef.toNat + linksOf s b.handle + pinsOf s b.handle
  if n = 0 then dropBobbin b.handle (returnRun b s)
  else modPool b.arena (fun p => p.modBuf b.g0 fun x => { x with count := n }) s

/-- Every prefix's count follows its references. -/
def settlePrefixes (s : State) : State := (s.obj.bobbins.filter (·.isPrefix)).foldl (fun s b => settlePrefix b s) s

/-- A bobbin's run is returned and its link dropped, which crosses to the partner before a prefix that this was the last
reference of (R315, R323). -/
def freeBobbin (b : Bobbin) (s : State) : State :=
  mirrorFlush (settlePrefixes (mirrorFlush (dropBobbin b.handle (returnRun b s))))

/-! ## What names a bobbin -/

/-- Bobbins that a stitch names: in its slots, its leaves and its joins. -/
def stitchBobbins (t : Stitch) : List Handle :=
  (t.req.slots.map (·.bobbin)).filter (· ≠ 0) ++ t.req.leaves ++ t.joinHandles

/-- A queued or running stitch names a bobbin. -/
def bobbinNamed (s : State) (h : Handle) : Bool := s.obj.stitches.any fun t => (stitchBobbins t).contains h

/-! ## Creation (R294, R311, R318) -/

/-- The empty score entries of a bank's table; the scales of an empty slot are open. -/
def emptyScores (n : Nat) (s : State) : List Byte :=
  ((List.range n).map fun i =>
    zeroBytes 4 ++ leBytes 4 0xFFFFFFFF ++ ((freeBytes 4 { s with fresh := s.fresh + 4 * i }) ++ zeroBytes 4)).flatten

/-- A bobbin takes its run, whose other bytes are open (R294): its header and empty score tables are written, a DDR run's
tags begin to be rewritten, and a linked one waits for the copy of its prefix's anchor tables. None: no run is free. -/
def placeBobbin (b : Bobbin) (s : State) : Option State :=
  match findPool s b.arena with
  | none => none
  | some p =>
    let n := b.layout.run b.maxPos
    match firstRun p.bufs n p.count 0 with
    | none => none
    | some g =>
      let gen := p.maxGen g n
      let ddr := decide (p.space = 2)
      let b := { b with g0 := g, granules := n, gen := gen, rewriting := ddr, copying := if b.link.isSome then 1 else 0,
                        posted := false }
      let s := modPool b.arena (fun p => p.takeRun g n) s
      let s := if ddr then beginRewrite (poolRewrite p g (n * granuleBytes) gen none) s else s
      let s := s.modObj fun o => { o with bobbins := upsert (·.handle) b o.bobbins }
      let s := loseAreas ((bobbinBases s b).map fun a => (a, n * granuleBytes)) [] s
      let entries := 2 * b.layout.tables * b.layout.slots
      let scores := emptyScores entries s
      let s := (bobbinBases s b).foldl (fun s a => hubStore (a + b.layout.scrOff) scores s) s
      some (settlePrefixes (writeHeader b.handle (s.useFreshN (4 * entries))))

/-- The checks of a creation or of a join's fields (R311, R312, R588), or the bobbin that is to be made. -/
def checkCreate (s : State) (sess : Handle) (layoutIdx : Nat) (model arena : Handle) (maxPos : Nat) (pfx : Handle)
    (hd : Handle) : Except Nat Bobbin :=
  let m := s.obj.models.find? fun m => decide (m.handle = model)
  let px := (findBobbin s pfx).filter (·.hostRef)
  match checkFree s model tModel (m.map (·.session)) sess,
      checkHandle arena tPool ((findPool s arena).map (·.session)) sess,
      (if pfx = 0 then none else checkHandle pfx tPrefix (px.map (·.session)) sess) with
  | some st, _, _ => .error st
  | none, some st, _ => .error st
  | none, none, some st => .error st
  | none, none, none =>
    match m, findPool s arena, m.bind fun m => m.layouts[layoutIdx]? with
    | some _, some p, some l =>
      let b : Bobbin :=
        { handle := hd, session := sess, model := model, layoutIdx := layoutIdx, layout := l, arena := arena, g0 := 0,
          granules := 0, gen := 0, maxPos := maxPos }
      if maxPos = 0 ∨ l.maxPosLimit < maxPos ∨ p.arena = false then .error stBadValue
      else if pfx = 0 then .ok b
      else
        match px with
        | none => .error stNotFound
        | some q =>
          if q.model ≠ model ∨ q.layoutIdx ≠ layoutIdx ∨ q.arena ≠ arena ∨ maxPos ≤ q.pos then .error stBadValue
          else if 223 < q.hostRef.toNat + linksOf s pfx + 1 then .error stLimitExceeded
          else .ok { b with pos := q.pos, link := some pfx, linkLen := q.pos }
    | _, _, _ => .error stBadValue

/-- `BOBBIN_CREATE` (R588). -/
def bobbinCreateBody (h : Hdr) (layoutIdx : Nat) (model arena : Handle) (maxPos : Nat) (pfx : Handle) (s : State) :
    Reply :=
  let hd := newHandle s tBobbin
  match checkCreate s h.session layoutIdx model arena maxPos pfx hd with
  | .error st => .no st
  | .ok b =>
    match placeBobbin b s with
    | none => .counted (countNoSpace arena s) stNoSpace 0 []
    | some s => .ok (issued hd s) (leBytes 4 hd.toNat)

/-- `BOBBIN_RELEASE` (R315, R316, R577). -/
def bobbinReleaseBody (h : Hdr) (bobbin : Handle) (s : State) : Reply :=
  let isP := decide (bobbin.type = tPrefix)
  let found := (findBobbin s bobbin).filter fun b => b.isPrefix == isP && (!isP || b.hostRef)
  match checkHandle bobbin (if isP then tPrefix else tBobbin) (found.map (·.session)) h.session, found with
  | some st, _ => .no st
  | none, none => .no stNotFound
  | none, some b =>
    if isP then .ok (settlePrefixes (modBobbin bobbin (fun b => { b with hostRef := false }) s)) []
    else if bobbinNamed s bobbin ∨ b.preparing then .no stBusyResource
    else .ok (freeBobbin b s) []

/-- `PREFIX_CREATE` (R310): the run stays, the bobbin's handle is retired, a prefix handle is issued. A handle that a queued
stitch's join issued is a live one (R317). -/
def prefixCreateBody (h : Hdr) (bobbin : Handle) (s : State) : Reply :=
  let found := (findBobbin s bobbin).filter fun b => !b.isPrefix
  match checkHandle bobbin tBobbin (found.map (·.session)) h.session, found with
  | some st, _ => .no st
  | none, none => .no stNotFound
  | none, some b =>
    if b.link.isSome ∨ b.pos = 0 then .no stWrongState
    else if bobbinNamed s bobbin then .no stBusyResource
    else
      let hd := newHandle s tPrefix
      let b := { b with handle := hd, isPrefix := true, hostRef := true }
      let s := s.modObj fun o => { o with bobbins := removeKey (·.handle) bobbin o.bobbins ++ [b] }
      .ok (issued hd (settlePrefixes (writeHeader hd s))) (leBytes 4 hd.toNat)

/-- `PREFIX_FORK` (R314): answered before its copy ends (R577). That an unlinked bobbin is reported before a P above the
prefix's length, and both before a bobbin in use, is the model's choice (DESIGN CHOICE, assumption 135). -/
def prefixForkBody (h : Hdr) (bobbin : Handle) (p : Nat) (s : State) : Reply :=
  let found := (findBobbin s bobbin).filter fun b => !b.isPrefix
  match checkHandle bobbin tBobbin (found.map (·.session)) h.session, found with
  | some st, _ => .no st
  | none, none => .no stNotFound
  | none, some b =>
    if b.link.isNone then .no stWrongState
    else if b.linkLen < p then .no stBadValue
    else if bobbinNamed s bobbin ∨ b.preparing then .no stBusyResource
    else .ok (modBobbin bobbin (fun b => { b with copying := 2, forkPos := p }) s) []

/-- The taking of the command. -/
def runBobbinCreate (h : Hdr) (layout : Nat) (model arena : Handle) (maxPos : Nat) (pfx : Handle) : State → State :=
  serve kPlain h 24 (bobbinCreateBody h layout model arena maxPos pfx)

def execBobbinCreate (h : Hdr) (layout : Nat) (model arena : Handle) (maxPos : Nat) (pfx : Handle) (s : State) : Result :=
  .next (enter h 0x50 (.bobbinCreate h layout model arena maxPos pfx) (runBobbinCreate h layout model arena maxPos pfx) s)

/-- The taking of the command. -/
def runBobbinRelease (h : Hdr) (bobbin : Handle) : State → State :=
  serve kPlain h 8 (bobbinReleaseBody h bobbin)

def execBobbinRelease (h : Hdr) (bobbin : Handle) (s : State) : Result :=
  .next (enter h 0x51 (.bobbinRelease h bobbin) (runBobbinRelease h bobbin) s)

/-- The taking of the command. -/
def runPrefixCreate (h : Hdr) (bobbin : Handle) : State → State :=
  serve kPlain h 8 (prefixCreateBody h bobbin)

def execPrefixCreate (h : Hdr) (bobbin : Handle) (s : State) : Result :=
  .next (enter h 0x52 (.prefixCreate h bobbin) (runPrefixCreate h bobbin) s)

/-- The taking of the command. -/
def runPrefixFork (h : Hdr) (bobbin : Handle) (p : Nat) : State → State :=
  serve kPlain h 16 (prefixForkBody h bobbin p)

def execPrefixFork (h : Hdr) (bobbin : Handle) (p : Nat) (s : State) : Result :=
  .next (enter h 0x53 (.prefixFork h bobbin p) (runPrefixFork h bobbin p) s)

/-! ## The ends of the copies (R311, R314) -/

/-- Score entries of a bank of one copy, with the table and slot of each. -/
def scoreSlots (l : BobbinLayout) : List (Nat × Nat) :=
  ((List.range l.tables).map fun t => (List.range l.slots).map fun k => (t, k)).flatten

/-- A linked bobbin takes its prefix's anchor table and current bank. -/
def linkCopy (b q : Bobbin) (s : State) : State :=
  let l := b.layout
  ((bobbinBases s q).zip (bobbinBases s b)).foldl
    (fun s a =>
      let s := hubCopy (a.1 + ancOff) (a.2 + ancOff) (l.stgOff - ancOff) s
      hubCopy (a.1 + l.scrOff + q.cur.toNat * l.bankBytes) (a.2 + l.scrOff) l.bankBytes s) s

/-- A score bank of one copy is read (R358). -/
def readBank (b : Bobbin) (bank a : Nat) (s : State) : State := hubRead (a + b.layout.scoreOff bank 0 0) b.layout.bankBytes s

/-- Slots of the current bank at position `p` or above become empty. -/
def emptyFrom (b : Bobbin) (p a : Nat) (s : State) : State :=
  (scoreSlots b.layout).foldl
    (fun s ts =>
      let e := a + b.layout.scoreOff b.cur.toNat ts.1 ts.2
      if p ≤ memNat s (e + 4) 4 then hubStore e (zeroBytes 4 ++ leBytes 4 0xFFFFFFFF) s else s)
    (readBank b b.cur.toNat a s)

/-- The records of a prefix below position `n` are copied into a bobbin, and the slots from there on become empty (R314). -/
def forkRecords (b q : Bobbin) (n : Nat) (s : State) : State :=
  let l := b.layout
  ((bobbinBases s q).zip (bobbinBases s b)).foldl
    (fun s a => emptyFrom b n a.2 (hubCopy (a.1 + l.latOff) (a.2 + l.latOff) (n * l.rec_) s)) s

/-- A fork takes its prefix's records below its position and stands alone, which crosses to the partner before a prefix that
this was the last reference of (R314, R315, R323). -/
def forkCopy (b q : Bobbin) (s : State) : State :=
  let s := forkRecords b q b.forkPos s
  let s := modBobbin b.handle (fun b => { b with copying := 0, pos := b.forkPos, link := none, linkLen := 0 }) s
  settlePrefixes (mirrorFlush (writeHeader b.handle s))

/-- A copy from a prefix ends: the object leaves preparation; a fork drops its reference (R311, R314, R577). -/
def execPrefixCopyComplete (bobbin : Handle) (s : State) : Result :=
  match findBobbin s bobbin with
  | none => .next s
  | some b =>
    match b.link.bind (findBobbin s) with
    | none => .next s
    | some q =>
      if b.rewriting ∨ b.copying = 0 then .next s
      else if b.copying = 2 then .next (forkCopy b q s)
      else .next (modBobbin bobbin (fun b => { b with copying := 0 }) (linkCopy b q s))

/-! ## Commit (R305) -/

/-- One copy of a bobbin takes what a stitch has staged. -/
def commitCopy (b : Bobbin) (append a : Nat) (s : State) : State :=
  let l := b.layout
  let s := hubCopy (a + l.stgOff) (a + l.latOff + b.pos * l.rec_) (append * l.rec_) s
  (scoreSlots l).foldl
    (fun s ts =>
      let p := memNat s (a + l.scoreOff (1 - b.cur.toNat) ts.1 ts.2 + 4) 4
      if b.pos ≤ p ∧ p ≠ 0xFFFFFFFF then
        hubCopy (a + l.stageOff ts.1 (p - b.pos)) (a + l.slotOff ts.1 ts.2) (2 * l.anchorD) s
      else s)
    (readBank b (1 - b.cur.toNat) a s)

/-- What a commit wrote in a bobbin, as the partner needs it: the anchor table, the bank that is now current and the appended
records of each copy (R305, R323). -/
def commitLog (h : Handle) (append : Nat) (s : State) : List (Nat × List Byte) :=
  match findBobbin s h with
  | none => []
  | some b =>
    let l := b.layout
    let part (a off n : Nat) : Nat × List Byte := (a + off, memRead s (a + off) n)
    ((bobbinBases s b).map fun a =>
      [part a ancOff (l.stgOff - ancOff), part a (l.scrOff + b.cur.toNat * l.bankBytes) l.bankBytes,
        part a (l.latOff + (b.pos - append) * l.rec_) (append * l.rec_)]).flatten

/-- A bobbin is committed with a slot's APPEND. -/
def commitBobbin (h : Handle) (append : Nat) (s : State) : State :=
  match findBobbin s h with
  | none => s
  | some b =>
    let s := (bobbinBases s b).foldl (fun s a => commitCopy b append a s) s
    writeHeader h
      (modBobbin h (fun b => { b with cur := !b.cur, pos := b.pos + append, commits := b.commits + 1 }) s)

end Machine
end Sys2Proof
end

