-- ==== Sys2Proof/Machine/Power.lean ====
section
/-! DEFINITION. The power cap, the thermal and imbalance controllers and the stretch step (chapter 23, R707 to R720, R779,
R780). -/

namespace Sys2Proof.Machine

/-! ## The cap and the step in force -/

/-- Watts available: what the 12V-2x6 sideband advertises and 75 W of the slot (R779). -/
def availableW (s : State) : Nat := s.power.advertised + 75

/-- The cap in force: the lesser of the cap last set and the available power rounded down to 25 W (R779, R780). -/
def capInForce (s : State) : Nat := min s.power.capSet (availableW s / 25 * 25)

/-- The largest of the requests, 16 under HARD or the sample limit (R719). -/
def stepTarget (p : PowerUnit) : Nat :=
  max (max p.thermal p.imbalance) (max p.power (if p.hard || p.sampleLimit then 16 else 0))

/-- The step in force becomes `n`; a running stitch keeps the largest (Table 16-7 STEP_MAX). -/
def setStep (n : Nat) (s : State) : State :=
  let s := s.modPower fun p => { p with step := n, stepPending := false }
  s.modObj fun o =>
    { o with
      stitches := listUpd (fun x => decide (x.phase = .running)) (fun x => { x with stepMax := max x.stepMax n }) o.stitches }

/-- The step follows the requests: a slower clock at once, a faster one only when the voltages have been reached (R716,
R719). `ready`: they have, or 100 us have passed. -/
def followStep (ready : Bool) (s : State) : State :=
  let t := stepTarget s.power
  if s.power.step < t then setStep t s
  else if t = s.power.step then s.modPower fun p => { p with stepPending := false }
  else if ready && s.power.stepPending then setStep t s
  else s.modPower fun p => { p with stepPending := true }

/-- A POWER_LIMIT event (R710). -/
def powerLimitEvent (s : State) : State :=
  issueEvent evPowerLimit 0 [capInForce s, s.power.avgMw, s.power.step, s.power.pacing.toNat] s

/-! ## Power -/

/-- `POWER_CAP` (Table 19-8). The response holds the cap in force and the stretch step. -/
def powerCapBody (capW : Nat) (s : State) : Reply :=
  if ¬ (300 ≤ capW ∧ capW ≤ 600 ∧ capW % 25 = 0) then .no stBadValue
  else
    let s := s.modPower fun p => { p with capSet := capW }
    .ok s (leBytes 2 (capInForce s) ++ leBytes 2 s.power.step)

/-- The taking of the command. -/
def runPowerCap (h : Hdr) (capW : Nat) : State → State :=
  serve kStandby h 8 (powerCapBody capW)

def execPowerCap (h : Hdr) (capW : Nat) (s : State) : Result :=
  .next (enter h 0xA0 (.powerCap h capW) (runPowerCap h capW) s)

/-- The power sample of each 100 us: above the cap by more than 10 % it forces step 16 until the average has been at or
below the cap for 1 ms (R707). -/
def execPowerSample (mw avgMw : Nat) (s : State) : Result :=
  let s := s.modPower fun p => { p with sampleMw := mw, avgMw := avgMw, peakMw := max p.peakMw mw }
  let cap := s.power.capInForce * 1000
  let s := s.modPower fun p =>
    if cap * 11 < mw * 10 then { p with sampleLimit := true, underSamples := 0 }
    else if p.sampleLimit = false then p
    else if cap < avgMw then { p with underSamples := 0 }
    else if 10 ≤ p.underSamples + 1 then { p with sampleLimit := false, underSamples := 0 }
    else { p with underSamples := p.underSamples + 1 }
  .next (followStep true s)

/-- The power request after 1 ms (R708), with the time below the cap less 25 W. -/
def powerRequest (p : PowerUnit) : PowerUnit :=
  let p := { p with capMs := p.capMs + (if p.power = 0 then 0 else 1),
                    throttleMs := p.throttleMs + (if p.thermal = 0 then 0 else 1),
                    pacedMs := p.pacedMs + p.pacing.toNat }
  if p.capInForce * 1000 < p.avgMw then { p with power := min 16 (p.power + 1), belowMs := 0 }
  else if p.avgMw + 25000 < p.capInForce * 1000 then
    (if 10 ≤ p.belowMs + 1 then { p with power := p.power - 1, belowMs := 0 } else { p with belowMs := p.belowMs + 1 })
  else { p with belowMs := 0 }

/-- Pacing after 1 ms (R709): it starts after 10 ms at request 16 over the cap, and ends after 100 ms below the cap less
25 W. `was`: the request before this millisecond's change. -/
def pacingUpdate (was : Nat) (p : PowerUnit) : PowerUnit :=
  if p.pacing then
    (if p.avgMw + 25000 < p.capInForce * 1000 then
      (if 100 ≤ p.overMs + 1 then { p with pacing := false, overMs := 0 } else { p with overMs := p.overMs + 1 })
    else { p with overMs := 0 })
  else if was = 16 ∧ p.capInForce * 1000 < p.avgMw then
    (if 10 ≤ p.overMs + 1 then { p with pacing := true, overMs := 0 } else { p with overMs := p.overMs + 1 })
  else { p with overMs := 0 }

/-- The power controller's millisecond (R708 to R710). -/
def execPowerControlTick (s : State) : Result :=
  let before := s.power
  let cap := capInForce s
  let s := s.modPower fun p => pacingUpdate p.power (powerRequest { p with capInForce := cap })
  let s := followStep false s
  let raised := decide (before.power < s.power.power) && decide (before.step < s.power.step)
  let paced := s.power.pacing && !before.pacing
  .next (if raised || paced then powerLimitEvent s else s)

/-! ## Temperature and voltage -/

/-- The hottest of the regions. -/
def hottest (temps : List Int) : Int := temps.foldl max (temps.headD 0)

/-- The thermal request and HARD after a sample (R711 to R713). Temperatures in 1/16 degree; 10 samples are 1 ms. -/
def thermalUpdate (temps : List Int) (p : PowerUnit) : PowerUnit :=
  let t := hottest temps
  let p := { p with temps := temps }
  let p :=
    if 1600 ≤ t then { p with hard := true, hardEvents := p.hardEvents + (if p.hard then 0 else 1) }
    else if p.hard && decide (t < 1520) then { p with hard := false, thermal := 16, coolSamples := 0 }
    else p
  if 1520 ≤ t then
    (if p.hot then
      (if 10 ≤ p.hotSamples + 1 then { p with thermal := min 16 (p.thermal + 1), hotSamples := 0, coolSamples := 0 }
      else { p with hotSamples := p.hotSamples + 1, coolSamples := 0 })
    else { p with hot := true, thermal := min 16 (p.step + 1), hotSamples := 0, coolSamples := 0 })
  else if t < 1472 then
    (if 101 ≤ p.coolSamples + 1 then { p with hot := false, thermal := p.thermal - 1, coolSamples := 1 }
    else { p with hot := false, coolSamples := p.coolSamples + 1 })
  else { p with hot := false, coolSamples := 0 }

/-- Pairs of adjacent regions for temperature (R717). -/
def thermalPairs : List (Nat × Nat) := [(0, 1), (1, 2), (2, 3), (3, 0), (4, 0), (4, 1), (4, 2), (4, 3)]
/-- Pairs of adjacent stacks for voltage. -/
def voltagePairs : List (Nat × Nat) := [(0, 1), (1, 2), (2, 3), (3, 0)]

/-- The largest difference over pairs, and the higher region of it. -/
def worstPair (pairs : List (Nat × Nat)) (v : List Int) : Int × Nat :=
  pairs.foldl (fun (m : Int × Nat) q =>
    let a := v.getD q.1 0
    let b := v.getD q.2 0
    if m.1 < a - b then (a - b, q.1) else if m.1 < b - a then (b - a, q.2) else m) (0, 0)

/-- The differences as they stand: temperature, voltage (an unpowered stack reads 0 mV and counts for none). -/
def differences (p : PowerUnit) : (Int × Nat) × (Int × Nat) :=
  (worstPair thermalPairs p.temps,
    worstPair (voltagePairs.filter fun q => decide (p.vdd.getD q.1 0 ≠ 0) && decide (p.vdd.getD q.2 0 ≠ 0))
      (p.vdd.map fun (x : Nat) => (x : Int)))

/-- A difference is beyond its limit of 20 degrees or 150 mV (R717, R718). -/
def beyondLimit (p : PowerUnit) : Bool :=
  let d := differences p
  decide (320 < d.1.1) || decide (150 < d.2.1) || p.vBeyond

/-- Every difference is within 15 degrees and 120 mV (R718). -/
def evenRegions (p : PowerUnit) : Bool :=
  let d := differences p
  decide (d.1.1 ≤ 240) && decide (d.2.1 ≤ 120) && !p.vBeyond

/-- A difference exceeds its limit: the imbalance request becomes the step in force plus 2, and a THERMAL_IMBALANCE event
goes out (R718). -/
def imbalanceStart (s : State) : State :=
  let d := differences s.power
  let volt := !decide (320 < d.1.1)
  let s := s.modPower fun p =>
    { p with
      unbalanced := true
      imbalance := min 16 (p.step + 2)
      unbalSamples := 0
      evenSamples := 0
      imbalances := p.imbalances + 1 }
  let s := followStep false s
  issueEvent evImbalance (if volt then d.2.2 else d.1.2)
    [volt.toNat, (if volt then d.2.1 else d.1.1).toNat, s.power.step, 0] s

/-- The imbalance request after a sample (R718). -/
def imbalanceUpdate (s : State) : State :=
  if beyondLimit s.power then
    (if s.power.unbalanced then
      s.modPower fun p =>
        if 10 ≤ p.unbalSamples + 1 then { p with imbalance := min 16 (p.imbalance + 2), unbalSamples := 0, evenSamples := 0 }
        else { p with unbalSamples := p.unbalSamples + 1, evenSamples := 0 }
    else imbalanceStart s)
  else
    s.modPower fun p =>
      if evenRegions p then
        (if 101 ≤ p.evenSamples + 1 then { p with unbalanced := false, imbalance := p.imbalance - 1, evenSamples := 1 }
        else { p with unbalanced := false, evenSamples := p.evenSamples + 1 })
      else { p with unbalanced := false, evenSamples := 0 }

/-- A voltage that a loop may set: 0.60 V to 0.85 V in steps of 5 mV, within 150 mV of both neighbours (R715, R717). -/
def voltageOk (vdd : List Nat) (k mv : Nat) : Bool :=
  decide (600 ≤ mv ∧ mv ≤ 850 ∧ mv % 5 = 0) &&
    [(k + 1) % 4, (k + 3) % 4].all fun j =>
      decide (vdd.getD j 0 = 0) || (decide (mv ≤ vdd.getD j 0 + 150) && decide (vdd.getD j 0 ≤ mv + 150))

/-- A stack's neighbour stands at the bound of 150 mV. -/
def atBound (vdd : List Nat) (k : Nat) : Bool :=
  [(k + 1) % 4, (k + 3) % 4].any fun j =>
    decide (vdd.getD k 0 = vdd.getD j 0 + 150) || decide (vdd.getD j 0 = vdd.getD k 0 + 150)

/-- A stack's adaptive loop sets its voltage (R715 to R718). `failing`: its monitors still fail. -/
def execVoltageLoopAdjust (k mv : Nat) (failing : Bool) (s : State) : Result :=
  let s := if voltageOk s.power.vdd k mv then s.modPower fun p => { p with vdd := listSet p.vdd k mv } else s
  let s := s.modPower fun p => { p with vBeyond := failing && atBound p.vdd k }
  let s := if beyondLimit s.power && !s.power.unbalanced then imbalanceStart s else s
  .next (followStep (!failing) s)

/-- The compute PLLs stop when no stitch has been queued or running for PLL_IDLE_US, and the stack voltages fall to 0.60 V;
a stitch posted in the same tick counts first (R700, R701). -/
def duePllIdleStop (s : State) : Result :=
  if s.obj.stitches.isEmpty then .next (s.modPower fun p => { p with pll := false, vdd := [600, 600, 600, 600] })
  else .next s

/-- The deadline is reached (R653). -/
def execPllIdleStop (s : State) : Result :=
  atDeadline .pllIdleStop duePllIdleStop s

end Sys2Proof.Machine
end

