-- ==== Sys2Proof/Machine/Picots.lean ====
section
/-! DEFINITION. Picots: their bytes, their order, their routes and their delivery (chapter 17). -/

namespace Sys2Proof

/-- LENGTH of a picot (Table 17-1). -/
def Picot.size (p : Picot) : Nat := 48 + roundUp 8 p.payload.length

/-- The bytes of a picot (Table 17-1, R511). -/
def Picot.bytes (p : Picot) : List Byte :=
  leBytes 1 p.type ++ leBytes 1 1 ++ leBytes 2 (p.more.toNat + 2 * p.unordered.toNat) ++ leBytes 2 p.size ++
  leBytes 2 p.quality.word ++ leBytes 4 p.stream.toNat ++ leBytes 4 p.capture.ns ++ leBytes 8 p.seq ++
  leBytes 8 p.frame ++ leBytes 6 p.capture.sec ++ leBytes 6 p.completion.sec ++ leBytes 4 p.completion.ns ++
  p.payload ++ zeroBytes (roundUp 8 p.payload.length - p.payload.length)

/-- The FRAME of a picot with no frame (Table 17-1). -/
abbrev noFrame : Nat := 2 ^ 64 - 1

/-- A page destination; otherwise UDP (Table 17-6 KIND). -/
def Dest.isPages (d : Dest) : Bool := decide (d.req.kind = 1)
/-- The largest picot of a destination (R529). -/
def Dest.largest (d : Dest) : Nat := if d.isPages then 65472 else d.req.datagram - 16
/-- Bytes of a page or datagram, and of its header (Table 17-7). -/
def Dest.room (d : Dest) : Nat := if d.isPages then 65536 else d.req.datagram
def Dest.headerBytes (d : Dest) : Nat := if d.isPages then 64 else 16

/-- Picots of a destination that are buffered and have not been delivered before (R530, R568). -/
def Dest.buffered (d : Dest) : Nat :=
  ((d.queue ++ d.filling ++ d.awaiting).filter fun p => decide (d.deliveredSeq < p.seq)).length

namespace Machine

/-- Drop reasons of Table 17-8. -/
abbrev dropNoRoute : Nat := 0
abbrev dropStoreFull : Nat := 1
abbrev dropTooLong : Nat := 2
abbrev dropMalformed : Nat := 3
abbrev dropReset : Nat := 4

/-- A destination. -/
def findDest (s : State) (i : Nat) : Option Dest := s.obj.dests.find? fun d => decide (d.id = i)
/-- A destination replaced. -/
def setDest (d : Dest) (s : State) : State := s.modObj fun o => { o with dests := upsert (·.id) d o.dests }
/-- The route of a stream; stream 0 is HEALTH. -/
def findRoute (s : State) (h : Handle) : Option Route := s.obj.routes.find? fun r => decide (r.stream = h)
/-- ORDER_MASK in force for a stream. -/
def orderMask (s : State) (h : Handle) : Nat := ((findRoute s h).map (·.orderMask)).getD 0xFF
/-- A stream. -/
def findStream (s : State) (h : Handle) : Option Stream := s.obj.streams.find? fun x => decide (x.handle = h)
/-- A stream changed. -/
def modStream (h : Handle) (f : Stream → Stream) (s : State) : State :=
  s.modObj fun o => { o with streams := listUpd (fun x => decide (x.handle = h)) f o.streams }

/-- A drop, counted for the card and for the destination where there is one (R530, R531). -/
def countDrop (dest : Option Nat) (reason : Nat) (s : State) : State :=
  let s := s.modCtr fun c => { c with dropped := listAdd c.dropped reason 1 }
  match dest with
  | none => s
  | some i =>
    s.modObj fun o =>
      { o with dests := listUpd (fun d => decide (d.id = i)) (fun d => { d with dropped := listAdd d.dropped reason 1 }) o.dests }

/-- A picot is produced, for the card and for a destination (R531). -/
def countProduced (s : State) : State := s.modCtr fun c => { c with produced := c.produced + 1 }
def countProducedFor (i : Nat) (s : State) : State :=
  s.modObj fun o =>
    { o with dests := listUpd (fun d => decide (d.id = i)) (fun d => { d with produced := d.produced + 1 }) o.dests }

/-- Bytes of the 256 MiB store in use: held and queued picots, and those of pages and datagrams that are not delivered (R530). -/
def storeUsed (s : State) : Nat :=
  s.obj.heldPicots.foldl (fun n p => n + p.size) 0 +
    s.obj.dests.foldl (fun n d => (d.queue ++ d.filling ++ d.awaiting).foldl (fun n p => n + p.size) n) 0

/-! ## Delivery (R526 to R529) -/

/-- Header of a picot page before DONE (Table 17-7). -/
def picotPageHeader (d : Dest) (seq : Nat) : List Byte :=
  leBytes 1 1 ++ leBytes 1 d.id ++ leBytes 2 d.filling.length ++ leBytes 4 d.fill ++
  leBytes 8 ((d.filling.head?.map (·.seq)).getD 0) ++ leBytes 8 ((d.filling.getLast?.map (·.seq)).getD 0) ++
  leBytes 8 seq ++ zeroBytes 28

/-- Header of a datagram (Table 17-7). -/
def datagramHeader (d : Dest) : List Byte :=
  leBytes 4 0x44584A54 ++ leBytes 1 1 ++ leBytes 1 d.id ++ leBytes 2 d.filling.length ++
  leBytes 8 ((d.filling.head?.map (·.seq)).getD 0)

/-- A datagram leaves, and its picots are delivered, unless their destination has been removed (R528, R531). -/
def sendDatagram (dest lastSeq : Nat) (m : OutMsg) (s : State) : State :=
  if (findDest s dest).isSome then countDelivered dest lastSeq (s.push m) else s

/-- The page or datagram that a destination is filling is delivered; its picots stay buffered until its DONE is written or it is
sent, after the partner's acknowledgement where there is one (R526, R528, R531, R736). -/
def deliverDest (d : Dest) (s : State) : State :=
  match d.filling with
  | [] => s
  | p0 :: _ =>
    let seq := d.pageSeq + 1
    let last := (d.filling.getLast?.map (·.seq)).getD p0.seq
    let s := mirrorItem (fun n => .delivery n d.id last) s
    let d' : Dest :=
      { d with filling := [], fill := 0, pageAddr := 0, pageSeq := seq, lastSent := last, awaiting := d.awaiting ++ d.filling }
    if d.isPages then
      let s := sendPage d.req.pageSet d.pageAddr (picotPageHeader d seq) false s
      let s := sendPage d.req.pageSet (d.pageAddr + 0x40) (d.filling.map Picot.bytes).flatten true s
      let s := s.modObj fun o =>
        { o with
          pageSets := listUpd (fun p => decide (p.handle = d.req.pageSet))
            (fun p => { p with undone := p.undone ++ [d.pageAddr] }) o.pageSets }
      writeDone ⟨d.req.pageSet, d.pageAddr, seq, some d.id, last⟩
        (setDest { d' with sent := d.sent ++ [⟨d.pageAddr, seq, last, [], d.filling⟩] } s)
    else
      let m := OutMsg.frame d.req.port d.req.vlan
        (.datagram (d.mac.getD 0) d.req.srcAddr d.req.dstAddr d.req.srcPort d.req.dstPort
          (datagramHeader d ++ (d.filling.map Picot.bytes).flatten))
      let s := setDest d' s
      if mustWait s then defer (.datagram d.id last m) s else sendDatagram d.id last m s

/-- A destination may place picots now: PAGES destinations neither in the orphaned state nor for a held session, UDP ones
with the collector's address resolved; none in FAULT (R528, R532, R744, R750). -/
def mayPlace (s : State) (d : Dest) : Bool :=
  if d.isPages then !pagesStopped s d.session else d.mac.isSome && !decide (s.host.state = .fault)

/-- A page is opened for a destination that fills none: the next posted page of its set. -/
def openPage (d : Dest) (s : State) : Option (Dest × State) :=
  if d.fill ≠ 0 then some (d, s)
  else if d.isPages = false then some ({ d with fill := d.headerBytes }, s)
  else
    match s.obj.pageSets.find? fun p => decide (p.handle = d.req.pageSet) with
    | none => none
    | some p =>
      match p.posted with
      | [] => none
      | a :: rest => some ({ d with fill := 64, pageAddr := a }, setPageSet { p with posted := rest } s)

/-- Queued picots move into pages or datagrams, each delivered when the next picot does not fit. -/
def pumpDest (i : Nat) : Nat → State → State
  | 0, s => s
  | fuel + 1, s =>
    match findDest s i with
    | none => s
    | some d =>
      match d.queue with
      | [] => s
      | p :: rest =>
        if mayPlace s d = false then s
        else
          match openPage d s with
          | none => s
          | some (d, s) =>
            if d.fill + p.size ≤ d.room then
              pumpDest i fuel
                (setDest
                  { d with
                    queue := rest, filling := d.filling ++ [p], fill := d.fill + p.size
                    since := if d.filling = [] then s.time.tick else d.since } s)
            else pumpDest i fuel (deliverDest d s)

/-- Everything that a destination can place is placed. -/
def pump (i : Nat) (s : State) : State :=
  match findDest s i with
  | none => s
  | some d => pumpDest i (2 * d.queue.length + 2) s

/-- A picot is released: it goes to the route in force, takes the destination's next SEQUENCE and enters it (R524, R525,
R529). -/
def releasePicot (p : Picot) (s : State) : State :=
  match (findRoute s p.stream).bind fun r => findDest s r.dest with
  | none => countDrop none dropNoRoute s
  | some d =>
    let s := countProducedFor d.id s
    if d.largest < p.size then countDrop (some d.id) dropTooLong s
    else
      match findDest s d.id with
      | none => s
      | some d =>
        let p := { p with seq := d.nextSeq }
        let s := setDest { d with nextSeq := d.nextSeq + 1, queue := d.queue ++ [p] } s
        pump d.id (mirrorItem (fun n => .release n d.id p) s)

/-! ## Order (R520 to R522) -/

/-- The first frame of a stream that is neither forwarded nor dropped nor skipped. -/
def firstOpenFrame (closed : List Nat) : Nat → Nat → Nat
  | 0, g => g
  | fuel + 1, g => if closed.contains g then firstOpenFrame closed fuel (g + 1) else g

/-- Some frame below `f` of a stream is open (R520). -/
def earlierOpen (s : State) (h : Handle) (f : Nat) : Bool :=
  match findStream s h with
  | none => false
  | some x =>
    decide (firstOpenFrame x.closedFrames (x.closedFrames.length + 1) x.nextFrame < f) ||
      s.obj.items.any fun i =>
        decide (i.stream = h) && (orderMask s h).testBit i.output && decide (i.frame < f)

/-- A picot is inserted by frame, behind those of the same frame. -/
def insertByFrame (p : Picot) : List Picot → List Picot
  | [] => [p]
  | q :: l => if p.frame < q.frame then p :: q :: l else q :: insertByFrame p l

/-- Picots of one stream that may go are released: first those that are unordered, as they were formed (R521), then in ascending
frame those whose earlier frames have closed. That unordered picots go first among those of a tick is the model's choice (DESIGN
CHOICE, log entry 166). -/
def releaseStream (h : Handle) (s : State) : State :=
  let mine := s.obj.heldPicots.filter fun p => decide (p.stream = h)
  let may (p : Picot) : Bool := p.unordered || !earlierOpen s h p.frame
  let go := mine.filter may
  let s := s.modObj fun o => { o with heldPicots := o.heldPicots.filter fun p => !(decide (p.stream = h) && may p) }
  (go.filter (·.unordered) ++ (go.filter fun p => !p.unordered).foldl (fun l p => insertByFrame p l) []).foldl
    (fun s p => releasePicot p s) s

/-- A handle inserted by INDEX, once. -/
def insertByIndex (h : Handle) : List Handle → List Handle
  | [] => [h]
  | x :: l => if h = x then x :: l else if h.index < x.index then h :: x :: l else x :: insertByIndex h l

/-- Picots that may go at the end of a tick are released, streams in ascending INDEX (R522). -/
def releaseHeld (s : State) : State :=
  (s.obj.heldPicots.foldl (fun l p => insertByIndex p.stream l) []).foldl (fun s h => releaseStream h s) s

/-- A picot is formed: dropped when the store is full (R530); otherwise it is released at the end of the tick, or held while an
earlier frame is open (R520 to R522). -/
def formPicot (p : Picot) (s : State) : State :=
  let s := countProduced s
  if 2 ^ 28 < storeUsed s + p.size then
    let d := (findRoute s p.stream).map (·.dest)
    let s := match d with
      | none => s
      | some i => countProducedFor i s
    countDrop d dropStoreFull s
  else s.modObj fun o => { o with heldPicots := o.heldPicots ++ [p] }

/-- A picot formed from an item is unordered when its output is outside ORDER_MASK (R521). -/
def unorderedFor (s : State) (h : Handle) (output : Nat) : Bool := !(orderMask s h).testBit output

/-- A STREAM_STATUS picot (Table 17-4); its FRAME is the first frame it concerns. -/
def statusPicot (h : Handle) (reason count detail frame : Nat) (capture : CardTime) (estimated : Bool) (s : State) :
    State :=
  formPicot
    { type := 7, more := false, unordered := false, quality := { estimated := estimated }, stream := h,
      capture := capture, seq := 0, frame := frame, completion := s.now
      payload := leBytes 1 reason ++ zeroBytes 3 ++ leBytes 4 count ++ leBytes 4 detail ++ zeroBytes 4 } s

/-- The HEALTH picot (Table 17-4, R513, R521). -/
def healthPicot (s : State) : Picot :=
  { type := 8, more := false, unordered := true, quality := {}, stream := 0, capture := s.now, seq := 0, frame := noFrame,
    completion := s.now
    payload :=
      ((List.range 5).map fun i => leBytesInt 2 (s.power.temps.getD i 0)).flatten ++ zeroBytes 2 ++
      leBytes 4 s.power.avgMw ++ leBytes 1 s.power.step ++ leBytes 1 (pairCode s) ++ zeroBytes 6 ++
      leBytes 8 s.ctr.corrected ++ leBytes 8 s.ctr.contained ++ leBytes 8 (s.ctr.dropped.foldl (· + ·) 0) }

/-- The period of HEALTH passes (Table 17-6 HEALTH_MS). -/
def execHealthPicotTimer (s : State) : Result :=
  if ((findRoute s 0).map (·.healthMs)).getD 1000 = 0 ∨ (s.cc 3).run ≠ 1 then .next s else .next (formPicot (healthPicot s) s)

/-- FLUSH_US have passed since the first picot of the page or datagram was placed (R526, R528). One that was begun in this tick is
another's. -/
def duePicotPageFlush (dest : Nat) (s : State) : Result :=
  match findDest s dest with
  | none => .next s
  | some d => if mayPlace s d && decide (d.since ≠ s.time.tick) then .next (pump dest (deliverDest d s)) else .next s

/-- The deadline is reached (R653). -/
def execPicotPageFlush (dest : Nat) (s : State) : Result := atDeadline (.picotPageFlush dest) (duePicotPageFlush dest) s

/-- The collector's MAC address is asked for again, and comes to be what ARP or NDP resolves, or unresolved (R528). -/
def execCollectorAddressRefresh (dest : Nat) (mac : Option Nat) (s : State) : Result :=
  match findDest s dest with
  | none => .next s
  | some d =>
    if d.isPages then .next s
    else
      let s := s.push (.frame d.req.port d.req.vlan (.resolve d.req.dstAddr))
      .next (pump dest (setDest { d with mac := mac } s))

/-! ## `PICOT_ROUTE` -/

/-- Fields of DEST_SET in range (Table 17-6, R524). -/
def destFieldsOk (s : State) (r : RouteReq) : Bool :=
  decide (r.dest < 32) && (decide (r.flushUs = 0) || decide (10 ≤ r.flushUs ∧ r.flushUs ≤ 10000)) &&
  (if r.kind = 1 then
    s.obj.pageSets.any fun p => decide (p.handle = r.pageSet) && decide (p.kind = 2)
  else
    decide (r.kind = 2) && decide (512 ≤ r.datagram ∧ r.datagram ≤ 8972) && decide (r.port < 8) &&
    (decide (r.vlan ≤ 4094) || decide (r.vlan = 0xFFFF)) &&
    s.obj.addrs.any fun a => decide (a.port = r.port) && decide (a.addr = r.srcAddr))

/-- What DEST_SET sets for a destination's KIND, FLUSH_US apart (Table 17-6). -/
def destSame (a b : RouteReq) : Bool :=
  decide (a.kind = b.kind) &&
    (if a.kind = 1 then decide (a.pageSet = b.pageSet)
    else
      decide ((a.datagram, a.port, a.vlan, a.srcPort, a.dstPort, a.srcAddr, a.dstAddr) =
        (b.datagram, b.port, b.vlan, b.srcPort, b.dstPort, b.srcAddr, b.dstAddr)))

/-- `PICOT_ROUTE` DEST_SET. -/
def destSetBody (h : Hdr) (r : RouteReq) (s : State) : Reply :=
  let ps := s.obj.pageSets.find? fun p => decide (p.handle = r.pageSet)
  match if r.kind = 1 then checkHandle r.pageSet tPageSet (ps.map (·.session)) h.session else none with
  | some st => .no st
  | none =>
    if destFieldsOk s r = false then .no stBadValue
    else
      match findDest s r.dest with
      | some d =>
        if d.session = h.session ∧ destSame d.req r = true then
          .ok (setDest { d with req := { d.req with flushUs := r.flushUs } } s) []
        else .no stBusyResource
      | none =>
        let s := setDest { id := r.dest, session := h.session, req := r } s
        .ok (if r.kind = 2 then s.push (.frame r.port r.vlan (.resolve r.dstAddr)) else s) []

/-- The pages of a destination that have no DONE go back to the front of its set's posted pages: those delivered without one, and
the one being filled. -/
def returnPage (d : Dest) (s : State) : State :=
  s.modObj fun o =>
    { o with
      pageSets := listUpd (fun p => d.isPages && decide (p.handle = d.req.pageSet))
        (fun p =>
          let back := (d.sent.map (·.addr)).filter p.undone.contains
          { p with
            posted := back ++ (if d.fill ≠ 0 then [d.pageAddr] else []) ++ p.posted
            undone := p.undone.filter fun a => !back.contains a }) o.pageSets }

/-- The ledger of a destination: produced = delivered + buffered + drops (R531). -/
def destLedger (d : Dest) : Ledger := Ledger.ofSum 7 d.id d.produced [d.delivered, d.buffered, d.dropped.foldl (· + ·) 0]

/-- A destination is removed, its ledger checked, its buffered picots dropped with reason RESET. -/
def dropDest (d : Dest) (s : State) : State :=
  let s := checkLedger (destLedger d) s
  let n := d.buffered
  let s := returnPage d s
  let s := s.modCtr fun c => { c with dropped := listAdd c.dropped dropReset n }
  s.modObj fun o => { o with dests := removeKey (·.id) d.id o.dests }

/-- `PICOT_ROUTE` DEST_REMOVE. -/
def destRemoveBody (h : Hdr) (dest : Nat) (s : State) : Reply :=
  if 32 ≤ dest then .no stBadValue
  else
    match findDest s dest with
    | none => .no stNotFound
    | some d =>
      if d.session ≠ h.session then .no stNotFound
      else if s.obj.routes.any fun r => decide (r.dest = dest) then .no stBusyResource
      else .ok (dropDest d s) []

/-- `PICOT_ROUTE` STREAM_SET. -/
def streamSetBody (h : Hdr) (r : RouteReq) (s : State) : Reply :=
  match if r.stream = 0 then none else checkFree s r.stream tStream ((findStream s r.stream).map (·.session)) h.session with
  | some st => .no st
  | none =>
    if 32 ≤ r.dest ∨ 256 ≤ r.orderMask ∨
        (r.stream = 0 ∧ ¬ (r.healthMs = 0 ∨ (100 ≤ r.healthMs ∧ r.healthMs ≤ 60000))) then .no stBadValue
    else
      match findDest s r.dest with
      | none => .no stNotFound
      | some d =>
        if d.session ≠ h.session then .no stNotFound
        else
          .ok (s.modObj fun o =>
            { o with routes := upsert (·.stream) ⟨r.stream, r.dest, r.orderMask, r.healthMs⟩ o.routes }) []

/-- The statistics block of a destination (Table 17-9). -/
def destBlock (d : Dest) : List Byte :=
  leBytes 8 d.produced ++ leBytes 8 d.delivered ++ leBytes 8 d.buffered ++ (d.dropped.map (leBytes 8)).flatten ++
  leBytes 8 d.nextSeq ++ leBytes 8 (if d.isPages then d.ackHwm else 0) ++ leBytes 8 d.pages

/-- Picots of the card that are buffered: held, queued or in an open page. -/
def cardBuffered (s : State) : Nat := s.obj.heldPicots.length + s.obj.dests.foldl (fun n d => n + d.buffered) 0

/-- `PICOT_ROUTE` STATS; 0xFF gives the card-wide block, whose last three fields the manual leaves open. -/
def destStatsBody (h : Hdr) (dest : Nat) (s : State) : Reply :=
  if dest = 0xFF then
    .ok (s.useFreshN 24)
      (leBytes 8 s.ctr.produced ++ leBytes 8 s.ctr.delivered ++ leBytes 8 (cardBuffered s) ++
        (s.ctr.dropped.map (leBytes 8)).flatten ++ freeBytes 24 s)
  else if 32 ≤ dest then .no stBadValue
  else
    match findDest s dest with
    | none => .no stNotFound
    | some d => if d.session ≠ h.session then .no stNotFound else .ok s (destBlock d)

/-- The taking of the command. -/
def runPicotRouteDestSet (h : Hdr) (r : RouteReq) : State → State :=
  serve kPlain h 80 (destSetBody h r)

def execPicotRouteDestSet (h : Hdr) (r : RouteReq) (s : State) : Result :=
  .next (enter h 0x71 (.picotRouteDestSet h r) (runPicotRouteDestSet h r) s)

/-- The taking of the command. -/
def runPicotRouteDestRemove (h : Hdr) (dest : Nat) : State → State :=
  serve kPlain h 80 (destRemoveBody h dest)

def execPicotRouteDestRemove (h : Hdr) (dest : Nat) (s : State) : Result :=
  .next (enter h 0x71 (.picotRouteDestRemove h dest) (runPicotRouteDestRemove h dest) s)

/-- The taking of the command. -/
def runPicotRouteStreamSet (h : Hdr) (r : RouteReq) : State → State :=
  serve kPlain h 80 (streamSetBody h r)

def execPicotRouteStreamSet (h : Hdr) (r : RouteReq) (s : State) : Result :=
  .next (enter h 0x71 (.picotRouteStreamSet h r) (runPicotRouteStreamSet h r) s)

/-- The taking of the command. -/
def runPicotRouteStats (h : Hdr) (dest : Nat) : State → State :=
  serve kPlain h 80 (destStatsBody h dest)

def execPicotRouteStats (h : Hdr) (dest : Nat) (s : State) : Result :=
  .next (enter h 0x71 (.picotRouteStats h dest) (runPicotRouteStats h dest) s)

/-! ## Page sets -/

/-- A page set's pages that are held: posted and not filled, those being filled by a destination and those that wait for their DONE
included (R553). -/
def pagesHeld (s : State) (p : PageSet) : Nat :=
  p.posted.length + p.undone.length + (s.obj.dests.filter fun d => decide (d.req.pageSet = p.handle) && d.isPages && decide (d.fill ≠ 0)).length

/-- The ledger of a page set: posted = filled + held (R553). -/
def pageLedger (s : State) (p : PageSet) : Ledger :=
  Ledger.ofSum 6 p.handle.toNat p.postedCount [p.filledCount, pagesHeld s p]

/-- A delivered picot page is re-posted: the destination's high-water mark follows (R527). -/
def ackDest (addr : Nat) (d : Dest) : Dest :=
  if d.sent.any fun p => decide (p.addr = addr) then
    let sent := d.sent.filter fun p => !decide (p.addr = addr)
    { d with
      sent := sent
      ackHwm := match sent with
        | [] => d.lastSent
        | p :: _ => max d.ackHwm (((p.picots.head?.map (·.seq)).getD 1) - 1) }
  else d

/-- Pages are added to a set: a delivered page is acknowledged by it (R527, R557), and what waits is placed. -/
def addPages (p : PageSet) (addrs : List Nat) (s : State) : State :=
  let p := { p with
    posted := p.posted ++ addrs
    postedCount := p.postedCount + addrs.length
    sent := p.sent.filter fun x => !addrs.contains x.addr }
  let s := setPageSet p s
  if p.kind = 2 then
    let mine := s.obj.dests.filter fun d => decide (d.req.pageSet = p.handle) && d.isPages
    let s := mine.foldl
      (fun s d =>
        let d' := addrs.foldl (fun d a => ackDest a d) d
        let s := setDest d' s
        if d'.ackHwm ≠ d.ackHwm then mirrorItem (fun n => .repost n d.id d'.ackHwm) s else s) s
    mine.foldl (fun s d => pump d.id s) s
  else if p.kind = 1 then drainEvents (pumpRecords s)
  else s

/-- Addresses that are bus addresses of pages: multiples of 4 KiB (Table 19-8). -/
def pageAddrsOk (addrs : List Nat) : Bool :=
  decide (addrs.length ≤ 500) && addrs.all fun a => decide (a % 4096 = 0) && decide (a < 2 ^ 64)

/-- Each address once, in order. -/
def dedup (l : List Nat) : List Nat := l.foldl (fun acc a => if acc.contains a then acc else acc ++ [a]) []

/-- The response of `PAGES_POST`. -/
def pagesResponse (h : Handle) (s : State) : List Byte :=
  leBytes 4 h.toNat ++
    leBytes 4 (((s.obj.pageSets.find? fun p => decide (p.handle = h)).map (pagesHeld s)).getD 0)

/-- `PAGES_POST` that creates a set (R552, R591). -/
def pagesCreateBody (h : Hdr) (kind vector : Nat) (addrs : List Nat) (s : State) : Reply :=
  if (s.pair.mode = 1 ∧ s.pair.role = 2) ∧ kind ≠ 1 then .no stWrongState
  else if ¬ (1 ≤ kind ∧ kind ≤ 3) ∨ pageAddrsOk addrs = false ∨ 256 ≤ vector then .no stBadValue
  else if kind = 1 ∧ (s.obj.pageSets.any fun p => decide (p.session = h.session) && decide (p.kind = 1)) = true then
    .no stBusyResource
  else if kind = 3 ∧ (s.obj.pageSets.any fun p => decide (p.kind = 3)) = true then .no stBusyResource
  else
    let hd := newHandle s tPageSet
    let p : PageSet := { handle := hd, session := h.session, kind := kind, vector := vector }
    let s := addPages p (dedup addrs) (issued hd (setPageSet p s))
    .ok s (pagesResponse hd s)

/-- A page's address is held by a set. -/
def heldByDest (s : State) (p : PageSet) (a : Nat) : Bool :=
  s.obj.dests.any fun d => decide (d.req.pageSet = p.handle) && d.isPages && decide (d.fill ≠ 0) && decide (d.pageAddr = a)

/-- `PAGES_POST` that adds pages (R552, R591); an address already held counts once. -/
def pagesAddBody (h : Hdr) (pageSet : Handle) (addrs : List Nat) (s : State) : Reply :=
  let found := s.obj.pageSets.find? fun p => decide (p.handle = pageSet)
  match checkHandle pageSet tPageSet (found.map (·.session)) h.session, found with
  | some st, _ => .no st
  | none, none => .no stNotFound
  | none, some p =>
    if (s.pair.mode = 1 ∧ s.pair.role = 2) ∧ p.kind ≠ 1 then .no stWrongState
    else if pageAddrsOk addrs = false then .no stBadValue
    else
      let new := (dedup addrs).filter fun a => !p.posted.contains a && !p.undone.contains a && !heldByDest s p a
      if 4096 < pagesHeld s p + new.length then .no stLimitExceeded
      else
        let s := addPages p new s
        .ok s (pagesResponse pageSet s)

/-- The taking of the command. -/
def runPagesPostCreate (h : Hdr) (kind vector : Nat) (addrs : List Nat) : State → State :=
  serve kStandby h (roundUp 8 (16 + 8 * addrs.length)) (pagesCreateBody h kind vector addrs)

def execPagesPostCreate (h : Hdr) (kind vector : Nat) (addrs : List Nat) (s : State) : Result :=
  .next (enter h 0x70 (.pagesPostCreate h kind vector addrs) (runPagesPostCreate h kind vector addrs) s)

/-- The taking of the command. -/
def runPagesPostAdd (h : Hdr) (pageSet : Handle) (addrs : List Nat) : State → State :=
  serve kStandby h (roundUp 8 (16 + 8 * addrs.length)) (pagesAddBody h pageSet addrs)

def execPagesPostAdd (h : Hdr) (pageSet : Handle) (addrs : List Nat) (s : State) : Result :=
  .next (enter h 0x70 (.pagesPostAdd h pageSet addrs) (runPagesPostAdd h pageSet addrs) s)

end Machine
end Sys2Proof
end

