-- ==== Sys2Proof/Machine/Scale.lean ====
section
/-! DEFINITION. The arithmetic of the scalers: the geometry of items, the taps of the filters, colour conversion and
normalisation (R451 to R462, R474, R475). A sample's value is fixed only up to the tolerance of R456; within it the value
is free. -/

namespace Sys2Proof

/-! ## Geometry -/

/-- Space-to-depth factor. -/
def OutputDesc.factor (o : OutputDesc) : Nat := 2 ^ o.s2d
/-- Bytes of a sample. -/
def OutputDesc.elem (o : OutputDesc) : Nat := if o.outFmt = 0x30 then 2 else 1
/-- PACK flag. -/
def OutputDesc.packs (o : OutputDesc) : Bool := o.flags.testBit 3
/-- Channels stored. -/
def OutputDesc.channels (o : OutputDesc) : Nat := 3 * o.factor * o.factor

/-- Width and height of each level (R459). -/
def OutputDesc.levelDims (o : OutputDesc) : List (Nat × Nat) :=
  (List.range (if o.kind = 2 then o.levels else 1)).foldl
    (fun acc k =>
      match acc.getLast? with
      | none => [(o.outW, o.outH)]
      | some (w, h) =>
        let f := o.factors.getD (k - 1) 0
        acc ++ [(max 1 (w * f / 256), max 1 (h * f / 256))]) []

/-- Stored width and height of a level (R458). -/
def OutputDesc.stored (o : OutputDesc) (d : Nat × Nat) : Nat × Nat := (ceilDiv d.1 o.factor, ceilDiv d.2 o.factor)
/-- ROW_PITCH of a level. -/
def OutputDesc.rowPitch (o : OutputDesc) (d : Nat × Nat) : Nat := roundUp 64 ((o.stored d).1 * o.elem)
/-- Bytes of a plane of a level. -/
def OutputDesc.plane (o : OutputDesc) (d : Nat × Nat) : Nat := o.rowPitch d * (o.stored d).2
/-- PLANE_STRIDE of a level. -/
def OutputDesc.planeStride (o : OutputDesc) (d : Nat × Nat) : Nat :=
  if o.plane d / 64 % 2 = 1 then o.plane d else o.plane d + 64
/-- Bytes of a level. -/
def OutputDesc.levelBytes (o : OutputDesc) (d : Nat × Nat) : Nat := (o.channels - 1) * o.planeStride d + o.plane d

/-- Offset of each level, and the end of the last (R459). -/
def OutputDesc.levelOffs (o : OutputDesc) : List Nat × Nat :=
  o.levelDims.foldl (fun acc d =>
    let a := roundUp 256 acc.2
    (acc.1 ++ [a], a + o.levelBytes d)) ([], 256)

/-- Bytes of one eyelet (R475). -/
def OutputDesc.eyeletBytes (o : OutputDesc) : Nat := roundUp 256 (3 * o.planeStride (o.outW, o.outH))
/-- Offset of the packing rows (R476). -/
def OutputDesc.packRowsOff (o : OutputDesc) : Nat := roundUp 256 (3328 + 2 * o.packRows)
/-- Bytes of a segment's data. -/
def OutputDesc.segmentBytes (o : OutputDesc) : Nat := o.levelBytes (o.outW, o.outH)
/-- Packing rows of a segment (R476). -/
def OutputDesc.segmentRows (o : OutputDesc) : Nat := ceilDiv o.segmentBytes o.packRow

/-- End of an item's data, where the prediction area may follow. -/
def OutputDesc.dataEnd (o : OutputDesc) : Nat :=
  if o.packs then o.packRowsOff + o.packRows * o.packRow
  else if o.kind = 3 then 2304 + 64 * o.eyeletBytes
  else o.levelOffs.2

/-- Bytes of a prediction area (R470). -/
abbrev predBytes : Nat := 2112

/-- PRED_OFF of an item, 0 when the stream has no EYELETS output. -/
def OutputDesc.predOff (o : OutputDesc) (eyelets : Bool) : Nat := if eyelets then roundUp 256 o.dataEnd else 0
/-- Bytes of an item at its largest. -/
def OutputDesc.itemBytes (o : OutputDesc) (eyelets : Bool) : Nat :=
  if eyelets then roundUp 256 o.dataEnd + predBytes else o.dataEnd

/-- Bytes of a raw sample (Table 14-5). -/
def DecodeDecl.sampleBytes (d : DecodeDecl) : Nat := if d.bitDepth = 10 then 2 else 1
/-- Pitch P of a raw output buffer (Table 14-5). -/
def DecodeDecl.pitch (d : DecodeDecl) : Nat := roundUp 64 (d.maxWidth * d.sampleBytes)
/-- Bytes of an output buffer (Table 14-4). -/
def DecodeDecl.outBytes (d : DecodeDecl) : Nat :=
  if d.chroma = 1 then d.pitch * d.maxHeight * 2 else d.pitch * d.maxHeight * 3 / 2
/-- Bytes of a reference slot (Table 14-4). -/
def DecodeDecl.refBytes (d : DecodeDecl) : Nat :=
  let s2 := d.maxWidth * d.maxHeight * (if d.chroma = 1 then 4 else 3)
  let num := s2 * 17 * (if d.bitDepth = 10 then 5 else 4)
  ceilDiv num (2 * 16 * 4) + ceilDiv d.maxWidth 16 * ceilDiv d.maxHeight 16 * 16

/-! ## Taps (R454) -/

/-- The magnitude of a rational. -/
def ratAbs (d : Rat) : Rat := if d < 0 then -d else d

/-- A cubic kernel with a = -1/2. -/
def cubic (d : Rat) : Rat :=
  let d := ratAbs d
  if d ≤ 1 then (3 / 2) * d ^ 3 - (5 / 2) * d ^ 2 + 1
  else if d < 2 then -(1 / 2) * d ^ 3 + (5 / 2) * d ^ 2 - 4 * d + 2
  else 0

/-- The two taps of the bilinear filter at `u`. -/
def bilinearTaps (u : Rat) : List (Int × Rat) := [(u.floor, 1 - (u - u.floor)), (u.floor + 1, u - u.floor)]

/-- The taps whose cells meet the footprint `lo` to `hi`, each weighted by its share. -/
def areaTaps (lo hi : Rat) : List (Int × Rat) :=
  (List.range (hi.ceil - lo.floor).toNat).map fun (i : Nat) =>
    let k : Int := lo.floor + (i : Int)
    (k, (min hi (k + 1 : Rat) - max lo (k : Rat)) / (hi - lo))

/-- The taps of output index `x` of `n` along one axis of a plane whose samples lie `k` luma samples apart, the first
`off` luma samples in; the source extent starts at `x0` and is `w` long, in luma samples. -/
def axisTaps (filter x n : Nat) (x0 w : Rat) (k : Nat) (off : Rat) : List (Int × Rat) :=
  let u := (x0 + (x + 1 / 2) * w / n - 1 / 2 - off) / k
  let edge (t : Rat) : Rat := (t - off - 1 / 2 + (k : Rat) / 2) / k
  if filter = 1 then (List.range 4).map fun (i : Nat) =>
    let j : Int := u.floor - 1 + (i : Int)
    (j, cubic (u - j))
  else if filter = 2 ∧ (n : Rat) < w / k then areaTaps (edge (x0 + x * w / n)) (edge (x0 + (x + 1) * w / n))
  else bilinearTaps u

/-! ## Source samples -/

/-- A decoded picture as the scalers read it. -/
structure Source where
  base : Nat
  pitch : Nat
  maxHeight : Nat
  elem : Nat
  width : Nat
  height : Nat
  /-- 0 4:2:0, 1 4:2:2; 4:0:0 is stored with mid-value chroma of the declared format -/
  chroma : Nat
  depth : Nat
  full : Bool
  /-- matrix in force: 0 BT.601, 1 BT.709, 2 BT.2020 -/
  matrix : Nat
  jpeg : Bool
  deriving DecidableEq, Repr

/-- A rectangle of luma samples. -/
structure Rect where
  x : Int
  y : Int
  w : Int
  h : Int
  deriving DecidableEq, Repr

/-- A coordinate moved to the nearest one in a range. -/
def clampTo (lo hi k : Int) : Nat := (max lo (min hi k)).toNat

namespace Machine

/-- Sample of plane `p` (0 luma, 1 Cb, 2 Cr) at a place of that plane. -/
def srcSample (s : State) (c : Source) (p x y : Nat) : Nat :=
  if p = 0 then memNat s (c.base + y * c.pitch + x * c.elem) c.elem
  else memNat s (c.base + c.pitch * c.maxHeight + y * c.pitch + (2 * x + (p - 1)) * c.elem) c.elem

/-- Horizontal and vertical sample spacing and offset of plane `p`, in luma samples (codec defaults). -/
def planeGrid (c : Source) (p : Nat) : (Nat × Rat) × (Nat × Rat) :=
  if p = 0 then ((1, 0), (1, 0))
  else
    ((2, if c.jpeg then 1 / 2 else 0), if c.chroma = 0 then (2, 1 / 2) else (1, 0))

/-- Taps with their samples' places: those beyond the extent from `lo` to `hi` read its edge (R454). -/
def edgeTaps (lo hi : Int) (ts : List (Int × Rat)) : List (Nat × Rat) := ts.map fun t => (clampTo lo hi t.1, t.2)

/-- Taps within the extent alone, their weights scaled to a sum of 1, and the sum as it was. -/
def innerTaps (lo hi : Int) (ts : List (Int × Rat)) : List (Nat × Rat) × Rat :=
  let l := ts.filter fun t => decide (lo ≤ t.1 ∧ t.1 ≤ hi)
  let w := (l.map (·.2)).foldl (· + ·) 0
  (l.map fun t => (t.1.toNat, if w = 0 then 0 else t.2 / w), w)

/-- Samples of a plane under some taps. -/
def tapSamples (s : State) (c : Source) (p : Nat) (tx ty : List (Nat × Rat)) : List Nat :=
  (ty.map fun a => tx.map fun b => srcSample s c p b.1 a.1).flatten

/-- A plane resampled at an output place: the weighted sum of the samples under its taps. -/
def resample (s : State) (c : Source) (p : Nat) (tx ty : List (Nat × Rat)) : Rat :=
  ty.foldl (fun acc a => acc + a.2 * tx.foldl (fun acc b => acc + b.2 * (srcSample s c p b.1 a.1 : Rat)) 0) 0

/-- Kr and Kb of a matrix. -/
def lumaCoeffs (m : Nat) : Rat × Rat :=
  match m with
  | 0 => (299 / 1000, 114 / 1000)
  | 2 => (2627 / 10000, 593 / 10000)
  | _ => (2126 / 10000, 722 / 10000)

/-- R, G and B of a luma and two chroma values, each clamped to [0, 1] and scaled by 255 (R455 steps 2 and 3). -/
def toRgb (c : Source) (y cb cr : Rat) : List Rat :=
  let u : Rat := 2 ^ (c.depth - 8)
  let top : Rat := 2 ^ c.depth - 1
  let mid : Rat := 2 ^ (c.depth - 1)
  let y := if c.full then y / top else (y - 16 * u) / (219 * u)
  let cb := if c.full then (cb - mid) / top else (cb - mid) / (224 * u)
  let cr := if c.full then (cr - mid) / top else (cr - mid) / (224 * u)
  let (kr, kb) := lumaCoeffs c.matrix
  let red := y + 2 * (1 - kr) * cr
  let blue := y + 2 * (1 - kb) * cb
  let green := (y - kr * red - kb * blue) / (1 - kr - kb)
  [red, green, blue].map fun v => 255 * max 0 (min 1 v)

/-- A finite FP32 value as a rational. -/
def ratOf (w : W32) : Rat :=
  match fp32 w with
  | .num n m e => (if n then -1 else 1) * (m : Rat) * (2 : Rat) ^ e
  | _ => 0

/-- A rational as an exact or nearly exact value for one rounding. -/
def valOfRat (r : Rat) : Val := Val.ratio (decide (r.num < 0)) r.num.natAbs r.den

/-- The numbers of a descriptor on which a scaler's arithmetic depends. -/
def descKey (o : OutputDesc) : List Int :=
  [o.kind, o.outFmt, o.matrix, o.flags, o.filter, o.s2d, o.levels, o.outW, o.outH, o.cropX, o.cropY, o.cropW, o.cropH].map
      (fun (n : Nat) => (n : Int)) ++
    (o.factors.map fun (n : Nat) => (n : Int)) ++ (o.mean ++ o.rstd).map fun w => (w.toNat : Int)

/-- The error of a scaler's value within the tolerance of R456, from -1 to 1 of it: a function of the descriptor, the place
and the source samples alone. -/
def scaleTheta (o : OutputDesc) (place : List Int) (samples : List Nat) : Rat :=
  ((Config.scaleError (descKey o ++ place) samples % (2 ^ 33 + 1) : Nat) : Rat) / 2 ^ 32 - 1

/-- A converted pixel with what its error depends on: R, G and B, the place and the source samples. -/
structure Pixel where
  rgb : List Rat
  place : List Int
  samples : List Nat
  deriving DecidableEq, Repr

/-- Encoding of output channel `ch` (0 to 2) of a converted pixel, of which `weight` lies in the picture: taps outside it read
the zero encoding (R455, R474). -/
def finish (o : OutputDesc) (x : Pixel) (weight : Rat) (ch : Nat) : Nat :=
  let v := x.rgb.getD (if o.flags.testBit 2 then 2 - ch else ch) 0
  let rstd := ratOf (o.rstd.getD ch 0)
  let v := weight * ((v - ratOf (o.mean.getD ch 0)) * rstd)
  convertRne o.outFmt (valOfRat (v + scaleTheta o (x.place ++ [(ch : Int)]) x.samples * (255 * ratAbs rstd / 4096)))

/-- The pixel that some taps of each plane give. -/
def pixelOf (s : State) (c : Source) (place : List Int) (taps : Nat → List (Nat × Rat) × List (Nat × Rat)) : Pixel :=
  let plane (p : Nat) : Rat := resample s c p (taps p).1 (taps p).2
  { rgb := toRgb c (plane 0) (plane 1) (plane 2)
    place := place
    samples := ((List.range 3).map fun p => tapSamples s c p (taps p).1 (taps p).2).flatten }

/-- The pixel at output place (`x`, `y`) of a grid of `w` by `h` over a rectangle, whose edge the taps beyond it read
(R454). -/
def pixel (s : State) (c : Source) (filter : Nat) (r : Rect) (w h x y : Nat) : Pixel :=
  pixelOf s c [w, h, x, y] fun p =>
    let ((kx, ox), (ky, oy)) := planeGrid c p
    (edgeTaps (r.x / kx) ((r.x + r.w - 1) / kx) (axisTaps filter x w r.x r.w kx ox),
      edgeTaps (r.y / ky) ((r.y + r.h - 1) / ky) (axisTaps filter y h r.y r.h ky oy))

/-- The source rectangle of an output, clipped to the picture; none when it misses it (R454). -/
def cropRect (o : OutputDesc) (c : Source) : Option Rect :=
  if o.cropW = 0 then some ⟨0, 0, c.width, c.height⟩
  else
    let x1 := min (o.cropX + o.cropW) c.width
    let y1 := min (o.cropY + o.cropH) c.height
    if o.cropX < x1 ∧ o.cropY < y1 then some ⟨o.cropX, o.cropY, x1 - o.cropX, y1 - o.cropY⟩ else none

/-- Bytes of stored row `sy` of stored channel `ch` of a level of `d` samples: space-to-depth takes its blocks from the
level, and samples beyond the level are zero (R458, R264). -/
def levelRow (s : State) (o : OutputDesc) (c : Source) (d : Nat × Nat) (sy ch : Nat) : List Byte :=
  let f := o.factor
  let col := ch / (f * f)
  let y := sy * f + ch / f % f
  ((List.range (o.stored d).1).map fun sx =>
    let x := sx * f + ch % f
    leBytes o.elem
      (if x < d.1 ∧ y < d.2 then
        match cropRect o c with
        | none => 0
        | some r => finish o (pixel s c o.filter r d.1 d.2 x y) 1 col
      else 0)).flatten

/-! ## Eyelets (R474) -/

/-- What an eyelet's box comes to: the cut rectangle, its flags (bit 0 EMPTY, bit 1 CLIPPED), and the place and size of its
content in the output. -/
structure Cut where
  rect : Rect
  empty : Bool
  clipped : Bool
  offX : Nat
  offY : Nat
  cw : Nat
  ch : Nat
  deriving DecidableEq, Repr

/-- A rational rounded to nearest, ties to even. -/
def roundRat (r : Rat) : Nat := ((valOfRat r).toIntRne 0 (2 ^ 31)).toNat

/-- Steps 1 to 3 of R474, and the flags of step 4. -/
def cutOf (o : OutputDesc) (marginPct fit filter : Nat) (c : Source) (box : List W32) : Cut :=
  let q (i : Nat) : Rat := ratOf (box.getD i 0)
  let bad := box.any fun w => !finite32 w
  let mw := (q 2 - q 0) * marginPct / 100
  let mh := (q 3 - q 1) * marginPct / 100
  let x0 := (q 0 - mw).floor
  let y0 := (q 1 - mh).floor
  let x1 := (q 2 + mw).ceil
  let y1 := (q 3 + mh).ceil
  let r : Rect := ⟨x0, y0, x1 - x0, y1 - y0⟩
  let empty := bad || decide (r.w ≤ 0) || decide (r.h ≤ 0) || decide (x1 ≤ 0) || decide (y1 ≤ 0) ||
    decide ((c.width : Int) ≤ x0) || decide ((c.height : Int) ≤ y0)
  if empty then ⟨r, true, false, 0, 0, 0, 0⟩
  else
    let sc : Rat := min ((o.outW : Rat) / r.w) ((o.outH : Rat) / r.h)
    let cw := if fit = 1 then roundRat (r.w * sc) else o.outW
    let ch := if fit = 1 then roundRat (r.h * sc) else o.outH
    let reach (tx : List (Int × Rat)) (n : Nat) : Bool := tx.any fun t => decide (t.1 < 0) || decide ((n : Int) ≤ t.1)
    let clipped :=
      (List.range cw).any (fun x => reach (axisTaps filter x cw r.x r.w 1 0) c.width) ||
      (List.range ch).any (fun y => reach (axisTaps filter y ch r.y r.h 1 0) c.height)
    ⟨r, false, clipped, (o.outW - cw) / 2, (o.outH - ch) / 2, cw, ch⟩

/-- The weight in the picture of an eyelet's sample under luma taps, and its pixel: each plane is resampled from the taps that
lie in it, and from its edge where none does. Taps outside the picture read the zero encoding: the model lets them add
nothing to the normalised value (R474; DESIGN CHOICE, log entry 142: the manual does not say in which domain they are
read). -/
def eyeletPixel (s : State) (o : OutputDesc) (c : Source) (cut : Cut) (ix iy : Nat) : Rat × Pixel :=
  let axis (p : Nat) (k : Nat) (off : Rat) (size i n : Nat) (x0 w : Int) : List (Nat × Rat) × Rat :=
    let hi : Int := if p = 0 then (size : Int) - 1 else ((ceilDiv size k : Nat) : Int) - 1
    let ts := axisTaps o.filter i n x0 w k off
    let l := innerTaps 0 hi ts
    if l.2 = 0 then (edgeTaps 0 hi ts, 0) else l
  let taps (p : Nat) : (List (Nat × Rat) × Rat) × (List (Nat × Rat) × Rat) :=
    let ((kx, ox), (ky, oy)) := planeGrid c p
    (axis p kx ox c.width ix cut.cw cut.rect.x cut.rect.w, axis p ky oy c.height iy cut.ch cut.rect.y cut.rect.h)
  ((taps 0).1.2 * (taps 0).2.2,
    pixelOf s c [cut.cw, cut.ch, ix, iy, cut.rect.x, cut.rect.y, cut.rect.w, cut.rect.h]
      fun p => ((taps p).1.1, (taps p).2.1))

/-- Encoding of channel `ch` of an eyelet at output place (`x`, `y`): zero outside its content, and where every tap lies
outside the picture. -/
def eyeletSample (s : State) (o : OutputDesc) (c : Source) (cut : Cut) (ch x y : Nat) : Nat :=
  if cut.empty ∨ x < cut.offX ∨ cut.offX + cut.cw ≤ x ∨ y < cut.offY ∨ cut.offY + cut.ch ≤ y then 0
  else
    let (w, p) := eyeletPixel s o c cut (x - cut.offX) (y - cut.offY)
    if w = 0 then 0 else finish o p w ch

/-- Bytes of row `y` of channel `ch` of an eyelet. -/
def eyeletRow (s : State) (o : OutputDesc) (c : Source) (cut : Cut) (ch y : Nat) : List Byte :=
  ((List.range o.outW).map fun x => leBytes o.elem (eyeletSample s o c cut ch x y)).flatten

/-! ## The internal job of an encode stream (R453) -/

/-- A sample of a plane of `w` by `h` at the encode size, with the bilinear filter and no colour conversion, rounded within the
tolerance of R456 to a sample of the picture's depth. -/
def resizedSample (s : State) (o : OutputDesc) (c : Source) (p w h x y : Nat) : Nat :=
  let sw := if p = 0 then c.width else ceilDiv c.width 2
  let sh := if p = 0 then c.height else if c.chroma = 0 then ceilDiv c.height 2 else c.height
  let tx := edgeTaps 0 ((sw : Int) - 1) (axisTaps 0 x w 0 sw 1 0)
  let ty := edgeTaps 0 ((sh : Int) - 1) (axisTaps 0 y h 0 sh 1 0)
  let v := resample s c p tx ty + scaleTheta o [p, w, h, x, y] (tapSamples s c p tx ty) * (255 / 4096)
  min (2 ^ c.depth - 1) ((max 0 v + 1 / 2).floor).toNat

/-- Row `y` of the luma plane, or of the interleaved chroma planes, of the resized picture, `e` bytes a sample. -/
def resizedRow (s : State) (o : OutputDesc) (c : Source) (chroma : Bool) (w h y e : Nat) : List Byte :=
  ((List.range w).map fun x =>
    leBytes e (if chroma then resizedSample s o c (1 + x % 2) (w / 2) (h / 2) (x / 2) y
      else resizedSample s o c 0 w h x y)).flatten

/-! ## Source rows that a strip needs (R462, R464) -/

/-- Lowest and highest luma tap of outputs `a` to `b` of `n` along one axis over an extent, kept within `first` to `past` - 1. -/
def tapSpan (filter a b n : Nat) (x0 w first past : Int) : Int × Int :=
  let ta := axisTaps filter a n x0 w 1 0
  let tb := axisTaps filter b n x0 w 1 0
  let lo := (ta.map (·.1)).foldl min ((ta.map (·.1)).headD 0)
  let hi := (tb.map (·.1)).foldl max ((tb.map (·.1)).headD 0)
  (max lo first, min hi (past - 1))

/-- Luma rows whose chroma rows cover the highest chroma tap of output row `b`, kept above row `past` (R462). -/
def chromaNeed (c : Source) (filter b n : Nat) (y0 h past : Int) : Nat :=
  let ((_, _), (k, off)) := planeGrid c 1
  let t := axisTaps filter b n y0 h k off
  let hi := (t.map (·.1)).foldl max ((t.map (·.1)).headD 0)
  let hi := (max 0 (min hi ((past - 1) / k))).toNat
  if k = 2 then 2 * hi + 1 else hi + 1

/-- The whole picture. -/
def sourceExtent (c : Source) : Rect := ⟨0, 0, c.width, c.height⟩

/-- A strip of rows `a` to `b` of a grid of `w` by `h` over a rectangle, whose taps are kept within `within`: output samples,
source luma samples read, and source luma rows needed. -/
def stripCost (c : Source) (filter : Nat) (r : Option Rect) (within : Rect) (w h a b : Nat) : Nat × Nat × Nat :=
  let out := (b - a + 1) * w
  match r with
  | none => (out, 0, 0)
  | some r =>
    let (lx, hx) := tapSpan filter 0 (w - 1) w r.x r.w within.x (within.x + within.w)
    let (ly, hy) := tapSpan filter a b h r.y r.h within.y (within.y + within.h)
    (out, ((hy - ly + 1) * (hx - lx + 1)).toNat,
      min c.height (max (hy + 1).toNat (chromaNeed c filter b h r.y r.h (within.y + within.h))))

end Machine
end Sys2Proof
end

