-- ==== Sys2Proof/Machine/Frames.lean ====
section
/-! DEFINITION. Items, ready sets and scaler units: what a forwarded picture creates, and the strips that write it
(chapter 15). -/

namespace Sys2Proof

/-- Frames closed once frame `f` is: those below `lo` and the listed ones, with `lo` moved past what is closed. -/
def closeUpTo : Nat → Nat → List Nat → Nat × List Nat
  | 0, lo, l => (lo, l)
  | fuel + 1, lo, l => if l.contains lo then closeUpTo fuel (lo + 1) (l.filter (· != lo)) else (lo, l)

/-- A stream after frame `f` is dropped or skipped. -/
def Stream.closeFrame (x : Stream) (f : Nat) : Stream :=
  if f < x.nextFrame ∨ x.closedFrames.contains f then x
  else
    let (lo, l) := closeUpTo (x.closedFrames.length + 2) x.nextFrame (f :: x.closedFrames)
    { x with nextFrame := lo, closedFrames := l }

/-- A stream after frame `f` is forwarded: pictures are forwarded in output order, so every earlier frame is closed. -/
def Stream.passFrame (x : Stream) (f : Nat) : Stream :=
  let n := max x.nextFrame (f + 1)
  let (lo, l) := closeUpTo (x.closedFrames.length + 2) n (x.closedFrames.filter fun g => decide (n ≤ g))
  { x with nextFrame := lo, closedFrames := l, lastForwarded := some f }

/-- The stream has an EYELETS output (R470). -/
def Stream.hasEyelets (x : Stream) : Bool := x.outputs.any fun o => decide (o.desc.kind = 3)

/-- The matrix in force for an output (R455 step 2). -/
def matrixInForce (codec matrixCoeffs : Nat) (o : OutputDesc) : Nat :=
  if codec = 5 then 0
  else if o.matrix < 3 then o.matrix
  else if matrixCoeffs = 5 ∨ matrixCoeffs = 6 then 0
  else if matrixCoeffs = 9 then 2
  else 1

/-- Full range is in force for an output. -/
def rangeInForce (codec : Nat) (full : Bool) (o : OutputDesc) : Bool :=
  if codec = 5 then true else if o.flags % 4 = 0 then full else decide (o.flags % 4 = 2)

/-- Chroma format in which a picture is output: its own, and for 4:0:0, whose chroma samples take the mid value, the one declared
(R416, R420; 0 4:2:0, 1 4:2:2). -/
def picChroma (x : Stream) (p : Picture) : Nat := if p.chroma = 2 then x.decl.chroma else p.chroma

/-- A picture as the scalers read it for an output. -/
def sourceOf (x : Stream) (p : Picture) (o : OutputDesc) : Source :=
  { base := ((p.outBuf.bind fun i => x.outBufs[i]?).map (·.1.addr)).getD 0
    pitch := x.decl.pitch
    maxHeight := x.decl.maxHeight
    elem := x.decl.sampleBytes
    width := p.width
    height := p.height
    chroma := picChroma x p
    depth := p.bitDepth
    full := rangeInForce x.decl.codec p.fullRange o
    matrix := matrixInForce x.decl.codec p.matrixCoeffs o
    jpeg := decide (x.decl.codec = 5) }

/-- Rows `0`, `16`, `32`, … below `h`, as strips of a part. -/
def stripRows (h : Nat) : List (Nat × Nat) :=
  (List.range (ceilDiv h 16)).map fun i => (16 * i, min (16 * i + 15) (h - 1))

/-- Video cycles of a strip (R464). -/
def Strip.cycles (t : Strip) : Nat := 64 + max (ceilDiv t.samples 2) (ceilDiv t.reads 8)

/-- Packing rows used. -/
def Item.rowsUsed (i : Item) : Nat := i.segments.foldl (fun n g => n + g.nrows) 0

namespace Machine

/-- Strips of one level. -/
def levelStrips (c : Source) (o : OutputDesc) (k : Nat) (d : Nat × Nat) (seg : Nat) : List Strip :=
  (stripRows d.2).map fun r =>
    let (out, rd, need) := stripCost c o.filter (cropRect o c) ((cropRect o c).getD (sourceExtent c)) d.1 d.2 r.1 r.2
    ⟨k, seg, r.1, r.2, out, rd, need⟩

/-- Strips of a FRAME or PYRAMID item. A strip of a higher level comes before the strip of level 0 with which R461 makes
its first row final. -/
def pictureStrips (c : Source) (o : OutputDesc) (seg : Nat) : List Strip :=
  let dims := o.levelDims
  let rows := (o.stored (dims.headD (0, 0))).2
  let higher := (((List.range dims.length).drop 1).map fun k => levelStrips c o k (dims.getD k (0, 0)) seg).flatten
  let due (t : Strip) : Nat := min rows (ceilDiv ((t.first + 1) * rows) (dims.getD t.part (0, 1)).2 + 2)
  let base := levelStrips c o 0 (dims.headD (0, 0)) seg
  (base.foldl
    (fun (acc : List Strip × Nat) t =>
      let done := if t.last + 1 = (dims.headD (0, 0)).2 then rows else (t.last + 1) / o.factor
      (acc.1 ++ (higher.filter fun u => decide (acc.2 < due u) && decide (due u ≤ done)) ++ [t], done)) ([], 0)).1

/-- Strips of eyelet `i`; its taps beyond the cut box read the picture (R462, R474). -/
def eyeletStrips (c : Source) (o : OutputDesc) (marginPct fit : Nat) (i : Nat) (e : PredEntry) (seg : Nat) : List Strip :=
  let cut := cutOf o marginPct fit o.filter c e.box
  (stripRows o.outH).map fun r =>
    let out := (r.2 - r.1 + 1) * o.outW
    let a := max r.1 cut.offY
    let b := min r.2 (cut.offY + cut.ch - 1)
    if cut.empty ∨ cut.ch = 0 ∨ b < a then ⟨i, seg, r.1, r.2, out, 0, 0⟩
    else
      let (_, rd, need) :=
        stripCost c o.filter (some cut.rect) (sourceExtent c) cut.cw cut.ch (a - cut.offY) (b - cut.offY)
      ⟨i, seg, r.1, r.2, out, rd, need⟩

/-! ## Items -/

/-- An output's counters changed. -/
def modOutput (h : Handle) (n : Nat) (f : OutputCounters → OutputCounters) (s : State) : State :=
  modStream h (fun x =>
    { x with outputs := match x.outputs[n]? with
        | none => x.outputs
        | some o => listSet x.outputs n { o with ctr := f o.ctr } }) s

/-- An item. -/
def findItem (s : State) (id : Nat) : Option Item := s.obj.items.find? fun i => decide (i.id = id)
/-- An item changed. -/
def modItem (id : Nat) (f : Item → Item) (s : State) : State :=
  s.modObj fun o => { o with items := listUpd (fun i => decide (i.id = id)) f o.items }

/-- Items of an output that exist. -/
def itemsOf (s : State) (h : Handle) (n : Nat) : List Item :=
  s.obj.items.filter fun i => decide (i.stream = h) && decide (i.output = n)

/-- A use of a buffer ends: an UNREF, which counts a reject where one of its checks fails (Table 12-3, Table 12-4). A pool that
has ended has no buffer to free. -/
def unrefBuf (b : BufRef) (s : State) : State :=
  modPool b.pool (fun p =>
    match checkBuf p b false with
    | .ok j => p.unref j
    | .error _ => { p with rejects := p.rejects + 1 }) s

/-- A buffer's tags are still being rewritten. -/
def bufRewriting (s : State) (b : BufRef) : Bool :=
  match findPool s b.pool with
  | none => false
  | some p => tagPending b.pool ((b.addr - p.base) / p.bufBytes) s

/-- Bytes of an item written from an offset on: at once, or when its buffer's tags are rewritten (R375). -/
def itemStore (i : Item) (off : Nat) (bs : List Byte) (s : State) : State :=
  if bufRewriting s i.buf then modItem i.id (fun k => { k with held := k.held ++ [(off, bs)] }) s
  else hubStore (i.buf.addr + off) bs s

/-- The bytes that an item's buffer waited for are written. -/
def flushItem (i : Item) (s : State) : State :=
  i.held.foldl (fun s x => hubStore (i.buf.addr + x.1) x.2 s) (modItem i.id (fun k => { k with held := [] }) s)

/-- The QUALITY of an item as its header holds it (Table 15-2). -/
def writeQuality (i : Item) (s : State) : State := itemStore i 6 (leBytes 2 i.quality.word) s

/-- The row-progress word of an item (R460). -/
def setProgress (id n : Nat) (s : State) : State :=
  match findItem s id with
  | none => s
  | some i => itemStore i 0x20 (leBytes 4 n) (modItem id (fun i => { i with progress := n }) s)

/-- The header of an item (Table 15-2). -/
def itemHeader (i : Item) (srcW srcH : Nat) (offs : List Nat) (dims : List (Nat × Nat)) (aux marks : Nat) : List Byte :=
  leBytes 4 0x49584A54 ++ leBytes 1 1 ++ leBytes 1 i.kind ++ leBytes 2 i.quality.word ++ leBytes 8 i.frame ++
  leBytes 8 i.capture.sec ++ leBytes 4 i.capture.ns ++ leBytes 4 i.rows ++ leBytes 4 i.progress ++
  leBytes 2 srcW ++ leBytes 2 srcH ++ leBytes 2 i.output ++ leBytes 2 i.segments.length ++ zeroBytes 4 ++
  ((List.range 6).map fun k => leBytes 8 (offs.getD k 0)).flatten ++
  ((List.range 6).map fun k => leBytes 2 (dims.getD k (0, 0)).1 ++ leBytes 2 (dims.getD k (0, 0)).2).flatten ++
  leBytes 8 i.predOff ++ leBytes 8 aux ++ leBytes 8 marks ++ zeroBytes 112

/-- An eyelet record (R475). -/
def eyeletRecord (cut : Cut) (e : PredEntry) (age : Nat) : List Byte :=
  leBytesInt 2 cut.rect.x ++ leBytesInt 2 cut.rect.y ++ leBytesInt 2 (cut.rect.x + cut.rect.w) ++
  leBytesInt 2 (cut.rect.y + cut.rect.h) ++ leBytes 4 e.trackId.toNat ++ leBytes 2 e.cls ++
  leBytes 2 (cut.empty.toNat + 2 * cut.clipped.toNat + 4 * (decide (age ≠ 0)).toNat) ++ leBytes 4 e.score.toNat ++
  leBytes 2 age ++ zeroBytes 10

/-- A segment record (R476). -/
def segmentRecord (g : Segment) : List Byte :=
  leBytes 8 g.frame ++ leBytes 8 g.capture.sec ++ leBytes 4 g.capture.ns ++ leBytes 4 g.firstRow ++ leBytes 4 g.nrows ++
  leBytes 2 g.mark ++ leBytes 2 g.quality.word ++ leBytes 4 g.trackId ++ leBytes 2 g.eyelet ++ zeroBytes 10

/-- Two quality marks joined. -/
def orQuality (a b : Quality) : Quality :=
  ⟨a.concealed || b.concealed, a.partly || b.partly, a.abandoned || b.abandoned, a.estimated || b.estimated,
    a.overflow || b.overflow⟩

/-! ## Readers of pictures, and units (R438, R464, R469) -/

/-- A picture of a stream changed. -/
def modPicture (h : Handle) (frame : Nat) (f : Picture → Picture) (s : State) : State :=
  modStream h (fun x => { x with pics := listUpd (fun p => decide (p.frame = frame)) f x.pics }) s

/-- Some job still reads a picture: it has a strip under way or to come that reads source samples (R469), or the picture still
waits to be scaled for an encode stream. -/
def pictureRead (s : State) (h : Handle) (frame : Nat) : Bool :=
  (s.obj.jobs.any fun j =>
      decide (j.stream = h) && decide (j.frame = frame) && j.strips.any fun t => decide (t.reads ≠ 0)) ||
    s.obj.streams.any fun x => x.enc.any fun e =>
      decide (e.decl.source = h) && e.pics.any fun q => decide (q.frame = frame) && q.scaling

/-- A commit in the tick of its forwarding can still give a picture eyelet jobs (R471). -/
def maybeCut (x : Stream) (p : Picture) (now : Nat) : Bool := x.hasEyelets && p.forwarded && decide (p.forwardTick = now)

/-- Decoded pictures that no job reads any more release their output buffers (R438, R469). -/
def releasePictures (h : Handle) (s : State) : State :=
  match findStream s h with
  | none => s
  | some x =>
    let gone := x.pics.filter fun p =>
      decide (p.place = 2) && decide (p.phase = .ended) && !pictureRead s h p.frame && !maybeCut x p s.time.tick
    let frames := gone.map (·.frame)
    modStream h (fun x =>
      { x with
        pics := x.pics.filter fun p => !gone.contains p
        outBufs := x.outBufs.map fun b => if b.2.any frames.contains then (b.1, none) else b }) s

/-- Resident jobs of a unit. -/
def residents (s : State) (u : Nat) : Nat := (s.obj.jobs.filter fun j => decide (j.unit = some u)).length

/-- The unit with the fewest resident jobs, the lowest of them. -/
def idlestUnit (s : State) : Nat :=
  (List.range 8).foldl (fun best u => if residents s u < residents s best then u else best) 0

/-- Waiting jobs move to units in arrival order while a unit has room for one. -/
def assignJobs : Nat → State → State
  | 0, s => s
  | fuel + 1, s =>
    match s.obj.jobs.find? fun j => decide (j.unit = none) with
    | none => s
    | some j =>
      let u := idlestUnit s
      if 16 ≤ residents s u then s
      else
        assignJobs fuel
          (s.modObj fun o => { o with jobs := listUpd (fun k => decide (k.order = j.order)) (fun k => { k with unit := some u }) o.jobs })

/-- A job that has come to its end: it leaves its unit, and a dropped item's buffer is freed (R467). -/
def endJob (j : ScalerJob) (s : State) : State :=
  let s := s.modObj fun o => { o with jobs := o.jobs.filter fun k => !decide (k.order = j.order) }
  let s := match j.srcBuf with
    | none => s
    | some b => if s.obj.jobs.any fun k => decide (k.srcBuf = some b) then s else unrefBuf b s
  if j.ended ∧ j.item ≠ 0 ∧ (findItem s j.item).isNone then
    (if s.obj.jobs.any fun k => decide (k.buf = j.buf) then s else unrefBuf j.buf s)
  else s

/-- An item is dropped or released: its jobs end, at their strip boundary when a strip runs, and its buffer is freed when
no job uses it; waiting jobs take the places in the units, and pictures that no job reads any more release their output
buffers (R464, R467 to R469). -/
def retireItem (i : Item) (s : State) : State :=
  let s := s.modObj fun o =>
    { o with
      items := o.items.filter fun k => !decide (k.id = i.id)
      jobs := (o.jobs.filter fun k => !(decide (k.item = i.id) && !k.running)).map fun k =>
        if k.item = i.id then { k with ended := true } else k }
  let s := if s.obj.jobs.any fun k => decide (k.item = i.id) then s else unrefBuf i.buf s
  releasePictures i.stream (assignJobs s.obj.jobs.length s)

/-- Room for one more item of an output is made: the oldest ready item is dropped as STALE, or nothing can be and the new
item is dropped as BUSY (R467). `CREATED` counts the new item in either case, so that R478 holds. -/
def makeRoom (h : Handle) (n depth : Nat) (s : State) : Option State :=
  let s := modOutput h n (fun c => { c with created := c.created + 1 }) s
  let l := itemsOf s h n
  if l.length < depth then some s
  else
    match l.find? fun i => decide (i.state = .ready) with
    | none => none
    | some i => some (retireItem i (modOutput h n (fun c => { c with dropped := listAdd c.dropped 0 1 }) s))

/-- A drop of a new item is counted. -/
def dropNew (h : Handle) (n reason : Nat) (s : State) : State :=
  modOutput h n (fun c => { c with created := c.created + 1, dropped := listAdd c.dropped reason 1 }) s

/-- A buffer for a new item, when the pool has one. -/
def itemBuf (pool : Handle) (s : State) : Option (BufRef × State) :=
  match findPool s pool with
  | none => none
  | some p =>
    let j := firstFree p.bufs 0
    if p.count ≤ j then none else some (⟨p.handle, (p.buf j).gen, p.addrOf j⟩, takeBuf p j none s)

/-- A new item's header bytes are written, and its predecessor word. -/
def writeItem (i : Item) (bytes : List Byte) (s : State) : State :=
  let s := itemStore i 0 bytes s
  if i.predOff = 0 then s else itemStore i i.predOff (leBytes 4 0xFFFFFFFF) s

/-- A new item with its buffer and its header bytes written, or the drop of it (R466, R467). A shadow item takes the number,
the buffer and the binding of the replica of the active card's item (R739). -/
def newItem (x : Stream) (n : Nat) (o : OutputDesc) (frame : Nat) (build : Nat → BufRef → Item × List Byte) (s : State) :
    Option Item × State :=
  match s.obj.items.find? fun i =>
      i.foreign && decide (i.stream = x.handle) && decide (i.output = n) && decide (i.frame = frame) with
  | some i =>
    let (k, bytes) := build i.id i.buf
    let k := { k with created := s.time.tick, state := i.state }
    let s := modOutput x.handle n (fun c => { c with created := c.created + 1 }) s
    (some k, writeItem k bytes (s.modObj fun ob => { ob with items := listUpd (fun j => decide (j.id = i.id)) (fun _ => k) ob.items }))
  | none =>
  match makeRoom x.handle n o.depth s with
  | none => (none, dropNew x.handle n 1 s)
  | some s' =>
    match itemBuf o.pool s' with
    | none =>
      (none, modPool o.pool (fun p => { p with noSpace := p.noSpace + 1 })
        (modOutput x.handle n (fun c => { c with dropped := listAdd c.dropped 2 1 }) s'))
    | some (b, s') =>
      let id := s'.ctr.itemId
      let (i, bytes) := build id b
      let i := { i with created := s.time.tick }
      let s' := s'.modCtr fun c => { c with itemId := id + 1 }
      (some i, writeItem i bytes (s'.modObj fun ob => { ob with items := ob.items ++ [i] }))

/-! ## Scaler jobs (R464) -/

/-- A job is created and assigned. -/
def addJob (j : Nat → ScalerJob) (s : State) : State :=
  let n := s.ctr.order
  let s := s.modCtr fun c => { c with order := n + 1 }
  let s := s.modObj fun o => { o with jobs := o.jobs ++ [{ j n with created := s.time.tick }] }
  assignJobs (s.obj.jobs.length) s

/-- The entries that an EYELETS item of a frame cuts, with their AGE (R472). -/
def cutsFor (x : Stream) (o : Output) (frame : Nat) : List PredEntry × Nat :=
  match x.table with
  | none => ([], 0)
  | some t =>
    let age : Int := (frame : Int) - t.frame - 1
    if (o.maxAge : Int) < age then ([], 0) else (t.entries, (age % 65536).toNat)

/-- A job over an item's strips. -/
def itemJob (x : Stream) (p : Picture) (n : Nat) (o : Output) (i : Item) (cuts : List PredEntry) (strips : List Strip)
    (order : Nat) : ScalerJob :=
  { order := order, item := i.id, stream := x.handle, output := n, frame := p.frame, buf := i.buf, desc := o.desc,
    marginPct := o.marginPct, fit := o.fit, cuts := cuts, strips := strips }

/-- A FRAME or PYRAMID item of a forwarded picture. -/
def createPicture (x : Stream) (p : Picture) (n : Nat) (o : Output) (s : State) : State :=
  let d := o.desc
  let dims := d.levelDims
  let build (id : Nat) (b : BufRef) : Item × List Byte :=
    let i : Item :=
      { id := id, stream := x.handle, output := n, kind := d.kind, frame := p.frame, capture := p.capture,
        quality := p.quality, rows := (d.stored (d.outW, d.outH)).2, width := p.width, height := p.height, buf := b,
        bytes := d.itemBytes x.hasEyelets, predOff := d.predOff x.hasEyelets }
    (i, itemHeader i p.width p.height d.levelOffs.1 (dims.map d.stored) 0 0)
  match newItem x n d p.frame build s with
  | (none, s) => s
  | (some i, s) => addJob (itemJob x p n o i [] (pictureStrips (sourceOf x p d) d 0)) s

/-- An EYELETS item of a forwarded picture (R472 to R475). -/
def createEyelets (x : Stream) (p : Picture) (n : Nat) (o : Output) (s : State) : State :=
  let d := o.desc
  let (cuts, age) := cutsFor x o p.frame
  let c := sourceOf x p d
  let build (id : Nat) (b : BufRef) : Item × List Byte :=
    let i : Item :=
      { id := id, stream := x.handle, output := n, kind := 3, frame := p.frame, capture := p.capture,
        quality := p.quality, rows := cuts.length, width := p.width, height := p.height, buf := b,
        bytes := d.itemBytes true, predOff := d.predOff true, cuts := cuts, age := age }
    let records := (cuts.map fun e => eyeletRecord (cutOf d o.marginPct o.fit d.filter c e.box) e age).flatten
    (i, itemHeader i p.width p.height [2304] [(d.outW, d.outH)] 256 0 ++ records ++ zeroBytes (2048 - records.length))
  match newItem x n d p.frame build s with
  | (none, s) => s
  | (some i, s) =>
    if cuts = [] then s
    else
      let strips := (((List.range cuts.length).zip cuts).map fun e => eyeletStrips c d o.marginPct o.fit e.1 e.2 0).flatten
      addJob (itemJob x p n o i cuts strips) s

/-! ## Packing (R476, R477) -/

/-- A pack buffer closes: SEGMENTS is fixed and ROWS is set (R477). -/
def closePack (i : Item) (s : State) : State :=
  if i.packOpen then
    let rows := i.rowsUsed
    let s := modItem i.id (fun k => { k with packOpen := false, rows := rows }) s
    itemStore i 0x2A (leBytes 2 i.segments.length) (itemStore i 0x1C (leBytes 4 rows) s)
  else s

/-- A segment is appended to an open pack buffer: its record and marks first (R477). -/
def appendSegment (i : Item) (g : Segment) (s : State) : State :=
  let q := orQuality i.quality g.quality
  let s := modItem i.id (fun k => { k with segments := k.segments ++ [g], quality := q }) s
  let s := writeQuality { i with quality := q } s
  let s := itemStore i (256 + 48 * (g.mark - 1)) (segmentRecord g) s
  itemStore i (3328 + 2 * g.firstRow) ((List.replicate g.nrows (leBytes 2 g.mark)).flatten) s

/-- A new pack buffer for its first segment. -/
def newPack (x : Stream) (p : Picture) (n : Nat) (o : Output) (s : State) : Option Item × State :=
  let d := o.desc
  let build (id : Nat) (b : BufRef) : Item × List Byte :=
    let i : Item :=
      { id := id, stream := x.handle, output := n, kind := 4, frame := p.frame, capture := p.capture,
        quality := {}, rows := 0, width := p.width, height := p.height, buf := b, bytes := d.itemBytes x.hasEyelets,
        predOff := d.predOff x.hasEyelets, packOpen := true, packOff := d.packRowsOff, packRow := d.packRow }
    (i, itemHeader i p.width p.height [d.packRowsOff] [d.stored (d.outW, d.outH)] 256 3328 ++
      zeroBytes (3072 + 2 * d.packRows))
  newItem x n d p.frame build s

/-- The open pack buffer of an output takes a segment, or a new one does; answers the item and the segment. -/
def packSegment (x : Stream) (p : Picture) (n : Nat) (o : Output) (track eyelet : Nat) (s : State) :
    Option (Item × Segment) × State :=
  let need := o.desc.segmentRows
  let mk (first mark : Nat) : Segment := ⟨p.frame, p.capture, first, need, mark, p.quality, track, eyelet⟩
  match (itemsOf s x.handle n).find? (·.packOpen) with
  | some i =>
    if i.rowsUsed + need ≤ o.desc.packRows ∧ i.segments.length < 64 then
      let g := mk (i.rowsUsed) (i.segments.length + 1)
      (some (i, g), appendSegment i g s)
    else
      match newPack x p n o (closePack i s) with
      | (none, s) => (none, s)
      | (some i, s) => (some (i, mk 0 1), appendSegment i (mk 0 1) s)
  | none =>
    match newPack x p n o s with
    | (none, s) => (none, s)
    | (some i, s) => (some (i, mk 0 1), appendSegment i (mk 0 1) s)

/-- The segments of one picture on a PACK output. -/
def createPacked (x : Stream) (p : Picture) (n : Nat) (o : Output) (s : State) : State :=
  let d := o.desc
  let c := sourceOf x p d
  if d.kind = 3 then
    let (cuts, _) := cutsFor x o p.frame
    ((List.range cuts.length).zip cuts).foldl
      (fun s e =>
        match packSegment x p n o e.2.trackId.toNat e.1 s with
        | (none, s) => s
        | (some (i, g), s) =>
          addJob (itemJob x p n o i cuts (eyeletStrips c d o.marginPct o.fit e.1 e.2 g.mark)) s) s
  else
    match packSegment x p n o 0 0xFFFF s with
    | (none, s) => s
    | (some (i, g), s) => addJob (itemJob x p n o i [] (pictureStrips c d g.mark)) s

/-- Items of a forwarded picture, in ascending output number (R466). -/
def createItems (h : Handle) (p : Picture) (s : State) : State :=
  match findStream s h with
  | none => s
  | some x =>
    ((List.range x.outputs.length).zip x.outputs).foldl
      (fun s no =>
        if no.2.desc.packs then createPacked x p no.1 no.2 s
        else if no.2.desc.kind = 3 then createEyelets x p no.1 no.2 s
        else createPicture x p no.1 no.2 s) s

/-- An output buffer that holds no picture is free. -/
def freeOutBuf (x : Stream) : Option Nat :=
  ((List.range x.outBufs.length).zip x.outBufs).foldl
    (fun (best : Option Nat) b =>
      if b.2.2.isNone then
        match best with
        | none => some b.1
        | some i => if ((x.outBufs[i]?).map (·.1.addr)).getD 0 ≤ b.2.1.addr then some i else some b.1
      else best) none

/-- The waiting picture that became complete and scaled first. -/
def firstReady (l : List EncodePic) : Nat :=
  (((List.range l.length).zip l).foldl
    (fun (b : Option (Nat × EncodePic)) q => match b with
      | none => if q.2.ready then some q else none
      | some c => if q.2.ready && decide (q.2.readyAt < c.2.readyAt) then some q else some c) none).elim 0 (·.1)

/-- The picture that an encode stream codes next, by its place among the waiting ones, with its key mark and the numbers of B
pictures and of earlier P pictures that are then pending (R445, R446): P pictures that precede the latest key picture in
source order; a key picture on request; B pictures whose anchor is coded; a key picture that is due; the next anchor. JPEG
pictures, of which each is a key picture, are coded as they become complete (R449). -/
def nextEncode (e : EncodeState) : Nat × Bool × Nat × Nat :=
  if e.decl.codec = 5 then (firstReady e.pics, true, 0, 0)
  else if 0 < e.pPending then (0, false, e.bPending, e.pPending - 1)
  else if e.keyRequested then (0, true, e.bPending - 1, 0)
  else if 0 < e.bPending then (0, false, e.bPending - 1, 0)
  else if e.first ∨ e.decl.gopLen ≤ e.gopPos then (0, true, 0, 0)
  else
    let a := min e.decl.bFrames (e.decl.gopLen - e.gopPos - 1)
    (a, false, a, 0)

/-- The pictures to which the next one refers are encoded, where the stream has B pictures: no key or P picture of it is on an
engine (R449). -/
def refsEncoded (e : EncodeState) (key : Bool) : Bool :=
  decide (e.decl.bFrames = 0) || key || !e.working.any fun w => decide (w.kind ≠ 1)

/-- The picture of an encode stream that an engine may take now, with what `nextEncode` says of it: its source picture is
complete and scaled and, with B_FRAMES, its reference pictures are encoded (R449). -/
def eligible (x : Stream) : Option (EncodePic × Nat × Bool × Nat × Nat) :=
  match x.enc with
  | none => none
  | some e =>
    if x.preparing ≠ 0 ∨ refsEncoded e (nextEncode e).2.1 = false then none
    else (e.pics[(nextEncode e).1]?).bind fun q => if q.ready then some (q, nextEncode e) else none

/-- TIME.TICK at which an eligible picture became eligible (R449). -/
def eligibleSince (e : EncodeState) (q : EncodePic) (key : Bool) : Nat :=
  if e.decl.bFrames = 0 ∨ key then q.readyAt else max q.readyAt e.anchorEnd

/-- Eligible pictures of an encode stream: each one that is complete and scaled and, with B_FRAMES, has its reference pictures
encoded (R449). -/
def eligibleCount (x : Stream) : Nat :=
  match x.enc with
  | none => 0
  | some e =>
    let left := e.gopPos + e.bPending
    let anchor := if e.decl.gopLen ≤ left then e.bPending else e.bPending + min e.decl.bFrames (e.decl.gopLen - left - 1)
    if x.preparing ≠ 0 then 0
    else if e.decl.bFrames = 0 then (e.pics.filter (·.ready)).length
    else if e.bPending = 0 ∨ 0 < e.pPending ∨ e.keyRequested ∨ refsEncoded e false = false then (eligible x).isSome.toNat
    else ((e.pics.take e.bPending).filter (·.ready)).length + ((e.pics[anchor]?).any (·.ready)).toNat

/-- The longest encode queue is kept (R450). -/
def markEligible (s : State) : State :=
  let n := s.obj.streams.foldl (fun n x => n + eligibleCount x) 0
  s.modVideo fun v => { v with encodePeak := max v.encodePeak n }

/-- The descriptor of the internal job that scales a picture to an encode stream's size (R453). -/
def encodeDesc (e : EncodeDecl) : OutputDesc :=
  { kind := 1, outFmt := 1, matrix := 0, flags := 0, filter := 0, s2d := 0, levels := 1, depth := 2,
    outW := e.width, outH := e.height, cropX := 0, cropY := 0, cropW := 0, cropH := 0,
    factors := [], packRows := 0, mean := [], rstd := [], pool := 0, packRow := 0 }

/-- An encode stream takes a forwarded picture of its source: every PICTURE_STEP-th, or one for each thumbnail request that is
pending (R446, R453). -/
def takeSource (x : Stream) (e : EncodeState) (y : Stream) (p : Picture) (s : State) : State :=
  let step := e.decl.pictureStep
  let copies := if step = 0 then e.thumbs else if e.seen % step = 0 then 1 else 0
  let resize := decide (e.decl.width ≠ p.width) || decide (e.decl.height ≠ p.height)
  let q : EncodePic := { frame := p.frame, capture := p.capture, quality := p.quality, scaling := resize }
  let e := { e with
    seen := e.seen + 1
    thumbs := if step = 0 then 0 else e.thumbs
    pics := e.pics ++ List.replicate copies q }
  let s := modStream x.handle (fun x => { x with enc := some e }) s
  if resize then
    let d := encodeDesc e.decl
    (List.range copies).foldl (fun s _ => addJob (fun n =>
      { order := n, item := 0, stream := y.handle, output := 0, frame := p.frame, buf := ⟨0, 0, 0⟩, desc := d,
        marginPct := 0, fit := 0, cuts := [],
        strips := levelStrips (sourceOf y p d) d 0 (d.outW, d.outH) 0, encode := some x.handle }) s) s
  else s

/-- Jobs are taken away; one of which a strip runs ends with it. -/
def dropJobs (test : ScalerJob → Bool) (s : State) : State :=
  let stay (l : List ScalerJob) : List ScalerJob := l.filter fun j => !(test j && !j.running)
  s.modObj fun o => { o with jobs := (stay o.jobs).map fun j => if test j then { j with ended := true } else j }

/-- An EYELETS item that was created in this tick is cut from the table now in force (R471). -/
def recutItem (x : Stream) (p : Picture) (n : Nat) (o : Output) (i : Item) (s : State) : State :=
  let d := o.desc
  let (cuts, age) := cutsFor x o p.frame
  let i := { i with cuts := cuts, age := age, rows := cuts.length }
  let records := (cuts.map fun e => eyeletRecord (cutOf d o.marginPct o.fit d.filter (sourceOf x p d) e.box) e age).flatten
  let header := itemHeader i p.width p.height [2304] [(d.outW, d.outH)] 256 0 ++ records ++ zeroBytes (2048 - records.length)
  let s := dropJobs (fun j => decide (j.item = i.id)) s
  let s := hubStore i.buf.addr header (modItem i.id (fun _ => i) s)
  if cuts = [] then s
  else
    let strips := (((List.range cuts.length).zip cuts).map fun e =>
      eyeletStrips (sourceOf x p d) d o.marginPct o.fit e.1 e.2 0).flatten
    addJob (itemJob x p n o i cuts strips) s

/-- The segments of a picture leave the pack buffers of an output, of which they are the last. -/
def dropSegments (h : Handle) (n frame : Nat) (s : State) : State :=
  (itemsOf s h n).foldl
    (fun s i =>
      if i.segments.any fun g => decide (g.frame = frame) then
        let keep := i.segments.filter fun g => decide (g.frame ≠ frame)
        let s := (i.segments.filter fun g => decide (g.frame = frame)).foldl
          (fun s g => itemStore i (3328 + 2 * g.firstRow) (zeroBytes (2 * g.nrows)) s) s
        let i := { i with segments := keep, quality := keep.foldl (fun a g => orQuality a g.quality) {} }
        let s := writeQuality i (modItem i.id (fun k => { k with segments := i.segments, quality := i.quality }) s)
        if i.packOpen then s else closePack { i with packOpen := true } (modItem i.id (fun k => { k with packOpen := true }) s)
      else s) s

/-- The eyelets of a picture on an output are cut again. -/
def recutOutput (x : Stream) (p : Picture) (n : Nat) (o : Output) (s : State) : State :=
  let mine (j : ScalerJob) : Bool :=
    decide (j.stream = x.handle) && decide (j.output = n) && decide (j.frame = p.frame) && j.encode.isNone
  if o.desc.kind ≠ 3 then s
  else if o.desc.packs then createPacked x p n o (dropSegments x.handle n p.frame (dropJobs mine s))
  else
    match (itemsOf s x.handle n).find? fun i => decide (i.frame = p.frame) with
    | some i => if i.created = s.time.tick ∧ i.progress = 0 then recutItem x p n o i s else s
    | none => s

/-- A commit wins over the creation of an eyelet job in the same tick: eyelets of pictures forwarded in this tick are cut from
the table now in force (R471). -/
def recutEyelets (h : Handle) (s : State) : State :=
  match findStream s h with
  | none => s
  | some x =>
    (x.pics.filter fun p => p.forwarded && decide (p.forwardTick = s.time.tick)).foldl
      (fun s p => ((List.range x.outputs.length).zip x.outputs).foldl (fun s no => recutOutput x p no.1 no.2 s) s) s

/-- Encode streams take a forwarded picture of their source. -/
def offerEncode (h : Handle) (p : Picture) (s : State) : State :=
  s.obj.streams.foldl
    (fun s x =>
      match x.enc, findStream s h with
      | some e, some y => if e.decl.source = h then takeSource x e y p s else s
      | _, _ => s) s

/-- A frame is dropped or skipped. -/
def closeFrame (h : Handle) (f : Nat) (s : State) : State :=
  modStream h (fun x => x.closeFrame f) s

/-- The marks of a picture reach a PACK item: its segments' records, and the OR of all of them in its header (R463, R476). -/
def markSegments (i : Item) (frame : Nat) (q : Quality) (s : State) : State :=
  let segs := i.segments.map fun g => if g.frame = frame then { g with quality := q } else g
  let all := segs.foldl (fun a g => orQuality a g.quality) {}
  let s := modItem i.id (fun k => { k with segments := segs, quality := all }) s
  let s := (segs.filter fun g => decide (g.frame = frame)).foldl
    (fun s g => itemStore i (256 + 48 * (g.mark - 1) + 30) (leBytes 2 q.word) s) s
  writeQuality { i with quality := all } s

/-- A picture's marks are carried by its items' headers, by the segments of PACK items, and by the pictures that wait to be
encoded from it (R449, R463). -/
def markItems (h : Handle) (frame : Nat) (q : Quality) (s : State) : State :=
  let s := (s.obj.items.filter fun i => decide (i.stream = h)).foldl
    (fun s i =>
      if i.kind = 4 then (if i.segments.any fun g => decide (g.frame = frame) then markSegments i frame q s else s)
      else if i.frame = frame then writeQuality { i with quality := q } (modItem i.id (fun k => { k with quality := q }) s)
      else s) s
  let mark (r : EncodePic) : EncodePic := if r.frame = frame then { r with quality := q } else r
  let re (e : EncodeState) : EncodeState :=
    { e with pics := e.pics.map mark, working := e.working.map fun w => { w with pic := mark w.pic } }
  let mine (x : Stream) : Bool := x.enc.any fun e => decide (e.decl.source = h)
  s.modObj fun o => { o with streams := listUpd mine (fun x => { x with enc := x.enc.map re }) o.streams }

/-! ## Strips -/

/-- The picture that a job reads. -/
def jobPicture (s : State) (j : ScalerJob) : Option (Stream × Picture) :=
  (findStream s j.stream).bind fun x => (x.pics.find? fun p => decide (p.frame = j.frame)).map fun p => (x, p)

/-- A job's next strip is ready (R462). -/
def stripReady (s : State) (j : ScalerJob) : Bool :=
  match j.strips, jobPicture s j with
  | t :: _, some (_, p) => decide (t.need ≤ p.progress) && !(decide (j.item ≠ 0) && bufRewriting s j.buf)
  | _, _ => false

/-- Which of two jobs a unit takes first: the earlier created, then that of the lower stream INDEX, then that of the lower output
number (R464). -/
def jobFirst (a b : ScalerJob) : Bool :=
  if a.created ≠ b.created then decide (a.created < b.created)
  else if a.stream.index ≠ b.stream.index then decide (a.stream.index < b.stream.index)
  else if a.output ≠ b.output then decide (a.output < b.output)
  else decide (a.order < b.order)

/-- The job whose strip a unit takes next (R464). -/
def nextJob (s : State) (u : Nat) : Option ScalerJob :=
  (s.obj.jobs.filter fun j => decide (j.unit = some u) && !j.running && stripReady s j).foldl
    (fun best j => match best with
      | none => some j
      | some b => if jobFirst j b then some j else some b) none

/-- A scaler unit starts a strip, of an item or of a shadow item. -/
def startStrip (unit : Nat) (s : State) : Result :=
  if 8 ≤ unit ∨ (s.scl unit).job.isSome then .next s
  else
    match nextJob s unit with
    | none => .next s
    | some j =>
      .next ((s.modScl unit fun u => { u with job := some j.order, stream := j.stream }).modObj fun o =>
        { o with jobs := listUpd (fun k => decide (k.order = j.order)) (fun k => { k with running := true }) o.jobs })

/-- A scaler unit starts a strip (R464, R739). -/
def execScalerStripStart (unit : Nat) (s : State) : Result := onShadow (startStrip unit) s

/-- Offset of a strip's data from the item base, with the pitch and stride of its planes. -/
def stripBase (i : Item) (j : ScalerJob) (t : Strip) : Nat :=
  let seg := (i.segments[t.segment - 1]?).map fun g => i.packOff + g.firstRow * i.packRow
  match seg with
  | some a => a
  | none => if j.desc.kind = 3 then 2304 + t.part * j.desc.eyeletBytes else j.desc.levelOffs.1.getD t.part 0

/-- The rows of a strip are written (R455, R458, R474). -/
def writeStrip (i : Item) (j : ScalerJob) (t : Strip) (x : Stream) (p : Picture) (s : State) : State :=
  let o := j.desc
  let c := sourceOf x p o
  let base := i.buf.addr + stripBase i j t
  if o.kind = 3 then
    let cut := cutOf o j.marginPct j.fit o.filter c ((j.cuts[t.part]?).map (·.box) |>.getD [])
    let d := (o.outW, o.outH)
    (List.range 3).foldl (fun s ch =>
      (List.range (t.last + 1 - t.first)).foldl (fun s r =>
        hubStore (base + ch * o.planeStride d + (t.first + r) * o.rowPitch d) (eyeletRow s o c cut ch (t.first + r)) s) s) s
  else
    let d := o.levelDims.getD t.part (0, 0)
    let f := o.factor
    (List.range o.channels).foldl (fun s ch =>
      (List.range (t.last / f + 1 - t.first / f)).foldl (fun s r =>
        hubStore (base + ch * o.planeStride d + (t.first / f + r) * o.rowPitch d)
          (levelRow s o c d (t.first / f + r) ch) s) s) s

/-- The waiting source picture whose rows a strip of an internal job writes: the first one of the job's frame whose rows end
there. -/
def encodeTarget (e : EncodeState) (j : ScalerJob) (t : Strip) : Option Nat :=
  e.pics.findIdx? fun q => decide (q.frame = j.frame) && q.scaling && decide (q.luma.length = t.first)

/-- A strip of an internal job is written: 4:2:0 rows of the encode size, to one of the stream's buffers (R453). The manual
gives the picture no place and no layout there: the model takes the buffers in turn by job, rows one behind the other, luma
before chroma (DESIGN CHOICE, log entry 143). -/
def writeEncodeStrip (h : Handle) (j : ScalerJob) (t : Strip) (x : Stream) (p : Picture) (s : State) : State :=
  match (findStream s h).bind (·.enc) with
  | none => s
  | some e =>
    let c := sourceOf x p j.desc
    let w := e.decl.width
    let size := if p.bitDepth = 10 then 2 else 1
    let luma := (List.range (t.last + 1 - t.first)).map fun r => resizedRow s j.desc c false w e.decl.height (t.first + r) size
    let c0 := ceilDiv t.first 2
    let chroma := (List.range (ceilDiv (t.last + 1) 2 - c0)).map fun r =>
      resizedRow s j.desc c true w e.decl.height (c0 + r) size
    let base := ((e.bufs[j.order % e.bufs.length]?).map (·.addr)).getD 0
    let s := hubStore (base + w * e.decl.height * size + c0 * w * size) chroma.flatten
      (hubStore (base + t.first * w * size) luma.flatten s)
    match encodeTarget e j t with
    | none => s
    | some i =>
      modStream h (fun x => { x with enc := x.enc.map fun e =>
        { e with pics := match e.pics[i]? with
            | none => e.pics
            | some q => listSet e.pics i
                { q with
                  base := base, luma := q.luma ++ luma, chromaRows := q.chromaRows ++ chroma
                  scaling := decide (q.luma.length + luma.length < e.decl.height) } } }) s

/-- Segments of a PACK item that are complete, as the packing rows of the longest complete run from segment 1 (R460). -/
def packProgress (s : State) (i : Item) : Nat :=
  (i.segments.foldl
    (fun (acc : Nat × Bool) g =>
      let busy := s.obj.jobs.any fun j => decide (j.item = i.id) && !j.ended && j.strips.any fun t => decide (t.segment = g.mark)
      if acc.2 && !busy then (acc.1 + g.nrows, true) else (acc.1, false)) (0, true)).1

/-- PROGRESS of an item once a strip of its job is done, `left` being the strips that remain (R460, R461). -/
def itemProgress (s : State) (i : Item) (j : ScalerJob) (t : Strip) (left : List Strip) : Nat :=
  if i.kind = 4 then packProgress s i
  else if left = [] then i.rows
  else if i.kind = 3 then
    (match left with
      | u :: _ => u.part
      | [] => i.rows)
  else if t.part = 0 then (t.last + 1) / j.desc.factor
  else i.progress

/-- An eyelet is complete. -/
def eyeletDone (j : ScalerJob) (t : Strip) : Bool := decide (j.desc.kind = 3) && decide (t.last + 1 = j.desc.outH)

/-- A job that has no strip left, or whose item was dropped, ends. -/
def finishJob (unit : Nat) (j : ScalerJob) (s : State) : State :=
  let s := endJob j s
  let s := if j.ended then s else s.modScl unit fun u => { u with jobs := u.jobs + 1 }
  assignJobs s.obj.jobs.length s

/-- A row of a plane of a reference picture where it has that row, else of the mid value: what concealment puts at row `y` of
picture `p` (R426). Co-located samples that the reference picture does not have take the mid value too. -/
def concealRow (x : Stream) (p : Picture) (ref : Option Picture) (luma : Bool) (y : Nat) : List Byte :=
  let n := if luma then p.width else 2 * ceilDiv p.width 2
  let mid := (List.replicate n (leBytes x.decl.sampleBytes (if p.bitDepth = 10 then 512 else 128))).flatten
  let row := match ref with
    | none => []
    | some q =>
      if luma then q.luma.getD y [] else if p.chroma ≠ 2 ∧ picChroma x q = picChroma x p then q.chromaRows.getD y [] else []
  row.take (n * x.decl.sampleBytes) ++ mid.drop row.length

/-- The nearest preceding reference picture in output order (R426). -/
def concealRef (x : Stream) (p : Picture) : Option Picture :=
  x.refPics.foldl (fun (b : Option Picture) q =>
    if q.frame < p.frame ∧ (b.map (·.frame)).getD 0 ≤ q.frame then some q else b) none

/-- A 64-byte line of a picture's output buffer takes concealed samples, which clears its poison (R342, R426). -/
def mendLine (x : Stream) (p : Picture) (base : Nat) (line : Nat) (s : State) : State :=
  let off := 64 * line - base
  let plane := x.decl.pitch * x.decl.maxHeight
  let o := if off < plane then off else off - plane
  let row := concealRow x p (concealRef x p) (decide (off < plane)) (o / x.decl.pitch)
  let bytes := (row.drop (o % x.decl.pitch)).take 64
  hubStore (64 * line) (bytes ++ zeroBytes (64 - bytes.length)) s

/-- A decoded picture of which a unit has read poisoned lines: the picture is concealed there, marked, and the fault is contained
(R358, Table 24-1 VIDEO_POISON). -/
def videoPoison (x : Stream) (p : Picture) (lines : List Nat) (base : Nat) (s : State) : State :=
  if lines = [] then s
  else
    let q := { p.quality with concealed := true }
    let s := lines.foldl (fun s l => mendLine x p base l s) s
    let s := modPicture x.handle p.frame (fun r => { r with quality := q }) s
    let s := if p.quality.concealed ∨ p.phase ≠ .ended then s
      else modStream x.handle (fun x => { x with
        marked := p.frame :: x.marked, dec := { x.dec with concealed := x.dec.concealed + 1 } }) s
    contained fkVideoPoison 0 x.handle.toNat 0 (markItems x.handle p.frame q s)

/-- The planes of a picture in its output buffer down to luma row `n`: address and length of each. -/
def planesTo (c : Source) (n : Nat) : List (Nat × Nat) :=
  [(c.base, n * c.pitch), (c.base + c.pitch * c.maxHeight, (if c.chroma = 0 then ceilDiv n 2 else n) * c.pitch)]

/-- Lines of planes that report poison, once they have been read. -/
def planeLines (s : State) (l : List (Nat × Nat)) : List Nat := (l.map fun a => badLines s a.1 a.2).flatten

/-! ## Sources of encode streams (R358, R449, R453) -/

/-- A row of samples at an address with those in lines of `bad` taken from another row. -/
def mendRow (bad : List Nat) (addr : Nat) (row other : List Byte) : List Byte :=
  (List.range row.length).map fun i => if bad.contains ((addr + i) / 64) then other.getD i 0 else row.getD i 0

/-- A source picture as an encode engine reads it from its output buffer, of which lines `bad` are concealed (R358, R426). -/
def encoderRows (x : Stream) (p : Picture) (base : Nat) (bad : List Nat) : List (List Byte) × List (List Byte) :=
  let mend (luma : Bool) (at_ : Nat) (rows : List (List Byte)) : List (List Byte) :=
    ((List.range rows.length).zip rows).map fun r =>
      mendRow bad (at_ + r.1 * x.decl.pitch) r.2 (concealRow x p (concealRef x p) luma r.1)
  (mend true base p.luma, mend false (base + x.decl.pitch * x.decl.maxHeight) p.chromaRows)

/-- A waiting source picture once its source is complete, and scaled where its size differs: the encoder may read it, and it
carries the marks that it then has (R449). -/
def lookSource (q : EncodePic) (now : Nat) (source : Option (Picture × List (List Byte) × List (List Byte))) : EncodePic :=
  if q.ready || q.scaling then q
  else
    match source with
    | none => { q with ready := true, readyAt := now }
    | some (p, luma, chroma) =>
      if p.phase ≠ .ended then q
      else
        { q with
          ready := true, readyAt := now, quality := p.quality
          luma := if q.luma = [] then luma else q.luma
          chromaRows := if q.chromaRows = [] then chroma else q.chromaRows }

/-- The source of a waiting picture that is read as it is becomes complete: its lines are read, and what poison they show is
concealed (R358, Table 24-1). -/
def readSource (d : EncodeDecl) (y : Stream) (p : Picture) (s : State) : (Picture × List (List Byte) × List (List Byte)) × State :=
  let c := sourceOf y p (encodeDesc d)
  let planes := planesTo c p.height
  let s := planes.foldl (fun s a => hubLoad a.1 a.2 s) s
  let bad := planeLines s planes
  let marked := if bad = [] then p else { p with quality := { p.quality with concealed := true } }
  ((marked, encoderRows y p c.base bad), videoPoison y p bad c.base s)

/-- The source of a waiting picture, where it is still held, with its samples for the encoder. -/
def sourcePicture (d : EncodeDecl) (q : EncodePic) (s : State) :
    Option (Picture × List (List Byte) × List (List Byte)) × State :=
  match (findStream s d.source).bind fun y => (y.pics.find? fun p => decide (p.frame = q.frame)).map fun p => (y, p) with
  | none => (none, s)
  | some (y, p) =>
    if q.ready ∨ q.scaling ∨ p.phase ≠ PicPhase.ended ∨ q.luma ≠ [] then (some (p, p.luma, p.chromaRows), s)
    else
      let r := readSource d y p s
      (some r.1, r.2)

/-- The waiting pictures of an encode stream are looked at, in order. -/
def lookSources (h : Handle) (d : EncodeDecl) : List EncodePic → State → State
  | [], s => s
  | q :: l, s =>
    let r := sourcePicture d q s
    let look (k : EncodePic) : EncodePic := if k.frame = q.frame then lookSource k s.time.tick r.1 else k
    let seen (e : EncodeState) : EncodeState := { e with pics := e.pics.map look }
    lookSources h d l (modStream h (fun x => { x with enc := x.enc.map seen }) r.2)

/-- Source pictures that are complete and scaled become eligible for encoding (R449). -/
def readyEncodes (s : State) : State :=
  markEligible (s.obj.streams.foldl
    (fun s x => match x.enc with
      | none => s
      | some e => lookSources x.handle e.decl e.pics s) s)

/-- The source rows that a strip needs are read, and what poison they show is concealed. -/
def sourcePoison (j : ScalerJob) (t : Strip) (s : State) : State :=
  match jobPicture s j with
  | none => s
  | some (x, p) =>
    let c := sourceOf x p j.desc
    if t.reads = 0 then s
    else
      let planes := planesTo c t.need
      let s := planes.foldl (fun s a => hubLoad a.1 a.2 s) s
      videoPoison x p (planeLines s planes) c.base s

/-- A picture is forwarded: it passes to the scalers, its items are created, and its frame closes (R435, R466, R520). -/
def forwardPicture (h : Handle) (p : Picture) (s : State) : State :=
  let s := modStream h (fun x => x.passFrame p.frame) s
  let s := offerEncode h p (createItems h p s)
  let s := modPicture h p.frame (fun q => { q with forwarded := true, forwardTick := s.time.tick, place := 2 }) s
  releasePictures h (readyEncodes s)

/-- A scaler unit ends a strip: its rows are written, then PROGRESS rises (R460, R464 to R467). -/
def endStrip (unit : Nat) (s : State) : Result :=
  match (s.scl unit).job.bind fun n => s.obj.jobs.find? fun j => decide (j.order = n) && j.running with
  | none => .next s
  | some j =>
    match j.strips with
    | [] => .next s
    | t :: left =>
      let s := s.modScl unit fun u =>
        { u with job := none, stream := 0, busy := u.busy + t.cycles, samples := u.samples + t.samples }
      let s := if j.item = 0 then s else modOutput j.stream j.output
        (fun c => { c with
          videoCycles := c.videoCycles + t.cycles
          eyeletsCut := c.eyeletsCut + (eyeletDone j t && !j.ended).toNat }) s
      let j' := { j with strips := left, running := false }
      let s := s.modObj fun o => { o with jobs := listUpd (fun k => decide (k.order = j.order)) (fun _ => j') o.jobs }
      let s := sourcePoison j t s
      let s := match jobPicture s j, findItem s j.item, j.encode with
        | some (x, p), some i, none => if j.ended then s else writeStrip i j t x p s
        | some (x, p), _, some h => if j.ended then s else writeEncodeStrip h j t x p s
        | _, _, _ => s
      let s := match findItem s j.item with
        | none => s
        | some i => if j.ended then s else setProgress i.id (itemProgress s i j t left) s
      let s := if left = [] ∨ j.ended then finishJob unit j' s else s
      .next (releasePictures j.stream (readyEncodes s))

/-- A scaler unit ends a strip (R464, R739). -/
def execScalerStripEnd (unit : Nat) (s : State) : Result := onShadow (endStrip unit) s

/-- Cycles in which a unit has resident jobs and no ready strip (Table 15-3): 40 in each tick. -/
def starveTick (s : State) : State :=
  (List.range 8).foldl
    (fun s u =>
      if (s.scl u).job.isNone ∧ residents s u ≠ 0 ∧ (nextJob s u).isNone then
        s.modScl u fun x => { x with starved := x.starved + 40 }
      else s) s

end Machine
end Sys2Proof
end

