-- ==== Sys2Proof/Machine/Completion.lean ====
section
/-! DEFINITION. Partitions, places and the completion of a stitch (chapters 7, 16 and 17: R218, R224, R229, R504 to R509,
R516 to R519, R471). -/

namespace Sys2Proof

/-- Quads of a partition in ascending number. -/
def Partition.quadList (p : Partition) : List Nat := (List.range 32).filter fun q => p.quads.testBit q

/-- Physical cores of a partition, in the order of its partition cores (R218). -/
def Partition.cores (p : Partition) : List Nat :=
  (p.quadList.map fun q => (List.range 4).map fun k => 4 * q + k).flatten

/-- Partition core of a physical core. -/
def Partition.coreIndex (p : Partition) (n : Nat) : Nat := p.cores.findIdx (· = n)

/-- Stack of a physical core. -/
def coreStack (n : Nat) : Nat := n / 32

/-- Totals of a stitch over its cores. -/
structure StitchSums where
  cycles : Nat
  slip : List Nat
  late : Nat
  ovfTiles : Nat
  replays : Nat

/-- Histogram bucket of a waiting time. -/
def waitBucket (us : Nat) : Nat := min 15 (if us = 0 then 0 else us.log2)

/-- A client's statistics after a record (Table 16-8). -/
def Client.count (c : Client) (r : StitchRec) (quads : Nat) : Client :=
  if r.outcome = 1 then { c with cancelled := c.cancelled + 1 }
  else
    { c with
      stitches := c.stitches + 1
      waitSum := c.waitSum + r.waitUs
      waitMax := max c.waitMax r.waitUs
      waitHist := listAdd c.waitHist (waitBucket r.waitUs) 1
      quadCycles := c.quadCycles + r.cycles * quads
      replays := c.replays + r.replays
      ovfTiles := c.ovfTiles + r.ovfTiles
      residencyUs := c.residencyUs + r.residencyUs }

namespace Machine

/-- A partition by its handle. -/
def findPart (s : State) (h : Handle) : Option Partition := s.obj.partitions.find? fun p => decide (p.handle = h)
/-- A partition changed. -/
def modPart (h : Handle) (f : Partition → Partition) (s : State) : State :=
  s.modObj fun o => { o with partitions := listUpd (fun p => decide (p.handle = h)) f o.partitions }
/-- A stitch by its id. -/
def findStitch (s : State) (id : Nat) : Option Stitch := s.obj.stitches.find? fun t => decide (t.id = id)
/-- A stitch changed. -/
def modStitch (id : Nat) (f : Stitch → Stitch) (s : State) : State :=
  s.modObj fun o => { o with stitches := listUpd (fun t => decide (t.id = id)) f o.stitches }
/-- A model by its handle. -/
def findModel (s : State) (h : Handle) : Option Model := s.obj.models.find? fun m => decide (m.handle = h)
/-- A client by its handle. -/
def findClient (s : State) (h : Handle) : Option Client := s.obj.clients.find? fun c => decide (c.handle = h)
/-- A client changed. -/
def modClient (h : Handle) (f : Client → Client) (s : State) : State :=
  s.modObj fun o => { o with clients := listUpd (fun c => decide (c.handle = h)) f o.clients }

/-- The running stitch of a core, with its partition and its model. -/
def coreStitch (s : State) (n : Nat) : Option (Partition × Stitch × Model) :=
  match s.obj.partitions.find? fun p => p.quads.testBit (n / 4) && p.running.isSome with
  | none => none
  | some p =>
    match p.running.bind (findStitch s) with
    | none => none
    | some t =>
      match findModel s t.req.model with
      | none => none
      | some m => if t.phase = .running then some (p, t, m) else none

/-- Physical stack of partition stack `j`. -/
def partStack (p : Partition) (j : Nat) : Nat := (partitionStacks p).getD j 0

/-- Base address of a place of a model on a partition, `j` being the partition stack that a place with a copy in every
stack resolves to (R224, R225, R229). -/
def placeAddr (p : Partition) (m : Model) (pl : Place) (j : Nat) : Nat :=
  match pl.space with
  | 1 =>
    let st := partStack p (if pl.stack = 0xFF then j else pl.stack)
    if pl.writable then pillowAt st (p.workG0.getD st 0 * granuleBytes + pl.offset)
    else
      let g := ((p.residents.find? fun r => decide (r.model = m.handle)).map (·.g0)).getD 0
      pillowAt st ((p.modelG0.getD st 0 + g) * granuleBytes + pl.offset)
  | 2 =>
    if pl.writable then ((p.places.find? fun x => decide (x.model = m.handle)).map (·.ddrBase)).getD 0 + pl.offset
    else m.ddrBase + pl.offset
  | _ => ((p.places.find? fun x => decide (x.model = m.handle)).map (·.hubBase)).getD 0 + pl.offset

/-- The bobbin of a slot: its record's, or the one that a join made for it (R303, R318). -/
def slotBobbin (s : State) (t : Stitch) (i : Nat) : Option Bobbin :=
  let named := ((t.req.slots[i]?).map (·.bobbin)).getD 0
  let joined := ((t.req.joins.zip t.joinHandles).find? fun j => decide (j.1.slot = i)).map (·.2)
  let h := if named ≠ 0 then named else joined.getD 0
  if h = 0 then none else (findBobbin s h).filter fun b => !b.posted

/-- The item bound to a slot. -/
def slotItem (s : State) (t : Stitch) (i : Nat) : Option Item := (t.items.getD i none).bind (findItem s)

/-! ## Picots from the emit place (R516 to R519) -/

/-- Strings of token ids; an unknown id becomes U+FFFD (R519). -/
def tokenText (vocab : List (List Byte)) (p : List Byte) (n : Nat) : List Byte :=
  ((List.range n).map fun i => (vocab[leNat ((p.drop (16 + 4 * i)).take 4)]?).getD [0xEF, 0xBF, 0xBD]).flatten

/-- The payload of a picot from a record of the emit place, when it keeps Table 17-4. -/
def emitPayload (vocab : List (List Byte)) (type : Nat) (p : List Byte) : Option (List Byte) :=
  let f (off n : Nat) : Nat := leNat ((p.drop off).take n)
  match type with
  | 1 => if 8 ≤ p.length ∧ f 0 4 ≤ 2725 ∧ p.length = 8 + 24 * f 0 4 then some p else none
  | 2 =>
    if 8 ≤ p.length ∧ f 0 4 ≤ 1635 ∧ p.length = 8 + 40 * f 0 4 ∧
        ((List.range (f 0 4)).all fun i => decide (f (8 + 40 * i + 4) 1 ≤ 3)) = true then some p else none
  | 3 =>
    let size := match f 4 1 with
      | 0x01 => 1
      | 0x30 => 2
      | 0x32 => 4
      | _ => 0
    if 16 ≤ p.length ∧ size ≠ 0 ∧ 1 ≤ f 6 2 ∧ f 6 2 ≤ 16320 ∧ p.length = 16 + f 6 2 * size ∧ (size = 1 ∨ f 8 4 = 0) then some p
    else none
  | 4 =>
    if 16 ≤ p.length ∧ f 10 2 = 0 ∧ p.length = 16 + 4 * f 8 2 then
      let text := tokenText vocab p (f 8 2)
      some (p.take 10 ++ leBytes 2 (min text.length 65535) ++ zeroBytes 4 ++ text)
    else none
  | 5 => if p.length = 40 ∧ f 8 1 ≤ 7 then some p else none
  | _ => none

/-- What a picot takes from its record's slot: frame, capture time and quality of the item or of its segment (R518). -/
def emitSource (i : Item) (segment : Nat) : Option (Nat × CardTime × Quality) :=
  if i.kind = 4 then
    (if segment = 0 then none else (i.segments[segment - 1]?).map fun g => (g.frame, g.capture, g.quality))
  else if segment = 0 then some (i.frame, i.capture, i.quality)
  else none

/-- A record that is dropped as MALFORMED: produced and dropped in one. -/
def dropMalformedFor (h : Option Handle) (s : State) : State :=
  let d := (h.bind (findRoute s)).map (·.dest)
  let s := countProduced s
  let s := match d with
    | none => s
    | some i => countProducedFor i s
  countDrop d dropMalformed s

/-- Records of the emit place from an offset on, `left` of them, each formed into a picot. -/
def emitRecords (t : Stitch) (m : Model) (base size limit : Nat) (overflow : Bool) : Nat → Nat → State → State
  | 0, _, s => s
  | left + 1, off, s =>
    let f (o n : Nat) : Nat := memNat s (base + off + o) n
    let last := off + 8 + f 6 2
    if size < off + 8 ∨ size < last then s
    else
      let s := hubRead (base + off) (8 + f 6 2) s
      let it := slotItem s t (f 2 2)
      let out := it.bind fun i => (emitSource i (f 4 2)).bind fun src =>
        (emitPayload m.vocab (f 0 1) (memRead s (base + off + 8) (f 6 2))).map fun p => (i, src, p)
      let s := match out with
        | some (i, (frame, capture, q), p) =>
          if limit < last then dropMalformedFor (some i.stream) s
          else
            formPicot
              { type := f 0 1, more := decide (f 1 1 % 2 = 1), unordered := unorderedFor s i.stream i.output,
                quality := { q with overflow := overflow }, stream := i.stream, capture := capture, seq := 0,
                frame := frame, completion := s.now, payload := p, output := some i.output } s
        | none => dropMalformedFor (it.map (·.stream)) s
      emitRecords t m base size limit overflow left (roundUp 8 last) s

/-- Picots of a completed stitch, in record order (R517). -/
def emitPicots (p : Partition) (t : Stitch) (m : Model) (ovfTiles : Nat) (s : State) : State :=
  match m.emitPlace.bind fun i => m.places[i]? with
  | none => s
  | some pl =>
    let base := placeAddr p m pl 0
    let s := hubRead base 16 s
    emitRecords t m base pl.size (16 + memNat s (base + 4) 4) (decide (ovfTiles ≠ 0)) (memNat s base 4) 16 s

/-! ## Eyelet tables (R471) -/

/-- An entry of a prediction area, with its reserved bytes zero. -/
def predEntry (s : State) (a : Nat) : Option PredEntry :=
  if memNat s (a + 22) 2 ≠ 0 ∨ memNat s (a + 28) 4 ≠ 0 then none
  else
    some
      { box := (List.range 4).map fun k => BitVec.ofNat 32 (memNat s (a + 4 * k) 4)
        trackId := BitVec.ofNat 32 (memNat s (a + 16) 4)
        cls := memNat s (a + 20) 2
        score := BitVec.ofNat 32 (memNat s (a + 24) 4) }

/-- The prediction area of a bound item is taken as its stream's eyelet table, or discarded. -/
def commitEyelets (i : Item) (s : State) : State :=
  let a := i.buf.addr + i.predOff
  let s := if i.predOff = 0 then s else hubRead a 64 s
  let count := memNat s a 4
  if i.predOff = 0 ∨ count = 0xFFFFFFFF then s
  else
    let s := hubRead (a + 64) (32 * min count 64) s
    let n := if i.kind = 4 then i.segments.foldl (fun m g => max m g.frame) 0 else i.frame
    let entries := (List.range (min count 64)).map fun k => predEntry s (a + 64 + 32 * k)
    let newer := ((findStream s i.stream).bind (·.table)).any fun t => decide (n ≤ t.frame)
    if 64 < count ∨ newer = true ∨ entries.any (·.isNone) ∨
        ((memRead s (a + 4) 60).any fun b => decide (b ≠ 0)) = true then
      modOutput i.stream i.output (fun c => { c with predDiscards := c.predDiscards + 1 }) s
    else
      modOutput i.stream i.output (fun c => { c with predCommits := c.predCommits + 1 })
        (recutEyelets i.stream (modStream i.stream (fun x => { x with table := some ⟨n, entries.filterMap id⟩ }) s))

/-! ## Items (R468) -/

/-- An item that its stitch consumed is released. -/
def consumeItem (i : Item) (s : State) : State :=
  retireItem i (modOutput i.stream i.output (fun c => { c with consumed := c.consumed + 1 }) s)

/-- Items of a stitch, in slot order, each once. -/
def stitchItems (s : State) (t : Stitch) : List Item := t.items.filterMap fun x => x.bind (findItem s)

/-- The items that a stitch consumed are released; those of a stitch that consumes nothing are ready again. -/
def settleItems (t : Stitch) (consumed : Bool) (s : State) : State :=
  (stitchItems s t).foldl
    (fun s i => if consumed then consumeItem i s else modItem i.id (fun k => { k with state := .ready }) s) s

/-! ## The record (R507, R509) -/

/-- Counters of a partition's cores at completion (R504, Table 16-7). -/
def stitchSums (p : Partition) (s : State) : StitchSums :=
  let cs := p.cores.map s.core
  { cycles := cs.foldl (fun n c => max n c.cycles) 0
    slip := (List.range 6).map fun k => cs.foldl (fun n c => n + c.slip.getD k 0) 0
    late := cs.foldl (fun n c => max n c.late) 0
    ovfTiles := cs.foldl (fun n c => n + c.ovfTiles) 0
    replays := cs.foldl (fun n c => n + c.replays) 0 }

/-- The card is READY again when no partition has a stitch running (R697). -/
def leaveActive (s : State) : State :=
  if anyRunning s then s else s.modPower fun p => if p.state = 2 then { p with state := 1 } else p

/-- The completion record of a stitch (Table 16-7). One that did not run has no waiting time of R499, so its WAIT_US is open. -/
def stitchRecord (t : Stitch) (outcome status : Nat) (sums : StitchSums) (s : State) : StitchRec :=
  let ran := decide (outcome = 0)
  { outcome := outcome, cls := t.req.cls, status := status
    detail := if outcome ≠ 1 ∧ (status = stNotFound ∨ status = stTimeout) then t.detail else 0
    id := t.wire, tag := t.req.tag, partition := t.req.partition, model := t.req.model, client := t.req.client
    start := if ran then t.cycle0 else {}
    waitUs := if ran then min t.waitUs (2 ^ 32 - 1) else Config.freeNat s.fresh % 2 ^ 32
    finish := s.now, residencyUs := t.residencyNs / 1000, cycles := if ran then sums.cycles else 0
    slip := if ran then sums.slip else [0, 0, 0, 0, 0, 0], late := if ran then sums.late else 0
    ovfTiles := if ran then sums.ovfTiles else 0, replays := if ran then sums.replays else 0
    stepMax := if ran then t.stepMax else 0, debt := t.debt, rerun := t.rerun || t.replayed
    joinFailed := t.joinFailed
    frames := (List.range t.req.slots.length).map fun i => t.frames.getD i (2 ^ 64 - 1) }

/-- A stitch of a failover has completed: with the last of them the failover is complete (R745, R746). -/
def settleFailover (id : Nat) (s : State) : State :=
  match s.pair.failover with
  | none => s
  | some f =>
    let left := f.left.filter (· ≠ id)
    let s := s.modPair fun q => { q with failover := if left = [] then none else some { f with left := left } }
    if left = [] then
      issueEvent evFailover 0 [f.kind, f.replayed, f.streams, (s.time.tick - f.causeTick) * 40 / 1000] s
    else s

/-- A stitch is counted with its record, and is one of its partition and of the card no more (R508, R509). -/
def countStitch (t : Stitch) (r : StitchRec) (s : State) : State :=
  let quads := ((findPart s t.req.partition).map fun p => p.quadList.length).getD 0
  let done := (decide (r.outcome ≠ 1)).toNat
  let s := modClient t.req.client (fun c => c.count r quads) s
  let s := modPart t.req.partition (fun p =>
    { p with
      running := if p.running = some t.id then none else p.running
      completed := p.completed + done
      cancelled := p.cancelled + (1 - done) }) s
  let s := s.modCtr fun c => { c with completed := c.completed + done, cancelled := c.cancelled + (1 - done) }
  settlePrefixes (leaveActive (s.modObj fun o => { o with stitches := o.stitches.filter fun x => !decide (x.id = t.id) }))

/-- The record of a stitch is written and its vector raised; the stitch is counted, and its partition may take its next
dispatch decision (R504 steps 5 to 7, R508, R509). `RESET_WORK` discards the record (R569). -/
def closeStitch (t : Stitch) (r : StitchRec) (s : State) : State :=
  let s := if resetting s then s
    else
      let s := placeRecord t.session (.stitch r) s
      if t.req.flags % 2 = 1 then sendMsix t.req.vector s else s
  faultIfIdle (settleFailover t.id (countStitch t r s))

/-- A stitch's record is ready: it is written at once, or once the partner has acknowledged its mirror item (R504 steps 5 to 7,
R736). -/
def writeRecord (t : Stitch) (outcome status : Nat) (sums : StitchSums) (s : State) : State :=
  let r := stitchRecord t outcome status sums s
  let s := if outcome = 0 then s else s.useFresh
  if healthy s && !resetting s then
    defer (.stitch t.id)
      (mirrorItem (fun n => .record n t.session (.stitch r)) (modStitch t.id (fun t => { t with phase := .recorded r }) s))
  else closeStitch t r s

/-- The record that waited is written. -/
def releaseStitch (id : Nat) (s : State) : State :=
  match findStitch s id with
  | none => s
  | some t => match t.phase with
    | .recorded r => closeStitch t r s
    | _ => s

/-! ## Slices (R494 to R497) -/

/-- The part of a stitch's time that is charged to its holder's slice: from dispatch to completion less any residency
streaming, in ns. -/
def chargeOf (t : Stitch) (s : State) : Nat := (s.time.tick - t.selTick) * 40 - t.residencyNs

/-- A best-effort stitch is charged to its holder's slice; what runs past its end is the client's debt (R495). -/
def chargeSlice (p : Partition) (t : Stitch) (s : State) : State :=
  if t.req.cls = 0 ∨ p.holder ≠ some t.req.client then s
  else
    let left := p.sliceLeft - (chargeOf t s : Int)
    let over_ := (-left).toNat
    let s := modPart p.handle (fun p =>
      { p with
        sliceLeft := left
        debts := if over_ = 0 then p.debts
          else upsert (·.1) (t.req.client, over_ + ((p.debts.find? fun d => decide (d.1 = t.req.client)).map (·.2)).getD 0)
            p.debts }) s
    if over_ = 0 then s else modStitch t.id (fun t => { t with debt := true }) s

/-! ## Completion (R504) -/

/-- The cores of a partition become idle; their scratch and hoops carry nothing to the next stitch. -/
def idleCores (p : Partition) (s : State) : State :=
  let s := p.cores.foldl (fun s n => s.modCore n fun c => c.halt) s
  s.modPpu (SMap.mapVals {} fun _ u =>
    { u with
      jobs := (u.jobs.filter fun j => j.started || !p.cores.contains j.core).map fun j =>
        if p.cores.contains j.core then { j with left := true } else j })

/-- The checkpoint of a stitch goes to the partner, with what its commits wrote (R323, Table 24-3). -/
def sendCheckpoint (id : Nat) (log : List (Nat × List Byte)) (s : State) : State :=
  if healthy s then
    let rs := unsent s
    let n := s.pair.sendSeq + 1
    (s.modPair fun p =>
      { p with sendSeq := n, mirrored := s.obj, checkpoints := p.checkpoints ++ [(n, s.time.tick)] }).push
        (.bride (.checkpoint n id rs log))
  else s

/-- The log of a stitch's commits, in slot order, the commits having been made (R305, R323). -/
def stitchLog (t : Stitch) (s : State) : List (Nat × List Byte) :=
  ((List.range t.req.slots.length).map fun i => match slotBobbin s t i with
    | none => []
    | some b => commitLog b.handle ((t.req.slots[i]?.map (·.append)).getD 0) s).flatten

/-- The completion steps of a stitch that ran, carried out by control core 0 (R504 steps 1 to 6, R306, R468). -/
def completionSteps (id : Nat) (s : State) : State :=
  match findStitch s id with
  | none => s
  | some t =>
    match findPart s t.req.partition with
    | none => s
    | some p =>
      let sums := stitchSums p s
      let s := idleCores p s
      let s := match t.stop, findModel s t.req.model with
        | none, some m =>
          let s := (List.range t.req.slots.length).foldl
            (fun s i =>
              match slotBobbin s t i with
              | none => s
              | some b => commitBobbin b.handle ((t.req.slots[i]?.map (·.append)).getD 0) s) s
          let s := (List.range t.req.slots.length).foldl
            (fun s i => match slotItem s t i with
              | none => s
              | some it => commitEyelets it s) s
          settleItems t true (emitPicots p t m sums.ovfTiles s)
        | _, _ => settleItems t false s
      let s := modStitch id (fun t => { t with pinned := [] }) s
      let s := sendCheckpoint id (if t.stop.isNone ∧ (findModel s t.req.model).isSome then stitchLog t s else []) s
      let s := chargeSlice p t s
      let s := modPart p.handle (fun p => { p with lastUs := (s.time.tick - t.zeroTick) * 40 / 1000 }) s
      match findStitch s id with
      | none => s
      | some t => writeRecord t 0 (t.stop.getD 0) sums s

/-- A stitch has ended in the fabric: control core 0 carries out its completion steps, once it runs (R504, R663). -/
def finishStitch (id : Nat) (s : State) : State :=
  if (s.cc 0).run = 1 then completionSteps id s else s.modFw fun w => { w with heldComplete := w.heldComplete ++ [id] }

/-! ## Stops (R190, R326, R492, R505) -/

/-- A core that a stop finds at a bundle boundary halts; its CYCLES since the latest tick are open. -/
def haltCore (n : Nat) (s : State) : State :=
  let v := Config.freeNat s.fresh % 61
  (s.modCore n fun c => if c.run = 0 then c else { c.halt with cycles := c.cycles + (if c.counting then v else 0) }).useFresh

/-- A stopped stitch ends once every core of its partition has halted. -/
def stopIfHalted (p : Partition) (id : Nat) (s : State) : State :=
  if p.cores.all fun n => decide ((s.core n).run = 0) then finishStitch id s else s

/-- A stitch stops on all its cores at their next bundle boundary and completes with a status. -/
def stopStitch (p : Partition) (id status detail : Nat) (atOnce : Bool) (s : State) : State :=
  match findStitch s id with
  | none => s
  | some t =>
    if t.stop.isSome ∧ atOnce = false then s
    else
      let s := modStitch id (fun t => { t with stop := some status, detail := detail }) s
      let s := p.cores.foldl (fun s n => if (s.core n).mid && !atOnce then s else haltCore n s) s
      stopIfHalted p id s

/-- A stitch has run TIMEOUT_MS since cycle 0: it is stopped on every core at once, which is contained (R505). -/
def dueStitchTimeout (partition : Handle) (cause : Nat) (s : State) : Result :=
  match findPart s partition with
  | none => .next s
  | some p =>
    match p.running.bind (findStitch s) with
    | none => .next s
    | some t =>
      if t.phase ≠ .running ∨ s.fw.heldComplete.contains t.id then .next s
      else .next (contained fkStitchTimeout 0 t.req.partition.toNat t.wire (stopStitch p t.id stTimeout cause true s))

/-- The deadline is reached (R653). -/
def execStitchTimeout (partition : Handle) (cause : Nat) (s : State) : Result :=
  atDeadline (.stitchTimeout partition cause) (dueStitchTimeout partition cause) s

end Machine
end Sys2Proof
end

