-- ==== Sys2Proof/Machine/Flags.lean ====
section
/-! DEFINITION. The adder tree, the additions into a hoop with their overflow flags, and the vector unit's lane flags
(chapter 4, R106 to R111, R121 to R126, R174). -/

namespace Sys2Proof

/-! ## The adder tree (R106 to R109) -/

/-- Exponent of a non-zero value. -/
def Val.expo : Val → Int
  | .num _ m e => e + m.log2
  | _ => 0

/-- A finite value in units of `2 ^ lsb`, truncated towards −∞, and whether bits were discarded. -/
def Val.truncTo (lsb : Int) : Val → Int × Bool
  | .num n m e =>
    let sign : Int := if n then -1 else 1
    if lsb ≤ e then (sign * ((m * 2 ^ (e - lsb).toNat : Nat) : Int), false)
    else
      let d : Int := ((2 ^ (lsb - e).toNat : Nat) : Int)
      let v := sign * (m : Int)
      (v / d, decide (v % d ≠ 0))
  | _ => (0, false)

/-- The largest exponent of a list, none when it is empty. -/
def maxExpo : List Int → Option Int
  | [] => none
  | x :: l => some (l.foldl max x)

/-- Sum of one row group in its window: its exponent, the sum, the sticky bit (R106 step 1). -/
def groupSum (ps : List Val) : Option (Int × Int × Bool) :=
  let nz := ps.filter fun p => !p.isZero
  (maxExpo (nz.map Val.expo)).map fun e =>
    nz.foldl (fun (acc : Int × Int × Bool) p =>
      let (v, k) := p.truncTo (e - 72)
      (acc.1, acc.2.1 + v, acc.2.2 || k)) (e, 0, false)

/-- The FP32 row result of a column from the products of its row groups (R106, R109). -/
def treeRow (groups : List (List Val)) : W32 :=
  let all := groups.flatten
  let pos := all.any fun p => decide (p = .inf false)
  let neg := all.any fun p => decide (p = .inf true)
  if all.any Val.isNan || (pos && neg) then 0x7FC00000
  else if pos then 0x7F800000
  else if neg then 0xFF800000
  else if (all.foldl Val.add (.num true 0 0)).isZero then
    (if all.all fun p => match p with
      | .num n m _ => n && decide (m = 0)
      | _ => false then 0x80000000 else 0)
  else
    let gs := groups.filterMap groupSum
    match maxExpo (gs.map (·.1)) with
    | none => 0
    | some e =>
      let (sum, sticky) := gs.foldl (fun (acc : Int × Bool) g =>
        let d : Int := ((2 ^ (e - g.1).toNat : Nat) : Int)
        (acc.1 + g.2.1 / d, acc.2 || g.2.2 || decide (g.2.1 % d ≠ 0))) (0, false)
      let v := 2 * sum + (if sticky then 1 else 0)
      rne32 (.num (decide (v < 0)) v.natAbs (e - 73))

/-! ## Hoop entries -/

/-- SUM and ERR of a float-layout entry (Table 4-2). -/
def entrySum (e : W64) : W32 := BitVec.extractLsb' 0 32 e
def entryErr (e : W64) : W32 := BitVec.extractLsb' 32 32 e
/-- A float-layout entry. -/
def mkEntry (sum err : W32) : W64 := err ++ sum

/-- `hoop_add` (R110). -/
def hoopAdd (e : W64) (t : W32) : W64 :=
  let s := entrySum e
  let x := fadd s t
  if finite32 x = false ∨ finite32 s = false ∨ finite32 t = false then mkEntry x 0
  else
    let (x, y) := twoSum s t
    mkEntry x (fadd (entryErr e) y)

/-- The value of an integer-layout entry (Table 4-1). -/
def entryInt (e : W64) : Int := (entrySum e).toInt
/-- OVF of an integer-layout entry. -/
def entryOvf (e : W64) : Bool := e.getLsbD 32

/-- ±(2^31 − 1) with the sign of `n` when it does not fit 32 bits (R121, R123). -/
def saturate32 (n : Int) : Int := if n < -2147483648 then -2147483647 else if 2147483647 < n then 2147483647 else n
/-- A sum leaves the INT32 range; −2^31 fits (R123). -/
def overflows32 (n : Int) : Bool := decide (n < -2147483648) || decide (2147483647 < n)

/-- An integer addition into an entry, and whether it overflowed (R111, R123, R125). Without `sat` the sum is kept in 32
bits; its tile is replayed before anything reads it. -/
def hoopAddInt (sat : Bool) (e : W64) (t : Int) : W64 × Bool :=
  if entryOvf e then (e, false)
  else
    let n := entryInt e + t
    if overflows32 n then
      (if sat then (mkEntry (BitVec.ofInt 32 (saturate32 n)) 1, true) else (mkEntry (BitVec.ofInt 32 n) 0, true))
    else (mkEntry (BitVec.ofInt 32 n) 0, false)

/-- An entry of a hoop. -/
def Hoop.entry (h : Hoop) (r j : Nat) : W64 := SMap.get 0 h.entries (32 * r + j)
/-- An entry of a hoop written. -/
def Hoop.setEntry (h : Hoop) (r j : Nat) (e : W64) : Hoop := { h with entries := SMap.set 0 h.entries (32 * r + j) e }

/-- Columns of column group `g`: eight each (R88). -/
def groupColumns (g : Nat) : List Nat := (List.range 8).map fun j => 8 * g + j

/-- The float row results of column group `g` are added to a row (R110). -/
def Hoop.addFloat (h : Hoop) (r g : Nat) (t : List W32) : Hoop :=
  ((groupColumns g).zip t).foldl (fun h x => h.setEntry r x.1 (hoopAdd (h.entry r x.1) x.2)) h

/-- The integer row results of column group `g` are added to a row; an overflow sets HOVF, which a replay then undoes (R111,
R123, R125). -/
def Hoop.addInt (sat : Bool) (h : Hoop) (r g : Nat) (t : List Int) : Hoop :=
  ((groupColumns g).zip t).foldl
    (fun h x =>
      let (e, o) := hoopAddInt sat (h.entry r x.1) x.2
      { h.setEntry r x.1 e with hovf := h.hovf || o, final := h.final && !o }) h

/-- A column group's entries of a row become zero (R83, R112). -/
def Hoop.zeroPart (h : Hoop) (r g : Nat) : Hoop :=
  { h with entries := h.entries.filter fun e => decide (e.1 / 8 ≠ 4 * r + g) }

/-- The per-row registers of a row become zero (R112). -/
def Hoop.zeroRegisters (h : Hoop) (r : Nat) : Hoop :=
  { h with
    max := SMap.set 0 h.max r 0
    sum := SMap.set 0 h.sum r 0
    scale := SMap.set 0 h.scale r 0
    valid := SMap.set false h.valid r false }

/-- A hoop with every entry and every per-row register zero, and both flags (R81, R104). -/
def Hoop.zero : Hoop := {}

/-! ## Products -/

/-- Product exponent of block scale bytes (R95): 127 counts as none. -/
def scaleExp (b : Byte) : Int := (b.toNat : Int) - 127

/-- The integer row results of a column group: activation elements, halved `k` times with ties to even in a replay
(R125), times the loaded weights. -/
def intRow (x : Array4) (o : RowOp) (k g : Nat) (row : List Byte) : List Int :=
  match x.loaded with
  | none => List.replicate 8 0
  | some (m, wf) =>
    let acts : List Int := (List.range o.mode.k).map fun i =>
      ((elemVal o.fmt (elemRaw o.fmt row i)).scale (-(k : Int))).toIntRne (-(2 ^ 31)) (2 ^ 31)
    (groupColumns g).map fun j =>
      ((List.range o.mode.k).zip acts).foldl
        (fun n e => n + e.2 * (elemVal wf (m.weightRaw wf x.weights e.1 j)).toIntRne (-(2 ^ 31)) (2 ^ 31)) 0

/-- The block scale byte of a weight column for reduction index `k`: 127 when the weights are not MX (R94, R95). -/
def Array4.weightScale (x : Array4) (j k : Nat) : Byte :=
  match x.loaded with
  | some (.f4, f) => if isMx f then x.wscales.getD (2 * j + k / 32) 127 else 127
  | some (_, f) => if isMx f then x.wscales.getD j 127 else 127
  | none => 127

/-- The block scale byte of an activation row for reduction index `k`. -/
def rowScale (o : RowOp) (sc : List Byte) (k : Nat) : Byte :=
  match o.mode with
  | .f4 => sc.getD (k / 32) 127
  | _ => sc.getD 0 127

/-- The product of reduction index `k` in column `j`, block scales included (R95, R97). On an array on which no `LOADW` has run
the weight is zero: R79 calls its products zero, and an infinite or NaN activation times that zero is NaN by Table 2-5, which the
model follows (DESIGN CHOICE, log entry 159). -/
def product (x : Array4) (o : RowOp) (sc row : List Byte) (j k : Nat) : Val :=
  let a := elemVal o.fmt (elemRaw o.fmt row k)
  let w := match x.loaded with
    | none => .num false 0 0
    | some (m, wf) => elemVal wf (m.weightRaw wf x.weights k j)
  (a.mul w).scale (scaleExp (x.weightScale j k) + scaleExp (rowScale o sc k))

/-- The float row results of a column group (R96, R106). -/
def floatRow (x : Array4) (o : RowOp) (g : Nat) (sc row : List Byte) : List W32 :=
  let n := o.mode.k / 4
  (groupColumns g).map fun j =>
    if (List.range o.mode.k).any fun k => decide (x.weightScale j k = 255) || decide (rowScale o sc k = 255) then
      0x7FC00000
    else treeRow ((List.range 4).map fun g => (List.range n).map fun i => product x o sc row j (g * n + i))

/-- Column group `g` adds row `i` into its hoop row: one tree result, or one for each tap row of POOL_AVG. A block that starts
from zero starts each of its rows so (R83). -/
def addRows (sat : Bool) (k g : Nat) (x : Array4) (o : RowOp) (i : Nat) (sc : List Byte) (rows : List (List Byte)) :
    Array4 :=
  x.modHoop (o.hoopFor i) fun h =>
    let h := if 64 ≤ i then h.zeroPart (i % 32) g else h
    rows.foldl (fun h row =>
      if o.mode.integer then h.addInt sat (i % 32) g (intRow x o k g row)
      else h.addFloat (i % 32) g (floatRow x o g sc row)) h

/-- HOVF and HREP at the start of a block that starts from zero. -/
def Hoop.newBlock (h : Hoop) : Hoop := { h with hovf := false, hrep := 0, final := false }

/-! ## Lane flags of the vector unit (R174) -/

/-- All-ones or zero in a lane. -/
def laneFlag (bits : Nat) (b : Bool) : Nat := if b then 2 ^ bits - 1 else 0

/-- The comparison of `VCMP` by its condition: 0 EQ, 1 LT, 2 LE. -/
def compareLane (cond : Nat) (a b : Val) : Bool :=
  match cond with
  | 0 => a.eqv b
  | 1 => a.lt b
  | _ => a.lt b || a.eqv b

end Sys2Proof
end

