-- ==== Sys2Proof/Machine/Slots.lean ====
section
/-! DEFINITION. How the operations of a core's bundles issue, and the sequencer (R161, R169, R191, R207). -/

namespace Sys2Proof

/-- The next bundle after bundle `b` ends, with the loops that then enclose it (R169): a loop whose last bundle is `b` goes
back to its first bundle while iterations are left. -/
def sequence (b : Nat) : List LoopLevel → Nat × List LoopLevel
  | [] => (b + 1, [])
  | l :: rest =>
    if l.last ≠ b then (b + 1, l :: rest)
    else if 1 < l.left then (l.first, { l with left := l.left - 1 } :: rest)
    else sequence b rest

/-- The core goes on to the bundle after bundle `b`. -/
def ComputeCore.goOn (c : ComputeCore) (b : Nat) : ComputeCore :=
  let (n, ls) := sequence b c.loops
  { c with bundle := n, loops := ls }

/-- A slip counter of the stitch, which saturates, and its lifetime counter rise (Table 6-16). -/
def ComputeCore.slips (c : ComputeCore) (cause n : Nat) : ComputeCore :=
  { c with slip := (listAdd c.slip cause n).map fun x => min x (2 ^ 32 - 1), slipTotal := listAdd c.slipTotal cause n }

/-- A bundle none of whose slots is VALID (Table 6-2): it issues no operation. -/
def bundleEmpty (code : List Byte) (b : Nat) : Bool :=
  match code[32 * b]? with
  | none => false
  | some v => decide (v.toNat % 32 = 0)

/-- The core passes the empty bundles before its next operation. -/
def ComputeCore.skipEmpty (code : List Byte) : Nat → ComputeCore → ComputeCore
  | 0, c => c
  | n + 1, c => if bundleEmpty code c.bundle then ComputeCore.skipEmpty code n (c.goOn c.bundle) else c

/-- Queue of a shuttle, oldest descriptor first. -/
def ComputeCore.queue (c : ComputeCore) (sh : Nat) : List ShuttleJob := if sh = 0 then c.sh0 else c.sh1

/-- Rows that all four column groups have added (R90). -/
def InFlight.added (f : InFlight) : Nat := f.cols.foldl min (f.cols.headD 0)

/-- Every row that an earlier bundle's operation addressed to the current block of a hoop has been added, for a drain of it that
bundle number `issue` holds: the hoop is quiet (R116). -/
def Array4.quiet (x : Array4) (hoop : Bool) (issue : Nat) : Bool :=
  match x.flight with
  | none => true
  | some f =>
    if issue ≤ f.issue then true
    else
      let own := decide (hoop = f.op.hoop)
      let block := if own then 2 * f.drains else 2 * f.drainsOther + 1
      decide (f.op.n ≤ 32 * block) || decide (min f.op.n (32 * block + 32) ≤ f.added)

/-- Rows of an operation under way for a hoop are still to be added (R279). -/
def Array4.rowsDue (x : Array4) (b : Bool) : Bool :=
  match x.flight with
  | none => false
  | some f => decide (f.op.hoopFor f.added = b) || decide (32 * (f.added / 32 + 1) < f.op.n)

/-- A tile of some array is being replayed (R125). -/
def ComputeCore.replaying (c : ComputeCore) : Bool := c.arrays.any fun a => a.2.replaying

/-- A drain that was issued in an earlier bundle has not started reading: its bundle still holds the core (R207). -/
def ComputeCore.drainHolds (c : ComputeCore) : Bool :=
  c.arrays.any fun a => match a.2.drain with
    | some d => decide (d.issue < c.issue)
    | none => false

namespace Machine

/-- The ARRAY slot of a bundle finds its array free (R77). -/
def arraySlotReady (k : ComputeCore) (v : Nat) : Bool := (k.array (bitsAt v 2 2)).flight.isNone

/-- The DRAIN slot of a bundle finds its drain port free (R114) and its hoop quiet (R116). -/
def drainSlotReady (k : ComputeCore) (v : Nat) : Bool :=
  let x := k.array (bitsAt v 2 2)
  x.drain.isNone && x.draining.isNone && x.quiet (v.testBit 4) k.issue

/-- The VECTOR slot of a bundle can issue: an `HROWSET` of SCALE waits for the rows before it (R279). -/
def vectorSlotReady (k : ComputeCore) (v : Nat) : Bool :=
  !(decide (bitsAt v 32 8 = 0x41) && decide (bitsAt v 3 2 = 2) && (k.array (bitsAt v 0 2)).rowsDue (v.testBit 2))

/-- The SHUTTLE slot of a bundle can issue (R178, R179). -/
def shuttleSlotReady (k : ComputeCore) (v : Nat) : Bool :=
  let n := (k.queue (bitsAt v 2 1)).length
  if bitsAt v 0 2 = 0 then decide (n < 16) else decide (n ≤ bitsAt v 3 4)

/-- All operations of a bundle can issue (R207). -/
def bundleReady (k : ComputeCore) (b : Nat) : Bool :=
  let test (i : Nat) (p : Nat → Bool) : Bool := match slotOf b i with
    | none => true
    | some v => p v
  test 0 (arraySlotReady k) && test 1 (drainSlotReady k) && test 2 (vectorSlotReady k) && test 3 (shuttleSlotReady k)

/-- Code of the role of a core's stitch. -/
def codeOf (p : Partition) (m : Model) (n : Nat) : List Byte :=
  ((m.code.find? fun x => decide (x.1 = m.roles.getD (p.coreIndex n) 0)).map (·.2)).getD []

/-- A running core stands at its next bundle that holds an operation. -/
def passEmpty (n : Nat) (s : State) : State :=
  match coreStitch s n with
  | none => s
  | some (p, _, m) =>
    if (s.core n).run = 1 then s.modCore n fun k => k.skipEmpty (codeOf p m n) (2 ^ 64) else s

/-- The stitch for which an operation of a bundle can issue now: the core runs, waits at no knot, no drain or replay holds it,
the bundle is its next, and all of the bundle's operations can issue, or some have (R125, R191, R207). -/
def issuing (s : State) (c : Slot) : Option (Partition × Stitch × Model) :=
  let k := s.core c.core
  if k.run = 1 ∧ k.replaying = false ∧ k.knot = none ∧ k.bundle = c.bundle ∧ k.drainHolds = false then
    match coreStitch s c.core with
    | none => none
    | some (p, t, m) =>
      if k.mid || bundleReady k (bundleAt (codeOf p m c.core) c.bundle) then some (p, t, m) else none
  else none

/-- A bundle of a core has issued. A stitch that stops halts the core at this boundary (R190). -/
def closeBundle (n : Nat) (p : Partition) (id : Nat) (s : State) : State :=
  let s := s.modCore n fun k => { k with mid := false, issue := k.issue + 1 }
  match (findStitch s id).bind (·.stop) with
  | none => s
  | some _ => stopIfHalted p id (haltCore n s)

/-- An operation of a bundle that is no CONTROL operation: held, or carried out. -/
def slotOp (c : Slot) (f : Partition → Stitch → Model → State → Option State) (s0 : State) : State :=
  let s := passEmpty c.core s0
  match issuing s c with
  | none => s0
  | some (p, t, m) =>
    match f p t m s with
    | none => s0
    | some s =>
      let s := correctedBy c.corrected (s.modCore c.core fun k => { k with late := k.late + c.held })
      if c.last then closeBundle c.core p t.id (s.modCore c.core fun k => k.goOn k.bundle)
      else s.modCore c.core fun k => { k with mid := true }

/-- A CONTROL operation, which ends its bundle: it sets what runs next. -/
def controlOp (c : Slot) (f : Stitch → Model → ComputeCore → ComputeCore) (s0 : State) : State :=
  let s := passEmpty c.core s0
  match issuing s c with
  | none => s0
  | some (p, t, m) => closeBundle c.core p t.id (s.modCore c.core fun k => { f t m k with late := k.late + c.held })

/-- An operation that changes only its core. -/
def coreOp (c : Slot) (f : ComputeCore → ComputeCore) (s : State) : State :=
  slotOp c (fun _ _ _ s => some (s.modCore c.core f)) s

/-- Class and replay-safe mark let a tile be replayed rather than saturated (R123, R125). -/
def replays (t : Stitch) (m : Model) : Bool := decide (t.req.cls ≠ 0) && m.replaySafe

end Machine
end Sys2Proof
end

