-- ==== Sys2Proof/Machine/Arrays.lean ====
section
/-! DEFINITION. The array operations and the entry of activation rows (chapter 3). -/

namespace Sys2Proof

/-- An operation is noted in a hoop's window (R125). -/
def Array4.note (x : Array4) (b : Bool) (w : WindowOp) : Array4 :=
  if b then { x with windowB := x.windowB ++ [w] } else { x with windowA := x.windowA ++ [w] }

/-- Weights are loaded (R71, R94). -/
def Array4.loadWeights (x : Array4) (o : LoadOp) (rows : List (List Byte)) (scales : List Byte) : Array4 :=
  { x with loaded := some (o.mode, o.fmt), weights := rows, wscales := scales }

/-- An operation that adds rows is issued, `held` cycles late (R77). -/
def Array4.start (x : Array4) (o : RowOp) (issue held : Nat) : Array4 :=
  let x := x.note o.hoop (.rows o)
  let x := if 32 < o.n then x.note (!o.hoop) (.rows o) else x
  { x with flight := some { op := o, issue := issue, inherited := held } }

/-- Drains of the hoop of row `i` that have read since the operation issued. -/
def InFlight.drainsOf (f : InFlight) (i : Nat) : Nat := if f.op.hoopFor i = f.op.hoop then f.drains else f.drainsOther

/-- The drain under way of row `i`'s hoop has read that row in column group `g`; `earlier`: the drain issued no later than the
operation. -/
def Array4.drainRead (x : Array4) (f : InFlight) (i g : Nat) (earlier : Bool) : Option Bool :=
  match x.draining with
  | none => none
  | some d =>
    if d.req.hoop = f.op.hoopFor i ∧ decide (d.req.issue ≤ f.issue) = earlier then some (decide (i % 32 < d.read.getD g 0))
    else none

/-- Column group `g` may not add row `i` yet: no drain has read the same row of the previous block (R84), or a drain of the
hoop that issued no later than the operation has not read the row (R119). -/
def Array4.rowHeld (x : Array4) (f : InFlight) (i g : Nat) : Bool :=
  decide (64 ≤ i ∧ f.drainsOf i + (decide (x.drainRead f i g false = some true)).toNat < i / 64) ||
    decide (x.drainRead f i g true = some false) ||
    match x.drain with
    | some d => decide (d.hoop = f.op.hoopFor i) && decide (d.issue ≤ f.issue)
    | none => false

/-- Rows put together again from the slices of their four row groups, `n` rows of them. -/
def joinSlices (f : InFlight) (i n : Nat) : List (List Byte) :=
  let k := f.op.mode.rowBytes f.op.fmt / 4
  (List.range n).map fun t =>
    ((List.range 4).map fun g =>
      match f.slices.find? fun e => decide (e.1 = i ∧ e.2.1 = g) with
      | some (_, _, bs, _) => (bs.drop (t * k)).take k
      | none => []).flatten

/-- The block scale bytes of a row from its slices. -/
def joinScales (f : InFlight) (i : Nat) : List Byte :=
  ((List.range 4).map fun g =>
    match f.slices.find? fun e => decide (e.1 = i ∧ e.2.1 = g) with
    | some (_, _, _, sc) => sc
    | none => []).flatten

/-- Rows between a row's reading and its writing: an ADD drain reads the partial of row r in cycle r + 1 and writes the row in
cycle r + 8; the other forms read nothing that they write (Table 4-5). -/
def Draining.lag (d : Draining) : Nat := if d.req.form = 1 then 7 else 0

/-- The drain buffer of column group `g` is full: eight rows wait for their bank (R88, R90). -/
def Draining.full (d : Draining) (g : Nat) : Bool := decide (8 + d.lag ≤ (d.parts.getD g []).length)

/-- The drain buffer of column group `g` is full (R90). -/
def Array4.bufferFull (x : Array4) (g : Nat) : Bool :=
  match x.draining with
  | none => false
  | some d => d.full g

/-- Column group `g` can take its next row: all four slices have entered, the row may be added, its drain buffer has room, and
it is less than eight rows ahead of the slowest column group (R84, R89, R90, R92, R119). -/
def Array4.mayTake (x : Array4) (f : InFlight) (g : Nat) : Bool :=
  let i := f.cols.getD g 0
  decide (i < f.op.n) && (f.next.all fun n => decide (i < n)) && decide (i < f.added + 8) && !x.rowHeld f i g && !x.bufferFull g

/-- A column group takes its next row, and adds it (R70, R92). The feeder entries of a row are freed once all four groups have
taken it (R90). A tile that has been replayed twice and takes more rows after a drain that did not zero it saturates as it did in
the replay: R126 speaks of the replay alone (DESIGN CHOICE, log entry 158). -/
def Array4.takePart (sat : Bool) (g : Nat) (f : InFlight) (x : Array4) : Array4 :=
  let i := f.cols.getD g 0
  let hoop := f.op.hoopFor i
  let x := if 64 ≤ i ∧ i % 32 = 0 ∧ (f.cols.all fun n => decide (n ≤ i)) = true then x.modHoop hoop Hoop.newBlock else x
  let x := addRows (sat || decide (2 ≤ (x.hoopOf hoop).hrep)) 0 g x f.op i (joinScales f i) (joinSlices f i (Machine.rowCount f.op))
  let f := { f with cols := listSet f.cols g (i + 1) }
  { x with flight := some { f with slices := f.slices.filter fun e => decide (f.added ≤ e.1) } }

/-- Each column group that can takes a row. -/
def Array4.takeRound (sat : Bool) (x : Array4) : Array4 :=
  (List.range 4).foldl
    (fun x g => match x.flight with
      | some f => if x.mayTake f g then x.takePart sat g f else x
      | none => x) x

/-- The column groups take the rows that they can, of at most the eight that the feeders hold (R88). -/
def Array4.takeAll (sat : Bool) : Nat → Array4 → Array4
  | 0, x => x
  | n + 1, x =>
    match x.flight with
    | none => x
    | some f =>
      if (List.range 4).any fun g => x.mayTake f g then Array4.takeAll sat n (x.takeRound sat) else x

/-- The operation runs `late` cycles behind its schedule, of which its rows have waited `waited` under R84 (R93). -/
def InFlight.behind (f : InFlight) (late waited : Nat) : InFlight :=
  { f with late := max f.late late, waited := max f.waited waited }

/-- The column groups of an array take the rows that they can. An operation whose last row is added ends; by how much later
than its schedule, less what it inherited, is its feeder-dry slip (R93). -/
def ComputeCore.takeRows (c : ComputeCore) (sat : Bool) (array : Nat) : ComputeCore :=
  let x := (c.array array).takeAll sat 8
  match x.flight with
  | none => c
  | some f =>
    if f.added = f.op.n then (c.modArray array fun _ => { x with flight := none }).slips 1 (f.late - (f.inherited + f.waited))
    else c.modArray array fun _ => x

/-- Block scale bytes that a row group's feeder supplies: feeder 0 the first block's, in F4 feeder 2 the second's (R94). -/
def groupScales (g : Nat) (sc : List Byte) : List Byte := if g = 0 then sc.take 1 else if g = 2 then sc.drop 1 else []

namespace Machine

/-- The array is occupied by an earlier operation (R77). -/
def occupied (s : State) (c : Slot) (a : Nat) : Bool := ((s.core c.core).array a).flight.isSome

/-- Address and stride of the MX block scales of an operand (Table 6-3). -/
def scaleReg (k : ComputeCore) (fmt sreg : Nat) : Option (Nat × Int) := if isMx fmt then some (k.ar sreg) else none

/-- `LOADW` (Table 3-2, R69 to R73, R94). `late`: cycles by which it ends later than its schedule; those for which it was held
are inherited and do not count (R77, R93). -/
def execLoadw (c : Slot) (array : Nat) (mode : Mode) (fmt areg sreg late : Nat) (s : State) : Result :=
  .next (slotOp c (fun _ _ _ s =>
    if occupied s c array then none
    else
      let k := s.core c.core
      let o : LoadOp := ⟨mode, fmt, k.addr areg, (k.ar areg).2, (scaleReg k fmt sreg).map (·.1)⟩
      let (rows, sc) := weightRows s c.core o
      some (s.modCore c.core fun k =>
        (k.modArray array fun x => ((x.loadWeights o rows sc).note false (.load o)).note true (.load o)).slips 1 (late - c.held))) s)

/-- A `PASS` or `STREAM` is issued with its operands as they stand. -/
def issueRows (c : Slot) (array : Nat) (isStream hoop : Bool) (mode : Mode) (fmt areg sreg n : Nat) (s : State) : State :=
  slotOp c (fun _ _ _ s =>
    if occupied s c array then none
    else
      some (s.modCore c.core fun k =>
        let o : RowOp :=
          { isStream := isStream, hoop := hoop, mode := mode, fmt := fmt, n := n, addr := k.addr areg,
            stride := (k.ar areg).2, scales := scaleReg k fmt sreg, mask := SMap.get none k.masks array,
            desc := if (k.ar areg).2 = -1 then scratchRead s c.core (k.addr areg) 64 else [] }
        k.modArray array fun x => x.start o k.issue c.held)) s

/-- `PASS` (Table 3-2). -/
def execPass (c : Slot) (array : Nat) (hoop : Bool) (mode : Mode) (fmt areg sreg : Nat) (s : State) : Result :=
  .next (issueRows c array false hoop mode fmt areg sreg 32 s)

/-- `STREAM n` (Table 3-2, R82). -/
def execStream (c : Slot) (array : Nat) (hoop : Bool) (mode : Mode) (fmt areg sreg n : Nat) (s : State) : Result :=
  .next (issueRows c array true hoop mode fmt areg sreg n s)

/-- `CLEAR`: every entry and per-row register of the hoop becomes zero, HOVF and HREP too, and a window begins (R81, R104,
R125). -/
def execClear (c : Slot) (array : Nat) (hoop : Bool) (s : State) : Result :=
  .next (slotOp c (fun _ _ _ s =>
    if occupied s c array then none
    else
      some (s.modCore c.core fun k => k.modArray array fun x =>
        let x := x.modHoop hoop fun _ => Hoop.zero
        if hoop then { x with windowB := [] } else { x with windowA := [] })) s)

/-- A row group of an array enters its next row (R87 to R92): its feeder has an entry free, which is so while it stays within
eight rows of the slowest column group, and so of the slowest row group. The column groups then take the rows that they can.
`late`: cycles by which the operation runs behind its schedule, of which its rows have in all waited `waited` for a drain that
started later than scheduled (R84, R93); `corrected`: single-bit errors of scratch and of its hoop that are corrected (R136,
R160). -/
def execRowEntry (core array group late waited corrected : Nat) (s : State) : Result :=
  let k := s.core core
  match coreStitch s core, (k.array array).flight with
  | some (_, t, m), some f =>
    let i := f.next.getD group 0
    if 4 ≤ group ∨ f.op.n ≤ i ∨ f.added + 8 ≤ i ∨ k.issue ≤ f.issue then .next s
    else
      let bytes := ((activationRows s core t.lens f.op i).map (groupSlice f.op group)).flatten
      let sc := groupScales group (activationScales s core t.lens f.op i)
      let f :=
        { f.behind late waited with
          next := listSet f.next group (i + 1)
          slices := f.slices ++ [(i, group, bytes, sc)] }
      .next (correctedBy corrected (s.modCore core fun k =>
        (k.modArray array fun x => { x with flight := some f }).takeRows (!replays t m) array))
  | _, _ => .next s

end Machine
end Sys2Proof
end

