-- ==== Sys2Proof/Machine/Drains.lean ====
section
/-! DEFINITION. Drains, overflow replay and the requantiser (chapters 4 and 5). -/

namespace Sys2Proof

/-! ## The requantiser (R142 to R154) -/

/-- An entry from its 16 bytes. -/
def QEntry.parse (b : List Byte) : QEntry where
  mult := BitVec.ofNat 32 (field b 0 4)
  shift := signExt 8 (field b 4 1)
  act := field b 5 1
  zp := signExt 16 (field b 6 2)
  lo := field b 8 2
  hi := field b 10 2
  fmt := field b 12 1
  stoch := decide (field b 13 1 % 2 = 1)
  pass := decide (field b 13 1 / 2 % 2 = 1)

/-- The fused activation (Table 5-4): a NaN stays a NaN, and RELU turns −0 into +0. -/
def fusedAct (act : Nat) (r : Val) : Val :=
  match act with
  | 1 => if r.isNan then r else if (Val.num false 0 0).lt r then r else .num false 0 0
  | 2 => if r.lt (.num false 0 0) then r.scale (-3) else r
  | _ => r

/-- A bound of the clamp; an infinity sets none (R146). -/
def clampBound (n : Nat) : Option Val :=
  match bf16 n with
  | .inf _ => none
  | v => some v

/-- The bounds of the clamp; none sets no bound (R145, R146). -/
def QEntry.bounds (q : QEntry) : Option Val × Option Val :=
  match intRange q.fmt with
  | some (lo, hi, _) =>
    if q.lo = 0x8000 ∧ q.hi = 0x7FFF then (some (.ofInt lo), some (.ofInt hi))
    else (some (.ofInt (signExt 16 q.lo)), some (.ofInt (signExt 16 q.hi)))
  | none => (clampBound q.lo, clampBound q.hi)

/-- The clamp compares by value and replaces only what lies strictly outside (R149). -/
def clampVal (b : Option Val × Option Val) (x : Val) : Val :=
  let x := match b.1 with
    | some l => if x.lt l then l else x
    | none => x
  match b.2 with
  | some h => if h.lt x then h else x
  | none => x

/-- The final element from a value (R149, R150), with the generator after its draw. -/
def QEntry.element (q : QEntry) (rng : W64) (w : Val) : Nat × W64 :=
  let r := fusedAct q.act ((w.mul (fp32 q.mult)).scale q.shift)
  let x := if (intRange q.fmt).isSome then r.add (.ofInt q.zp) else r
  let x := clampVal q.bounds x
  if q.stoch then
    let rng := rngNext rng
    (stochasticRound q.fmt (rngBits rng) x, rng)
  else (convertRne q.fmt x, rng)

/-- The value of an integer entry (R121, R125, R149), and whether it saturated. -/
def QEntry.intValue (q : QEntry) (e : W64) (k : Nat) (partial_ : Option Int) : Int × Bool :=
  let w := entryInt e * (2 ^ k : Nat) + partial_.getD 0
  if (partial_.isSome ∨ q.pass = true) ∧ overflows32 w = true then (saturate32 w, true) else (w, false)

/-- The value of a float entry (R112, R149, R280). -/
def floatValue (e : W64) (div : Option (W32 × Bool)) (partial_ : Option W32) : W32 :=
  let w := fadd (entrySum e) (entryErr e)
  let w := match div with
    | none => w
    | some (sum, valid) => if valid then rne32 (fdivVal (fp32 w) (fp32 sum)) else 0
  match partial_ with
  | none => w
  | some p => fadd w p

/-- One element of an integer layout (R149): its encoding, the generator, and whether it saturated. -/
def QEntry.fromInt (q : QEntry) (rng : W64) (e : W64) (k : Nat) (partial_ : Option Int) : Nat × W64 × Bool :=
  let (w, sat) := q.intValue e k partial_
  if q.pass then (intCode 32 w, rng, sat)
  else
    let (x, rng) := q.element rng (.ofInt w)
    (x, rng, sat)

/-- One element of a float layout (R149). -/
def QEntry.fromFloat (q : QEntry) (rng : W64) (e : W64) (div : Option (W32 × Bool)) (partial_ : Option W32) :
    Nat × W64 × Bool :=
  let w := floatValue e div partial_
  if q.pass then (w.toNat, rng, false)
  else
    let (x, rng) := q.element rng (fp32 w)
    (x, rng, false)

/-! ## Reading a hoop -/

/-- Element of column `j` of a drained row (R149), with the generator after its draw. `part` holds the bytes of its partial
for the ADD form. -/
def Draining.element (d : Draining) (rng : W64) (p : RowPart) (j : Nat) (part : Option (List Byte)) : Nat × W64 × Bool :=
  let q := d.table.getD j (QEntry.parse [])
  let e := d.hoop.entry p.row j
  if d.integer then q.fromInt rng e d.hoop.hrep (part.map fun b => signExt 32 (leNat b))
  else
    q.fromFloat rng e (if d.req.softmaxDiv then some (p.sum, p.valid) else none)
      (part.map fun b => BitVec.ofNat 32 (leNat b))

/-- Draws of a drain before column `j` of row `r`: they are made row by row in column order (R66). -/
def Draining.draws (d : Draining) (r j : Nat) : Nat :=
  r * (d.table.filter (·.stoch)).length + ((d.table.take j).filter (·.stoch)).length

/-- A column group's entries of a row as pairs of FP32 values (Table 4-4 PAIR). -/
def Hoop.pairPart (h : Hoop) (r g : Nat) : List Byte :=
  ((groupColumns g).map fun j =>
    leBytes 4 (entrySum (h.entry r j)).toNat ++ leBytes 4 (entryErr (h.entry r j)).toNat).flatten

/-- Output format of a drain: that of its table (R115, R154). -/
def Draining.fmt (d : Draining) : Nat := (d.table.head?.map (·.fmt)).getD 0x32

/-- Bytes of a column group's part of a drained row (R91, R113). -/
def Draining.partSize (d : Draining) : Nat := if d.req.form = 2 then 64 else elemBits d.fmt

/-- The bytes that column group `g` writes of a row, and whether a sum saturated. -/
def Draining.part (d : Draining) (p : RowPart) (g : Nat) : List Byte × Bool :=
  if d.req.form = 2 then (d.hoop.pairPart p.row g, false)
  else
    let (xs, _, sat) := (List.range 8).foldl
      (fun (acc : List Nat × W64 × Bool) j =>
        let b := if d.req.form = 1 then some ((p.partial_.drop (4 * j)).take 4) else none
        let (x, rng, sat) := d.element acc.2.1 p (8 * g + j) b
        (acc.1 ++ [x], rng, acc.2.2 || sat)) ([], rngSkip (d.draws p.row (8 * g)) d.req.seed, false)
    (packElems d.fmt xs, sat)

/-- Scratch offset of row `r` of a drain. -/
def DrainReq.rowAddr (d : DrainReq) (r : Nat) : Nat := (((d.daddr : Int) + r * d.dstride) % 8388608).toNat

/-- All rows are read and written. -/
def Draining.over (d : Draining) : Bool := d.read.all (· = 32) && d.parts.all (·.isEmpty)

/-- Column group `g`'s part of row `r` waits: the bank of a line that holds its bytes is withheld (R91). A row drained to the
vector unit waits for none. -/
def Draining.waits (d : Draining) (withheld : List Nat) (r g : Nat) : Bool :=
  let a := d.req.rowAddr r + g * d.partSize
  !d.req.toVector &&
    (withheld.contains (a / 64 % 32) || withheld.contains ((a + d.partSize - 1) / 64 % 32))

/-- A part of some row waits for a withheld bank (R91). -/
def Draining.anyWaits (d : Draining) (withheld : List Nat) : Bool :=
  (List.range 32).any fun r => (List.range 4).any fun g => d.waits withheld r g

/-- The hoop's operations since its latest `CLEAR`, up to the drain: one issued in the drain's own bundle counts as later
(R119, R125). -/
def Array4.drainWindow (x : Array4) (d : DrainReq) : List WindowOp :=
  let l := x.window d.hoop
  match x.flight with
  | none => l
  | some f => if d.issue ≤ f.issue ∧ (f.op.hoop = d.hoop ∨ 32 < f.op.n) then l.dropLast else l

/-- The layout of a hoop as a drain reads it: that of the operations that add into it (R101). A hoop into which nothing has
been added holds zeros in both layouts: a drain with SOFTMAX_DIV takes it as float, for another the requantiser's pass-through
format or the array's weights tell. -/
def Array4.integerLayout (x : Array4) (ops : List WindowOp) (div : Bool) (table : List QEntry) : Bool :=
  let rows := ops.filterMap fun w => match w with
    | .rows o => some o
    | .load _ => none
  match rows.getLast? with
  | some o => o.mode.integer
  | none =>
    match table.head? with
    | some q =>
      if div then false
      else if q.pass then decide (q.fmt = 0x05)
      else match x.loaded with
        | some (m, _) => m.integer
        | none => false
    | none => false

/-- A drain of a hoop has read: a stream under way may go on to that hoop's next block (R84). -/
def InFlight.drained (f : InFlight) (d : DrainReq) : InFlight :=
  if d.issue ≤ f.issue then f
  else if d.hoop = f.op.hoop then { f with drains := f.drains + 1 }
  else { f with drainsOther := f.drainsOther + 1 }

/-- A drain starts reading: with ZERO the hoop's HOVF and HREP become zero (R112). -/
def Hoop.startDrain (h : Hoop) (zero : Bool) : Hoop := if zero then h.newBlock else h

/-- Column group `g` has read row `r`: with ZERO its entries become zero, and the per-row registers with the last group's
(R112). `last`: all four have read it. -/
def Hoop.afterRead (h : Hoop) (zero last : Bool) (r g : Nat) : Hoop :=
  if zero = false then h
  else if last then (h.zeroPart r g).zeroRegisters r
  else h.zeroPart r g

/-- A drain has ended: a sum of it that saturated sets HOVF, which no replay undoes (R121); a hoop that the drain zeroed is as
after `CLEAR`. -/
def Hoop.afterDrain (h : Hoop) (zero sat : Bool) : Hoop :=
  if zero = false ∧ sat = true then { h with hovf := true, final := h.final || !h.hovf } else h

namespace Machine

/-- The requantiser table at a scratch address (R147). -/
def qTable (s : State) (core addr : Nat) : List QEntry :=
  (List.range 32).map fun j => QEntry.parse (scratchRead s core (addr + 16 * j) 16)

/-- A drain is issued with its operands as they stand. Its draws are the next of the core's sequence (R66). -/
def issueDrain (c : Slot) (form : Nat) (d : DrainOp) (s : State) : State :=
  slotOp c (fun _ _ _ s =>
    let k := s.core c.core
    if (k.array d.array).drain.isSome || (k.array d.array).draining.isSome then none
    else
      let qaddr := k.addr d.qreg
      let draws := if form = 2 then 0 else 32 * ((qTable s c.core qaddr).filter (·.stoch)).length
      let req : DrainReq :=
        { form := form, hoop := d.hoop, zero := d.zero, softmaxDiv := d.softmaxDiv, toVector := d.toVector,
          daddr := k.addr d.dreg, dstride := (k.ar d.dreg).2, vbase := d.dreg, qaddr := qaddr, issue := k.issue,
          seed := k.rng }
      some (s.modCore c.core fun k =>
        { k.modArray d.array fun x => { x with drain := some req } with rng := rngSkip draws k.rng })) s

/-- A drain in the PLAIN form (Table 4-4). -/
def execDrainPlain (c : Slot) (d : DrainOp) (s : State) : Result := .next (issueDrain c 0 d s)
/-- A drain in the ADD form. -/
def execDrainAdd (c : Slot) (d : DrainOp) (s : State) : Result := .next (issueDrain c 1 d s)
/-- A drain in the PAIR form. -/
def execDrainPair (c : Slot) (d : DrainOp) (s : State) : Result := .next (issueDrain c 2 d s)

/-- One operation of a tile's pass sequence, carried out again at half scale `k` times (R125, R126). -/
def replayOp (s : State) (core : Nat) (lens : List Nat) (hoop : Bool) (k : Nat) (x : Array4) : WindowOp → Array4
  | .load o =>
    let (rows, sc) := weightRows s core o
    x.loadWeights o rows sc
  | .rows o =>
    (List.range o.n).foldl
      (fun x i =>
        if o.hoopFor i = hoop then
          (List.range 4).foldl
            (fun x g => addRows (decide (2 ≤ k)) k g x o i (activationScales s core lens o i) (activationRows s core lens o i)) x
        else x) x

/-- The drain's hoop holds a tile that is to be replayed before it drains: it overflowed and HREP is below 2 (R125). -/
def mustReplay (h : Hoop) : Bool := h.hovf && !h.final && decide (h.hrep < 2)

/-- A tile that overflowed is replayed once (R125). -/
def replayTile (s : State) (core : Nat) (lens : List Nat) (hoop : Bool) (ops : List WindowOp) (x : Array4) : Array4 :=
  let k := (x.hoopOf hoop).hrep + 1
  ops.foldl (replayOp s core lens hoop k) { x.modHoop hoop fun _ => { Hoop.zero with hrep := k } with replaying := true }

/-- A column group's part of one row of a drain is written to its destination (R113, R167). -/
def writePart (core : Nat) (d : Draining) (r g : Nat) (bytes : List Byte) (s : State) : State :=
  if d.req.toVector then
    let t := elemBits d.fmt / 8
    let p := 256 / (32 * t)
    s.modCore core fun k =>
      let v := d.req.vbase + r / p
      let old := k.vreg v
      let o := 32 * (r % p) * t + 8 * g * t
      k.setVreg v (old.take o ++ bytes ++ old.drop (o + bytes.length))
  else scratchWrite core (d.req.rowAddr r + g * d.partSize) bytes s

/-- A column group reads its next row of a drain's hoop, and the row's partial for the ADD form: while its drain buffer has
room and it is less than eight rows ahead of the slowest (R88, R90). -/
def drainRead (core g : Nat) (d : Draining) (h : Hoop) (s : State) : Draining × Hoop :=
  let r := d.read.getD g 0
  if 32 ≤ r ∨ d.full g = true ∨ d.read.foldl min r + 8 ≤ r then (d, h)
  else
    let part := if d.req.form = 1 then scratchRead s core (d.req.rowAddr r + 32 * g) 32 else []
    let read := listSet d.read g (r + 1)
    let p : RowPart := ⟨r, part, SMap.get 0 h.sum r, SMap.get false h.valid r⟩
    ({ d with read := read, parts := listSet d.parts g (d.parts.getD g [] ++ [p]) },
      h.afterRead d.req.zero (read.all fun n => decide (r < n)) r g)

/-- A column group writes the oldest row that it has read, unless the row is still in the requantiser or waits for its bank
(R91, R113). -/
def drainWrite (withheld : List Nat) (core g : Nat) (a : Draining × State) : Draining × State :=
  let d := a.1
  match d.parts.getD g [] with
  | [] => a
  | p :: l =>
    if (l.length < d.lag ∧ d.read.getD g 0 < 32) ∨ d.waits withheld p.row g = true then a
    else
      let (bytes, sat) := d.part p g
      ({ d with parts := listSet d.parts g l, sat := d.sat || sat }, writePart core d p.row g bytes a.2)

/-- One cycle of a drain: each column group reads a row and writes one. -/
def drainBeat (withheld : List Nat) (core : Nat) (d : Draining) (h : Hoop) (s : State) : Draining × Hoop × State :=
  let (d, h) := (List.range 4).foldl (fun (a : Draining × Hoop) g => drainRead core g a.1 a.2 s) (d, h)
  let (d, s) := (List.range 4).foldl (fun a g => drainWrite withheld core g a) (d, s)
  (d, h, s)

/-- A drain goes on for at most some cycles, until it is over or every column group waits. -/
def drainBeats (withheld : List Nat) (core : Nat) : Nat → Draining → Hoop → State → Draining × Hoop × State
  | 0, d, h, s => (d, h, s)
  | n + 1, d, h, s =>
    let (d', h', s') := drainBeat withheld core d h s
    if d'.over = true ∨ (d'.read = d.read ∧ d'.parts = d.parts) then (d', h', s')
    else drainBeats withheld core n d' h' s'

/-- A drain under way goes on as far as the banks of its destination allow; when it is over it frees its port, and an
overflowed tile counts (R90, R91, R114, R124). Column groups of the array that waited for it take their rows (R84, R119). -/
def drainOn (withheld : List Nat) (core array : Nat) (sat : Bool) (d : Draining) (s : State) : State :=
  let (d, h, s) := drainBeats withheld core 96 d (((s.core core).array array).hoopOf d.req.hoop) s
  s.modCore core fun c =>
    let c := c.modArray array fun x =>
      let x := x.modHoop d.req.hoop fun _ => if d.over then h.afterDrain d.req.zero d.sat else h
      if d.over then { x with draining := none, flight := x.flight.map fun f => f.drained d.req }
      else { x with draining := some d }
    let c := if d.over then { c with ovfTiles := c.ovfTiles + (d.hoop.hovf || d.sat).toNat } else c
    c.takeRows sat array

/-- A pending drain starts once its hoop is quiet (R112 to R127, R149): an overflowed tile is replayed first where the stitch
allows it, once by each command, and the core is held meanwhile; then the four column groups read and write its 32 rows. The
command on an array whose drain is under way lets it go on. `early`, `replayCycles` and `waits` are the cycles that its causes
count (R118, R127, R91), `held` those of other holds: a drain that waits for no bank counts none; `late` and `waited`: as in
`execRowEntry`, of the array's operation, whose rows may wait for the drain or for room in a drain buffer (R90, R93);
`withheld`: the scratch banks that are withheld from it; `corrected`: single-bit errors of its hoop, its per-row registers and
scratch that are corrected, also those that a replay reads (R136, R160). -/
def execDrainStart (core array early held replayCycles waits late waited : Nat) (withheld : List Nat) (corrected : Nat)
    (s : State) : Result :=
  let c := s.core core
  let x := c.array array
  match coreStitch s core with
  | none => .next s
  | some (_, t, m) =>
    let sat := !replays t m
    let count (some_ : Bool) (s : State) : State := s.modCore core fun c =>
      (c.modArray array fun x => { x with flight := x.flight.map fun f => f.behind late waited }).slips 1
        (if some_ then waits else 0)
    match x.draining, x.drain with
    | some d, _ => .next (correctedBy corrected (drainOn withheld core array sat d (count (!d.req.toVector) s)))
    | none, none => .next s
    | none, some d =>
      if c.issue ≤ d.issue ∨ x.quiet d.hoop d.issue = false then .next s
      else
        let ops := x.drainWindow d
        let h := x.hoopOf d.hoop
        if sat = false ∧ mustReplay h = true then
          .next (correctedBy corrected (s.modCore core fun c =>
            let c := (c.modArray array fun x => replayTile s core t.lens d.hoop ops x).slips 5 replayCycles
            { c with late := c.late + replayCycles, replays := c.replays + 1 }))
        else
          let table := if d.form = 2 then [] else qTable s core d.qaddr
          let run : Draining := { req := d, integer := x.integerLayout ops d.softmaxDiv table, hoop := h, table := table }
          let again := if x.replaying then replayCycles else 0
          let s := s.modCore core fun c =>
            let c := (c.modArray array fun x =>
              { x.modHoop d.hoop fun h => h.startDrain d.zero with drain := none, replaying := false })
            let c := (c.slips 0 early).slips 5 again
            { c with late := c.late + early + held + again }
          .next (correctedBy corrected (drainOn withheld core array sat run (count (run.anyWaits withheld) s)))

end Machine
end Sys2Proof
end

