-- ==== Sys2Proof/Machine/Starts.lean ====
section
/-! DEFINITION. Eligibility, dispatch, and the start steps of a stitch (R233 to R239, R309, R313, R318 to R321, R490 to
R501). -/

namespace Sys2Proof

/-- A tagged pointer (Table 0-6). -/
def mkPointer (pool gen addr : Nat) : Nat := gen % 65536 * 2 ^ 48 + pool % 256 * 2 ^ 40 + addr % 2 ^ 40

/-- POOL of a pointer. -/
def ptrPool (p : Nat) : Nat := p / 2 ^ 40 % 256
/-- GEN of a pointer. -/
def ptrGen (p : Nat) : Nat := p / 2 ^ 48 % 65536
/-- ADDR of a pointer. -/
def ptrAddr (p : Nat) : Nat := p % 2 ^ 40

/-- A distance added to the ADDR field of a pointer. -/
def ptrAdd (p : Nat) (d : Int) : Nat := p / 2 ^ 40 * 2 ^ 40 + (((ptrAddr p : Int) + d) % (2 ^ 40 : Nat)).toNat

/-- A length register's value from a raw one (Table 7-9 XFORM). -/
def LenDef.apply (d : LenDef) (v : Nat) : Nat :=
  match d.xform with
  | 1 => ceilDiv v d.unit
  | 2 => v / d.unit
  | 3 => v % d.unit
  | _ => v

/-- The lowest run of `n` free granules among `size`, the taken ones given as first granule and length (R500). -/
def fitRun (used : List (Nat × Nat)) (n size : Nat) : Option Nat :=
  let free (g : Nat) : Bool := decide (g + n ≤ size) && used.all fun u => decide (g + n ≤ u.1) || decide (u.1 + u.2 ≤ g)
  ((0 :: used.map fun u => u.1 + u.2).filter free).min?

/-- A clock register of a core at a stitch's start (R162, R208); lifetime counters stay. -/
def ComputeCore.fresh (c : ComputeCore) (bundle : Nat) (rng : W64) (store : Handle × Nat) : ComputeCore :=
  { slipTotal := c.slipTotal, bundle := bundle, rng := rng, store := some store }

/-- Bytes of a resident model's copy in granules. -/
def Model.granules (m : Model) : Nat := ceilDiv m.pillowRo 2097152

namespace Machine

/-! ## Eligibility and dispatch (R490, R491, R494 to R497) -/

/-- Ready items of an output, in frame order. A buffer whose tags are still being rewritten is handed to nobody, nor is an item
behind it (R375, R466). -/
def readyItems (s : State) (h : Handle) (n : Nat) : List Item :=
  ((itemsOf s h n).filter fun i => decide (i.state = .ready)).takeWhile fun i => !bufRewriting s i.buf

/-- Stitches posted before one, those taken over with it included in the order of their posting. -/
def earlierStitches (s : State) (t : Stitch) : List Stitch := s.obj.stitches.takeWhile fun u => decide (u.id ≠ t.id)

/-- A queued stitch is eligible (R490, R577). -/
def isEligible (s : State) (t : Stitch) : Bool :=
  (t.req.slots.all fun r =>
    r.stream = 0 || !r.require ||
      decide ((t.req.slots.filter fun q => q.stream = r.stream && q.output = r.output).length ≤
        (readyItems s r.stream r.output).length)) &&
  !((earlierStitches s t).any fun u =>
    decide (u.req.partition = t.req.partition) && decide (u.phase = .queued) &&
      (stitchBobbins u).any fun b => (stitchBobbins t).contains b) &&
  (stitchBobbins t).all fun h => match findBobbin s h with
    | none => true
    | some b => b.posted || !b.preparing

/-- The earliest-posted eligible stitch of a partition that meets a test. -/
def firstEligible (s : State) (p : Handle) (test : Stitch → Bool) : Option Stitch :=
  s.obj.stitches.find? fun t =>
    decide (t.req.partition = p) && decide (t.phase = .queued) && test t && isEligible s t

/-- Clients put in ascending order of INDEX. -/
def insertClient (c : Client) : List Client → List Client
  | [] => [c]
  | d :: l => if c.handle.index < d.handle.index then c :: d :: l else d :: insertClient c l

/-- Clients in cyclic order of INDEX after the previous holder (R494). -/
def cyclicClients (last : Option Nat) (l : List Client) : List Client :=
  let l := l.foldl (fun acc c => insertClient c acc) []
  match last with
  | none => l
  | some k => (l.filter fun c => decide (k < c.handle.index)) ++ l.filter fun c => decide (c.handle.index ≤ k)

/-- The debt of a client on a partition, in ns. -/
def Partition.debtOf (p : Partition) (c : Handle) : Nat := ((p.debts.find? fun d => decide (d.1 = c)).map (·.2)).getD 0

/-- The debt of a client set. -/
def Partition.setDebt (p : Partition) (c : Handle) (n : Nat) : Partition :=
  { p with debts := if n = 0 then removeKey (·.1) c p.debts else upsert (·.1) (c, n) p.debts }

/-- Turns are given until a client's slice is above zero; a skipped turn lowers its client's debt (R494). -/
def sliceTurns : Nat → List Client → Partition → Partition
  | 0, _, p => p
  | _, [], p => p
  | fuel + 1, c :: l, p =>
    let full := c.weight * p.sliceMs * 1000000
    let debt := Partition.debtOf p c.handle
    if debt < full then
      { Partition.setDebt p c.handle 0 with
        holder := some c.handle, lastHolder := some c.handle.index, sliceLeft := (full : Int) - debt }
    else sliceTurns fuel (l ++ [c]) (Partition.setDebt p c.handle (debt - full))

/-- A new slice begins for one of the clients with an eligible stitch. -/
def newSlice (p : Partition) (l : List Client) : Partition :=
  let fuel := 2 * l.length + l.foldl (fun n c => n + Partition.debtOf p c.handle / 1000000) 1
  sliceTurns fuel (cyclicClients p.lastHolder l) p

/-- Clients that have an eligible best-effort stitch on a partition. -/
def eligibleClients (s : State) (p : Handle) : List Client :=
  s.obj.clients.filter fun c => (firstEligible s p fun t => t.req.cls ≠ 0 && t.req.client = c.handle).isSome

/-- A holder's slice that has ended while it still has an eligible stitch is a slice pre-emption (R495, R497). -/
def endSlice (p : Partition) (s : State) : State :=
  match p.holder with
  | none => s
  | some h =>
    if 0 < p.sliceLeft then s
    else
      let s := if (eligibleClients s p.handle).any fun c => decide (c.handle = h) then
        modClient h (fun c => { c with preemptSlice := c.preemptSlice + 1 }) s else s
      modPart p.handle (fun p => { p with holder := none }) s

/-- The choice of R491, with the slices and pre-emptions that it brings. -/
def chooseStitch (h : Handle) (s : State) : Option Stitch × State :=
  match findPart s h with
  | none => (none, s)
  | some p =>
    let s := endSlice p s
    let be := eligibleClients s h
    match firstEligible s h fun t => decide (t.req.cls = 0) with
    | some t => (some t, be.foldl (fun s c => modClient c.handle (fun c => { c with preemptClass := c.preemptClass + 1 }) s) s)
    | none =>
      let mine (s : State) : Option Stitch :=
        ((findPart s h).bind (·.holder)).bind fun c => firstEligible s h fun t => t.req.cls ≠ 0 && t.req.client = c
      match mine s with
      | some t => (some t, s)
      | none =>
        let s := modPart h (fun p => { p with holder := none }) s
        if be = [] then (none, s)
        else
          let s := modPart h (fun p => newSlice p be) s
          (mine s, s)

/-! ## Not run (R304, R308, R320, R321, R234, R501) -/

/-- A stitch that does no work completes with a status and consumes nothing. -/
def notRun (p : Partition) (id status : Nat) (s : State) : State :=
  match findStitch s id with
  | none => s
  | some t =>
    let s := settleItems t false s
    let s := chargeSlice p t (modStitch id (fun t => { t with pinned := [] }) s)
    match findStitch s id with
    | none => s
    | some t => writeRecord t 2 status ⟨0, [0, 0, 0, 0, 0, 0], 0, 0, 0⟩ s

/-! ## Leaves and joins (R318, R320) -/

/-- The handle of a join is retired: queued stitches that name it will not find it, and their record says which join it
was (R321, R489). -/
def retireJoin (index : Nat) (h : Handle) (s : State) : State :=
  let s := mirrorFlush (settlePrefixes (mirrorFlush (dropBobbin h s)))
  let names := fun (t : Stitch) => decide (t.phase = .queued) && (t.req.slots.any fun r => r.bobbin = h)
  s.modObj fun o => { o with stitches := listUpd names (fun t => { t with detail := index }) o.stitches }

/-- Leaves of a stitch, in list order. -/
def doLeaves (t : Stitch) (s : State) : State :=
  t.req.leaves.foldl
    (fun s h => match findBobbin s h with
      | none => s
      | some b => freeBobbin b s) s

/-- Joins of a stitch, in list order: one that finds no run retires its handle. Each crosses to the partner as it takes effect
(R323). -/
def doJoins (t : Stitch) (s : State) : State :=
  ((List.range t.joinHandles.length).zip t.joinHandles).foldl
    (fun s j =>
      match (findBobbin s j.2).bind fun b => placeBobbin b s with
      | some s => mirrorFlush s
      | none =>
        let s := match findBobbin s j.2 with
          | none => s
          | some b => countNoSpace b.arena s
        modStitch t.id (fun t => { t with joinFailed := t.joinFailed ||| 2 ^ j.1 }) (retireJoin j.1 j.2 s)) s

/-- A stitch is selected: it counts as running, and its leaves and joins are processed (R498 step 1, R508, R698). -/
def startStitch (h : Handle) (t : Stitch) (s : State) : State :=
  let s := modPart h (fun p => { p with running := some t.id }) s
  let s := modStitch t.id (fun t => { t with phase := .joining, selTick := s.time.tick }) s
  let s := s.modPower fun p => if p.state = 1 then { p with state := 2 } else p
  doJoins t (doLeaves t s)

/-- Dispatch has stopped: the card is in FAULT or on its way there, or it evacuates (R726, R744, R751). -/
def dispatchStopped (s : State) : Bool :=
  decide (s.host.state = .fault) || s.host.faultWait.isSome || s.pair.evacuating

/-- A dispatch decision of control core 0 for an idle partition (R491). While core 0 restarts it is held (R664); pins of the
partition come first (R502); a partition that a failover suspended dispatches nothing (R748). -/
def decide_ (h : Handle) (s : State) : State :=
  match findPart s h with
  | none => s
  | some p =>
    if p.running.isSome ∨ p.pins ≠ [] ∨ p.suspended ∨ dispatchStopped s = true then s
    else if (s.cc 0).run ≠ 1 then
      if s.fw.heldDispatch.contains h then s else s.modFw fun w => { w with heldDispatch := w.heldDispatch ++ [h] }
    else match chooseStitch h s with
      | (none, s) => s
      | (some t, s) => startStitch h t s

/-! ## Slots (R498 step 2, R318, R319) -/

/-- Each slot with a stream takes the oldest ready item of its output; an open pack buffer closes (R477). -/
def bindSlots (id : Nat) : List SlotRec → State → List (Option Item) × State
  | [], s => ([], s)
  | r :: l, s =>
    match (if r.stream = 0 then none else (readyItems s r.stream r.output).head?) with
    | none =>
      let (xs, s) := bindSlots id l s
      (none :: xs, s)
    | some i =>
      let s := modItem i.id (fun k => { k with state := .bound id }) (closePack i s)
      let (xs, s) := bindSlots id l s
      (some i :: xs, s)

/-- Stacks that hold a copy of a bobbin; none when any stack may read it. -/
def bobbinStacks (s : State) (b : Bobbin) : Option (List Nat) :=
  (findPool s b.arena).bind fun p => if p.space = 1 then some (maskStacks p.stackMask) else none

/-- What keeps a stitch from running for its bobbins' sake: a retired handle, a pillow bobbin outside the partition's
stacks, a full bobbin (R321, R308, R304). Where several hold, the manual gives no order, and this one is the model's (DESIGN
CHOICE, log entry 141). -/
def bobbinStop (p : Partition) (t : Stitch) (s : State) : Option Nat :=
  if t.req.slots.any fun r => r.bobbin ≠ 0 && (findBobbin s r.bobbin).isNone then some stNotFound
  else
    let bs := ((List.range t.req.slots.length).zip t.req.slots).filterMap fun r => (slotBobbin s t r.1).map fun b => (b, r.2.append)
    if bs.any fun b => (bobbinStacks s b.1).any fun l => (partitionStacks p).any fun k => !l.contains k then some stWrongState
    else if bs.any fun b => decide (b.1.maxPos < b.1.pos + b.2) then some stLimitExceeded
    else none

/-- Prefixes that a stitch pins: those linked to any bobbin it names (R313). -/
def pinsFor (t : Stitch) (s : State) : List Handle :=
  ((stitchBobbins t).filterMap fun h => (findBobbin s h).bind (·.link)).eraseDups

/-! ## Residency (R500 to R502) -/

/-- Granules of a partition's MODEL region. -/
def modelRegion (s : State) (p : Partition) : Nat :=
  match (partitionStacks p).head? with
  | none => 0
  | some k =>
    ((s.obj.regions.find? fun r =>
      decide (r.kind = 1) && r.stackMask.testBit k && decide (r.g0 = p.modelG0.getD k 0xFFFF)).map (·.count)).getD 0

/-- Models in the order of their eviction: never started ones in the order they became resident, then the least recently
started. -/
def evictOrder (l : List Resident) : List Resident :=
  let key (r : Resident) : Nat × Nat := match r.lastStart with
    | none => (0, r.order)
    | some n => (1, n)
  let rec insert (x : Resident) : List Resident → List Resident
    | [] => [x]
    | y :: l => if (key x).1 < (key y).1 ∨ ((key x).1 = (key y).1 ∧ (key x).2 < (key y).2) then x :: y :: l else y :: insert x l
  l.foldl (fun acc x => insert x acc) []

/-- Unpinned models are evicted until a run of `n` granules fits. -/
def evictUntil (n size : Nat) : List Resident → List Resident → Option (Nat × List Resident)
  | victims, have_ =>
    match fitRun (have_.map fun r => (r.g0, r.granules)) n size with
    | some g => some (g, have_)
    | none =>
      match victims with
      | [] => none
      | v :: vs => evictUntil n size vs (have_.filter fun r => r.model ≠ v.model)

/-- A model becomes resident on a partition, if it can (R500, R501). A model without read-only pillow places needs no
room. -/
def makeResident (p : Partition) (m : Model) (pinned : Bool) (s : State) : Option Partition :=
  let n := m.granules
  let add (g : Nat) (l : List Resident) : Partition :=
    { p with residents := l ++ [⟨m.handle, g, n, pinned, s.ctr.order, none⟩] }
  if n = 0 then some (add 0 p.residents)
  else
    let victims := evictOrder (p.residents.filter fun r => !r.pinned && decide (0 < r.granules))
    (evictUntil n (modelRegion s p) victims p.residents).map fun x => add x.1 x.2

/-- The next value of the creation order. -/
def nextOrder (s : State) : State := s.modCtr fun c => { c with order := c.order + 1 }

/-- Partition stacks that hold a copy of a pillow place. -/
def placeCopies (p : Partition) (pl : Place) : List Nat :=
  if pl.space = 1 ∧ pl.stack = 0xFF then List.range (partitionStacks p).length else [pl.stack]

/-- Offset of a read-only place's copy in the model's DDR: DDR places first, then the pillow places in order, each rounded up
to 64 bytes. R225 says only that the copies are in DDR: where is the model's choice (DESIGN CHOICE, assumption 136). -/
def roCopyOffset (m : Model) (i : Nat) : Nat :=
  match m.places[i]? with
  | none => 0
  | some pl =>
    if pl.space = 2 then pl.offset
    else
      ((m.places.take i).filter fun q => decide (q.space = 1) && !q.writable).foldl (fun n q => n + roundUp 64 q.size)
        (roundUp 64 m.ddrRo)

/-- A pointer within a copy of a place gets the base of its target (R228, R229). -/
def relocate (p : Partition) (m : Model) (r : Reloc) (base j : Nat) (s : State) : State :=
  match m.places[r.target]? with
  | none => s
  | some pl => rawWrite (base + r.index) (leBytes 8 (ptrAdd (memNat s (base + r.index) 8) (placeAddr p m pl j))) s

/-- One copy of a read-only pillow place is filled from DDR, and its pointers are relocated (R225, R229). -/
def fillPlace (p : Partition) (m : Model) (i : Nat) (s : State) : State :=
  match m.places[i]? with
  | none => s
  | some pl =>
    (placeCopies p pl).foldl
      (fun s j =>
        let a := placeAddr p m pl j
        let s := hubCopy (m.ddrBase + roCopyOffset m i) a pl.size s
        (m.relocs.filter fun r => decide (r.kind = 3) && decide (r.holder = i)).foldl (fun s r => relocate p m r a j s) s) s

/-- The read-only pillow places of a model are filled on a partition. -/
def fillPlaces (p : Partition) (m : Model) (s : State) : State :=
  (List.range m.places.length).foldl
    (fun s i => if (m.places[i]?).any fun pl => decide (pl.space = 1) && !pl.writable then fillPlace p m i s else s) s

/-! ## The steps of R239 -/

/-- The raw value of a length register (Table 7-9 SOURCE). -/
def rawLength (s : State) (t : Stitch) (d : LenDef) : Nat :=
  match d.source with
  | 1 => t.req.len.getD d.arg 0
  | 2 => ((slotItem s t d.arg).map (·.rows)).getD 0
  | _ => ((slotBobbin s t d.arg).map (·.pos)).getD 0

/-- The length registers, or none when a raw value lies outside its bounds (R233, R234). -/
def lengthRegs (s : State) (t : Stitch) (m : Model) : Option (List Nat) :=
  if m.lens.all fun d => decide (d.min ≤ rawLength s t d) && decide (rawLength s t d ≤ d.max) then
    some ((List.range 16).map fun r =>
      ((m.lens.find? fun d => decide (d.reg = r)).map fun d => d.apply (rawLength s t d)).getD 0)
  else none

/-- Tag of a buffer's pointers: its pool and generation in DDR, none elsewhere (R372). -/
def bufPointer (s : State) (pool : Handle) (gen addr : Nat) : Nat :=
  match findPool s pool with
  | some p => if p.space = 2 then mkPointer p.id gen addr else addr
  | none => addr

/-- Base of a bobbin's copy for a physical stack: that stack's in a pillow arena, where it has one, otherwise the lowest. -/
def bobbinBase (s : State) (b : Bobbin) (stack : Option Nat) : Nat :=
  match bobbinStacks s b, stack with
  | some l, some k =>
    match (l.zip (bobbinBases s b)).find? fun x => decide (x.1 = k) with
    | some x => x.2
    | none => (bobbinBases s b).headD 0
  | _, _ => (bobbinBases s b).headD 0

/-- Pointer of a kind 3 entry: banks by CUR, latent records of a linked prefix in the prefix (R295, R309). -/
def bobbinPointer (s : State) (b : Bobbin) (stack : Option Nat) (off : Nat) : Nat :=
  let l := b.layout
  let own (o : Nat) : Nat := bufPointer s b.arena b.gen (bobbinBase s b stack + o)
  if l.scrOff ≤ off ∧ off < l.scrOff + l.bankBytes then own (off + b.cur.toNat * l.bankBytes)
  else if l.scrOff + l.bankBytes ≤ off ∧ off < l.latOff then own (off - b.cur.toNat * l.bankBytes)
  else
    match b.link.bind (findBobbin s) with
    | some q =>
      if l.latOff ≤ off ∧ (off - l.latOff) / l.rec_ < b.linkLen then bufPointer s q.arena q.gen (bobbinBase s q stack + off)
      else own off
    | none => own off

/-- Pointer and length of a template entry (R238). `j` is the partition stack of the list's copy, none outside pillow. -/
def resolveEntry (s : State) (p : Partition) (t : Stitch) (m : Model) (j : Option Nat) (e : TemplateEntry) : Nat × Nat :=
  let limit (size : Nat) (rest : Bool) (ptr : Nat) : Nat × Nat :=
    if size ≤ e.offset then (0, 0)
    else (ptr, if rest && decide (e.length = 0) then size - e.offset else min e.length (size - e.offset))
  match e.kind with
  | 1 =>
    match m.places[e.index]? with
    | none => (0, 0)
    | some pl => limit pl.size false (placeAddr p m pl (j.getD 0) + e.offset)
  | 2 =>
    match slotItem s t e.index with
    | none => (0, 0)
    | some i => limit i.bytes true (bufPointer s i.buf.pool i.buf.gen (i.buf.addr + e.offset))
  | _ =>
    match slotBobbin s t e.index with
    | none => (0, 0)
    | some b => limit (b.layout.size b.maxPos) true (bobbinPointer s b (j.map (partStack p)) e.offset)

/-- A template list is written into its place, in every copy of it (R237, R238). -/
def writeTemplate (p : Partition) (t : Stitch) (m : Model) (l : Template) (s : State) : State :=
  match m.places[l.place]? with
  | none => s
  | some pl =>
    let copies : List (Option Nat) := if pl.space = 1 then (placeCopies p pl).map some else [none]
    copies.foldl
      (fun s j =>
        let bytes := (l.entries.map fun e =>
          let (ptr, n) := resolveEntry s p t m j e
          leBytes 8 ptr ++ leBytes 4 n ++ zeroBytes 4).flatten
        hubStore (placeAddr p m pl (j.getD 0) + l.offset) bytes s) s

/-- Role of a partition core, and its first bundle for a stitch's entry point (R219, R231). -/
def roleOf (m : Model) (k : Nat) : Nat := m.roles.getD k 0
def entryBundle (m : Model) (entry role : Nat) : Nat :=
  ((m.entries.find? fun e => decide (e.1 = entry ∧ e.2.1 = role)).map (·.2.2)).getD 0

/-- Every core of the partition stands at its first bundle, with its stores filled (R162, R239 step 3, R65). -/
def startCores (p : Partition) (t : Stitch) (m : Model) (s : State) : State :=
  ((List.range p.cores.length).zip p.cores).foldl
    (fun s k => s.modCore k.2 fun c =>
      c.fresh (entryBundle m t.req.entry (roleOf m k.1)) (rngSeed t.req.seed k.1) (m.handle, roleOf m k.1)) s

/-- Writable places of a model on a partition, every copy: their contents are open at stitch start (R227). -/
def writableAreas (p : Partition) (m : Model) : List (Nat × Nat) :=
  ((m.places.filter (·.writable)).map fun pl => (placeCopies p pl).map fun j => (placeAddr p m pl j, pl.size)).flatten

/-- Scratch of a partition's cores, which carries nothing from one stitch to the next (R159). -/
def scratchAreas (p : Partition) : List (Nat × Nat) := p.cores.map fun n => (scratchBase + n * scratchBytes, scratchBytes)

/-- The steps of R239: the stitch then waits for its implicit knot, or it does no work (R234). -/
def startSteps (p : Partition) (id : Nat) (m : Model) (s : State) : State :=
  match findStitch s id with
  | none => s
  | some t =>
    match lengthRegs s t m with
    | none => notRun p id stLimitExceeded s
    | some ls =>
      let s := modStitch id (fun t => { t with lens := ls, phase := .starting }) s
      let s := loseAreas (writableAreas p m ++ scratchAreas p) [] s
      startCores p t m (m.templates.foldl (fun s l => writeTemplate p t m l s) s)

/-- A stitch is re-run from its start (R136, R724). -/
def rerunStitch (p : Partition) (t : Stitch) (m : Model) (s : State) : State :=
  startSteps p t.id m (modStitch t.id (fun t => { t with rerun := true, finished := [], stop := none, detail := 0 })
    (idleCores p s))

/-- An error that makes the card re-run a stitch: contained the first time, RERUN_FAILED at the second (R724). -/
def rerunFor (kind unit handle : Nat) (p : Partition) (t : Stitch) (m : Model) (s : State) : State :=
  if t.rerun then escalate fkRerunFailed 0 s
  else rerunStitch p t m (contained kind unit handle t.wire s)

end Machine
end Sys2Proof
end

