-- ==== Sys2Proof/Machine/Shuttle.lean ====
section
/-! DEFINITION. Shuttles: their queues, the descriptors' runs, row-progress gates, line tags and poison (chapter 6, R178 to
R190, R222, R326, R342, R358). -/

namespace Sys2Proof

/-- Queue of a shuttle changed. -/
def ComputeCore.modQueue (c : ComputeCore) (sh : Nat) (f : List ShuttleJob → List ShuttleJob) : ComputeCore :=
  if sh = 0 then { c with sh0 := f c.sh0 } else { c with sh1 := f c.sh1 }

/-- A descriptor is a `PPU_JOB`. -/
def ShuttleJob.isPpu (j : ShuttleJob) : Bool := decide (j.desc.form = 5)

/-- Runs of a descriptor, over all its planes; a `GATHER` has one for each list entry. -/
def ShuttleJob.runs (j : ShuttleJob) : Nat := if j.desc.form = 4 then j.count1 else j.count1 * j.count2

/-- Everything that a descriptor moves has been moved, or its job's results are written (R180, Table 6-13). -/
def ShuttleJob.ended (j : ShuttleJob) : Bool := j.begun && (if j.isPpu then j.ppuDone else decide (j.moved = j.runs))

namespace Machine

/-- Partition stack of a physical stack. -/
def stackIndex (p : Partition) (k : Nat) : Nat := (partitionStacks p).findIdx (· = k)

/-- A descriptor as the descriptor store of a core holds it, its pointers relocated to the core's stack (R221, R228,
R229). -/
def coreDesc (p : Partition) (m : Model) (n idx : Nat) : Option Desc :=
  let role := roleOf m (p.coreIndex n)
  let base (r : Reloc) : Int :=
    ((m.places[r.target]?).map fun pl => ((placeAddr p m pl (stackIndex p (coreStack n)) : Nat) : Int)).getD 0
  ((((m.descs.find? fun d => decide (d.1 = role)).map (·.2)).getD [])[idx]?).map fun d =>
    m.relocs.foldl
      (fun d r =>
        if r.holder = role ∧ r.index = idx then
          (match r.kind with
          | 1 => { d with src := BitVec.ofNat 64 (ptrAdd d.src.toNat (base r)) }
          | 2 => { d with dst := BitVec.ofNat 64 (ptrAdd d.dst.toNat (base r)) }
          | _ => d)
        else d) d

/-- A shuttle of a core changed. -/
def modShuttle (n sh : Nat) (f : List ShuttleJob → List ShuttleJob) (s : State) : State :=
  s.modCore n fun c => c.modQueue sh f

/-- `SH_START`: held while its shuttle holds 16 descriptors (R178, R179). -/
def execShStart (c : Slot) (sh desc : Nat) (s : State) : Result :=
  .next (slotOp c (fun p _ m s =>
    if 16 ≤ ((s.core c.core).queue sh).length then none
    else (coreDesc p m c.core desc).map fun d => modShuttle c.core sh (fun q => q ++ [{ index := desc, desc := d }]) s) s)

/-- `SH_WAIT`: held while its shuttle has more than Q descriptors not yet complete (R178). -/
def execShWait (c : Slot) (sh q : Nat) (s : State) : Result :=
  .next (slotOp c (fun _ _ _ s => if q < ((s.core c.core).queue sh).length then none else some s) s)

/-! ## Addresses -/

/-- Physical address of a device address that a descriptor names: an address of the scratch aperture names a partition core
(R222). None for an address that R326 forbids. -/
def reach (p : Partition) (a : Nat) : Option Nat :=
  match areaOf a with
  | .ddr | .pillow | .hub => some a
  | .scratch => (p.cores[(a - scratchBase) / scratchBytes]?).map fun n => scratchAt n (a - scratchBase)
  | _ => none

/-- `n` bytes at a pointer may be reached (R14, R15, R326). -/
def ptrOk (p : Partition) (ptr n : Nat) : Bool :=
  (if ptrPool ptr = 0 then decide (ptrGen ptr = 0) else decide (ptrPool ptr ≤ 64) && decide (ptrAddr ptr + n ≤ ddrEnd)) &&
    (List.range n).all fun i => (reach p (ptrAddr ptr + i)).isSome

/-- Bytes before the first line whose tag differs (R17, R189). -/
def matching (s : State) (pool gen : Nat) : List (Nat × Nat) → Nat
  | [] => 0
  | (a, k) :: ps => if tagOf s.mem.tags (a / 64) = (pool, gen) then k + matching s pool gen ps else 0

/-- Bytes that a pointer may reach before a tag mismatch. -/
def tagged (s : State) (ptr n : Nat) : Nat :=
  if ptrPool ptr = 0 then n else matching s (ptrPool ptr) (ptrGen ptr) (pieces (ptrAddr ptr) n)

/-- An access at a pointer has failed at an offset for its tag: MC.TAG_MISMATCH of the line's channel (R17). -/
def countStale (ptr off : Nat) (s : State) : State :=
  s.modDdr (channelOf (ptrAddr ptr + off)) fun c => { c with tagMismatch := c.tagMismatch + 1 }

/-- Physical pieces of `n` bytes at a pointer. -/
def reachPieces (p : Partition) (ptr n : Nat) : List (Nat × Nat) :=
  (pieces (ptrAddr ptr) n).map fun x => ((reach p x.1).getD 0, x.2)

/-- `n` bytes at a pointer. -/
def reachRead (s : State) (p : Partition) (ptr n : Nat) : List Byte :=
  ((reachPieces p ptr n).map fun x => memRead s x.1 x.2).flatten

/-- The read-only pillow place in whose copy a physical address lies. -/
def roPlaceOf (p : Partition) (m : Model) (a : Nat) : Option Nat :=
  (List.range m.places.length).find? fun i =>
    match m.places[i]? with
    | none => false
    | some pl =>
      decide (pl.space = 1) && !pl.writable && (placeCopies p pl).any fun j =>
        decide (placeAddr p m pl j ≤ a) && decide (a < placeAddr p m pl j + pl.size)

/-- Pieces of a list that report poison. -/
def badPieces (s : State) (l : List (Nat × Nat)) : List (Nat × Nat) := l.filter fun x => poisoned s x.1

/-- A piece of the destination takes poisoned bytes: byte offsets `bad` of the run are poisoned. -/
def takesPoison (bad : List (Nat × Nat)) (off k : Nat) : Bool :=
  bad.any fun b => decide (b.1 < off + k) && decide (off < b.1 + b.2)

/-- Offsets and lengths of pieces within their run. -/
def withOffsets : Nat → List (Nat × Nat) → List (Nat × Nat × Nat)
  | _, [] => []
  | o, (a, k) :: l => (a, o, k) :: withOffsets (o + k) l

/-- Destination lines that took poisoned bytes become poisoned where they lie in DDR (R358). -/
def spreadPoison (bad : List (Nat × Nat)) (dst : List (Nat × Nat)) (s : State) : State :=
  (withOffsets 0 dst).foldl
    (fun s x => if takesPoison bad x.2.1 x.2.2 && decide (areaOf x.1 = .ddr) then poisonLine x.1 s else s) s

/-- What a stitch does that has read poison in a read-only pillow place, which is refilled, or in scratch: it is re-run. None
where the data go on (R190, R724, Table 24-1). -/
def poisonRerun (p : Partition) (t : Stitch) (m : Model) (bad : List (Nat × Nat)) (s : State) : Option State :=
  match bad.findSome? fun x => (roPlaceOf p m x.1).map fun i => ((x.1 - pillowBase) / pillowBytes, i) with
  | some (stack, i) => some (rerunFor fkPillowRo stack m.handle.toNat p t m (fillPlace p m i s))
  | none => if bad.any fun x => decide (areaOf x.1 = .scratch) then some (rerunFor fkComputeUe 0 0 p t m s) else none

/-- `cnt` bytes move by a shuttle of core `n` from one pointer to another, and `pad` zero bytes after them. Nothing moves when
an address is forbidden; a tag mismatch leaves its line and what follows alone; poison in a read-only pillow place refills it
and re-runs the stitch; poison in scratch re-runs it; any other poison goes with the data and is escalated (R17, R185, R190,
R326, R342, R358, R724). R296 leaves undefined what a write through a kind 3 entry does that it does not allow: the model lets
its bytes land as those of any other write (DESIGN CHOICE, log entry 139). -/
def moveBytes (n : Nat) (p : Partition) (t : Stitch) (m : Model) (ecc : List (Nat × EccFinding)) (src cnt dst pad : Nat)
    (s : State) : State :=
  if !ptrOk p src cnt || !ptrOk p dst (cnt + pad) then stopStitch p t.id stBadPointer 0 false s
  else
    let s := accessPieces false (reachPieces p src cnt) (upset ecc s)
    let lostTags := badTags s (reachPieces p dst (cnt + pad))
    let s := accessPieces true (reachPieces p dst (cnt + pad)) s
    let a := tagged s src cnt
    let b := tagged s dst (cnt + pad)
    let k := if a < cnt then min a b else b
    let from_ := reachPieces p src (min k cnt)
    let to_ := reachPieces p dst k
    let bad := badPieces s from_
    match poisonRerun p t m bad s with
    | some s => s
    | none =>
      let data := reachRead s p src (min k cnt) ++ zeroBytes (k - min k cnt)
      let marks := ((withOffsets 0 from_).filter fun x => poisoned s x.1).map (·.2)
      let lost := dropsPiece lostTags s to_
      let s := carry (coreStack n) true to_ (carry (coreStack n) false from_ s)
      let s := uncorrectable (!bad.isEmpty || lost) (spreadPoison marks to_ (piecesWrite lostTags to_ data s))
      if k < cnt + pad then
        stopStitch p t.id stStalePointer 0 false (countStale (if a < cnt ∧ a ≤ b then src else dst) k s)
      else s

/-! ## Descriptors -/

/-- Pointer to the base of what a slot holds: its item's buffer, or its bobbin's copy for the core's stack (Table 6-10,
R181). -/
def slotPointer (s : State) (t : Stitch) (n slot : Nat) : Option Nat :=
  match slotItem s t slot with
  | some i => some (bufPointer s i.buf.pool i.buf.gen i.buf.addr)
  | none => (slotBobbin s t slot).map fun b => bufPointer s b.arena b.gen (bobbinBase s b (some (coreStack n)))

/-- A pointer of a descriptor: its own, or an offset from its slot's base. -/
def endPointer (s : State) (t : Stitch) (n slot : Nat) (relative : Bool) (v : W64) : Nat :=
  if relative then ptrAdd ((slotPointer s t n slot).getD 0) (v.toNat : Int) else v.toNat

/-- A count of a descriptor under LEN_DIM (R184). -/
def Desc.limited (d : Desc) (lens : List Nat) (dim count : Nat) : Nat :=
  if d.lenDim = dim then min count (lens.getD d.lenReg 0) else count

/-- The shuttle leaves its oldest descriptor. -/
def popShuttle (n sh : Nat) (s : State) : State := modShuttle n sh (fun q => q.drop 1) s

/-- The oldest descriptor of a shuttle changed. -/
def modHead (n sh : Nat) (f : ShuttleJob → ShuttleJob) (s : State) : State :=
  modShuttle n sh (fun q => match q with
    | [] => []
    | j :: l => f j :: l) s

/-- The job that a unit starts next: the oldest of a latency-critical stitch, or else the oldest (R197). -/
def nextJobIndex (l : List PpuJob) : Nat :=
  match l.findIdx? (·.latencyCritical) with
  | some i => i
  | none => 0

/-- A unit that runs no job starts its next one. -/
def PpuUnit.startNext (u : PpuUnit) : PpuUnit :=
  if u.jobs.any (·.started) then u
  else
    match u.jobs[nextJobIndex u.jobs]? with
    | none => u
    | some j => { jobs := listSet u.jobs (nextJobIndex u.jobs) { j with started := true } }

/-- The job of a core's `PPU_JOB` enters its stack's unit, in arrival order (R197). -/
def submitJob (p : Partition) (n sh : Nat) (t : Stitch) (ptr : Nat) (s : State) : State :=
  s.modPpu fun m => SMap.modify {} m (coreStack n) fun u =>
    PpuUnit.startNext
      { jobs := u.jobs ++ [{ core := n, shuttle := sh, latencyCritical := decide (t.req.cls = 0), addr := ptr, quads := p.quads }] }

/-- A shuttle takes up its oldest descriptor (R178, R184, R206). -/
def execShuttleDescriptorBegin (core sh : Nat) (s : State) : Result :=
  match coreStitch s core, (s.core core).queue sh with
  | some (p, t, _), j :: _ =>
    let d := j.desc
    let c1 := Desc.limited d t.lens 1 d.count1
    let c2 := Desc.limited d t.lens 2 d.count2
    if j.begun ∨ t.stop.isSome then .next s
    else if j.isPpu then
      (if ptrOk p d.src.toNat 64 then
        .next (submitJob p core sh t d.src.toNat (modHead core sh (fun j => { j with begun := true }) s))
      else .next (stopStitch p t.id stBadPointer 0 false s))
    else if c1 = 0 ∨ c2 = 0 ∨ ((d.srcSlot || d.dstSlot) && (slotPointer s t core d.slot).isNone) = true then
      .next (popShuttle core sh s)
    else .next (modHead core sh (fun j => { j with begun := true, count1 := c1, count2 := c2 }) s)
  | _, _ => .next s

/-- The gate of run `j` is open: row progress has reached what the run needs, never more than ROWS; without an item it is
open (R186). -/
def gateOpen (s : State) (t : Stitch) (d : Desc) (j : Nat) : Bool :=
  !d.gate || match slotItem s t d.slot with
    | none => true
    | some i => decide (min (d.gateBase + j * d.gateStep) i.rows ≤ i.progress)

/-- An entry of a `GATHER`'s list has been read: its bytes move (R185, R190). -/
def gatherRun (n : Nat) (p : Partition) (t : Stitch) (m : Model) (d : Desc) (e dst : Nat) (s : State) : State :=
  let entry := reachRead s p e 16
  let len := min (field entry 8 4) d.count0
  let bad := badPieces s (reachPieces p e 16)
  match poisonRerun p t m bad s with
  | some s => s
  | none =>
    moveBytes n p t m [] (leNat (entry.take 8)) len dst (d.count0 - len) (uncorrectable (!bad.isEmpty) s)

/-- Run `i` of a descriptor moves. -/
def moveRun (p : Partition) (t : Stitch) (m : Model) (ecc : List (Nat × EccFinding)) (n i : Nat) (j : ShuttleJob)
    (s : State) : State :=
  let d := j.desc
  let src := endPointer s t n d.slot d.srcSlot d.src
  let dst := endPointer s t n d.slot d.dstSlot d.dst
  if d.form = 4 then
    let e := ptrAdd src (16 * i : Nat)
    if !ptrOk p e 16 then stopStitch p t.id stBadPointer 0 false s
    else
      let s := accessPieces false (reachPieces p e 16) (carry (coreStack n) false (reachPieces p e 16) (upset ecc s))
      if tagged s e 16 < 16 then stopStitch p t.id stStalePointer 0 false (countStale e (tagged s e 16) s)
      else gatherRun n p t m d e (ptrAdd dst (d.dstride1 * (i : Int))) s
  else
    let plane := i / j.count1
    let run := i % j.count1
    moveBytes n p t m ecc (ptrAdd src (d.sstride2 * (plane : Int) + d.sstride1 * (run : Int))) d.count0
      (ptrAdd dst (d.dstride2 * (plane : Int) + d.dstride1 * (run : Int))) 0 s

/-- The next run of a shuttle's descriptor moves, once its gate is open (R182 to R190). `ecc`: what the error codes of the
lines it reaches find. -/
def execShuttleRunMove (core sh : Nat) (ecc : List (Nat × EccFinding)) (s : State) : Result :=
  match coreStitch s core, (s.core core).queue sh with
  | some (p, t, m), j :: _ =>
    if j.begun = false ∨ j.isPpu ∨ j.runs ≤ j.moved ∨ t.stop.isSome ∨
        gateOpen s t j.desc (if j.desc.form = 4 then j.moved else j.moved % j.count1) = false then .next s
    else .next (moveRun p t m ecc core j.moved j (modHead core sh (fun j => { j with moved := j.moved + 1 }) s))
  | _, _ => .next s

/-- A descriptor is complete: everything it moved is visible (R180). `held`: cycles for which a bundle was held for it,
`gated`: cycles it spent at its gate (Table 6-15 causes 2 and 3). -/
def execShuttleDescriptorComplete (core sh held gated : Nat) (s : State) : Result :=
  match (s.core core).queue sh with
  | j :: _ =>
    if j.ended then
      .next ((popShuttle core sh s).modCore core fun c =>
        let c := (c.slips 2 (min held gated)).slips 3 (held - min held gated)
        { c with late := c.late + held })
    else .next s
  | [] => .next s

end Machine
end Sys2Proof
end

