-- ==== Sys2Proof/Machine/Control.lean ====
section
/-! DEFINITION. The operations of the CONTROL slot, knots, and the end of a core's part (chapter 6 and 7: Table 6-5, R169
to R171, R191 to R196, R236, R504). -/

namespace Sys2Proof

/-- A taken jump: the core goes on at a bundle (R170). -/
def ComputeCore.jumpTo (c : ComputeCore) (b : Nat) : ComputeCore := { c with bundle := b }

/-- Execution falls through to the next bundle, or round its loop. -/
def ComputeCore.fall (c : ComputeCore) : ComputeCore := c.goOn c.bundle

/-- A loop of `n` iterations is entered; with none its body is skipped (R169). -/
def ComputeCore.enterLoop (c : ComputeCore) (level n last : Nat) : ComputeCore :=
  if n = 0 then c.goOn last
  else { c with bundle := c.bundle + 1, loops := ⟨level, c.bundle + 1, last, n⟩ :: c.loops }

/-- The row mask of an array set or taken away (Table 6-5 `ROWMASK`). -/
def ComputeCore.setMask (c : ComputeCore) (array lreg base : Nat) (enable : Bool) : ComputeCore :=
  { c with masks := SMap.set none c.masks array (if enable then some (lreg, base) else none) }

/-- A tile-skip entry is applied (R236). -/
def ComputeCore.applySkip (c : ComputeCore) (lens : List Nat) (e : TileSkip) : ComputeCore :=
  if lens.getD e.lreg 0 ≤ e.base then c.jumpTo e.target
  else if e.mask then (c.setMask e.array e.lreg e.base true).fall
  else c.fall

/-- A knot releases a core, whose lateness is then `late` (R195). -/
def ComputeCore.releaseKnot (c : ComputeCore) (late : Nat) : ComputeCore :=
  { c.slips 4 (late - c.late) with knot := none, late := late }

/-- Nothing that a core issued is still going on (R504). -/
def ComputeCore.quiet (c : ComputeCore) : Bool :=
  c.sh0.isEmpty && c.sh1.isEmpty && c.arrays.all fun a => a.2.flight.isNone && a.2.drain.isNone && a.2.draining.isNone

namespace Machine

/-- `LOOP` (R169). -/
def execLoop (c : Slot) (level : Nat) (lsrc : Bool) (count endBundle : Nat) (s : State) : Result :=
  .next (controlOp c (fun t _ k => k.enterLoop level (if lsrc then t.lens.getD count 0 else count) endBundle) s)

/-- `JUMP` (R170). -/
def execJump (c : Slot) (target : Nat) (s : State) : Result := .next (controlOp c (fun _ _ k => k.jumpTo target) s)

/-- `KNOT`: the core arrives and issues no further bundle until its release (R191). -/
def execKnot (c : Slot) (k : Nat) (s : State) : Result :=
  .next (controlOp c (fun _ _ x => { x.fall with knot := some k }) s)

/-- `LTEST` (Table 6-5). -/
def execLtest (c : Slot) (lreg target imm : Nat) (s : State) : Result :=
  .next (controlOp c (fun t _ k => if t.lens.getD lreg 0 ≤ imm then k.jumpTo target else k.fall) s)

/-- A tile-skip entry of a core's role; its loader lets no other be named. -/
def skipEntry (s : State) (m : Model) (n e : Nat) : Option TileSkip :=
  match s.obj.partitions.find? fun p => p.quads.testBit (n / 4) && p.running.isSome with
  | none => none
  | some p => (((m.skips.find? fun x => decide (x.1 = roleOf m (p.coreIndex n))).map (·.2)).getD [])[e]?

/-- `TSKIP` (R236). -/
def execTskip (c : Slot) (entry : Nat) (s : State) : Result :=
  .next (controlOp c (fun t m k => match skipEntry s m c.core entry with
    | none => k.fall
    | some e => k.applySkip t.lens e) s)

/-- `ROWMASK` (Table 6-5). -/
def execRowmask (c : Slot) (array lreg base : Nat) (enable : Bool) (s : State) : Result :=
  .next (controlOp c (fun _ _ k => (k.setMask array lreg base enable).fall) s)

/-- `ARSET` (Table 6-5, R171). -/
def execArset (c : Slot) (ar addr : Nat) (s : State) : Result :=
  .next (controlOp c (fun _ _ k => (k.setAr ar addr (k.ar ar).2).fall) s)

/-- `ARSTRIDE` (Table 6-5). -/
def execArstride (c : Slot) (ar : Nat) (stride : Int) (s : State) : Result :=
  .next (controlOp c (fun _ _ k => (k.setAr ar (k.addr ar) stride).fall) s)

/-- `ARADD` (Table 6-5, R171). -/
def execAradd (c : Slot) (ar : Nat) (imm : Int) (s : State) : Result :=
  .next (controlOp c (fun _ _ k => (k.setAr ar (k.addr ar + imm) (k.ar ar).2).fall) s)

/-- `ARLEN` (Table 6-5, R171). -/
def execArlen (c : Slot) (ar lreg : Nat) (mul : Int) (s : State) : Result :=
  .next (controlOp c (fun t _ k => (k.setAr ar (k.addr ar + (t.lens.getD lreg 0 : Nat) * mul) (k.ar ar).2).fall) s)

/-- `END`: the core issues no further bundle (Table 6-5). -/
def execEnd (c : Slot) (s : State) : Result := .next (controlOp c (fun _ _ k => { k with run := 3 }) s)

/-! ## Knots -/

/-- Farthest offsets from a descriptor's destination of the first bytes of its runs: its strides lead to one at each corner of its
runs and planes. -/
def destCorners (d : Desc) : List Int :=
  let step (st : Int) (n : Nat) : List Int := [0, st * ((n - 1 : Nat) : Int)]
  (step d.dstride1 d.count1).flatMap fun a => (step d.dstride2 (if d.form = 3 then d.count2 else 1)).map fun b => a + b

/-- All that a started descriptor writes lies in its core's own scratch (R192); a job's results do when both of its pointers do. -/
def endsAtHome (s : State) (p : Partition) (t : Stitch) (n : Nat) (j : ShuttleJob) : Bool :=
  let own (ptr : Nat) : Bool :=
    decide (areaOf (ptrAddr ptr) = .scratch) &&
      decide (p.cores[(ptrAddr ptr - scratchBase) / scratchBytes]? = some n)
  if j.isPpu then
    let job := reachRead s p j.desc.src.toNat 64
    own (field job 32 8) && own (field job 40 8)
  else
    let dst := endPointer s t n j.desc.slot j.desc.dstSlot j.desc.dst
    (destCorners j.desc).all fun a => own (ptrAdd dst a) && own (ptrAdd dst (a + ((j.desc.count0 - 1 : Nat) : Int)))

/-- A core has arrived at a knot and every descriptor of it that ends elsewhere is complete (R192). -/
def knotReady (s : State) (p : Partition) (t : Stitch) (n k : Nat) : Bool :=
  decide ((s.core n).knot = some k) &&
    ((s.core n).sh0 ++ (s.core n).sh1).all fun j => endsAtHome s p t n j

/-- Members of a knot, as physical cores (R232). -/
def knotMembers (p : Partition) (m : Model) (k : Nat) : List Nat :=
  ((List.range p.cores.length).filter fun i => (m.knots.getD k 0).testBit i).map fun i => p.cores.getD i 0

/-- A knot releases all its members at once (R191 to R195). `late`: the CORE.LATE of each member then. -/
def execKnotRelease (partition : Handle) (k : Nat) (late : List Nat) (s : State) : Result :=
  match findPart s partition with
  | none => .next s
  | some p =>
    match p.running.bind (findStitch s) with
    | none => .next s
    | some t =>
      match findModel s t.req.model with
      | none => .next s
      | some m =>
        let ns := knotMembers p m k
        if t.phase ≠ .running ∨ ns = [] ∨ (ns.all fun n => knotReady s p t n k) = false then .next s
        else
          .next (((List.range ns.length).zip ns).foldl
            (fun s x => s.modCore x.2 fun c => c.releaseKnot (late.getD x.1 c.late)) s)

/-! ## The end of a core's part -/

/-- A core that has executed `END` finishes its part once all that it issued has ended; its counter of cycles takes those since
the latest tick, `cycles` of them, and stops (R208). The stitch completes with its last core (R504). -/
def execCoreFinish (core cycles : Nat) (s : State) : Result :=
  match coreStitch s core with
  | none => .next s
  | some (p, t, _) =>
    if (s.core core).run ≠ 3 ∨ t.finished.contains (p.coreIndex core) ∨ (s.core core).quiet = false then .next s
    else
      let s := s.modCore core fun c => { c with cycles := c.cycles + cycles, counting := false }
      let done := t.finished ++ [p.coreIndex core]
      let s := modStitch t.id (fun t => { t with finished := done }) s
      .next (if p.cores.all fun n => done.contains (p.coreIndex n) then finishStitch t.id s else s)

end Machine
end Sys2Proof
end

