-- ==== Sys2Proof/Machine/Hashes.lean ====
section
/-! DEFINITION. CRC-32C of records and images, and the SM3 hash (R211, R411, chapter 25). -/

namespace Sys2Proof

/-- One bit of a reflected CRC-32C. -/
def crcBit (c : W32) : W32 := if c.getLsbD 0 then (c >>> 1) ^^^ 0x82F63B78#32 else c >>> 1

/-- One byte of a CRC-32C. -/
def crcByte (c : W32) (b : Byte) : W32 :=
  crcBit (crcBit (crcBit (crcBit (crcBit (crcBit (crcBit (crcBit (c ^^^ b.setWidth 32))))))))

/-- CRC-32C of bytes (Castagnoli polynomial, reflected, all ones before and after). -/
def crc32c (bs : List Byte) : W32 := bs.foldl crcByte 0xFFFFFFFF#32 ^^^ 0xFFFFFFFF#32

/-! ## SM3 -/

/-- The initial value of SM3. -/
def sm3Init : List W32 :=
  [0x7380166F#32, 0x4914B2B9#32, 0x172442D7#32, 0xDA8A0600#32, 0xA96F30BC#32, 0x163138AA#32, 0xE38DEE4D#32,
    0xB0FB0E4E#32]

def sm3P0 (x : W32) : W32 := x ^^^ x.rotateLeft 9 ^^^ x.rotateLeft 17
def sm3P1 (x : W32) : W32 := x ^^^ x.rotateLeft 15 ^^^ x.rotateLeft 23
def sm3FF (j : Nat) (x y z : W32) : W32 := if j < 16 then x ^^^ y ^^^ z else (x &&& y) ||| (x &&& z) ||| (y &&& z)
def sm3GG (j : Nat) (x y z : W32) : W32 := if j < 16 then x ^^^ y ^^^ z else (x &&& y) ||| (~~~x &&& z)

/-- A big-endian word of four bytes. -/
def beWord (bs : List Byte) : W32 := bs.foldl (fun w b => (w <<< 8) ||| b.setWidth 32) 0#32

/-- The big-endian bytes of a word. -/
def wordBe (w : W32) : List Byte := (leBytes 4 w.toNat).reverse

/-- The first 16 message words of a block. -/
def sm3Words (block : List Byte) : List W32 := (List.range 16).map fun i => beWord ((block.drop (4 * i)).take 4)

/-- Message expansion: the words so far with `n` more, in order. -/
def sm3Expand : Nat → List W32 → List W32
  | 0, w => w
  | n + 1, w =>
    let j := w.length
    let g (k : Nat) : W32 := w.getD (j - k) 0
    let x := sm3P1 (g 16 ^^^ g 9 ^^^ (g 3).rotateLeft 15) ^^^ (g 13).rotateLeft 7 ^^^ g 6
    sm3Expand n (w ++ [x])

/-- One round. -/
def sm3Round (w : List W32) (v : List W32) (j : Nat) : List W32 :=
  let g (i : Nat) : W32 := v.getD i 0
  let t : W32 := if j < 16 then 0x79CC4519#32 else 0x7A879D8A#32
  let ss1 := ((g 0).rotateLeft 12 + g 4 + t.rotateLeft (j % 32)).rotateLeft 7
  let ss2 := ss1 ^^^ (g 0).rotateLeft 12
  let wj := w.getD j 0
  let tt1 := sm3FF j (g 0) (g 1) (g 2) + g 3 + ss2 + (wj ^^^ w.getD (j + 4) 0)
  let tt2 := sm3GG j (g 4) (g 5) (g 6) + g 7 + ss1 + wj
  [tt1, g 0, (g 1).rotateLeft 9, g 2, sm3P0 tt2, g 4, (g 5).rotateLeft 19, g 6]

/-- The compression of one block. -/
def sm3Block (v : List W32) (block : List Byte) : List W32 :=
  let w := sm3Expand 52 (sm3Words block)
  let r := (List.range 64).foldl (sm3Round w) v
  (List.range 8).map fun i => r.getD i 0 ^^^ v.getD i 0

/-- `n` blocks of a padded message. -/
def sm3Blocks : Nat → List W32 → List Byte → List W32
  | 0, v, _ => v
  | n + 1, v, m => sm3Blocks n (sm3Block v (m.take 64)) (m.drop 64)

/-- The padding of a message of `n` bytes. -/
def sm3Pad (n : Nat) : List Byte := 0x80#8 :: zeroBytes ((119 - n % 64) % 64) ++ (leBytes 8 (8 * n)).reverse

/-- The SM3 hash of bytes: 32 bytes. -/
def sm3 (m : List Byte) : List Byte :=
  let p := m ++ sm3Pad m.length
  (sm3Blocks (p.length / 64) sm3Init p).map wordBe |>.flatten

end Sys2Proof
end

