-- ==== Sys2Proof/Machine/FunctionUnits.lean ====
section
/-! DEFINITION. The bounds of the function units (Table 6-7, R796): the exact functions in fixed point, far finer than FP32, and
the result bits, which the manual leaves open within the bounds. A fixed-point number counts units of 2^-512. -/

namespace Sys2Proof

/-- One in fixed point. -/
def fixOne : Nat := 2 ^ 512

/-- Product of two fixed-point numbers. -/
def fixMul (a b : Int) : Int := a * b / (fixOne : Int)

/-- A finite value in fixed point, at most `cap` in magnitude. -/
def fixVal (cap : Nat) (neg : Bool) (m : Nat) (e : Int) : Int :=
  let x : Nat := if 0 ≤ e + 512 then m * 2 ^ (e + 512).toNat else m / 2 ^ (-(e + 512)).toNat
  (if neg then -1 else 1) * ((min x (cap * fixOne) : Nat) : Int)

/-- `Σ z^(2k+1) / (2k+1)` over `n` terms: the area tangent of `z`. -/
def fixAtanh (z : Int) (n : Nat) : Int :=
  ((List.range n).foldl (fun (acc : Int × Int) k => (fixMul acc.1 (fixMul z z), acc.2 + acc.1 / ((2 * k + 1 : Nat) : Int)))
    (z, 0)).2

/-- `Σ (-1)^k / ((2k+1) m^(2k+1))` over `n` terms: the arc tangent of `1/m`. -/
def fixAtanInv (m n : Nat) : Int :=
  ((List.range n).foldl
    (fun (acc : Int × Int) k => (-acc.1 / ((m * m : Nat) : Int), acc.2 + acc.1 / ((2 * k + 1 : Nat) : Int)))
    ((fixOne : Int) / (m : Int), 0)).2

/-- The natural logarithm of 2: twice the area tangent of 1/3. -/
def fixLn2 : Int := 2 * fixAtanh ((fixOne : Int) / 3) 170

/-- The circle number, by Machin's formula. -/
def fixPi : Int := 16 * fixAtanInv 5 120 - 4 * fixAtanInv 239 40

/-- `e^r` for `r` between 0 and 1, by its series. -/
def fixExpSmall (r : Int) : Int :=
  ((List.range 120).foldl (fun (acc : Int × Int) k => (fixMul acc.1 r / ((k + 1 : Nat) : Int), acc.2 + acc.1))
    ((fixOne : Int), 0)).2

/-- `e^-x` for `x` from 0 to 128 or so. -/
def fixExpNeg (x : Int) : Int :=
  let k := -((-x) / fixLn2)
  fixExpSmall (k * fixLn2 - x) / ((2 ^ k.toNat : Nat) : Int)

/-- `2^f` for a fraction of `n` units of 2^-149. -/
def fixExp2Frac (n : Nat) : Int := fixExpSmall (fixMul ((n * 2 ^ 363 : Nat) : Int) fixLn2)

/-- The base-two logarithm of a positive number `m 2^e`. -/
def fixLog2 (m : Nat) (e : Int) : Int :=
  let z : Int := (((m : Int) - ((2 ^ m.log2 : Nat) : Int)) * (fixOne : Int)) / ((m : Int) + ((2 ^ m.log2 : Nat) : Int))
  (e + m.log2) * (fixOne : Int) + 2 * fixAtanh z 170 * (fixOne : Int) / fixLn2

/-- Integer square root, one bit at a time from bit `b` down. -/
def isqrt (n : Nat) : Nat → Nat → Nat
  | 0, r => r
  | b + 1, r => if (r + 2 ^ b) * (r + 2 ^ b) ≤ n then isqrt n b (r + 2 ^ b) else isqrt n b r

/-- `1 / √(2π)`. -/
def fixInvSqrt2Pi : Int := (isqrt (fixOne * fixOne * fixOne / (2 * fixPi).toNat) 513 0 : Nat)

/-- The normal distribution's `Φ(x) - 1/2` for `x` from 0 to 16: the density times `Σ x^(2k+1) / (2k+1)!!`. -/
def fixPhi (x : Int) : Int :=
  let sum := ((List.range 700).foldl
    (fun (acc : Int × Int) k => (fixMul acc.1 (fixMul x x) / ((2 * k + 3 : Nat) : Int), acc.2 + acc.1)) (x, 0)).2
  fixMul (fixMul fixInvSqrt2Pi (fixExpNeg (fixMul x x / 2))) sum

/-- A fixed-point number as a value. -/
def ofFix (n : Int) : Val := .num (decide (n < 0)) n.natAbs (-512)

/-- The quotient of two positive fixed-point numbers. -/
def fixDiv (a b : Int) : Int := a * (fixOne : Int) / b

/-- The hyperbolic tangent of a finite number. -/
def tanhVal (neg : Bool) (m : Nat) (e : Int) : Val :=
  let t := fixExpNeg (2 * fixVal 64 false m e)
  let y := fixDiv ((fixOne : Int) - t) ((fixOne : Int) + t)
  ofFix (if neg then -y else y)

/-- `1 / (1 + e^-x)` of a finite number. -/
def sigmVal (neg : Bool) (m : Nat) (e : Int) : Val :=
  let t := fixExpNeg (fixVal 128 false m e)
  ofFix (fixDiv (if neg then t else (fixOne : Int)) ((fixOne : Int) + t))

/-- A finite number lies at or below `-cap`. -/
def farBelow (cap : Nat) (neg : Bool) (m : Nat) (e : Int) : Bool :=
  neg && decide (fixVal cap false m e = ((cap * fixOne : Nat) : Int))

/-- A negative number that is nearer to 0 than any FP32 bound tells: `x Φ(x)` at and below -16 and `x / (1 + e^-x)` at and below
-128 lie within 2^-170 of 0. -/
def tinyNeg : Val := .num true 1 (-512)

/-- `x Φ(x)` of a finite number. -/
def geluVal (neg : Bool) (m : Nat) (e : Int) : Val :=
  if farBelow 16 neg m e then tinyNeg
  else
    let p := fixPhi (fixVal 16 false m e)
    let half := (fixOne : Int) / 2
    (Val.num neg m e).mul (ofFix (if neg then max 1 (half - p) else half + p))

/-- `x / (1 + e^-x)` of a finite number. -/
def siluVal (neg : Bool) (m : Nat) (e : Int) : Val :=
  if farBelow 128 neg m e then tinyNeg else (Val.num neg m e).mul (sigmVal neg m e)

/-- FP32 bits as an operation writes them: a NaN in its canonical encoding (R61). -/
def cleanFp32 (w : W32) : W32 := if (fp32 w).isNan then 0x7FC00000 else w

/-- A finite result lies within `n` units in the last place of the exact value. -/
def withinUlps (n : Nat) (exact : Val) (w : W32) : Bool :=
  match exact, ((fp32 w).add exact.neg) with
  | .num _ m e, .num _ dm de =>
    let bound := Val.num false n (fmtFp32.quantum (max m 1) e)
    finite32 w && !bound.lt (.num false dm de)
  | _, _ => false

/-- The result of a function unit: its bits, which are the implementation's within the bound, and where they are not within it,
the nearest FP32 value (R796). -/
def unitResult (n : Nat) (exact : Val) (bits : W32) : W32 := if withinUlps n exact bits then bits else rne32 exact

/-- `1 / √(m 2^e)` to some 76 bits, its last bit marking an inexact value. -/
def rsqrtVal (m : Nat) (e : Int) : Val :=
  let (m, e) := if e % 2 = 0 then (m, e) else (2 * m, e - 1)
  let n := 2 ^ 200 / m
  let r := isqrt n 101 0
  .num false (2 * r + (if r * r * m = 2 ^ 200 then 0 else 1)) (-(101 : Int) - e / 2)

end Sys2Proof
end

