-- ==== Sys2Proof/Machine/Ppu.lean ====
section
/-! DEFINITION. The post-processing units and their operations (chapter 6, R197 to R204), and the double-bit errors of a
core (R136, R160, R724). -/

namespace Sys2Proof

/-! ## Arithmetic of boxes (R201) -/

/-- The larger of two FP32 values: NaN where either is, +0 above −0. -/
def boxMax (a b : W32) : W32 :=
  if (fp32 a).isNan || (fp32 b).isNan then 0x7FC00000
  else if (fp32 a).lt (fp32 b) then b
  else if (fp32 b).lt (fp32 a) then a
  else if a = 0x80000000 then b else a

/-- The smaller of two FP32 values, with the same care. -/
def boxMin (a b : W32) : W32 :=
  if (fp32 a).isNan || (fp32 b).isNan then 0x7FC00000
  else if (fp32 a).lt (fp32 b) then a
  else if (fp32 b).lt (fp32 a) then b
  else if a = 0x80000000 then a else b

/-- Quotient rounded once. -/
def fdiv (a b : W32) : W32 := rne32 (fdivVal (fp32 a) (fp32 b))

/-- A box (R199). -/
structure Box where
  x0 : W32
  y0 : W32
  x1 : W32
  y1 : W32
  deriving DecidableEq, Repr

/-- An FP32 value of some bytes. -/
def f32At (bs : List Byte) (off : Nat) : W32 := BitVec.ofNat 32 (field bs off 4)
/-- A box of some bytes. -/
def boxAt (bs : List Byte) (off : Nat) : Box :=
  ⟨f32At bs off, f32At bs (off + 4), f32At bs (off + 8), f32At bs (off + 12)⟩
/-- Area of a box. -/
def Box.area (b : Box) : W32 := fmul (fsub b.x1 b.x0) (fsub b.y1 b.y0)

/-- IoU of two boxes (R201). -/
def iou (a b : Box) : W32 :=
  let w := boxMax 0 (fsub (boxMin a.x1 b.x1) (boxMax a.x0 b.x0))
  let h := boxMax 0 (fsub (boxMin a.y1 b.y1) (boxMax a.y0 b.y0))
  let inter := fmul w h
  let union_ := fsub (fadd a.area b.area) inter
  if (fp32 0).lt (fp32 union_) then fdiv inter union_ else 0

/-! ## Jobs (Table 6-11) -/

/-- A job as its 64 bytes give it. -/
structure PpuOp where
  op : Nat
  classAware : Bool
  counted : Bool
  n : Nat
  k : Nat
  c : Nat
  t0 : W32
  t1 : W32
  in0 : Nat
  in1 : Nat
  out : Nat
  outn : Nat
  boxfmt : Nat
  infmt : Nat
  deriving DecidableEq, Repr

/-- A job from its bytes. -/
def PpuOp.parse (b : List Byte) : PpuOp where
  op := field b 0 1
  classAware := decide (field b 1 1 % 2 = 1)
  counted := decide (field b 1 1 / 2 % 2 = 1)
  n := field b 2 2
  k := field b 4 2
  c := field b 6 2
  t0 := f32At b 8
  t1 := f32At b 12
  in0 := field b 16 8
  in1 := field b 24 8
  out := field b 32 8
  outn := field b 40 8
  boxfmt := field b 48 1
  infmt := field b 49 1

/-- Bytes of an input value. -/
def PpuOp.size (o : PpuOp) : Nat := if o.infmt = 0x30 then 2 else 4

/-- Input value `i`, widened to FP32. -/
def PpuOp.value (o : PpuOp) (bs : List Byte) (i : Nat) : W32 :=
  if o.infmt = 0x30 then BitVec.ofNat 32 (field bs (2 * i) 2 * 65536) else f32At bs (4 * i)

/-- What a job reads: pointers and lengths, `n` being its input count. -/
def PpuOp.reads (o : PpuOp) (n : Nat) : List (Nat × Nat) :=
  match o.op with
  | 1 => [(o.in0, n * (4 + o.c) * o.size), (o.in1, n * (if o.boxfmt = 1 then 12 else 16))]
  | 2 => [(o.in0, 24 * n)]
  | 3 => [(o.in0, n * o.size)]
  | 4 => [(o.in0, 16 * n), (o.in1, 16 * o.k)]
  | _ => [(o.in0, n * o.k * o.size)]

/-! ## Operations (Table 6-12) -/

/-- The first class with the largest score among those that are numbers, with that score (R200). The manual says nothing of NaN
scores: that they are passed over is the model's choice (DESIGN CHOICE, log entry 140). -/
def bestClass (scores : List W32) : Option (Nat × W32) :=
  ((List.range scores.length).zip scores).foldl
    (fun best x =>
      if (fp32 x.2).isNan then best
      else match best with
        | none => some x
        | some b => if (fp32 b.2).lt (fp32 x.2) then some x else some b) none

/-- The box of a candidate from its four terms and its anchor (R200). How the corners of a CENTRE box follow from its centre and
size the manual does not say: half the size, then the centre less it and plus it, each operation rounded, is the model's choice
(DESIGN CHOICE, log entry 140). -/
def decodeBox (dist : Bool) (t a : List W32) : Box :=
  let g (l : List W32) (i : Nat) : W32 := l.getD i 0
  if dist then
    let s := g a 2
    ⟨fsub (g a 0) (fmul (g t 0) s), fsub (g a 1) (fmul (g t 1) s), fadd (g a 0) (fmul (g t 2) s),
      fadd (g a 1) (fmul (g t 3) s)⟩
  else
    let cx := fadd (g a 0) (fmul (g t 0) (g a 2))
    let cy := fadd (g a 1) (fmul (g t 1) (g a 3))
    let w := fmul (fmul (g a 2) (Config.ppuExp (g t 2))) 0x3F000000
    let h := fmul (fmul (g a 3) (Config.ppuExp (g t 3))) 0x3F000000
    ⟨fsub cx w, fsub cy h, fadd cx w, fadd cy h⟩

/-- A box record (R199). -/
def boxRecord (b : Box) (score : W32) (cls idx : Nat) : List Byte :=
  (([b.x0, b.y0, b.x1, b.y1, score].map fun w => leBytes 4 w.toNat).flatten) ++ leBytes 2 cls ++ leBytes 2 idx

/-- `BOXDEC` (R200): a record for each candidate whose best score is at least T0. A candidate whose scores are all NaN gives none,
and a NaN T0 none at all (DESIGN CHOICE, log entry 140). -/
def boxdec (o : PpuOp) (n : Nat) (cands anchors : List Byte) : List (List Byte) :=
  let words := if o.boxfmt = 1 then 3 else 4
  (List.range n).filterMap fun i =>
    let v (k : Nat) : W32 := o.value cands (i * (4 + o.c) + k)
    (bestClass ((List.range o.c).map fun k => v (4 + k))).bind fun best =>
      if (fp32 best.2).lt (fp32 o.t0) || (fp32 o.t0).isNan then none
      else
        some (boxRecord
          (decodeBox (decide (o.boxfmt = 1)) ((List.range 4).map v)
            ((List.range words).map fun k => f32At anchors (4 * (words * i + k)))) best.2 best.1 i)

/-- A record put in its place: descending score, the lower candidate index first on equal scores (R202). -/
def insertRecord (x : List Byte) : List (List Byte) → List (List Byte)
  | [] => [x]
  | y :: l =>
    let sx := fp32 (f32At x 16)
    let sy := fp32 (f32At y 16)
    if sy.lt sx || (sx.eqv sy && decide (field x 22 2 < field y 22 2)) then x :: y :: l else y :: insertRecord x l

/-- Greedy suppression over ordered records (R202). -/
def suppress (o : PpuOp) : List (List Byte) → List (List Byte) → List (List Byte)
  | [], kept => kept
  | x :: l, kept =>
    if o.k ≤ kept.length then kept
    else
      let hit := kept.any fun y =>
        (!o.classAware || decide (field x 20 2 = field y 20 2)) &&
          (fp32 o.t1).lt (fp32 (iou (boxAt y 0) (boxAt x 0)))
      suppress o l (if hit then kept else kept ++ [x])

/-- `NMS` (R202). A record with a NaN score, and every record when T0 is NaN, is discarded: the manual is silent (DESIGN CHOICE, log
entry 140). -/
def nms (o : PpuOp) (n : Nat) (bs : List Byte) : List (List Byte) :=
  let recs := (List.range n).map fun i => (bs.drop (24 * i)).take 24
  let good := recs.filter fun x =>
    let v := fp32 (f32At x 16)
    !v.isNan && !(fp32 o.t0).isNan && !v.lt (fp32 o.t0)
  (suppress o (good.foldl (fun acc x => insertRecord x acc) []) []).map fun x =>
    ((List.range 4).map fun i => leBytes 4 (cleanFp32 (f32At x (4 * i))).toNat).flatten ++ x.drop 16

/-- A value put in its place: descending, an earlier index first on equal values (R202). -/
def insertValue (x : W32 × Nat) : List (W32 × Nat) → List (W32 × Nat)
  | [] => [x]
  | y :: l => if (fp32 y.1).lt (fp32 x.1) then x :: y :: l else y :: insertValue x l

/-- `TOPK` (R202). -/
def topk (o : PpuOp) (n : Nat) (bs : List Byte) : List (List Byte) :=
  let vals := ((List.range n).map fun i => (o.value bs i, i)).filter fun x => !(fp32 x.1).isNan
  ((vals.foldl (fun acc x => insertValue x acc) []).take o.k).map fun x => leBytes 4 x.1.toNat ++ leBytes 4 x.2

/-- `IOU`: row-major (R201). -/
def iouMatrix (o : PpuOp) (n : Nat) (a b : List Byte) : List (List Byte) :=
  ((List.range n).map fun i => (List.range o.k).map fun j =>
    leBytes 4 (iou (boxAt a (16 * i)) (boxAt b (16 * j))).toNat).flatten

/-- An assignment of some rows: its pairs, its exact cost, its columns (0xFFFF for none). -/
structure Assignment where
  pairs : Nat
  total : Val
  cols : List Nat
  deriving DecidableEq, Repr

/-- The second of two assignments is strictly better: more pairs, or as many at a lower total cost. A total of costs that hold
both infinities has no value, and R203 does not say how it ranks: it is neither better nor worse, so that the assignment tried
first stays (DESIGN CHOICE, log entry 160). -/
def Assignment.worse (a b : Assignment) : Bool :=
  decide (a.pairs < b.pairs) || (decide (a.pairs = b.pairs) && b.total.lt a.total)

/-- The better of two assignments, the first where they are equal. -/
def Assignment.best (a b : Assignment) : Assignment := if a.worse b then b else a

/-- The best way to go on from an assignment `a` over some more rows, by the totals of the whole assignments. Columns are tried
in ascending order and no column last, so that among equals the lexicographically least sequence stands (R203). -/
def assignRows (cost : Nat → Nat → Option Val) (cols : Nat) : List Nat → Assignment → Assignment
  | [], a => a
  | i :: rows, a =>
    let pairs := (List.range cols).filterMap fun j =>
      if a.cols.contains j then none
      else (cost i j).map fun c => assignRows cost cols rows ⟨a.pairs + 1, a.total.add c, a.cols ++ [j]⟩
    match pairs ++ [assignRows cost cols rows { a with cols := a.cols ++ [0xFFFF] }] with
    | [] => a
    | x :: l => l.foldl Assignment.best x

/-- `ASSIGN` (R203). A NaN T1 forbids every cost: the manual is silent (DESIGN CHOICE, log entry 140). -/
def assign (o : PpuOp) (n : Nat) (bs : List Byte) : List (List Byte) :=
  let cost (i j : Nat) : Option Val :=
    let v := fp32 (o.value bs (i * o.k + j))
    if v.isNan || (fp32 o.t1).lt v || (fp32 o.t1).isNan then none else some v
  (assignRows cost o.k (List.range n) ⟨0, .num false 0 0, []⟩).cols.map (leBytes 2)

/-- Results of a job on its inputs. -/
def PpuOp.results (o : PpuOp) (n : Nat) (ins : List (List Byte)) : List (List Byte) :=
  let a := ins.getD 0 []
  let b := ins.getD 1 []
  match o.op with
  | 1 => boxdec o n a b
  | 2 => nms o n a
  | 3 => topk o n a
  | 4 => iouMatrix o n a b
  | _ => assign o n a

namespace Machine

/-- The unit's running job. -/
def runningJob (s : State) (stack : Nat) : Option PpuJob :=
  (PpuUnit.startNext (SMap.get {} s.ppu stack)).jobs.find? (·.started)

/-- The unit's running job changed. -/
def modJob (stack : Nat) (f : PpuJob → Option PpuJob) (s : State) : State :=
  s.modPpu fun m => SMap.modify {} m stack fun u =>
    PpuUnit.startNext { jobs := (PpuUnit.startNext u).jobs.filterMap fun j => if j.started then f j else some j }

/-- Why a job may not reach bytes at a pointer (R17, R326). -/
def reachStop (s : State) (p : Partition) (x : Nat × Nat) : Option Nat :=
  if !ptrOk p x.1 x.2 then some stBadPointer
  else if tagged s x.1 x.2 < x.2 then some stStalePointer
  else none

/-- Results and their count are written, but for lines that lost their tag words (Table 6-11). -/
def writeResults (lostTags : List Nat) (p : Partition) (o : PpuOp) (rs : List (List Byte)) (s : State) : State :=
  let put (ptr : Nat) (bs : List Byte) (s : State) : State := piecesWrite lostTags (reachPieces p ptr bs.length) bs s
  put o.outn (leBytes 4 rs.length) (put o.out rs.flatten s)

/-- The stitch of a job that still acts for it: one that runs and has not been stopped. -/
def jobOwner (s : State) (j : PpuJob) : Option (Partition × Stitch × Model) :=
  if j.left then none
  else
    match coreStitch s j.core with
    | some (p, t, m) => if t.stop.isSome then none else some (p, t, m)
    | none => none

/-- What a job's pointers reach, as a partition of its stitch's quads: all that R222 asks of one. -/
def jobReach (j : PpuJob) : Partition := ⟨0, 0, j.quads, 0, 0, 0, 0, [], [], none, none, 0, none, [], [], [], 0, 0, 0, 0, [], false⟩

/-- A job has read and written what it names: its inputs are `ins`, its outputs `outs`. Results of poisoned inputs, and
results that a poisoned line drops, are escalated; poison that a re-run mends stops the job without results (R190, R342,
R724). -/
def closePpuJob (p : Partition) (owner : Option (Partition × Stitch × Model)) (stack : Nat) (o : PpuOp) (rs : List (List Byte))
    (ins outs : List (Nat × Nat)) (lostTags : List Nat) (s : State) : State :=
  let at_ (l : List (Nat × Nat)) : List (Nat × Nat) := (l.map fun x => reachPieces p x.1 x.2).flatten
  let bad := badPieces s (at_ ins)
  let lost := dropsPiece lostTags s (at_ outs)
  let s := modJob stack (fun j => some { j with done := true }) s
  match owner.bind fun x => poisonRerun x.1 x.2.1 x.2.2 bad s with
  | some s => s
  | none =>
    uncorrectable (!bad.isEmpty || lost) (writeResults lostTags p o rs s)

/-- The running job of a unit is carried out, when it is of operation `op`: also when its stitch has been stopped or has ended
since it started (R197). A job whose own line has another tag fails before its operation is known (R17). -/
def runJob (op stack : Nat) (ecc : List (Nat × EccFinding)) (s : State) : State :=
  match runningJob s stack with
  | none => s
  | some j =>
    let owner := jobOwner s j
    let p := jobReach j
    let o := PpuOp.parse (reachRead s p j.addr 64)
    let stale := decide (tagged s j.addr 64 < 64)
    if j.done = true ∨ (o.op ≠ op ∧ stale = false) then s
    else
      let counts := if o.counted then [(o.in1, 4)] else []
      let n := if o.counted then min o.n (leNat (reachRead s p o.in1 4)) else o.n
      let ins := [(j.addr, 64)] ++ (if stale then [] else counts ++ o.reads n)
      let rs := PpuOp.results o n ((o.reads n).map fun x => reachRead s p x.1 x.2)
      let outs := if stale then [] else [(o.out, rs.flatten.length), (o.outn, 4)]
      let lines (l : List (Nat × Nat)) := ((l.filter fun x => ptrOk p x.1 x.2).map fun x => reachPieces p x.1 x.2).flatten
      let s := accessPieces false (lines ins) (carry stack true (lines outs) (carry stack false (lines ins) (upset ecc s)))
      let lostTags := badTags s (lines outs)
      let s := accessPieces true (lines outs) s
      match (ins ++ outs).find? fun x => (reachStop s p x).isSome with
      | some x =>
        let st := (reachStop s p x).getD stBadPointer
        let s := modJob stack (fun j => some { j with done := true }) s
        let s := if st = stStalePointer then countStale x.1 (tagged s x.1 x.2) s else s
        match owner with
        | some (p, t, _) => stopStitch p t.id st 0 false s
        | none => s
      | none => closePpuJob p owner stack o rs ins outs lostTags s

/-- `BOXDEC` (R200). -/
def execPpuBoxdec (stack : Nat) (ecc : List (Nat × EccFinding)) (s : State) : Result := .next (runJob 1 stack ecc s)
/-- `NMS` (R202). -/
def execPpuNms (stack : Nat) (ecc : List (Nat × EccFinding)) (s : State) : Result := .next (runJob 2 stack ecc s)
/-- `TOPK` (R202). -/
def execPpuTopk (stack : Nat) (ecc : List (Nat × EccFinding)) (s : State) : Result := .next (runJob 3 stack ecc s)
/-- `IOU` (R201). -/
def execPpuIou (stack : Nat) (ecc : List (Nat × EccFinding)) (s : State) : Result := .next (runJob 4 stack ecc s)
/-- `ASSIGN` (R203). -/
def execPpuAssign (stack : Nat) (ecc : List (Nat × EccFinding)) (s : State) : Result := .next (runJob 5 stack ecc s)

/-- A job whose results are written leaves its unit, which starts the next (R197); its descriptor is then complete. -/
def execPpuJobEnd (stack : Nat) (s : State) : Result :=
  match runningJob s stack with
  | none => .next s
  | some j =>
    if j.done = false then .next s
    else
      let s := modJob stack (fun _ => none) s
      .next (if j.left then s else modHead j.core j.shuttle (fun d => { d with ppuDone := true }) s)

/-! ## Double-bit errors (R136, R160, R724) -/

/-- A double-bit error in a hoop or in scratch: the stitch is re-run from its start. -/
def execComputeUncorrectableError (core : Nat) (place : UePlace) (s : State) : Result :=
  match coreStitch s core, place with
  | some (p, t, m), _ =>
    if t.stop.isSome ∨ s.fw.heldComplete.contains t.id then .next s else .next (rerunFor fkComputeUe 0 0 p t m s)
  | none, _ => .next s

end Machine
end Sys2Proof
end

