-- ==== Sys2Proof/Machine/Pricking.lean ====
section
/-! DEFINITION. The pricking container and the checks of the loader that follow no path of the code (chapter 7,
Tables 7-1 to 7-12; R211 to R243, R794). -/

namespace Sys2Proof

/-- A section: its directory entry (Table 7-2) and its bytes. -/
structure Section where
  type : Nat
  role : Nat
  count : Nat
  offset : Nat
  size : Nat
  /-- reserved bytes of the entry are zero -/
  clean : Bool
  bytes : List Byte
  deriving DecidableEq, Repr

/-- A tensor descriptor (Table 7-8). -/
structure Tensor where
  kind : Nat
  fmt : Nat
  gran : Nat
  heads : Bool
  place : Nat
  scalePlace : Nat
  d0 : Nat
  d1 : Nat
  d2 : Nat
  offset : Nat
  /-- reserved bits are zero -/
  clean : Bool
  deriving DecidableEq, Repr

/-- A pricking as its image gives it: sections and tables, with no regard to whether they pass the checks. -/
structure Pricking where
  image : List Byte
  sections : List Section
  /-- directory index of each place's BLOB, in the order of the places -/
  places : List (Place × Bool)
  relocs : List (Reloc × Bool)
  tensors : List Tensor
  lens : List LenDef
  knots : List Nat
  templates : List Template
  deriving DecidableEq, Repr

/-- The directory of an image. -/
def parseSections (img : List Byte) : List Section :=
  let dir := field img 0x18 8
  (List.range (min (field img 0x10 4) 4096)).map fun i =>
    let e := (img.drop (dir + 32 * i)).take 32
    { type := field e 0 2, role := field e 2 2, count := field e 4 4, offset := field e 8 8, size := field e 0x10 8,
      clean := decide (field e 0x18 8 = 0), bytes := (img.drop (field e 8 8)).take (field e 0x10 8) }

/-- The section of a type and role. -/
def findSection (l : List Section) (type role : Nat) : Option Section :=
  l.find? fun x => decide (x.type = type) && decide (x.role = role)

/-- Bytes of the section of a type and role, none without one. -/
def sectionBytes (l : List Section) (type role : Nat) : List Byte := ((findSection l type role).map (·.bytes)).getD []

/-- COUNT of the section of a type and role. -/
def sectionCount (l : List Section) (type role : Nat) : Nat := ((findSection l type role).map (·.count)).getD 0

/-- The entries of a tabled section. -/
def tableOf (l : List Section) (type role size : Nat) : List (List Byte) :=
  let bs := sectionBytes l type role
  (List.range (min (sectionCount l type role) (bs.length / size))).map fun i => (bs.drop (size * i)).take size

/-- A place from its 32 bytes, with whether its FLAGS and reserved bytes are clean. -/
def parsePlace (b : List Byte) : Place × Bool :=
  ({ space := field b 0 1, writable := (field b 1 1).testBit 0, stack := field b 2 1, offset := field b 8 8,
     size := field b 0x10 8, sect := field b 0x18 2 },
   decide (field b 1 1 < 2) && zeroOutside b [(0, 3), (8, 0x12)])

/-- A relocation from its 16 bytes. -/
def parseReloc (b : List Byte) : Reloc × Bool :=
  ({ kind := field b 0 1, holder := field b 2 2, index := field b 4 4, target := field b 8 2 },
   zeroOutside b [(0, 1), (2, 8)])

/-- A tensor descriptor from its 32 bytes. -/
def parseTensor (b : List Byte) : Tensor where
  kind := field b 0 1
  fmt := field b 1 1
  gran := field b 2 1
  heads := (field b 3 1).testBit 0
  place := field b 4 2
  scalePlace := field b 6 2
  d0 := field b 8 4
  d1 := field b 0xC 4
  d2 := field b 0x10 4
  offset := field b 0x18 8
  clean := decide (field b 3 1 < 2) && decide (field b 0x14 4 = 0)

/-- A length-register definition from its 16 bytes. -/
def parseLen (b : List Byte) : LenDef where
  reg := field b 0 1
  source := field b 1 1
  arg := field b 2 2
  xform := field b 4 1
  unit := field b 6 2
  min := field b 8 4
  max := field b 0xC 4

/-- A tile-skip entry from its 8 bytes. -/
def parseSkip (b : List Byte) : TileSkip where
  lreg := field b 0 1
  mask := (field b 1 1).testBit 0
  array := bitsAt (field b 1 1) 1 2
  target := field b 2 2
  base := field b 4 4

/-- A template entry from its 16 bytes. -/
def parseEntry (b : List Byte) : TemplateEntry where
  kind := field b 0 1
  index := field b 2 2
  length := field b 4 4
  offset := field b 8 8

/-- Lists of a TEMPLATE section, each with its header's LIST and whether its reserved bytes are zero. -/
def parseTemplates : Nat → List Byte → List (Nat × Bool × Template)
  | 0, _ => []
  | n + 1, bs =>
    let k := field bs 2 2
    let es := (List.range k).map fun i => (bs.drop (16 + 16 * i)).take 16
    (field bs 0 2, decide (field bs 6 2 = 0) && es.all (fun e => decide (field e 1 1 = 0)),
      { place := field bs 4 2, offset := field bs 8 8, entries := es.map parseEntry }) ::
      parseTemplates n (bs.drop (16 + 16 * k))

/-- Bytes that the lists of a TEMPLATE section take (R214, R237). -/
def templateBytes : Nat → List Byte → Nat
  | 0, _ => 0
  | n + 1, bs =>
    let k := 16 + 16 * field bs 2 2
    k + templateBytes n (bs.drop k)

/-- A pricking from its image. -/
def Pricking.parse (img : List Byte) : Pricking :=
  let l := parseSections img
  { image := img
    sections := l
    places := (tableOf l 6 0 32).map parsePlace
    relocs := (tableOf l 7 0 16).map parseReloc
    tensors := (tableOf l 9 0 32).map parseTensor
    lens := (tableOf l 11 0 16).map parseLen
    knots := (tableOf l 13 0 16).map leNat
    templates := (parseTemplates (sectionCount l 10 0) (sectionBytes l 10 0)).map (·.2.2) }

/-! ## The resource table (Table 7-4) -/

def Pricking.res (p : Pricking) : List Byte := sectionBytes p.sections 1 0
def Pricking.quads (p : Pricking) : Nat := field p.res 0 2
def Pricking.nStacks (p : Pricking) : Nat := field p.res 2 1
def Pricking.cls (p : Pricking) : Nat := field p.res 3 1
def Pricking.roles (p : Pricking) : Nat := field p.res 4 2
def Pricking.units (p : Pricking) : Nat := field p.res 7 1
def Pricking.scratchBytes (p : Pricking) : Nat := field p.res 8 4
def Pricking.entries (p : Pricking) : Nat := field p.res 0xC 4
def Pricking.pillowRo (p : Pricking) : Nat := field p.res 0x10 8
def Pricking.pillowRw (p : Pricking) : Nat := field p.res 0x18 8
def Pricking.ddrRo (p : Pricking) : Nat := field p.res 0x20 8
def Pricking.ddrRw (p : Pricking) : Nat := field p.res 0x28 8
def Pricking.hubRw (p : Pricking) : Nat := field p.res 0x30 4
def Pricking.stitchCycles (p : Pricking) : Nat := field p.res 0x38 8

/-- Bundles of a role, and how many. -/
def Pricking.code (p : Pricking) (role : Nat) : List Byte := sectionBytes p.sections 4 role
def Pricking.ncode (p : Pricking) (role : Nat) : Nat := sectionCount p.sections 4 role
/-- Descriptors of a role, 64 bytes each. -/
def Pricking.descs (p : Pricking) (role : Nat) : List (List Byte) := tableOf p.sections 5 role 64
/-- Tile-skip entries of a role. -/
def Pricking.skips (p : Pricking) (role : Nat) : List (List Byte) := tableOf p.sections 12 role 8
/-- The role map: role and hoop demand of each partition core (R219). -/
def Pricking.roleMap (p : Pricking) : List (Nat × Nat) :=
  (tableOf p.sections 2 0 4).map fun b => (field b 0 2, field b 2 1)
/-- Role of a partition core. -/
def Pricking.roleAt (p : Pricking) (k : Nat) : Nat := ((p.roleMap[k]?).map (·.1)).getD 0
/-- ENTRY entries: entry point, role, bundle (R231). -/
def Pricking.entryList (p : Pricking) : List (Nat × Nat × Nat) :=
  (tableOf p.sections 3 0 8).map fun b => (field b 0 1, field b 2 2, field b 4 2)
/-- The slots of a kind over the bundles of a role, none where not VALID. -/
def Pricking.slots (p : Pricking) (role i : Nat) : List Nat :=
  (List.range (p.ncode role)).filterMap fun n => slotOf (bundleAt (p.code role) n) i
/-- Roles by number. -/
def Pricking.roleList (p : Pricking) : List Nat := List.range p.roles
/-- Bytes of the BLOB of place `i`. -/
def Pricking.blob (p : Pricking) (i : Nat) : List Byte :=
  (((p.places[i]?).bind fun pl => p.sections[pl.1.sect]?).map (·.bytes)).getD []

/-! ## Checks, one for each subcode of Table 7-12; each says that the condition holds -/

/-- HEADER (Table 7-1). -/
def headerOk (img : List Byte) (total : Nat) : Bool :=
  decide (256 ≤ img.length) && decide (field img 0 4 = 0x50584A54) && decide (field img 4 1 = 1) &&
    decide (field img 8 8 = total) && decide (total = img.length) && decide (total % 64 = 0) &&
    decide (total ≤ 32 * 2 ^ 30) && decide (1 ≤ field img 0x10 4 ∧ field img 0x10 4 ≤ 4096) &&
    decide (field img 6 1 < 2) && decide (field img 7 1 = 0) && decide (field img 0x14 4 = 0) &&
    decide (field img 0x30 16 = 0) && decide (field img 0xC0 64 = 0)

/-- GENERATION (R21). -/
def generationOk (img : List Byte) : Bool := decide (field img 5 1 % 2 = 1) && decide (field img 5 1 < 8)

/-- DIGEST as R213 computes it. -/
def prickingDigest (img : List Byte) : List Byte := sm3 (img.take 0x40 ++ zeroBytes 0xA0 ++ img.drop 0xE0)

/-- DIGEST (R213). -/
def digestOk (img : List Byte) : Bool := decide (prickingDigest img = (img.drop 0x40).take 32)

/-- SIGNATURE (Table 25-2, R762): a signed pricking verifies by a trusted key; an unsigned one is accepted under the PERMITTED
policy alone. -/
def signatureOk (img : List Byte) (required : Bool) (valid : BitVec 4) : Bool :=
  let digest := (img.drop 0x40).take 32
  let sig := (img.drop 0x60).take 64
  let signer := (img.drop 0xA0).take 32
  if (field img 6 1).testBit 0 then
    (List.range 4).any fun k =>
      let d := Config.ownerKeyDigest ⟨k % 4, Nat.mod_lt _ (by decide)⟩
      decide (d ≠ zeroBytes 32) && decide (d = signer) && valid.getLsbD k &&
        Config.ownerVerify ⟨k % 4, Nat.mod_lt _ (by decide)⟩ digest sig
  else !required

/-- Ranges given as start and length do not overlap, empty ones apart. -/
def disjoint : List (Nat × Nat) → Bool
  | [] => true
  | a :: l =>
    (l.all fun b => decide (a.2 = 0) || decide (b.2 = 0) || decide (a.1 + a.2 ≤ b.1) || decide (b.1 + b.2 ≤ a.1)) && disjoint l

/-- Entry size of a tabled section type (R214). -/
def entrySize (type : Nat) : Option Nat :=
  match type with
  | 1 => some 64
  | 2 => some 4
  | 3 => some 8
  | 4 => some 32
  | 5 => some 64
  | 6 => some 32
  | 7 => some 16
  | 9 => some 32
  | 11 => some 16
  | 12 => some 8
  | 13 => some 16
  | _ => none

/-- The range of COUNT of a section type (R217, R220, R232, R233, R235). -/
def countOk (type count : Nat) : Bool :=
  match type with
  | 1 => decide (count = 1)
  | 4 => decide (1 ≤ count ∧ count ≤ 16384)
  | 5 => decide (count ≤ 1024)
  | 11 | 13 => decide (count ≤ 16)
  | 12 => decide (count ≤ 1024)
  | 8 | 14 | 15 => decide (count = 0)
  | _ => true

/-- A VOCAB section's sizes agree and its fields are in range (R516, R240). -/
def vocabOk (b : List Byte) : Bool :=
  let n := field b 4 4
  let bytes := field b 8 4
  decide (32 ≤ b.length) && decide (n ≤ 262144) && decide (b.length = 32 + 8 * n + bytes) && decide (field b 2 2 = 0) &&
    decide (field b 0xC 20 = 0) &&
    (List.range n).all fun i =>
      let e := (b.drop (32 + 8 * i)).take 8
      decide (field e 4 2 ≤ 255) && decide (field e 0 4 + field e 4 2 ≤ bytes) && decide (field e 6 2 = 0)

/-- A directory entry by itself (R211, R214 to R216, R220, R237). -/
def sectionOk (total : Nat) (x : Section) : Bool :=
  decide (1 ≤ x.type ∧ x.type ≤ 15) && x.clean && decide (x.offset % 64 = 0) && decide (x.offset + x.size ≤ total) &&
    ([4, 5, 12].contains x.type || decide (x.role = 0)) && countOk x.type x.count &&
    (match entrySize x.type with
    | some n => decide (x.size = x.count * n)
    | none => true) &&
    (decide (x.type ≠ 10) || decide (x.size = templateBytes x.count x.bytes)) && (decide (x.type ≠ 15) || vocabOk x.bytes)

/-- Sections of a type and role that there are. -/
def sectionsOf (l : List Section) (type role : Nat) : Nat :=
  (l.filter fun x => decide (x.type = type) && decide (x.role = role)).length

/-- DIRECTORY (R211, R214 to R216, R220, R237, R516). -/
def directoryOk (p : Pricking) : Bool :=
  let total := p.image.length
  let dir := field p.image 0x18 8
  let n := field p.image 0x10 4
  decide (dir % 64 = 0) && decide (dir + 32 * n ≤ total) && (p.sections.all (sectionOk total)) &&
    (p.sections.all fun x => decide (x.type = 8) || decide (sectionsOf p.sections x.type x.role = 1)) &&
    ([1, 2, 3, 9].all fun t => (findSection p.sections t 0).isSome) &&
    disjoint ((0, 256) :: (dir, 32 * n) :: p.sections.map fun x => (x.offset, x.size))

/-- A bobbin layout from its 32 bytes (Table 10-1). -/
def parseLayout (b : List Byte) : BobbinLayout where
  layers := field b 0 2
  latW := field b 2 2
  anchors := field b 4 1
  absorbed := (field b 5 1).testBit 0
  anchorD := field b 6 2
  slots := field b 8 2
  stage := field b 0xA 2
  decay := BitVec.ofNat 32 (field b 0xC 4)
  maxPosLimit := field b 0x10 4

/-- A bobbin layout keeps Table 10-1 and R288. -/
def layoutOk (b : List Byte) : Bool :=
  let l := parseLayout b
  let d := fp32 l.decay
  decide (1 ≤ l.layers ∧ l.layers ≤ 256) && decide (l.latW % 32 = 0 ∧ l.latW ≤ 1024) && decide (l.anchors ≤ 4) &&
    decide (field b 5 1 < 2) && decide (field b 0x14 12 = 0) &&
    (if l.anchors = 0 then decide (l.anchorD = 0) && decide (l.slots = 0)
    else
      decide (l.anchorD % 32 = 0 ∧ 32 ≤ l.anchorD ∧ l.anchorD ≤ 256) &&
        decide (l.slots % 64 = 0 ∧ 64 ≤ l.slots ∧ l.slots ≤ 4096)) &&
    decide (1 ≤ l.stage ∧ l.stage ≤ 1024) && decide (1 ≤ l.maxPosLimit ∧ l.maxPosLimit ≤ 65536) &&
    (fp32 0).lt d && !(fp32 0x3F800000).lt d && (decide (l.latW ≠ 0) || decide (l.anchors ≠ 0)) &&
    (!l.absorbed || decide (l.latW ≠ 0))

/-- The bobbin layouts of a pricking (R287). -/
def Pricking.layouts (p : Pricking) : List (List Byte) :=
  let b := sectionBytes p.sections 14 0
  (List.range (min (field b 0 2) 16)).map fun i => (b.drop (16 + 32 * i)).take 32

/-- The BOBBIN_LAYOUT section keeps R287 and R288. -/
def layoutsOk (p : Pricking) : Bool :=
  match findSection p.sections 14 0 with
  | none => true
  | some x =>
    let n := field x.bytes 0 2
    decide (1 ≤ n ∧ n ≤ 16) && decide (x.size = 16 + 32 * n) && decide (field x.bytes 2 14 = 0) && p.layouts.all layoutOk

/-- Units that the code of a pricking uses, as UNITS bits. -/
def Pricking.used (p : Pricking) : Nat :=
  p.roleList.foldl
    (fun u r => (p.slots r 3).foldl
      (fun u v =>
        let u := u ||| 2 ^ bitsAt v 2 1
        if bitsAt v 0 2 = 0 ∧ ((p.descs r)[bitsAt v 3 16]?).any (fun d => decide (field d 0 1 = 5)) then u ||| 4 else u) u) 0

/-- RESOURCE (Table 7-4, R288). -/
def resourceOk (p : Pricking) : Bool :=
  [1, 2, 4].contains p.nStacks && decide (1 ≤ p.quads ∧ p.quads ≤ 32) && decide (p.quads % p.nStacks = 0) &&
    decide (p.cls < 4) && decide (1 ≤ p.roles ∧ p.roles ≤ 128) && decide (field p.res 6 1 = 2) && decide (p.units < 8) &&
    decide (p.scratchBytes ≤ 8388608) && decide (1 ≤ p.entries ∧ p.entries ≤ 16) &&
    decide (p.pillowRo + p.pillowRw ≤ 768 * 2 ^ 20) && decide (p.hubRw ≤ 16 * 2 ^ 20) && decide (field p.res 0x34 4 = 0) &&
    decide (p.used &&& (7 - p.units) = 0) && layoutsOk p

/-- ROLE_MAP (R219, R231). -/
def roleMapOk (p : Pricking) : Bool :=
  let es := tableOf p.sections 3 0 8
  let points := (p.entryList.map (·.1)).eraseDups
  decide (sectionCount p.sections 2 0 = 4 * p.quads) &&
    ((tableOf p.sections 2 0 4).all fun b => decide (field b 0 2 < p.roles) && decide (field b 3 1 = 0)) &&
    (p.roleList.all fun r => (findSection p.sections 4 r).isSome) &&
    (p.sections.all fun x => !([4, 5, 12].contains x.type) || decide (x.role < p.roles)) &&
    (es.all fun b =>
      decide (field b 0 1 ≤ 15) && decide (field b 1 1 = 0) && decide (field b 6 2 = 0) && decide (field b 2 2 < p.roles) &&
        decide (field b 4 2 < p.ncode (field b 2 2))) &&
    decide (points.length = p.entries) &&
    (points.all fun e => p.roleList.all fun r =>
      decide ((p.entryList.filter fun x => decide (x.1 = e) && decide (x.2.1 = r)).length = 1)) &&
    decide (es.length = p.entries * p.roles)

/-- Declared hoop demands are at most 2 (R122). -/
def demandsOk (p : Pricking) : Bool := p.roleMap.all fun r => (List.range 4).all fun a => decide (bitsAt r.2 (2 * a) 2 ≤ 2)

/-- Format codes are none of the reserved ones, and each array operation's own format pairs in its mode (R41, R56). -/
def formatsOk (p : Pricking) : Bool :=
  (p.tensors.all fun t => fmtCodes.contains t.fmt) &&
    p.roleList.all fun r => (p.slots r 0).all fun v =>
      let a := ArraySlot.parse v
      decide (a.op = 3) || (fmtCodes.contains a.fmt && (decide (5 < a.mode) || a.fmtOk))

/-- A tensor keeps Table 7-8, Table 5-1, R138 and R51, and lies in its place. -/
def tensorOk (p : Pricking) (t : Tensor) : Bool :=
  let size := ceilDiv (t.d0 * elemBits t.fmt) 8 * t.d1 * t.d2
  t.clean && decide (t.kind ≤ 3) && decide (t.gran ≤ 4) && decide (isMx t.fmt = decide (t.gran = 3)) &&
    (decide (t.gran ≠ 2) || decide (t.kind = 0)) && (decide (t.gran ≠ 4) || (decide (t.kind = 0) && decide (t.fmt = 0x40))) &&
    (!(isMx t.fmt) || decide (t.d0 % 32 = 0)) &&
    (decide (t.scalePlace = 0xFFFF) || decide (t.scalePlace < p.places.length)) &&
    (decide (t.place = 0xFFFF) || match p.places[t.place]? with
      | none => false
      | some pl => decide (t.offset + size ≤ pl.1.size))

/-- EMPTY_OUTPUT (R230). -/
def outputsOk (p : Pricking) : Bool :=
  p.tensors.all fun t => decide (t.kind ≠ 2) || (decide (t.d0 ≠ 0) && decide (t.d1 ≠ 0) && decide (t.d2 ≠ 0))

/-- HEAD_SPLIT (R230). -/
def headsOk (p : Pricking) : Bool := p.tensors.all fun t => !t.heads || decide (t.d2 % 4 = 0)

/-- Bytes of the region that a place lies in (R224). -/
def Pricking.regionBytes (p : Pricking) (pl : Place) : Nat :=
  match pl.space, pl.writable with
  | 1, false => p.pillowRo
  | 1, true => p.pillowRw
  | 2, false => p.ddrRo
  | 2, true => p.ddrRw
  | 3, true => p.hubRw
  | _, _ => 0

/-- A place by itself (R223, R224). -/
def placeOk (p : Pricking) (x : Place × Bool) : Bool :=
  let pl := x.1
  x.2 && decide (1 ≤ pl.space ∧ pl.space ≤ 3) &&
    (if pl.space = 1 then decide (pl.stack = 0xFF) || decide (pl.stack < p.nStacks) else decide (pl.stack = 0)) &&
    decide (pl.offset % 64 = 0) && decide (64 ≤ pl.size) && decide (pl.offset + pl.size ≤ p.regionBytes pl) &&
    (if pl.writable then decide (pl.sect = 0xFFFF)
    else match p.sections[pl.sect]? with
      | none => false
      | some s => decide (s.type = 8) && decide (s.size = pl.size))

/-- Two places of one region, and of one stack for pillow, do not overlap (R224). -/
def placesApart (a b : Place) : Bool :=
  decide (a.space ≠ b.space) || decide (a.writable ≠ b.writable) ||
    (decide (a.space = 1) && decide (a.stack ≠ 0xFF) && decide (b.stack ≠ 0xFF) && decide (a.stack ≠ b.stack)) ||
    decide (a.offset + a.size ≤ b.offset) || decide (b.offset + b.size ≤ a.offset)

/-- Every two of a list meet a test. -/
def allPairs {α : Type} (test : α → α → Bool) : List α → Bool
  | [] => true
  | x :: l => l.all (test x) && allPairs test l

/-- A pointer is well formed under R14 and R15 with its address `a`. -/
def pointerShapeOk (ptr a : Nat) : Bool :=
  let pool := ptrPool ptr
  if pool = 0 then decide (ptrGen ptr = 0) else decide (pool ≤ 64) && decide (a < Machine.ddrEnd)

/-- A fixed address meets R794. -/
def fixedOk (p : Pricking) (ptr : Nat) : Bool :=
  let a := ptrAddr ptr
  pointerShapeOk ptr a && (Machine.areaOf a).shared &&
    (decide (Machine.areaOf a ≠ .scratch) || decide ((a - Machine.scratchBase) / Machine.scratchBytes < 4 * p.quads))

/-- The pointer that a relocation changes, before it (R228). -/
def Pricking.pointerOf (p : Pricking) (r : Reloc) : Option Nat :=
  match r.kind with
  | 1 => ((p.descs r.holder)[r.index]?).map fun d => field d 8 8
  | 2 => ((p.descs r.holder)[r.index]?).map fun d => field d 16 8
  | _ => some (field (p.blob r.holder) r.index 8)

/-- A relocation keeps Table 7-7, R226, R228, R229 and R794. -/
def relocOk (p : Pricking) (x : Reloc × Bool) : Bool :=
  let r := x.1
  x.2 && decide (1 ≤ r.kind ∧ r.kind ≤ 3) &&
    match p.places[r.target]?, p.pointerOf r with
    | some t, some ptr =>
      decide (ptrAddr ptr < t.1.size) && (if t.1.space = 2 then pointerShapeOk ptr 0 else decide (ptr < 2 ^ 40)) &&
        (if r.kind = 3 then
          match p.places[r.holder]? with
          | none => false
          | some h =>
            decide (r.index % 8 = 0) && decide (r.index + 8 ≤ h.1.size) && !h.1.writable && !t.1.writable &&
              (decide (h.1.space ≠ 2) || decide (t.1.space = 2))
        else decide (r.holder < p.roles) && (decide (r.kind ≠ 2) || t.1.writable))
    | _, _ => false

/-- No two relocations name one pointer: after the first it would hold no offset below its place's SIZE (R228, R794). -/
def relocsApart (p : Pricking) : Bool :=
  allPairs (fun a b => decide ((a.1.kind, a.1.holder, a.1.index) ≠ (b.1.kind, b.1.holder, b.1.index))) p.relocs

/-- The emit place is a writable place of at least 64 bytes (R516). -/
def emitOk (p : Pricking) : Bool :=
  match findSection p.sections 15 0 with
  | none => true
  | some x => match p.places[field x.bytes 0 2]? with
    | none => false
    | some pl => pl.1.writable && decide (64 ≤ pl.1.size)

/-- The jobs that a pricking holds in read-only places: place and offset (R184, R197). -/
def Pricking.jobs (p : Pricking) : List (Nat × Nat) :=
  (p.relocs.filterMap fun r =>
    if r.1.kind = 1 then
      match (p.descs r.1.holder)[r.1.index]?, p.places[r.1.target]? with
      | some d, some pl =>
        if field d 0 1 = 5 ∧ pl.1.writable = false then some (r.1.target, ptrAddr (field d 8 8)) else none
      | _, _ => none
    else none).eraseDups

/-- No job's OUT or OUTN is relocated: the target of a relocation inside a place is read-only (R226, R229). -/
def jobsWriteOk (p : Pricking) : Bool :=
  p.jobs.all fun j => [0x20, 0x28].all fun o =>
    !p.relocs.any fun r => decide (r.1.kind = 3) && decide (r.1.holder = j.1) && decide (r.1.index = j.2 + o)

/-- PLACEMENT (R223 to R226, R228, R229, R516, R794). -/
def placementOk (p : Pricking) : Bool :=
  p.places.all (placeOk p) && allPairs placesApart (p.places.map (·.1)) && p.relocs.all (relocOk p) && relocsApart p && emitOk p &&
    jobsWriteOk p

/-- CODE, as far as it follows no path. -/
def bundlesOk (p : Pricking) : Bool := p.roleList.all fun r => codeOk (p.code r) (p.ncode r) (p.skips r).length

/-- A pointer of a descriptor is relocated. -/
def Pricking.relocated (p : Pricking) (role i kind : Nat) : Bool :=
  p.relocs.any fun r => decide (r.1.kind = kind) && decide (r.1.holder = role) && decide (r.1.index = i)

/-- SHUTTLE (Table 6-10, R184, R794). -/
def shuttleOk (p : Pricking) : Bool :=
  p.roleList.all fun r =>
    let ds := p.descs r
    ((List.range ds.length).all fun i =>
      let b := ds.getD i []
      let d := Desc.parse b
      descOk b && (d.srcSlot || p.relocated r i 1 || fixedOk p d.src.toNat) &&
        (decide (d.form = 5) || d.dstSlot || p.relocated r i 2 || fixedOk p d.dst.toNat)) &&
      (p.slots r 3).all fun v => decide (bitsAt v 0 2 ≠ 0) || decide (bitsAt v 3 16 < ds.length)

/-- A job keeps the limits of Table 6-12, and its reserved bits are zero (R204). -/
def jobOk (b : List Byte) : Bool :=
  let o := PpuOp.parse b
  decide (1 ≤ o.op ∧ o.op ≤ 5) && decide (field b 1 1 < 4) && decide (field b 0x32 14 = 0) && decide (o.boxfmt ≤ 1) &&
    decide (o.infmt = 0x32 ∨ o.infmt = 0x30) &&
    match o.op with
    | 1 => decide (o.n ≤ 16384) && decide (o.c ≤ 1024)
    | 2 | 3 => decide (o.n ≤ 16384) && decide (o.k ≤ 1024)
    | _ => decide (o.n ≤ 256) && decide (o.k ≤ 256)

/-- PPU_JOB (R204, R794): the pointer fields IN0 to OUTN that no relocation changes are fixed addresses. -/
def ppuJobsOk (p : Pricking) : Bool :=
  p.jobs.all fun j =>
    let b := ((p.blob j.1).drop j.2).take 64
    decide (b.length = 64) && jobOk b &&
      [0x10, 0x18, 0x20, 0x28].all fun o =>
        (p.relocs.any fun r => decide (r.1.kind = 3) && decide (r.1.holder = j.1) && decide (r.1.index = j.2 + o)) ||
          fixedOk p (field b o 8)

/-- KNOT (R232). -/
def knotsOk (p : Pricking) : Bool :=
  let n := 4 * p.quads
  let uses (k i : Nat) : Bool := (p.slots (p.roleAt k) 4).any fun v => decide (bitsAt v 0 6 = 3) && decide (bitsAt v 6 4 = i)
  (p.knots.all fun m => decide (m < 2 ^ n)) &&
    (List.range 16).all fun i => (List.range n).all fun k => decide ((p.knots.getD i 0).testBit k = uses k i)

/-- LENGTH (Table 7-9). -/
def lengthsOk (p : Pricking) : Bool :=
  ((tableOf p.sections 11 0 16).all fun b => decide (field b 5 1 = 0)) &&
    (p.lens.all fun d =>
      decide (d.reg ≤ 15) && decide (1 ≤ d.source ∧ d.source ≤ 3) && decide (d.arg ≤ (if d.source = 1 then 15 else 127)) &&
        decide (d.xform ≤ 3) && decide (1 ≤ d.unit) && (decide (d.xform ≠ 0) || decide (d.unit = 1)) &&
        decide (d.max ≤ 2 ^ 24) && decide (d.min ≤ d.max)) &&
    allPairs (fun a b => decide (a.reg ≠ b.reg)) p.lens

/-- TILE_SKIP (Table 7-10). -/
def skipsOk (p : Pricking) : Bool :=
  p.roleList.all fun r => (p.skips r).all fun b =>
    decide (field b 0 1 ≤ 15) && decide (field b 1 1 < 8) && decide (field b 2 2 < p.ncode r) && decide (field b 4 4 < 2 ^ 24)

/-- TEMPLATE (Table 7-11). -/
def templatesOk (p : Pricking) : Bool :=
  let ls := parseTemplates (sectionCount p.sections 10 0) (sectionBytes p.sections 10 0)
  ((List.range ls.length).zip ls).all (fun x =>
    let t := x.2.2.2
    let n := t.entries.length
    decide (x.2.1 = x.1) && x.2.2.1 && decide (1 ≤ n ∧ n ≤ 4096) && decide (t.offset % 16 = 0) &&
      (match p.places[t.place]? with
      | none => false
      | some pl => pl.1.writable && decide (t.offset + 16 * n ≤ pl.1.size)) &&
      t.entries.all fun e =>
        decide (1 ≤ e.kind ∧ e.kind ≤ 3) && decide (e.index < (if e.kind = 1 then p.places.length else 128))) &&
    allPairs (fun a b => decide (a.place ≠ b.place) || disjoint [(a.offset, 16 * a.entries.length), (b.offset, 16 * b.entries.length)])
      p.templates

/-- STITCH_CYCLES is within the bound of its class: 25 ms, or the best-effort bound in force, at 1.5 GHz (R243). -/
def classOk (p : Pricking) (beBoundMs : Nat) : Bool :=
  decide (p.stitchCycles ≤ (if p.cls % 2 = 1 then 37500000 else beBoundMs * 1500000))

/-! ## The loaded model -/

/-- One more than the highest slot that a model references, 0 for none (R486). -/
def Pricking.slotsNeeded (p : Pricking) : Nat :=
  let ds := (p.roleList.map fun r => (p.descs r).map Desc.parse).flatten
  let a := ds.filterMap fun d => if d.form ≠ 5 ∧ (d.gate || d.srcSlot || d.dstSlot) then some (d.slot + 1) else none
  let b := p.lens.filterMap fun d => if d.source = 1 then none else some (d.arg + 1)
  let c := (p.templates.map fun t => t.entries.filterMap fun e => if e.kind = 1 then none else some (e.index + 1)).flatten
  (a ++ b ++ c).foldl max 0

/-- The strings of the vocabulary (Table 17-5). -/
def Pricking.vocab (p : Pricking) : List (List Byte) :=
  let b := sectionBytes p.sections 15 0
  let n := field b 4 4
  (List.range (min n 262144)).map fun i =>
    (b.drop (32 + 8 * n + field b (32 + 8 * i) 4)).take (field b (36 + 8 * i) 2)

/-- Bytes of DDR that a model's read-only places take: its DDR places, then the copies of its pillow places (R225). -/
def Pricking.ddrBytes (p : Pricking) : Nat :=
  (p.places.filter fun x => decide (x.1.space = 1) && !x.1.writable).foldl (fun n x => n + roundUp 64 x.1.size)
    (roundUp 64 p.ddrRo)

/-- The model that a pricking makes, with its handle, owner, DDR and order. -/
def Pricking.model (p : Pricking) (handle session : Handle) (ddrBase ddrBytes order : Nat) : Model where
  handle := handle
  session := session
  modelId := field p.image 0x20 16
  digest := (p.image.drop 0x40).take 32
  quads := p.quads
  nStacks := p.nStacks
  lcEligible := p.cls.testBit 0
  replaySafe := p.cls.testBit 1
  pillowRo := p.pillowRo
  pillowRw := p.pillowRw
  ddrRo := p.ddrRo
  ddrRw := p.ddrRw
  hubRw := p.hubRw
  stitchCycles := p.stitchCycles
  roles := p.roleMap.map (·.1)
  entries := p.entryList
  code := p.roleList.map fun r => (r, p.code r)
  descs := p.roleList.map fun r => (r, (p.descs r).map Desc.parse)
  places := p.places.map (·.1)
  relocs := p.relocs.map (·.1)
  lens := p.lens
  skips := p.roleList.map fun r => (r, (p.skips r).map parseSkip)
  templates := p.templates
  knots := p.knots
  layouts := p.layouts.map parseLayout
  emitPlace := (findSection p.sections 15 0).map fun x => field x.bytes 0 2
  vocab := p.vocab
  slotsNeeded := p.slotsNeeded
  ddrBase := ddrBase
  ddrBytes := ddrBytes
  order := order

end Sys2Proof
end

