-- ==== Sys2Proof/Machine/Schedule.lean ====
section
/-! DEFINITION. The schedule that the loader follows: every path that a stitch of a pricking can take, with the scheduled
cycle of each slot (R165, R170, R191 to R194, R205, R206, R243, Table 6-14). A path is given by an entry point and by the
raw values that the length definitions permit. -/

namespace Sys2Proof

/-! ## Runs of descriptors -/

/-- COUNT1 and COUNT2 as LEN_DIM limits them (R184). -/
def Desc.counts (d : Desc) (lens : List Nat) : Nat × Nat :=
  (if d.lenDim = 1 then min d.count1 (lens.getD d.lenReg 0) else d.count1,
    if d.lenDim = 2 then min d.count2 (lens.getD d.lenReg 0) else d.count2)

/-- Distances of a descriptor's runs from its destination, in the order they are moved. -/
def Desc.dstRuns (d : Desc) (c : Nat × Nat) : List Int :=
  if d.form = 4 then (List.range c.1).map fun (i : Nat) => i * d.dstride1
  else ((List.range c.2).map fun (p : Nat) => (List.range c.1).map fun (j : Nat) => p * d.dstride2 + j * d.dstride1).flatten

/-- Distances of its runs from its source, with their bytes; a `GATHER` reads its list. -/
def Desc.srcRuns (d : Desc) (c : Nat × Nat) : List (Int × Nat) :=
  if d.form = 4 then [(0, 16 * c.1)]
  else ((List.range c.2).map fun (p : Nat) => (List.range c.1).map fun (j : Nat) => (p * d.sstride2 + j * d.sstride1, d.count0)).flatten

/-- Bytes of results that a job may write. -/
def PpuOp.outBytes (o : PpuOp) : Nat :=
  match o.op with
  | 1 => 24 * o.n
  | 2 => 24 * o.k
  | 3 => 8 * o.k
  | 4 => 4 * o.n * o.k
  | _ => 2 * o.n

/-- Scratch that a fixed pointer of a job names: core and offset. -/
def ptrScratch (ptr : Nat) : Option (Nat × Nat) :=
  let a := ptrAddr ptr
  if Machine.areaOf a = .scratch then
    some ((a - Machine.scratchBase) / Machine.scratchBytes, (a - Machine.scratchBase) % Machine.scratchBytes)
  else none

/-- Runs of scratch, as core, offset and bytes, that `n` bytes take from an offset in a core's scratch on: the aperture goes on from
each core to the next (R222). -/
def apertureRuns (core : Nat) (off : Int) (n : Nat) : List (Nat × Nat × Nat) :=
  let g := ((core * Machine.scratchBytes : Nat) : Int) + off
  if g < 0 then []
  else
    (List.range (n / Machine.scratchBytes + 2)).filterMap fun k =>
      let c := g.toNat / Machine.scratchBytes + k
      let lo := max g.toNat (c * Machine.scratchBytes)
      let hi := min (g.toNat + n) ((c + 1) * Machine.scratchBytes)
      if lo < hi then some (c, lo % Machine.scratchBytes, hi - lo) else none

/-- Runs of scratch that a job's pointer takes with its bytes. -/
def ptrRuns (x : Nat × Nat) : List (Nat × Nat × Nat) :=
  match ptrScratch x.1 with
  | none => []
  | some a => apertureRuns a.1 a.2 x.2

/-! ## Ends of descriptors -/

/-- Where an end of a descriptor lies, as far as a pricking fixes it. -/
inductive DescEnd where
  /-- an address in the scratch of a partition core -/
  | scratch (core offset : Nat)
  /-- an offset in a place -/
  | place (index offset : Nat)
  /-- another fixed address -/
  | fixed (addr : Nat)
  /-- a slot's item or bobbin, in pillow or DDR (R181) -/
  | slot
  deriving DecidableEq, Repr

/-- The end that a pointer of descriptor `i` of a role names: `kind` 1 its source, 2 its destination. -/
def Pricking.descEnd (p : Pricking) (role i kind : Nat) (d : Desc) : DescEnd :=
  let ptr := if kind = 1 then d.src.toNat else d.dst.toNat
  if (if kind = 1 then d.srcSlot else d.dstSlot) then .slot
  else
    match p.relocs.find? fun r => decide (r.1.kind = kind) && decide (r.1.holder = role) && decide (r.1.index = i) with
    | some r => .place r.1.target (ptrAddr ptr)
    | none =>
      let a := ptrAddr ptr
      if Machine.areaOf a = .scratch then
        .scratch ((a - Machine.scratchBase) / Machine.scratchBytes) ((a - Machine.scratchBase) % Machine.scratchBytes)
      else .fixed a

/-- Partition stack of a partition core (R218). -/
def Pricking.stackOf (p : Pricking) (n : Nat) : Nat := n / 4 / (p.quads / p.nStacks)

/-- Row of Table 6-14, from 0, of an end as core `n` sees it. A pillow address that no place gives counts as another stack's,
and a slot's item as DDR. -/
def Pricking.endRow (p : Pricking) (n : Nat) : DescEnd → Nat
  | .scratch c _ => if c = n then 0 else if c / 4 = n / 4 then 1 else 2
  | .place i _ =>
    match p.places[i]? with
    | none => 5
    | some pl =>
      if pl.1.space = 1 then (if pl.1.stack = 0xFF ∨ pl.1.stack = p.stackOf n then 3 else 4)
      else if pl.1.space = 3 then 4
      else 5
  | .fixed a => if Machine.areaOf a = .pillow ∨ Machine.areaOf a = .hub then 4 else 5
  | .slot => 5

/-- Setup and rate of a row of Table 6-14. -/
def nominalRow (row : Nat) : Nat × Nat :=
  match row with
  | 0 => (8, 128)
  | 1 => (12, 128)
  | 2 => (40, 64)
  | 3 => (48, 128)
  | 4 => (200, 64)
  | _ => (480, 64)

/-- The job of a `PPU_JOB` descriptor, when a read-only place holds it. -/
def Pricking.jobOf (p : Pricking) (src : DescEnd) : Option PpuOp :=
  match src with
  | .place i off => if (p.places[i]?).any fun pl => !pl.1.writable then some (PpuOp.parse (((p.blob i).drop off).take 64)) else none
  | _ => none

/-- 64 times the bound of an operation of the post-processing unit, in hub cycles (Table 6-12). -/
def PpuOp.bound64 (o : PpuOp) : Nat :=
  match o.op with
  | 1 => 12800 + 4 * o.n * (4 + o.c)
  | 2 => 12800 + 16 * o.n + o.n * o.k
  | 3 => 12800 + 8 * o.n
  | 4 => 12800 + 4 * o.n * o.k
  | _ => 64000 + 2 * o.n * o.k * max o.n o.k

/-- Rows of Table 6-14 of an end with its runs: each core's scratch that they reach counts. -/
def Pricking.endRows (p : Pricking) (n : Nat) (e : DescEnd) (runs : List (Int × Nat)) : List Nat :=
  match e with
  | .scratch core off =>
    p.endRow n e :: ((runs.map fun r => apertureRuns core (off + r.1) r.2).flatten).map fun r => p.endRow n (.scratch r.1 r.2.1)
  | _ => [p.endRow n e]

/-- Runs of a descriptor's destination, with their bytes, at its largest counts. -/
def Desc.dstBytes (d : Desc) : List (Int × Nat) := (d.dstRuns (d.count1, d.count2)).map fun r => (r, d.count0)

/-- Cycles from the beginning of a descriptor to its nominal completion (R206). -/
def Pricking.nominalCycles (p : Pricking) (n : Nat) (d : Desc) (src dst : DescEnd) : Nat :=
  if d.form = 5 then 40 + ceilDiv (5 * ((p.jobOf src).map PpuOp.bound64).getD 0) 256
  else
    let r := nominalRow (if d.form = 4 then 5
      else (p.endRows n src (d.srcRuns (d.count1, d.count2)) ++ p.endRows n dst d.dstBytes).foldl max 0)
    let bytes := if d.form = 4 then 16 * d.count1 + d.count1 * d.count0 else d.count0 * d.count1 * d.count2
    r.1 + ceilDiv bytes r.2

/-- The whole destination lies in the scratch of core `n` itself (R192). -/
def Pricking.destOwn (p : Pricking) (n : Nat) (d : Desc) (src dst : DescEnd) : Bool :=
  let own (x : Nat × Nat) : Bool := decide (ptrRuns x ≠ []) && (ptrRuns x).all fun r => decide (r.1 = n)
  if d.form = 5 then (p.jobOf src).any fun o => own (o.out, max 1 o.outBytes) && own (o.outn, 4)
  else (p.endRows n dst d.dstBytes).all fun r => decide (r = 0)

/-! ## Paths -/

/-- What a scheduled slot does, with its operands resolved. -/
inductive Act where
  | array (a : ArraySlot) (addr : Nat) (stride : Int) (saddr : Nat) (sstride : Int) (mask : Option (Nat × Nat))
  | drain (form array : Nat) (hoop zero divides toVector : Bool) (dreg daddr : Nat) (dstride : Int) (qaddr : Nat)
  /-- a VECTOR slot and ADDR of its address register -/
  | vector (v addr : Nat)
  /-- the CONTROL slot writes an address register -/
  | arWrite (ar : Nat)
  /-- `SH_START`: shuttle, descriptor, its ends, the cycle in which it begins and its nominal completion -/
  | start (sh : Nat) (d : Desc) (src dst : DescEnd) (begins ends : Nat)
  | wait (sh q : Nat)
  | knot (k release : Nat)
  | fin
  deriving DecidableEq, Repr

/-- A slot's act with its scheduled cycle. -/
structure Sched where
  cycle : Nat
  act : Act
  deriving DecidableEq, Repr

/-- A core on its way along a path. -/
structure Walk where
  k : ComputeCore := {}
  cycle : Nat := 0
  done : Bool := false
  /-- descriptors started on each shuttle, newest first: nominal completion, and whether R192 covers them -/
  started0 : List (Nat × Bool) := []
  started1 : List (Nat × Bool) := []
  /-- knot at which it waits, and the cycle of its arrival -/
  knot : Option (Nat × Nat) := none
  /-- its acts, newest first -/
  acts : List Sched := []
  deriving DecidableEq, Repr

/-- Descriptors started on a shuttle. -/
def Walk.started (w : Walk) (sh : Nat) : List (Nat × Bool) := if sh = 0 then w.started0 else w.started1

/-- An act at the walk's cycle. -/
def Walk.note (w : Walk) (a : Act) : Walk := { w with acts := ⟨w.cycle, a⟩ :: w.acts }

/-- Cycle in which a bundle with a SHUTTLE slot is scheduled: an `SH_WAIT` at the nominal completion of what it covers (R206). -/
def Walk.waits (w : Walk) (slot : Option Nat) : Nat :=
  match slot with
  | none => w.cycle
  | some v =>
    if bitsAt v 0 2 = 1 then max w.cycle ((((w.started (bitsAt v 2 1)).drop (bitsAt v 3 4)).map (·.1)).headD 0) else w.cycle

/-- The ARRAY slot of a bundle. -/
def Walk.arraySlot (w : Walk) (slot : Option Nat) : Walk :=
  match slot with
  | none => w
  | some v =>
    let a := ArraySlot.parse v
    let m := SMap.get none w.k.masks a.array
    w.note (.array a (w.k.addr a.areg) (w.k.ar a.areg).2 (w.k.addr a.sreg) (w.k.ar a.sreg).2 (if a.op = 1 ∨ a.op = 2 then m else none))

/-- The DRAIN slot. -/
def Walk.drainSlot (w : Walk) (slot : Option Nat) : Walk :=
  match slot with
  | none => w
  | some v =>
    let r := bitsAt v 8 5
    w.note (.drain (bitsAt v 0 2) (bitsAt v 2 2) (v.testBit 4) (v.testBit 5) (v.testBit 6) (v.testBit 7) r (w.k.addr r) (w.k.ar r).2
      (w.k.addr (bitsAt v 13 5)))

/-- The VECTOR slot; `VST` names its address register in VD, the other operations in VA. -/
def Walk.vectorSlot (w : Walk) (slot : Option Nat) : Walk :=
  match slot with
  | none => w
  | some v => w.note (.vector v (w.k.addr (if bitsAt v 32 8 = 0x31 then bitsAt v 42 5 else bitsAt v 47 5)))

/-- The SHUTTLE slot of core `n`. -/
def Walk.shuttleSlot (p : Pricking) (n : Nat) (w : Walk) (slot : Option Nat) : Walk :=
  match slot with
  | none => w
  | some v =>
    let sh := bitsAt v 2 1
    if bitsAt v 0 2 = 1 then w.note (.wait sh (bitsAt v 3 4))
    else
      let role := p.roleAt n
      match (p.descs role)[bitsAt v 3 16]? with
      | none => w
      | some b =>
        let d := Desc.parse b
        let src := p.descEnd role (bitsAt v 3 16) 1 d
        let dst := p.descEnd role (bitsAt v 3 16) 2 d
        let begins := max w.cycle (((w.started sh).map (·.1)).headD 0)
        let ends := begins + p.nominalCycles n d src dst
        let x := (ends, !p.destOwn n d src dst)
        let w := w.note (.start sh d src dst begins ends)
        if sh = 0 then { w with started0 := x :: w.started0 } else { w with started1 := x :: w.started1 }

/-- The next bundle follows after `gap` empty cycles. -/
def Walk.next (w : Walk) (gap : Nat) (k : ComputeCore) : Walk := { w with k := k, cycle := w.cycle + 1 + gap }

/-- The CONTROL slot of core `n`, and what runs next: a taken jump leaves 4 cycles empty (R170). -/
def Walk.controlSlot (p : Pricking) (n : Nat) (lens : List Nat) (w : Walk) (slot : Option Nat) : Walk :=
  let k := w.k
  match slot with
  | none => w.next 0 k.fall
  | some v =>
    let ar := bitsAt v 6 5
    match bitsAt v 0 6 with
    | 0x01 =>
      let c := if v.testBit 8 then lens.getD (bitsAt v 9 4) 0 else bitsAt v 9 16
      w.next (if c = 0 then 4 else 0) (k.enterLoop (bitsAt v 6 2) c (bitsAt v 25 14))
    | 0x02 => w.next 4 (k.jumpTo (bitsAt v 6 14))
    | 0x03 => { w with k := k.fall, knot := some (bitsAt v 6 4, w.cycle) }
    | 0x04 => if lens.getD (bitsAt v 6 4) 0 ≤ bitsAt v 24 24 then w.next 4 (k.jumpTo (bitsAt v 10 14)) else w.next 0 k.fall
    | 0x05 =>
      match ((p.skips (p.roleAt n))[bitsAt v 6 10]?).map parseSkip with
      | none => w.next 0 k.fall
      | some e => w.next (if lens.getD e.lreg 0 ≤ e.base then 4 else 0) (k.applySkip lens e)
    | 0x06 => w.next 0 (k.setMask (bitsAt v 6 2) (bitsAt v 8 4) (bitsAt v 12 24) (v.testBit 36)).fall
    | 0x08 => (w.note (.arWrite ar)).next 0 (k.setAr ar (bitsAt v 11 23) (k.ar ar).2).fall
    | 0x09 => (w.note (.arWrite ar)).next 0 (k.setAr ar (k.addr ar) (signedBits v 11 24)).fall
    | 0x0A => (w.note (.arWrite ar)).next 0 (k.setAr ar (k.addr ar + signedBits v 11 24) (k.ar ar).2).fall
    | 0x0B =>
      (w.note (.arWrite ar)).next 0
        (k.setAr ar (k.addr ar + (lens.getD (bitsAt v 11 4) 0 : Nat) * signedBits v 15 24) (k.ar ar).2).fall
    | 0x3F => { (w.note .fin) with done := true }
    | _ => w.next 0 k.fall

/-- One bundle of core `n`: its drain stands before its ARRAY operation, whose rows it does not read (R119). Code that is left
beyond its last bundle ends the walk. -/
def Walk.bundle (p : Pricking) (n : Nat) (lens : List Nat) (w : Walk) : Walk :=
  let role := p.roleAt n
  if p.ncode role ≤ w.k.bundle then { w with done := true }
  else
    let b := bundleAt (p.code role) w.k.bundle
    let w := { w with cycle := w.waits (slotOf b 3) }
    let w := ((w.drainSlot (slotOf b 1)).arraySlot (slotOf b 0)).vectorSlot (slotOf b 2)
    (w.shuttleSlot p n (slotOf b 3)).controlSlot p n lens (slotOf b 4)

/-- Bundles after which a walk is no longer followed: four nested loops of 2^24 over 16,384 bundles end before (R169). -/
abbrev walkBound : Nat := 2 ^ 128

/-- A core goes on to its end or its next knot. -/
def Walk.run (p : Pricking) (n : Nat) (lens : List Nat) : Nat → Walk → Walk
  | 0, w => w
  | fuel + 1, w =>
    if w.done || w.knot.isSome then w
    else Walk.run p n lens fuel (w.bundle p n lens)

/-- Members of knot `k`. -/
def Pricking.knotCores (p : Pricking) (k : Nat) : List Nat :=
  (List.range (4 * p.quads)).filter fun n => (p.knots.getD k 0).testBit n

/-- The scheduled release of a knot whose members have arrived (R193, R194). -/
def Pricking.release (p : Pricking) (ms : List Nat) (ws : List Walk) : Nat :=
  let members := ms.map fun n => ws.getD n {}
  let a := members.foldl (fun a w => max a ((w.knot.map (·.2)).getD 0)) 0
  let covered := (members.map fun w => (w.started0 ++ w.started1).filterMap fun x => if x.2 then some (x.1 + 1) else none).flatten
  let spans (f : Nat → Nat) : Bool := match ms with
    | [] => false
    | n :: l => l.any fun m => decide (f m ≠ f n)
  max (a + (if spans p.stackOf then 64 else if spans (· / 4) then 24 else 4)) (covered.foldl max 0)

/-- Knot `k` releases its members once all of them wait at it. -/
def Pricking.tryKnot (p : Pricking) (ws : List Walk) (k : Nat) : List Walk :=
  let ms := p.knotCores k
  if ms = [] ∨ (ms.any fun n => decide (((ws.getD n {}).knot.map (·.1)) ≠ some k)) = true then ws
  else
    let r := p.release ms ws
    ((List.range ws.length).zip ws).map fun x =>
      if ms.contains x.1 then
        { x.2 with knot := none, cycle := r, acts := ⟨(x.2.knot.map (·.2)).getD 0, .knot k r⟩ :: x.2.acts }
      else x.2

/-- All cores go on together, knot by knot. -/
def Pricking.rounds (p : Pricking) (lens : List Nat) : Nat → List Walk → List Walk
  | 0, ws => ws
  | fuel + 1, ws =>
    let run := ((List.range ws.length).zip ws).map fun x => Walk.run p x.1 lens walkBound x.2
    let out := (List.range 16).foldl p.tryKnot run
    if out.map (·.knot) = run.map (·.knot) then run else Pricking.rounds p lens fuel out

/-- A run of bytes of a core's scratch, or of a place's copy, that an act writes, and the cycle from which readers see it. -/
structure Writer where
  /-- a core, or from 128 on a copy of a place (`placeLoc`) -/
  loc : Nat
  lo : Nat
  n : Nat
  seen : Nat
  act : Act
  /-- core and cycle of the act -/
  core : Nat
  cycle : Nat
  deriving DecidableEq, Repr

/-- A path: its entry point, its length registers, and each core's walk with its acts in order; and what its acts write in
scratch, once that has been drawn up. -/
structure Path where
  entry : Nat
  lens : List Nat
  cores : List Walk
  writers : List Writer := []
  deriving DecidableEq, Repr

/-- Acts of core `n`, oldest first. -/
def Path.acts (t : Path) (n : Nat) : List Sched := (t.cores.getD n {}).acts

/-- The path of an entry point at given length registers. -/
def Pricking.path (p : Pricking) (entry : Nat) (lens : List Nat) : Path :=
  let first (n : Nat) : Nat :=
    ((p.entryList.find? fun e => decide (e.1 = entry) && decide (e.2.1 = p.roleAt n)).map (·.2.2)).getD 0
  let ws := (List.range (4 * p.quads)).map fun n => ({ k := { bundle := first n } } : Walk)
  { entry := entry
    lens := lens
    cores := (p.rounds lens walkBound ws).map fun w => { w with acts := w.acts.reverse } }

/-- Length registers from the raw value of each definition. -/
def Pricking.lensOf (p : Pricking) (raw : LenDef → Nat) : List Nat :=
  (List.range 16).map fun r => match p.lens.find? fun d => decide (d.reg = r) with
    | none => 0
    | some d => d.apply (raw d)

/-- The raw values that a stitch may give the sources of the definitions (R233, R234): one value for each source, within the
limits of every definition that reads it. -/
def Pricking.rawChoices (p : Pricking) : List (List ((Nat × Nat) × Nat)) :=
  ((p.lens.map fun d => (d.source, d.arg)).eraseDups).foldl
    (fun acc src =>
      let ds := p.lens.filter fun d => decide ((d.source, d.arg) = src)
      let lo := ds.foldl (fun n d => max n d.min) 0
      let hi := ds.foldl (fun n d => min n d.max) (2 ^ 24)
      (acc.map fun c => (List.range (hi + 1 - lo)).map fun i => c ++ [(src, lo + i)]).flatten) [[]]

/-- Entry points of a pricking. -/
def Pricking.entryPoints (p : Pricking) : List Nat := (p.entryList.map (·.1)).eraseDups

/-- Every path that a stitch of the pricking can take. -/
def Pricking.paths (p : Pricking) : List Path :=
  let ls := (p.rawChoices.map fun c => p.lensOf fun d => ((c.find? fun x => decide (x.1 = (d.source, d.arg))).map (·.2)).getD 0).eraseDups
  (p.entryPoints.map fun e => ls.map fun l => p.path e l).flatten

/-- The path of each entry point at the largest lengths (R243). -/
def Pricking.longest (p : Pricking) : List Path := p.entryPoints.map fun e => p.path e (p.lensOf fun d => d.max)

end Sys2Proof
end

