-- ==== Sys2Proof/Machine/Accesses.lean ====
section
/-! DEFINITION. What the slots of a path read and write in scratch, with their scheduled cycles, and the bytes of scratch that a
pricking fixes (R75, R147, R148, R154, R159, R181, R185, R247, Tables 3-1, 3-2, 4-5, 6-7). -/

namespace Sys2Proof

/-- A mode from its code (Table 6-3). -/
def Mode.ofCode (n : Nat) : Mode :=
  match n with
  | 0 => .i8
  | 1 => .i4
  | 2 => .f8
  | 3 => .f4
  | 4 => .ft
  | _ => .f16

/-- The row operands of an ARRAY slot: mode, format, address, stride. -/
def ArraySlot.rowOp (a : ArraySlot) (addr : Nat) (stride : Int) (saddr : Nat) (sstride : Int) (mask : Option (Nat × Nat)) : RowOp where
  isStream := decide (a.op = 2)
  hoop := decide (a.hoop = 1)
  mode := Mode.ofCode a.mode
  fmt := a.fmt
  n := if a.op = 2 then a.nm1 + 1 else 32
  addr := addr
  stride := stride
  scales := if isMx a.fmt then some (saddr, sstride) else none
  mask := mask

/-- Runs of scratch, as offset and bytes, that `n` bytes from an offset take: offsets wrap at 8 MiB (R171). -/
def wrapRun (off : Int) (n : Nat) : List (Nat × Nat) :=
  let a := (off % 8388608).toNat
  if a + n ≤ 8388608 then [(a, n)] else [(a, 8388608 - a), (0, a + n - 8388608)]

/-- Byte `o` lies in `n` bytes from an offset on. -/
def inRun (off : Int) (n o : Nat) : Bool := (wrapRun off n).any fun r => decide (r.1 ≤ o) && decide (o < r.1 + r.2)

/-- Runs of scratch that a descriptor writes: core, offset, bytes; `job`: the job of a `PPU_JOB`, where it is known. A job that code
writes at run time the loader cannot see, and counts no accesses of it (R148, R159, R181; DESIGN CHOICE, log entry 161). -/
def Desc.writes (d : Desc) (job : Option PpuOp) (dst : DescEnd) (c : Nat × Nat) : List (Nat × Nat × Nat) :=
  if d.form = 5 then
    match job with
    | none => []
    | some o => ptrRuns (o.out, o.outBytes) ++ ptrRuns (o.outn, 4)
  else
    match dst with
    | .scratch core off => ((d.dstRuns c).map fun r => apertureRuns core (off + r) d.count0).flatten
    | _ => []

/-- Runs of scratch that a descriptor reads; a job reads its inputs, at their largest count, and the count itself (R198), and its
own bytes. -/
def Desc.readRuns (d : Desc) (job : Option PpuOp) (src : DescEnd) (c : Nat × Nat) : List (Nat × Nat × Nat) :=
  let inputs := match d.form, job with
    | 5, some o => ((o.reads o.n ++ (if o.counted then [(o.in1, 4)] else [])).map ptrRuns).flatten
    | _, _ => []
  inputs ++ match src with
    | .scratch core off =>
      if d.form = 5 then apertureRuns core off 64 else ((d.srcRuns c).map fun r => apertureRuns core (off + r.1) r.2).flatten
    | _ => []

/-- Cycles from a drain's start to the write of row 0 (Table 4-5). -/
def drainDelay (form : Nat) : Nat :=
  match form with
  | 0 => 6
  | 1 => 8
  | _ => 2

/-- Largest bytes of a row that a drain writes. -/
def drainRowMax (form : Nat) : Nat := if form = 2 then 256 else 128

/-! ## Bytes that the pricking fixes -/

/-- Where writers keep the copy of place `i` that a core reaches: behind the cores, one for each stack (R229). -/
def Pricking.placeLoc (p : Pricking) (i n : Nat) : Nat :=
  128 + 4 * i + match p.places[i]? with
    | some pl => if pl.1.space = 1 ∧ pl.1.stack = 0xFF then p.stackOf n else 0
    | none => 0

/-- Writes that touch `n` bytes of a location from `o` on and are seen in a cycle. -/
def nearWriters (ws : List Writer) (loc o n cycle : Nat) : List Writer :=
  ws.filter fun w => decide (w.loc = loc) && decide (w.lo < o + n) && decide (o < w.lo + w.n) && decide (w.seen ≤ cycle)

/-- The latest of some writes. -/
def latestWriter (ws : List Writer) : Option Writer :=
  ws.foldl (fun best w => if best.any fun b => decide (w.seen < b.seen) then best else some w) none

/-- A byte of a read-only place, none when a relocation changes it at load. -/
def Pricking.placeByte (p : Pricking) (i o : Nat) : Option Byte :=
  match p.places[i]? with
  | none => none
  | some pl =>
    if pl.1.writable ∨
        (p.relocs.any fun r => decide (r.1.kind = 3) && decide (r.1.holder = i) && decide (r.1.index ≤ o) && decide (o < r.1.index + 8)) = true
    then none else (p.blob i)[o]?

/-- Where in its source a descriptor takes the byte that it puts at distance `x` from its destination: the last of its runs that
covers it. -/
def Desc.sourceOf (d : Desc) (c : Nat × Nat) (x : Int) : Option Int :=
  ((d.dstRuns c).zip (d.srcRuns c)).foldl
    (fun best r => if r.1 ≤ x ∧ x < r.1 + d.count0 then some (r.2.1 + (x - r.1)) else best) none

/-- The byte that a location holds at an offset in a cycle, where the pricking fixes it: descriptors brought it from a read-only
place, through scratch and writable places or not. -/
def Pricking.knownByte (p : Pricking) (t : Path) : Nat → List Writer → Nat → Nat → Nat → Option Byte
  | 0, _, _, _, _ => none
  | fuel + 1, ws, loc, o, cycle =>
    (latestWriter (nearWriters ws loc o 1 cycle)).bind fun w =>
      match w.act with
      | .start _ d src dst begins _ =>
        if d.form = 4 ∨ d.form = 5 then none
        else
          let at_ : Option Int := match dst with
            | .scratch core off => some (((loc * Machine.scratchBytes + o : Nat) : Int) - ((core * Machine.scratchBytes + off : Nat) : Int))
            | .place _ off => some ((o : Int) - (off : Int))
            | _ => none
          match at_.bind (d.sourceOf (d.counts t.lens)), src with
          | some x, .place i so =>
            let a := ((so : Int) + x).toNat
            if (p.places[i]?).any fun pl => pl.1.writable then Pricking.knownByte p t fuel t.writers (p.placeLoc i w.core) a begins
            else p.placeByte i a
          | some x, .scratch c so =>
            let g := (((c * Machine.scratchBytes + so : Nat) : Int) + x).toNat
            Pricking.knownByte p t fuel t.writers (g / Machine.scratchBytes) (g % Machine.scratchBytes) begins
          | _, _ => none
      | _ => none

/-- The byte of core `core`'s scratch at an offset, where the pricking fixes it: each copy began after the one before it was seen,
so that no more copies lie behind a byte than there are writes. -/
def Pricking.fixedByte (p : Pricking) (t : Path) (ws : List Writer) (loc o cycle : Nat) : Option Byte :=
  p.knownByte t (t.writers.length + 1) ws loc o cycle

/-- `n` bytes of a location in one run, where the pricking fixes all of them. -/
def Pricking.fixedBytes (p : Pricking) (t : Path) (near : List Writer) (loc : Nat) (os : List Nat) (cycle : Nat) : Option (List Byte) :=
  (os.map fun o => p.fixedByte t near loc o cycle).foldr (fun b acc => b.bind fun b => acc.map fun l => b :: l) (some [])

/-- `n` bytes of a core's scratch, whose offsets wrap, where the pricking fixes all of them. -/
def Pricking.knownBytes (p : Pricking) (t : Path) (core o n cycle : Nat) : Option (List Byte) :=
  let near := (wrapRun o n).map fun r => nearWriters t.writers core r.1 r.2 cycle
  p.fixedBytes t near.flatten core ((List.range n).map fun i => (o + i) % 8388608) cycle

/-- The job that a `PPU_JOB` of core `n` which begins in a cycle names, where the pricking fixes its bytes. -/
def Pricking.jobIn (p : Pricking) (t : Path) (n : Nat) (src : DescEnd) (begins : Nat) : Option PpuOp :=
  match p.jobOf src with
  | some o => some o
  | none =>
    let bytes (loc o : Nat) : Option PpuOp :=
      (p.fixedBytes t (nearWriters t.writers loc o 64 begins) loc ((List.range 64).map (o + ·)) begins).map PpuOp.parse
    match src with
    | .scratch core off => bytes core off
    | .place i off => bytes (p.placeLoc i n) off
    | _ => none

/-- What an act of core `n` writes in scratch and in places; `row` gives the bytes of a drain's row from its form, table and
cycle. -/
def Pricking.writersOf (p : Pricking) (t : Path) (row : Nat → Nat → Nat → Nat → Nat) (n : Nat) (x : Sched) : List Writer :=
  let run (seen : Nat) (off : Int) (bytes : Nat) : List Writer :=
    (wrapRun off bytes).map fun r => ⟨n, r.1, r.2, seen, x.act, n, x.cycle⟩
  match x.act with
  | .start _ d src dst begins ends =>
    let job := if d.form = 5 then p.jobIn t n src begins else none
    ((d.writes job dst (d.counts t.lens)).map fun r => ⟨r.1, r.2.1, r.2.2, ends, x.act, n, x.cycle⟩) ++
      match dst with
      | .place i off => if d.form = 5 then [] else (d.dstRuns (d.counts t.lens)).filterMap fun r =>
          if 0 ≤ (off : Int) + r then some ⟨p.placeLoc i n, ((off : Int) + r).toNat, d.count0, ends, x.act, n, x.cycle⟩ else none
      | _ => []
  | .drain form _ _ _ _ false _ daddr dstride qaddr =>
    ((List.range 32).map fun (r : Nat) =>
      run (x.cycle + drainDelay form + r + 1) (daddr + r * dstride) (row n form qaddr x.cycle)).flatten
  | .vector v addr => if bitsAt v 32 8 = 0x31 then run (x.cycle + 3) addr 256 else []
  | _ => []

/-- OUT_FMT of a drain's requantiser table, where the pricking fixes it. -/
def Pricking.tableFmt (p : Pricking) (t : Path) (n qaddr cycle : Nat) : Option Nat :=
  (p.fixedByte t t.writers n ((qaddr + 12) % 8388608) cycle).map (·.toNat)

/-- Bytes of a row that a drain writes: by its table's OUT_FMT, at their largest where the pricking does not fix that. -/
def Pricking.drainRow (p : Pricking) (t : Path) (n form qaddr cycle : Nat) : Nat :=
  if form = 2 then 256 else 4 * (((p.tableFmt t n qaddr cycle).map elemBits).getD 32)

/-- A path with what its acts write, a drain's rows being of some size. -/
def Pricking.withWriters (p : Pricking) (t : Path) (row : Nat → Nat → Nat → Nat → Nat) : Path :=
  { t with writers := ((List.range t.cores.length).map fun n => ((t.acts n).map (p.writersOf t row n)).flatten).flatten }

/-- The writes of a path drawn up again, by the tables and jobs that those drawn up before let be known, until nothing changes. -/
def Pricking.settleWriters (p : Pricking) : Nat → Path → Path
  | 0, t => t
  | fuel + 1, t =>
    let u := p.withWriters t (p.drainRow t)
    if u.writers = t.writers then t else Pricking.settleWriters p fuel u

/-- A path with what its acts write: first with every drain's rows at their largest, then, the tables being known by that, at
their own sizes; a row that becomes smaller can let another table be known, so that each act may take one more round. -/
def Pricking.drawUp (p : Pricking) (t : Path) : Path :=
  p.settleWriters ((List.range t.cores.length).foldl (fun k n => k + (t.acts n).length) 1)
    (p.withWriters t fun _ form _ _ => drainRowMax form)

/-! ## Timing of row operations -/

/-- The window descriptor of an operation in window mode, where the pricking fixes it. -/
def Pricking.windowOf (p : Pricking) (t : Path) (n : Nat) (o : RowOp) (cycle : Nat) : Option WinDesc :=
  if o.window then (p.knownBytes t n o.addr 64 (cycle - 4)).map WinDesc.parse else none

/-- Entry cycles of a row (R74, R260). -/
def Pricking.entryCycles (p : Pricking) (t : Path) (n : Nat) (o : RowOp) (cycle : Nat) : Nat :=
  (if o.mode = .f16 then 2 else 1) * (match p.windowOf t n o cycle with
    | none => 1
    | some w => if w.op = 0 then 1 else w.taps)

/-- Occupancy of an ARRAY operation (Table 3-2, R260). -/
def Pricking.occupancy (p : Pricking) (t : Path) (n : Nat) (a : ArraySlot) (o : RowOp) (cycle : Nat) : Nat :=
  match a.op with
  | 0 => 32
  | 1 | 2 => o.n * p.entryCycles t n o cycle
  | _ => 1

/-- Offset of the stored element that a tap of channel `c` reads, none for padding (R252, R254). -/
def WinDesc.tapAt (d : WinDesc) (size c tap pos : Nat) : Option Nat :=
  let iy : Int := (pos / d.outW * d.sy + tap / d.kw * d.dy : Nat) - (d.padTop : Int)
  let ix : Int := (pos % d.outW * d.sx + tap % d.kw * d.dx : Nat) - (d.padLeft : Int)
  let at_ (y x : Nat) : Option Nat := (d.stored c y x).map fun e => d.offset size e.1 e.2.1 e.2.2
  if 0 ≤ iy ∧ iy < d.presH ∧ 0 ≤ ix ∧ ix < d.presW then at_ iy.toNat ix.toNat
  else if d.padMode = 0 then none
  else
    let r := decide (d.padMode = 1)
    at_ (foldIndex r iy d.presH) (foldIndex r ix d.presW)

/-- Channel and tap of element `j` of a row, one for each tap in pooling; none where it reads as zero (R253, R259). -/
def WinDesc.elementTaps (d : WinDesc) (kRow j : Nat) : List (Nat × Nat) :=
  if d.op = 0 then
    let k := d.k0 + j
    let cp := roundUp kRow d.presC
    let (c, t) := if d.tapInner then (k / d.taps, k % d.taps) else (k % cp, k / cp)
    if d.presC ≤ c ∨ d.taps ≤ t then [] else [(c, t)]
  else if d.presC ≤ d.k0 + j then [] else (List.range d.taps).map fun t => (d.k0 + j, t)

/-- Offsets that the feeder reads for elements `j0` to `j0 + nj - 1` of row `i`, in pooling for one tap (R260). -/
def WinDesc.rowOffsets (d : WinDesc) (kRow size i j0 nj : Nat) (tap : Option Nat) : List Nat :=
  ((List.range nj).map fun j => ((d.elementTaps kRow (j0 + j)).filter fun e => tap.all fun t => decide (e.2 = t)).filterMap fun e =>
    d.tapAt size e.1 e.2 (d.pos0 + i)).flatten

/-! ## Accesses -/

/-- Bytes of scratch that an act of a path touches. -/
structure Access where
  /-- core whose scratch it is -/
  core : Nat
  /-- slot that makes it: 0 ARRAY, 1 DRAIN, 2 VECTOR, 3 SHUTTLE, 4 ARRAY for its window descriptor -/
  slot : Nat
  write : Bool
  /-- cycles in which it may touch the bytes -/
  first : Nat
  last : Nat
  /-- for a write, the cycle from which the bytes can be read -/
  seen : Nat
  lo : Nat
  n : Nat
  /-- its act, by number, on the core that makes it -/
  act : Nat
  deriving DecidableEq, Repr

/-- Accesses to `n` bytes from an offset on. -/
def accessRuns (core slot : Nat) (write : Bool) (first last seen act : Nat) (off : Int) (n : Nat) : List Access :=
  (wrapRun off n).map fun r => ⟨core, slot, write, first, last, seen, r.1, r.2, act⟩

/-- A read of core `n`'s own scratch in one cycle. -/
def readAt (n slot cycle act : Nat) (off : Int) (bytes : Nat) : List Access := accessRuns n slot false cycle cycle cycle act off bytes

/-- Reads of an ARRAY slot: each row, and each tap of a pooling operation, four cycles before its entry (R75, R260), a masked
row not at all, and none before `floor`, the release of the latest knot, which no operation after it precedes (R192, R267). -/
def Pricking.arrayReads (p : Pricking) (t : Path) (n act cycle floor : Nat) (a : ArraySlot) (o : RowOp) : List Access :=
  let readAt (n slot cycle act : Nat) (off : Int) (bytes : Nat) : List Access := readAt n slot (max cycle floor) act off bytes
  if a.op = 3 then []
  else if a.op = 0 then
    ((List.range 32).map fun (r : Nat) => readAt n 0 (cycle + r - 4) act (o.addr + r * o.stride) (o.mode.weightBytes o.fmt)).flatten ++
      match o.scales with
      | none => []
      | some s => readAt n 0 (cycle - 4) act s.1 (32 * o.mode.scaleBytes o.fmt)
  else
    let e := p.entryCycles t n o cycle
    let rows := (List.range o.n).filter fun i => !o.masked t.lens i
    let scales := match o.scales with
      | none => []
      | some s => (rows.map fun (i : Nat) => readAt n 0 (cycle + e * i - 4) act (s.1 + i * s.2) (o.mode.scaleBytes o.fmt)).flatten
    if o.window then
      let size := elemBits o.fmt / 8
      readAt n 4 (cycle - 4) act o.addr 64 ++
        match p.windowOf t n o cycle with
        | none => []
        | some w =>
          let taps := if w.op = 0 then 1 else w.taps
          (rows.map fun i => ((List.range taps).map fun tap =>
            ((w.rowOffsets o.mode.k size i 0 o.mode.k (if w.op = 0 then none else some tap)).eraseDups.map fun (off : Nat) =>
              readAt n 0 (cycle + e * i + e / taps * tap - 4) act off size).flatten).flatten).flatten
    else
      (rows.map fun (i : Nat) => readAt n 0 (cycle + e * i - 4) act (o.addr + i * o.stride) (o.mode.rowBytes o.fmt)).flatten ++ scales

/-- Indices of a `VGATHER`, where the pricking fixes them: a `VLD` of fixed bytes filled their register last (R176). `before` lists
the acts that precede it. -/
def Pricking.gatherIndices (p : Pricking) (t : Path) (n vb size : Nat) (before : List Sched) : Option (List Nat) :=
  (before.foldl
    (fun (l : Option (Nat × Nat)) x => match x.act with
      | .vector v addr =>
        if bitsAt v 32 8 = 0x30 ∧ bitsAt v 42 5 = vb then some (addr, x.cycle)
        else if [0x31, 0x41].contains (bitsAt v 32 8) || !([0, 1].any fun i => decide (bitsAt v 42 5 + i = vb)) then l
        else none
      | .drain _ _ _ _ _ true r _ _ _ => if r ≤ vb ∧ vb < r + 16 then none else l
      | _ => l) none).bind fun x =>
    (p.knownBytes t n x.1 256 x.2).map fun b => (List.range (256 / size)).map fun i => field b (size * i) size

/-- Reads of a `VGATHER` whose indices the pricking fixes. -/
def Pricking.gatherReads (p : Pricking) (t : Path) (n act cycle v addr : Nat) : List Access :=
  let size := match bitsAt v 40 2 with
    | 0 => 4
    | 1 => 2
    | _ => 1
  match p.gatherIndices t n (bitsAt v 52 5) size ((t.acts n).take act) with
  | none => []
  | some l => (((List.range l.length).zip l).map fun x =>
      readAt n 2 cycle act (addr + 2048 * x.2 + 64 * (x.1 % 32) + size * (x.1 / 32) : Nat) size).flatten

/-- Accesses of an act of core `n`. -/
def Pricking.accessesOf (p : Pricking) (t : Path) (n act floor : Nat) (x : Sched) : List Access :=
  let c := x.cycle
  match x.act with
  | .array a addr stride saddr sstride mask => p.arrayReads t n act c floor a (a.rowOp addr stride saddr sstride mask)
  | .drain form _ _ _ _ toVector _ daddr dstride qaddr =>
    (if form = 2 then [] else readAt n 1 c act qaddr 512) ++
      if toVector then []
      else
        ((List.range 32).map fun (r : Nat) =>
          let a := daddr + r * dstride
          (if form = 1 then readAt n 1 (c + r + 1) act a 128 else []) ++
            accessRuns n 1 true (c + r + drainDelay form) (c + r + drainDelay form) (c + r + drainDelay form + 1) act a
              (p.drainRow t n form qaddr c)).flatten
  | .vector v addr =>
    match bitsAt v 32 8 with
    | 0x30 => readAt n 2 c act addr 256
    | 0x31 => accessRuns n 2 true c (c + 2) (c + 3) act addr 256
    | 0x32 => p.gatherReads t n act c v addr
    | _ => []
  | .start _ d src dst begins ends =>
    let job := if d.form = 5 then p.jobIn t n src begins else none
    ((d.readRuns job src (d.counts t.lens)).map fun r => ⟨r.1, 3, false, begins, ends, begins, r.2.1, r.2.2, act⟩) ++
      (d.writes job dst (d.counts t.lens)).map fun r => ⟨r.1, 3, true, begins, ends, ends, r.2.1, r.2.2, act⟩
  | _ => []

/-- The release of the latest knot among some acts, 0 for none. -/
def lastRelease (l : List Sched) : Nat :=
  l.foldl (fun r x => match x.act with
    | .knot _ k => k
    | _ => r) 0

/-- All accesses of a path, each with the core whose slot makes it. -/
def Pricking.accesses (p : Pricking) (t : Path) : List (Nat × Access) :=
  ((List.range t.cores.length).map fun n =>
    let l := t.acts n
    (((List.range l.length).zip l).map fun x => (p.accessesOf t n x.1 (lastRelease (l.take x.1)) x.2).map fun a => (n, a)).flatten).flatten

/-- Two accesses touch a common byte. -/
def Access.meets (a b : Access) : Bool := decide (a.core = b.core) && decide (a.lo < b.lo + b.n) && decide (b.lo < a.lo + a.n)

/-- What of some runs of bytes a run leaves uncovered. -/
def uncovered (lo n : Nat) (runs : List (Nat × Nat)) : List (Nat × Nat) :=
  (runs.map fun r =>
    (if r.1 < lo then [(r.1, min r.2 (lo - r.1))] else []) ++
      (if lo + n < r.1 + r.2 then [(max r.1 (lo + n), r.1 + r.2 - max r.1 (lo + n))] else [])).flatten

end Sys2Proof
end

