-- ==== Sys2Proof/Machine/Reads.lean ====
section
/-! DEFINITION. The card's reads of host memory: their requests and tags (R607, R608, R610, R613). -/

namespace Sys2Proof.Machine

/-- The requests of one entry: none above Max_Read_Request_Size, none across a 4 KiB boundary (R607). -/
def readPieces (maxRead : Nat) : Nat → Nat → Nat → List (Nat × Nat)
  | 0, _, _ => []
  | fuel + 1, a, n =>
    if n = 0 then []
    else
      let k := min n (min maxRead (4096 - a % 4096))
      (a, k) :: readPieces maxRead fuel (a + k) (n - k)

/-- The requests of a list of entries, in order. -/
def requestsOf (s : State) (entries : List (Nat × Nat)) : List (Nat × Nat) :=
  (entries.map fun e => readPieces s.pcie.maxRead (e.2 / 64 + 2) e.1 e.2).flatten

/-- First tag and number of tags that the card may use (R608). -/
def tagSpace (p : PcieUnit) : Nat × Nat :=
  if p.flit && p.tag14 then (0, 2048) else if p.tag10 then (256, 768) else (0, 256)

/-- The lowest free tag. -/
def freeTag (p : PcieUnit) : Nat := lowestFree (p.reads.map (·.tag)) 1 (p.reads.length + 1) (tagSpace p).1

/-- A read can go: the link is up, Bus Master Enable is set, and a tag is free (R608, R610). -/
def canRead (p : PcieUnit) : Bool := p.bme && p.linkUp && decide (p.reads.length < (tagSpace p).2)

/-- Reads that wait are issued as far as they can go; each counts as issued then (R613). -/
def issueQueued : Nat → State → State
  | 0, s => s
  | fuel + 1, s =>
    match s.pcie.queued with
    | [] => s
    | r :: rest =>
      if canRead s.pcie = false then s
      else
        let r := { r with tag := freeTag s.pcie }
        let s := s.modPcie fun p => { p with queued := rest, reads := p.reads ++ [r], issued := p.issued + 1 }
        issueQueued fuel (s.pushLink (.hostRead r.tag r.addr r.length))

/-- Every read that can go goes. -/
def pumpReads (s : State) : State := issueQueued s.pcie.queued.length s

/-- The reads of a command begin; with Bus Master Enable clear they wait behind what waits already (R610). -/
def startReads (owner : ReadOwner) (entries : List (Nat × Nat)) (s : State) : State :=
  let reqs := requestsOf s entries
  let rs := ((List.range reqs.length).zip reqs).map fun x => (⟨0, owner, x.1, x.2.1, x.2.2, []⟩ : OutRead)
  if s.pcie.bme then pumpReads (s.modPcie fun p => { p with queued := p.queued ++ rs })
  else s.modPcie fun p => { p with waiting := p.waiting ++ rs.map .read }

/-- The reads of a command can go at once. -/
def readsFree (s : State) : Bool := canRead s.pcie && s.pcie.queued.isEmpty

/-- The reads of a command whose completions all came at once, each before the next was issued. -/
def instantReads (entries : List (Nat × Nat)) (s : State) : State :=
  (requestsOf s entries).foldl
    (fun s r =>
      (s.modPcie fun p => { p with issued := p.issued + 1, completed := p.completed + 1 }).push
        (.hostRead (freeTag s.pcie) r.1 r.2)) s

/-- The reads of a command that has ended are discarded: those that are issued stay outstanding, with nobody to take their data,
until their completions or timeouts come (R611, R613). -/
def dropReads (owner : ReadOwner) (s : State) : State :=
  s.modPcie fun p =>
    { p with
      queued := p.queued.filter fun r => r.owner != owner
      waiting := p.waiting.filter fun w => match w with
        | .read r => r.owner != owner
        | _ => true
      reads := p.reads.map fun r => if r.owner = owner then { r with owner := .dropped, got := [] } else r }

/-- One request's data has arrived. -/
def gotPiece (got : List (Option (List Byte))) (i : Nat) (data : List Byte) : List (Option (List Byte)) :=
  listSet got i (some data)

/-- All data, when every request has ended. -/
def gotAll (got : List (Option (List Byte))) : Option (List Byte) :=
  if got.all (·.isSome) then some (got.map (·.getD [])).flatten else none

/-- A long command in flight replaced by its new form, by its mailbox. -/
def setLong (l : LongCmd) (s : State) : State :=
  s.modHost fun h => { h with long := listUpd (fun x => decide (x.hdr.mbox = l.hdr.mbox)) (fun _ => l) h.long }

/-- A command that was answered later: its answer. A failure leaves only what the command itself had not changed. -/
def answerLater (h : Hdr) (status detail : Nat) (resp : List Byte) (s : State) : State :=
  answer h status detail resp s.obj s

end Sys2Proof.Machine
end

