-- ==== Sys2Proof/Machine/TimeOps.lean ====
section
/-! DEFINITION. The card clock, the transmit time-stamp queue and the time units (chapter 21). -/

namespace Sys2Proof

/-- Period of a unit's edges in ns. -/
def TimeUnit.step (u : TimeUnit) : Nat := if u.function = 1 then 1000000000 else u.period

/-- The unit drives edges. -/
def TimeUnit.isOutput (u : TimeUnit) : Bool := u.claimed && (decide (u.function = 1) || decide (u.function = 4))

/-- The numbers by which two masters are compared in turn, the lower the better: the data of their grandmasters, or for one
grandmaster the path to it (R641, the data set comparison of IEEE 1588-2019). -/
def ForeignMaster.rank (m : ForeignMaster) : List Nat :=
  [m.data.priority1, m.data.clockClass, m.data.accuracy, m.data.variance, m.data.priority2, m.data.grandmaster,
    m.data.stepsRemoved, m.sender]

namespace Machine

/-! ## The clock -/

/-- What one cycle of the time clock adds, in 2^-48 ns: 3.2 (1 + RATE 2^-16 10^-9) ns, rounded to nearest with ties to even
(R630). -/
def clockIncrement (rate : Int) : Nat :=
  let num : Nat := ((2 ^ 36 : Int) * (65536 * 1000000000 + rate)).toNat
  let den : Nat := 5 * 1000000000
  let q := num / den
  let r := num % den
  if den < 2 * r ∨ (2 * r = den ∧ q % 2 = 1) then q + 1 else q

/-- The clock some 2^-48 ns later; nanoseconds carry into seconds at 10^9 (R629). -/
def clockAdd (fracs : Nat) (t : TimeUnitBlock) : TimeUnitBlock :=
  let f := t.frac + fracs
  let n := t.ns + f / 2 ^ 48
  { t with frac := f % 2 ^ 48, ns := n % 1000000000, sec := (t.sec + n / 1000000000) % 2 ^ 48 }

/-- The clock one tick later: 12 or 13 cycles of the time clock in turn in NAP and above, exactly 40 ns in SLEEP and OFF
(R630, R631). -/
def clockTick (powered : Bool) (t : TimeUnitBlock) : TimeUnitBlock :=
  if powered then { clockAdd ((12 + t.halfCycle.toNat) * clockIncrement t.rate) t with halfCycle := !t.halfCycle }
  else clockAdd (40 * 2 ^ 48) t

/-- The link of a logical port runs at 25 Gb/s: its cage holds a breakout module (R786). -/
def breakoutPort (s : State) (port : Nat) : Bool := (s.board.modules.getD (port / 4) none).any (·.breakoutOnly)

/-- What the clock showed when a delimiter passed the MAC: to a cycle of the time clock, and to the tick in SLEEP and OFF
(R644). -/
def captureTime (s : State) (t : CardTime) : CardTime := if 6 ≤ s.power.state then s.now else t

/-- An ingress stamp: the capture time less 41.6 ns, or 78.4 ns at 25 Gb/s, in whole nanoseconds (R644, Table 21-3;
DEDUCED, assumption 133). -/
def ingressStamp (s : State) (port : Nat) (t : CardTime) : CardTime :=
  (captureTime s t).add (if breakoutPort s port then -79 else -42)

/-- An egress stamp: the capture time plus 33.6 ns, or 64.0 ns at 25 Gb/s, in whole nanoseconds (R644, Table 21-3; DEDUCED,
assumption 133). -/
def egressStamp (s : State) (port : Nat) (t : CardTime) : CardTime :=
  (captureTime s t).add (if breakoutPort s port then 64 else 33)

/-- ENABLE of TIME.PTP_CFG. -/
def ptpEnabled (s : State) : Bool := s.time.ptpCfg.getLsbD 0
/-- The card servo is active: ENABLE with SERVO 1. -/
def servoActive (s : State) : Bool := s.time.ptpCfg.getLsbD 0 && s.time.ptpCfg.getLsbD 1
/-- PORT of TIME.PTP_CFG. -/
def ptpPort (s : State) : Nat := s.time.ptpCfg.toNat / 16 % 8

/-- The clock is released (R636). -/
def clockRelease (s : State) : State := s.modTime fun t => { t with sync := 0 }

/-- The first edge of a unit's series at or after a moment in ns (R648, R650). -/
def edgeFrom (start step at_ : Nat) : CardTime :=
  if at_ ≤ start ∨ step = 0 then CardTime.ofNs start else CardTime.ofNs (start + ceilDiv (at_ - start) step * step)

/-- The clock is stepped by an offset: card-time deadlines move with it and outputs resume at the first edge after it
(R637, R639). -/
def clockStep (d : Int) (s : State) : State :=
  let now := ((s.now.toNs : Int) + d).toNat
  let s := s.modTime fun t =>
    { t with
      sec := now / 1000000000
      ns := now % 1000000000
      sync := 1
      steps := t.steps + 1
      units := SMap.mapVals {}
        (fun _ u => if u.isOutput then { u with next := edgeFrom u.start.toNs u.step (now + 1) } else u) t.units }
  s.modObj fun o =>
    { o with
      flows := o.flows.map fun f =>
        { f with held := f.held.map fun p => { p with release := p.release.add d } } }

/-- An offset keeps the clock within 0 to 2^48 - 1 seconds (R637). -/
def stepFits (s : State) (d : Int) : Bool :=
  decide (0 ≤ (s.now.toNs : Int) + d) && decide ((s.now.toNs : Int) + d < (2 ^ 48 * 1000000000 : Nat))

/-- `TIME_STEP` (Table 19-8, R637). -/
def timeStepBody (sec ns : Int) (s : State) : Reply :=
  if ¬ (-(2 ^ 47) ≤ sec ∧ sec ≤ 2 ^ 47 ∧ -999999999 ≤ ns ∧ ns ≤ 999999999 ∧ (0 < sec → 0 ≤ ns) ∧ (sec < 0 → ns ≤ 0)) then
    .no stBadValue
  else if servoActive s then .no stBusyResource
  else if s.time.sync ≠ 0 then .no stWrongState
  else if stepFits s (sec * 1000000000 + ns) = false then .no stBadValue
  else .ok (clockStep (sec * 1000000000 + ns) s) []

/-- The largest RATE, 1,000,000 ppb (R638, R639). -/
abbrev maxRate : Int := 65536000000

/-- A rate correction: a HOLDOVER clock returns to LOCKED (R635, R638). -/
def setRate (rate : Int) (s : State) : State :=
  s.modTime fun t => { t with rate := rate, sync := if t.sync = 2 then 1 else t.sync }

/-- `TIME_RATE` (R638). -/
def timeRateBody (rate : Int) (s : State) : Reply :=
  if ¬ (-maxRate ≤ rate ∧ rate ≤ maxRate) then .no stBadValue
  else if servoActive s then .no stBusyResource
  else .ok (setRate rate s) []

/-! ## Time units -/

/-- The fields of a claim are in range (Table 19-8, R649). -/
def claimFieldsOk (unit function connector period : Nat) (start : CardTime) : Bool :=
  (decide (unit < 4) || decide (unit = 0xFF)) && decide (1 ≤ function ∧ function ≤ 4) && decide (connector < 2) &&
  (if function = 2 ∨ function = 3 then decide (connector = 1) && decide (start = {}) else true) &&
  (if function = 4 then decide (1000000 ≤ period ∧ period ≤ 1000000000) else decide (period = 0)) &&
  decide (start.sec < 2 ^ 48) && decide (start.ns < 1000000000) && (decide (function ≠ 1) || decide (start.ns = 0))

/-- The unit that a claim names: itself, or the lowest free one. -/
def claimUnit (s : State) (unit : Nat) : Option Nat :=
  if unit = 0xFF then (List.range 4).find? fun u => !(s.tu u).claimed
  else if (s.tu unit).claimed then none else some unit

/-- The TIME connector is claimed. -/
def connectorClaimed (s : State) : Bool := (List.range 4).any fun u => (s.tu u).claimed && (s.tu u).connector

/-- The first whole nanosecond at least one tick ahead (R650). -/
def tickAhead (s : State) : Nat := s.now.toNs + 40 + (decide (s.time.frac ≠ 0)).toNat

/-- `TIME_UNIT_CLAIM` (R592, R648 to R650). -/
def timeClaimBody (h : Hdr) (unit function connector period : Nat) (start : CardTime) (s : State) : Reply :=
  if claimFieldsOk unit function connector period start = false then .no stBadValue
  else
    match claimUnit s unit with
    | none => .no stBusyResource
    | some u =>
      if connector = 1 ∧ connectorClaimed s = true then .no stBusyResource
      else
        let hd := fixedHandle s tUnit u
        let step := if function = 1 then 1000000000 else period
        let next : CardTime :=
          if function = 1 ∨ function = 4 then edgeFrom start.toNs step (tickAhead s) else {}
        let s := s.modTu u fun _ =>
          { claimed := true, function := function, connector := decide (connector = 1), period := period, start := start,
            next := next }
        let s := s.modObj fun o =>
          { o with units := o.units ++ [⟨hd, h.session, u, function, decide (connector = 1), period, start⟩] }
        .ok (issued hd s) (leBytes 4 hd.toNat)

/-- A claim whose answer has waited for the partner is answered: the output's first edge counts from here (R650). -/
def restartOutput (resp : List Byte) (s : State) : State :=
  match s.obj.units.find? fun x => decide (leBytes 4 x.handle.toNat = resp) with
  | none => s
  | some x =>
    s.modTu x.unit fun u => if u.isOutput then { u with next := edgeFrom u.start.toNs u.step (tickAhead s) } else u

/-- A unit's claim is not answered yet: it drives no edge (R650). -/
def claimWaits (unit : Nat) (s : State) : Bool :=
  s.pair.waiting.any fun w => match w.2 with
    | .answer _ _ _ resp _ => s.obj.units.any fun x => decide (x.unit = unit) && decide (leBytes 4 x.handle.toNat = resp)
    | _ => false

/-- A time unit is freed at once and leaves the connector undriven (R652). -/
def freeUnit (u : Nat) (s : State) : State :=
  let drives := (s.tu u).isOutput && (s.tu u).connector
  let s := s.modTu u fun t => { t with claimed := false, function := 0, connector := false }
  let s := if drives then s.modBoard fun b => { b with pulseHigh := false } else s
  s.modObj fun o => { o with units := o.units.filter fun x => decide (x.unit ≠ u) }

/-- `TIME_UNIT_RELEASE` (R652). -/
def timeReleaseBody (h : Hdr) (unit : Handle) (s : State) : Reply :=
  let found := s.obj.units.find? fun x => decide (x.handle = unit)
  match checkHandle unit tUnit (found.map (·.session)) h.session, found with
  | some st, _ => .no st
  | none, none => .no stNotFound
  | none, some x => .ok (freeUnit x.unit s) []

/-- The taking of the command. -/
def runTimeStep (h : Hdr) (sec ns : Int) : State → State :=
  serve kPlain h 24 (timeStepBody sec ns)

def execTimeStep (h : Hdr) (sec ns : Int) (s : State) : Result :=
  .next (enter h 0x80 (.timeStep h sec ns) (runTimeStep h sec ns) s)

/-- The taking of the command. -/
def runTimeRate (h : Hdr) (rate : Int) : State → State :=
  serve kPlain h 16 (timeRateBody rate)

def execTimeRate (h : Hdr) (rate : Int) (s : State) : Result :=
  .next (enter h 0x81 (.timeRate h rate) (runTimeRate h rate) s)

/-- The taking of the command. -/
def runTimeUnitClaim (h : Hdr) (unit function connector period : Nat) (start : CardTime) : State → State :=
  serve kPlain h 24 (timeClaimBody h unit function connector period start)

def execTimeUnitClaim (h : Hdr) (unit function connector period : Nat) (start : CardTime) (s : State) : Result :=
  .next (enter h 0x82 (.timeUnitClaim h unit function connector period start) (runTimeUnitClaim h unit function connector period start) s)

/-- The taking of the command. -/
def runTimeUnitRelease (h : Hdr) (unit : Handle) : State → State :=
  serve kPlain h 8 (timeReleaseBody h unit)

def execTimeUnitRelease (h : Hdr) (unit : Handle) (s : State) : Result :=
  .next (enter h 0x83 (.timeUnitRelease h unit) (runTimeUnitRelease h unit) s)

/-! ## Wake signalling -/

/-- A wake cause: PME_Status is set, and PME, or WAKE# in D3cold with auxiliary power, is signalled (R620). -/
def signalWake (s : State) : State :=
  let s := s.modPcie fun p => { p with pmeStatus := true }
  if s.power.state = 7 then (if s.power.aux then s.push .wake else s)
  else if s.pcie.pmeEnable then s.push .pme
  else s

/-! ## Reads and writes of the registers -/

/-- A read of `size` bytes of a latching register is of 4 or 8 bytes; any other reads zero and latches nothing (R606). -/
def latchedRead (size value : Nat) (latch : State → State) (s : State) : Result :=
  if size = 4 ∨ size = 8 then .next ((latch s).push (.readData (leBytes size value)))
  else .next (s.push (.readData (zeroBytes size)))

/-- A read of TIME.NOW_SEC latches TIME.NOW_NS and TIME.NOW_FRAC (Table 21-5). -/
def timeNowSecRead (size : Nat) (s : State) : Result :=
  latchedRead size s.time.sec (fun s => s.modTime fun t => { t with latchNs := t.ns, latchFrac := t.frac / 2 ^ 32 }) s

/-- The request of the host. -/
def execTimeNowSecRead (size : Nat) (s : State) : Result := barAccess false (timeNowSecRead size) s

/-- The value of TIME.TXQ_POP for an entry. -/
def txqWord (e : TxStamp) : Nat := e.id + 65536 * e.msg + 2 ^ 20 * e.port + 2 ^ 23 + 2 ^ 32 * e.time.ns

/-- A TIME.TXQ_POP value with VALID 0, whose other fields the manual leaves open. -/
def txqInvalid (s : State) : Nat :=
  let f := Config.freeNat s.fresh
  f % 2 ^ 23 + 2 ^ 32 * (f / 2 ^ 32 % 2 ^ 30)

/-- A read of TIME.TXQ_POP: 8 bytes remove the oldest entry and latch its seconds, unless the card servo is active (R646);
4 bytes remove nothing; any other size reads zero (R606). -/
def timeTxqPopRead (size : Nat) (s : State) : Result :=
  if size ≠ 8 ∧ size ≠ 4 then .next (s.push (.readData (zeroBytes size)))
  else
    match servoActive s, s.time.txq with
    | false, e :: rest =>
      if size = 8 then
        .next ((s.modTime fun t => { t with txq := rest, read := t.read + 1, txqSec := e.time.sec }).push
          (.readData (leBytes 8 (txqWord e))))
      else .next (s.push (.readData (leBytes 4 (txqWord e))))
    | _, _ => .next (s.useFresh.push (.readData (leBytes size (txqInvalid s))))

/-- The request of the host. -/
def execTimeTxqPopRead (size : Nat) (s : State) : Result := barAccess false (timeTxqPopRead size) s

/-- A read of TU.CAPTURE_SEC latches TU.CAPTURE_NS and TU.PPS_ERR (Table 21-6). -/
def tuCaptureSecRead (unit size : Nat) (s : State) : Result :=
  latchedRead size (s.tu unit).capture.sec
    (fun s => s.modTu unit fun t => { t with latchNs := t.capture.ns, latchErr := t.ppsErr }) s

/-- The request of the host. -/
def execTuCaptureSecRead (unit size : Nat) (s : State) : Result := barAccess false (tuCaptureSecRead unit size) s

/-- A write of TIME.CTRL: RELEASE acts under the host servo (R636); a non-zero reserved bit has no defined effect (R6). -/
def timeCtrlRelease (value : Nat) (s : State) : Result :=
  if 2 ≤ value then .fault (.undefinedEffect 6)
  else if value = 1 ∧ servoActive s = false then .next (clockRelease s)
  else .next s

/-- The request of the host. -/
def execTimeCtrlRelease (value : Nat) (s : State) : Result := barAccess true (timeCtrlRelease value) s

/-- LOG_DREQ of a TIME.PTP_CFG value, signed. -/
def logDreq (w : BitVec 32) : Int := (BitVec.extractLsb' 16 8 w).toInt

/-- The fields of a TIME.PTP_CFG value are in range (Table 21-5, R643). -/
def ptpCfgOk (w : BitVec 32) : Bool :=
  let profile := w.toNat / 4 % 4
  decide (profile ≤ 2) && (decide (profile ≠ 1) || w.getLsbD 1) && decide (-7 ≤ logDreq w) && decide (logDreq w ≤ 4)

/-- No master is selected (Table 21-5, GM_ID). -/
def dropMaster (s : State) : State := s.modTime fun t => { t with gmId := 0, master := none }

/-- A write of TIME.PTP_CFG: out of range it is ignored; a change releases the clock (R636), and one of anything but LOG_DREQ begins
the choice of a master anew; a non-zero reserved bit has no defined effect (R6). -/
def timePtpCfgWrite (value : Nat) (s : State) : Result :=
  let w := BitVec.ofNat 32 value
  if w.getLsbD 7 || decide (2 ^ 24 ≤ value) then .fault (.undefinedEffect 6)
  else if ptpCfgOk w = false ∨ w = s.time.ptpCfg then .next s
  else
    let s' := clockRelease (s.modTime fun t => { t with ptpCfg := w })
    if (w ^^^ s.time.ptpCfg) &&& 0xFFFF = 0 then .next s'
    else .next (dropMaster (s'.modTime fun t => { t with gmLast := 0, masters := [] }))

/-- The request of the host. -/
def execTimePtpCfgWrite (value : Nat) (s : State) : Result := barAccess true (timePtpCfgWrite value) s

/-- A write of TIME.UTC_OFFSET: discarded under the card servo (R633). -/
def timeUtcOffsetWrite (value : Nat) (s : State) : Result :=
  if 2 ^ 16 ≤ value then .fault (.undefinedEffect 6)
  else if servoActive s then .next s
  else .next (s.modTime fun t => { t with utcOffset := (BitVec.ofNat 16 value).toInt })

/-- The request of the host. -/
def execTimeUtcOffsetWrite (value : Nat) (s : State) : Result := barAccess true (timeUtcOffsetWrite value) s

/-! ## Events of the clock -/

/-- A stamp is taken: it enters the queue of 16, or is dropped and counted (R645). -/
def takeStamp (e : TxStamp) (s : State) : State :=
  s.modTime fun t =>
    if 16 ≤ t.txq.length then { t with taken := t.taken + 1, dropped := t.dropped + 1 }
    else { t with taken := t.taken + 1, txq := t.txq ++ [e] }

/-- Under the card servo firmware takes the entries of the queue; a tick's entries go at its end (DESIGN CHOICE, log entry 170). -/
def drainStamps (s : State) : State :=
  if servoActive s then
    s.modTime fun t =>
      { t with
        read := t.read + t.txq.length
        txqSec := ((t.txq.getLast?).map (·.time.sec)).getD t.txqSec
        txq := [] }
  else s

/-- The first card address of a port (R393). -/
def firstAddr (s : State) (port : Nat) : Option CardAddr := s.obj.addrs.find? fun a => decide (a.port = port)

/-- The address from which PTP messages are sent: the first card address of PORT (R640). -/
def ptpSource (s : State) : Option Nat := (firstAddr s (ptpPort s)).map (·.addr)

/-- The profile is DEFAULT_P2P. -/
def peerDelay (s : State) : Bool := decide (s.time.ptpCfg.toNat / 4 % 4 = 1)

/-- A Delay_Req, or a Pdelay_Req in the peer-to-peer profile, is sent on PORT and its stamp taken; its delimiter passed the MAC at
`stamp` (R640, R643 to R645). -/
def execPtpDelayReqSend (sequenceId : Nat) (stamp : CardTime) (s : State) : Result :=
  if ptpEnabled s = false ∨ (s.cc 3).run ≠ 1 then .next s
  else
    let type := if peerDelay s then 2 else 1
    .next (takeStamp ⟨sequenceId % 65536, type, ptpPort s, egressStamp s (ptpPort s) stamp⟩
      (s.push (.frame (ptpPort s) 0xFFFF (.ptpRequest type (sequenceId % 65536) (ptpSource s)))))

/-! ### The card servo (R633 to R641) -/

/-- A Pdelay_Req is answered in the two-step form: the response carries the ingress stamp of the request and takes a stamp of its
own, which the follow-up carries (R641, R645). The response passes the MAC at the card time of its answer (PRESUMED, log entry
170). -/
def answerPeer (ingress : CardTime) (sequenceId requester : Nat) (s : State) : State :=
  let port := ptpPort s
  let stamp := egressStamp s port s.now
  let s := takeStamp ⟨sequenceId % 65536, 3, port, stamp⟩
    (s.push (.frame port 0xFFFF (.ptpResponse 3 (sequenceId % 65536) (ptpSource s) ingress requester)))
  s.push (.frame port 0xFFFF (.ptpResponse 10 (sequenceId % 65536) (ptpSource s) stamp requester))

/-- An Announce message is recorded under its sender. -/
def hearMaster (sender : Nat) (a : PtpAnnounce) (s : State) : State :=
  s.modTime fun t =>
    let before := (t.masters.find? fun x => decide (x.sender = sender)).map (·.heard)
    { t with masters := upsert (·.sender) ⟨sender, a, t.tick, before⟩ t.masters }

/-- Ticks within which a master must be heard twice to be chosen: four intervals of the profile's Announce messages (IEEE
1588-2019 and SMPTE ST 2059-2; PRESUMED, log entry 169). -/
def announceWindow (s : State) : Nat := if s.time.ptpCfg.toNat / 4 % 4 = 2 then 25000000 else 200000000

/-- The better of two masters. -/
def betterMaster (a b : ForeignMaster) : ForeignMaster := if b.rank < a.rank then b else a

/-- The best of the masters that qualify. -/
def bestMaster (s : State) : Option ForeignMaster :=
  let ok (m : ForeignMaster) : Bool :=
    decide (m.data.stepsRemoved < 255) && m.heardBefore.any fun b => decide (s.time.tick ≤ b + announceWindow s)
  match s.time.masters.filter ok with
  | [] => none
  | m :: l => some (l.foldl betterMaster m)

/-- The best master is selected; a grandmaster that differs from the previous one releases the clock (R636, R641). -/
def selectMaster (s : State) : State :=
  match bestMaster s with
  | none => s
  | some m =>
    let g := m.data.grandmaster
    let s := if s.time.gmLast = 0 ∨ s.time.gmLast = g then s else clockRelease s
    s.modTime fun t => { t with gmId := g, gmLast := g, master := some m.sender }

/-- What the servo measures: the first offset of a lock is removed by a step, and later corrections are of the rate only, within
its limits (R635, R639). -/
def servoCorrect (offset rate : Option Int) (s : State) : State :=
  let s := match offset with
    | none => s
    | some d =>
      let s := s.modTime fun t => { t with offsetNs := d }
      if s.time.sync = 0 ∧ stepFits s (-d) = true then clockStep (-d) s else s
  match rate with
  | none => s
  | some r => setRate (max (-maxRate) (min maxRate r)) s

/-- A PTP message that the card servo consumes, with its ingress stamp (R633 to R642). -/
def servoMessage (ingress : CardTime) (m : PtpMsg) (s : State) : State :=
  let s := match m.announce with
    | none => s
    | some a => selectMaster (hearMaster m.sender a s)
  if m.messageType = 2 then (if peerDelay s then answerPeer ingress m.sequenceId m.sender s else s)
  else if s.time.master ≠ some m.sender then s
  else
    let s := match m.announce.bind (·.utcOffset) with
      | none => s
      | some u => s.modTime fun t => { t with utcOffset := u }
    servoCorrect m.offsetNs m.rate s

/-- 16 s without a `TIME_RATE`, or the announce timeout: LOCKED becomes HOLDOVER (Table 21-1). The master that is no longer heard is
not selected any more. -/
def dueHoldoverTimeout (s : State) : Result :=
  let s' := s.modTime fun t => if t.sync = 1 then { t with sync := 2 } else t
  if servoActive s then
    .next (dropMaster (s'.modTime fun t => { t with masters := t.masters.filter fun m => decide (some m.sender ≠ t.master) }))
  else .next s'

/-- The deadline is reached (R653). -/
def execHoldoverTimeout (s : State) : Result :=
  atDeadline .holdoverTimeout dueHoldoverTimeout s

/-- An output edge of a unit: counted, the next one set; it drives the connector, or is an alarm (R648, R651, R784). -/
def execTimeUnitOutputEdge (unit : Nat) (s : State) : Result :=
  let u := s.tu unit
  if u.isOutput = false ∨ claimWaits unit s = true then .next s
  else
    let s := s.modTu unit fun t => { t with events := t.events + 1, next := t.next.add t.step }
    if u.connector then .next ((s.modBoard fun b => { b with pulseHigh := true }).push (.connectorEdge true))
    else .next (signalWake s)

/-- The pulse of a connector output ends (R784). -/
def execOutputPulseEnd (s : State) : Result :=
  if s.board.pulseHigh then .next ((s.modBoard fun b => { b with pulseHigh := false }).push (.connectorEdge false))
  else .next s

/-- Signed offset of a capture from the nearest whole second; half a second exactly may go either way. -/
def ppsOffset (ns : Nat) (tie : Bool) : Int :=
  if ns < 500000000 ∨ (ns = 500000000 ∧ tie) then (ns : Int) else (ns : Int) - 1000000000

/-- The input unit that has claimed the TIME connector. -/
def connectorInput (s : State) : Option Nat :=
  (List.range 4).find? fun u =>
    let t := s.tu u
    t.claimed && t.connector && (decide (t.function = 2) || decide (t.function = 3))

/-- A rising edge at the TIME connector: captured and counted by the input unit that claims it, unless it follows a counted
edge by less than 1 us (R652, Table 26-5). -/
def execTimeConnectorEdge (s : State) : Result :=
  match connectorInput s with
  | none => .next s
  | some u =>
    if (s.board.lastEdge.any fun t => decide (s.time.tick < t + 25)) then .next s
    else
      let err := if (s.tu u).function = 2 then ppsOffset s.time.ns (Config.freeBool s.fresh) else 0
      let s' := s.modTu u fun t => { t with capture := s.now, ppsErr := err, events := t.events + 1 }
      .next (s'.modBoard fun b => { b with lastEdge := some s.time.tick }).useFresh

end Machine
end Sys2Proof
end

