-- ==== Sys2Proof/Machine/Ingest.lean ====
section
/-! DEFINITION. Stream ingest from the network and from the host: the flow table, jitter buffers, capture times, the host
path, and host-fed containers (chapter 13). -/

namespace Sys2Proof

/-- Bytes of the feed buffer in use: record bytes not parsed, and units not taken by header parsing. -/
def Stream.feedUsed (x : Stream) : Nat := x.feedTail.length + x.aus.foldl (fun n a => n + a.bytes) 0

/-- Bytes of a feed. -/
def FeedReq.total (f : FeedReq) : Nat := f.entries.foldl (fun n e => n + e.2) 0

/-- Bytes that a flow holds in its jitter buffer. -/
def Flow.heldBytes (f : Flow) : Nat := (f.held ++ f.outbox.map (·.1)).foldl (fun n p => n + p.bytes) 0

/-- Match key of an entry: port, VLAN, destination, and SSRC or source (R387). -/
def FlowReq.matchKey (q : FlowReq) : Nat × Nat × Nat × Nat × Nat × Nat :=
  (q.port, q.vlan, q.dstAddr, q.dstPort, q.key, if q.key = 1 then q.ssrc else q.srcAddr)

/-- A held packet inserted in sequence order. -/
def insertBySeq (p : HeldPacket) : List HeldPacket → List HeldPacket
  | [] => [p]
  | q :: l => if p.seq < q.seq then p :: q :: l else q :: insertBySeq p l

/-- Bytes of a stream's context area (Table 14-4). -/
abbrev contextBytes : Nat := 262144

/-- Card-private DDR that flows and streams of one card take (R389, R418, R580). -/
def Objects.privateBytes (o : Objects) : Nat :=
  o.flows.foldl (fun n f => n + f.bufBytes) 0 +
    o.streams.foldl (fun n x => n + (if x.enc.isSome then 0 else contextBytes) + x.feedBytes) 0

namespace Machine

/-- A flow. -/
def findFlow (s : State) (h : Handle) : Option Flow := s.obj.flows.find? fun f => decide (f.handle = h)
/-- A flow replaced. -/
def setFlow (f : Flow) (s : State) : State := s.modObj fun o => { o with flows := upsert (·.handle) f o.flows }

/-- Card-private DDR beyond the pillow save area and the picot store of R530. -/
abbrev privateTotal : Nat := 2 ^ 30 - 2 ^ 28

/-- `n` more bytes of card-private DDR fit. -/
def privateFits (s : State) (n : Nat) : Bool :=
  decide (s.obj.privateBytes + s.pair.replica.privateBytes + n ≤ privateTotal)

/-- Counters of a stream's ingest changed. -/
def modIngest (h : Handle) (f : IngestCounters → IngestCounters) (s : State) : State :=
  modStream h (fun x => { x with ingest := f x.ingest }) s

/-- A packet, record or unit is received and discarded under a reason of Table 13-2. -/
def discard (h : Handle) (reason : Nat) (s : State) : State :=
  modIngest h (fun c => { c with received := c.received + 1, discarded := listAdd c.discarded reason 1 }) s

/-- An access unit leaves ingest; in MIRRORED mode it goes to the partner as well (R735). -/
def emitUnit (h : Handle) (a : AccessUnit) (s : State) : State :=
  let s := modStream h (fun x => { x with aus := x.aus ++ [a] }) s
  if s.pair.mode = 1 then mirrorItem (fun n => .accessUnit n h a) s else s

/-! ## Capture time (R400 to R403) -/

/-- A signed difference modulo `2 ^ n`. -/
def wrapDiff (n : Nat) (a b : Nat) : Int :=
  let d := ((a : Int) - b) % (2 ^ n : Nat)
  if d < 2 ^ (n - 1) then d else d - 2 ^ n

/-- A card time from nanoseconds that may lie outside the range of the clock. -/
def timeOfInt (n : Int) : CardTime := ⟨(n / 1000000000 % (2 ^ 48 : Nat)).toNat, (n % 1000000000).toNat⟩

/-- The mapping that a sender report gives (R401). -/
def mapOf (utc : Int) (ntpSec ntpFrac rtp : Nat) : TimeMap :=
  ⟨((ntpSec : Int) - 2208988800 + utc) * 1000000000 + (ntpFrac * 1000000000 / 2 ^ 32 : Nat), rtp⟩

/-- Capture time of the access unit that a packet starts, with its PTS, and whether it is estimated (R401 to R403). -/
def captureOf (f : Flow) (p : HeldPacket) (pts : Option Nat) : CardTime × Bool :=
  if f.req.encap = 2 then
    match f.anchor, pts with
    | some (base, stamp), some pts => (stamp.add (wrapDiff 33 pts base * 1000000000 / 90000), true)
    | _, _ => (p.ingress, true)
  else
    match f.map with
    | none => (p.ingress, true)
    | some m => (timeOfInt (m.baseNs + wrapDiff 32 p.rtpTime m.rtp * 1000000000 / f.req.clockRate), false)

/-! ## Packets leaving the jitter buffer (R395, R397) -/

/-- The access unit under assembly ends. -/
def closeUnit (f : Flow) (s : State) : Flow × State :=
  match f.open_ with
  | none => (f, s)
  | some (_, a) => ({ f with open_ := none }, emitUnit f.req.stream a s)

/-- An access unit starts with `bytes` of a packet. -/
def openUnit (f : Flow) (p : HeldPacket) (key : Nat) (pts : Option Nat) (bytes : Nat) : Flow :=
  let (t, e) := captureOf f p pts
  { f with open_ := some (key, ⟨t, e, f.lossPending, bytes⟩), lossPending := false }

/-- `bytes` of a packet go on with the access unit under assembly. -/
def growUnit (f : Flow) (bytes key : Nat) (a : AccessUnit) : Flow :=
  { f with
    open_ := some (key, { a with lost := a.lost || f.lossPending, bytes := a.bytes + bytes })
    lossPending := false }

/-- The access unit under assembly has lost data (R397). -/
def markOpen (f : Flow) : Flow := { f with open_ := f.open_.map fun x => (x.1, { x.2 with lost := true }) }

/-- Packets lost behind an access unit whose end has not been seen: its tail is among them (R397). -/
def loseTail (f : Flow) : Flow := if f.lossPending then markOpen f else f

/-- PID of the video of the program that an entry's TS_PROGRAM names, as far as the tables that came tell it (Table 13-1). -/
def videoPid (f : Flow) : Option Nat :=
  let program := if f.req.tsProgram = 0 then f.pat.head? else f.pat.find? fun x => decide (x.1 = f.req.tsProgram)
  program.bind fun x => (f.pmts.find? fun y => decide (y.1 = x.2)).map (·.2)

/-- The count that a PID has reached with a continuity counter, and how many counts are missing before it (R395, R397). A
repeated counter is a duplicate packet. -/
def continuity (cc : List (Nat × Nat)) (pid c : Nat) : Nat × Nat :=
  match cc.find? fun x => decide (x.1 = pid) with
  | none => (c, 0)
  | some (_, old) =>
    let d := (c + 16 - old % 16) % 16
    (old + d, d - 1)

/-- A gap of continuity counters is counted; one of the video's PID has the effect of a lost packet on the PES packet it falls in,
which is the one under assembly (R397). -/
def applyContinuity (t : TsPacket) (f : Flow) (s : State) : Flow × State :=
  let (count, lost) := continuity f.cc t.pid t.cc
  let f := { f with cc := upsert (·.1) (t.pid, count) f.cc }
  if lost = 0 then (f, s)
  else
    let s := modIngest f.req.stream (fun c => { c with lost := c.lost + lost }) s
    if videoPid f ≠ some t.pid then (f, s)
    else if f.open_.isSome then (markOpen f, s)
    else ({ f with lossPending := true }, s)

/-- One transport-stream packet of a packet that leaves the jitter buffer: each PES packet of the video is an access unit. -/
def leaveTs (p : HeldPacket) (t : TsPacket) (f : Flow) (s : State) : Flow × State :=
  let (f, s) := applyContinuity t f s
  match t.content with
  | .pat l => ({ f with pat := l }, s)
  | .pmt v => ({ f with pmts := upsert (·.1) (t.pid, v) f.pmts }, s)
  | .pes pts =>
    if videoPid f ≠ some t.pid then (f, s)
    else
      let (f, s) := closeUnit (loseTail f) s
      (openUnit f p (pts.getD 0) pts 188, s)
  | .rest =>
    match f.open_ with
    | some (k, a) => if videoPid f = some t.pid then (growUnit f 188 k a, s) else (f, s)
    | none => (f, s)

/-- A packet leaves the jitter buffer to the depacketiser. RTP packets of one timestamp form an access unit, which its
marker ends; in a transport stream each PES packet of the program's video is one, and continuity counters are followed in the order
of leaving. A loss of RTP packets between the unit under assembly and the start of the next one marks both, as the lost packets may
belong to either (R397, DEDUCED, assumption 129). -/
def leave (p : HeldPacket) (f : Flow) (s : State) : Flow × State :=
  if f.req.encap = 1 then
    let (f, s) := match f.open_ with
      | some (k, a) =>
        if k = p.rtpTime then (growUnit f p.bytes k a, s)
        else
          let (f, s) := closeUnit (loseTail f) s
          (openUnit f p p.rtpTime none p.bytes, s)
      | none => (openUnit f p p.rtpTime none p.bytes, s)
    if p.marker then closeUnit f s else (f, s)
  else p.ts.foldl (fun x t => leaveTs p t x.1 x.2) (f, s)

/-- A packet leaves the jitter buffer to the stream's control core; while that does not run, it waits for it, with the mark of a
loss before it (R655, R665). -/
def leaveTo (p : HeldPacket) (f : Flow) (s : State) : Flow × State :=
  if coreServes s f.req.stream then leave p f s
  else ({ f with outbox := f.outbox ++ [(p, f.lossPending)], lossPending := false }, s)

/-- What waits for the control core is depacketised. -/
def emptyOutbox (f : Flow) (s : State) : Flow × State :=
  f.outbox.foldl (fun x p => leave p.1 { x.1 with lossPending := x.1.lossPending || p.2 } x.2) ({ f with outbox := [] }, s)

/-- Held packets leave in sequence order as far as nothing earlier is missing (R395 step 3). -/
def leaveReady : List HeldPacket → Flow → State → Flow × State
  | [], f, s => ({ f with held := [] }, s)
  | p :: l, f, s =>
    if f.lastOut = some (p.seq - 1) ∨ f.lastOut = none then
      let (f, s) := leaveTo p { f with lastOut := some p.seq } s
      leaveReady l f s
    else ({ f with held := p :: l }, s)

/-- Card time reaches a moment within the present tick (R653). -/
def reachedNow (s : State) (t : CardTime) : Bool :=
  let e := clockTick (decide (s.power.state < 6)) s.time
  decide (t.toNs * 2 ^ 48 < (e.sec * 1000000000 + e.ns) * 2 ^ 48 + e.frac)

/-- The gap before the oldest held packet is declared lost (R395 step 4, R397). -/
def declareLost (f : Flow) (s : State) : Flow × State :=
  match f.held, f.lastOut with
  | p :: _, some n =>
    if n + 1 < p.seq then
      ({ f with lastOut := some (p.seq - 1), lossPending := true },
        modIngest f.req.stream (fun c => { c with lost := c.lost + (p.seq - 1 - n) }) s)
    else (f, s)
  | _, _ => (f, s)

/-- Every held packet leaves in sequence order, without waiting at gaps (R391). -/
def flushFlow : List HeldPacket → Flow → State → Flow × State
  | [], f, s => closeUnit { f with held := [] } s
  | p :: l, f, s =>
    let (f, s) := declareLost { f with held := p :: l } s
    let (f, s) := leave p { f with lastOut := some p.seq } s
    flushFlow l f s

/-- An RTP sequence number extended to 32 bits: the number nearest to the highest received (RFC 3550). -/
def extendSeq (highest : Option Nat) (seq : Nat) : Nat :=
  match highest with
  | none => 65536 + seq % 65536
  | some h => ((h : Int) + wrapDiff 16 (seq % 65536) (h % 65536)).toNat

/-- A packet is admitted: counted as used, held with its release time, and released with what it completes (R395, R398). -/
def admitPacket (f : Flow) (p : HeldPacket) (s : State) : State :=
  let gap := match f.lastOut with
    | none => false
    | some n => decide (n + 1 < p.seq)
  let f := { f with
    held := insertBySeq p f.held
    highest := some (max (f.highest.getD 0) p.seq)
    lastOut := some (f.lastOut.getD (p.seq - 1)) }
  let bytes := f.heldBytes
  let s := modIngest f.req.stream
    (fun c =>
      { c with
        received := c.received + 1
        used := c.used + 1
        reordered := c.reordered + gap.toNat
        heldPeak := max c.heldPeak bytes }) s
  let (f, s) := leaveReady f.held f s
  setFlow f s

/-- The frame number of the next access unit that comes, as far as those that came tell it: it follows the pictures parsed and the
access units that wait (R439; DEDUCED, log entry 167). -/
def nextUnitFrame (x : Stream) : Nat := x.parsed + (x.aus.length - (decide (x.parsing ≠ 0)).toNat)

/-- A change of SSRC on a SOURCE-keyed flow (R399); the first frame it concerns is that of the access unit which comes next
(R515). -/
def discontinuity (f : Flow) (ssrc : Nat) (s : State) : Flow × State :=
  let (f, s) := emptyOutbox f s
  let (f, s) := flushFlow f.held f s
  let f := { f with lastOut := none, highest := none, ssrc := some ssrc, map := none, cc := [], pat := [], pmts := [], lossPending := false }
  let s := modIngest f.req.stream (fun c => { c with ssrcChanges := c.ssrcChanges + 1 }) s
  (f, statusPicot f.req.stream 8 0 0 (((findStream s f.req.stream).map nextUnitFrame).getD 0) s.now false s)

/-- A matched RTP packet (R395, R398, Table 13-2). -/
def rtpPacket (f : Flow) (p : RtpPacket) (ingress : CardTime) (s : State) : State :=
  if p.malformed then discard f.req.stream 3 s
  else
    let (f, s) := if f.req.key = 2 ∧ f.ssrc.any (· != p.ssrc) then discontinuity f p.ssrc s else (f, s)
    let f := { f with ssrc := some p.ssrc }
    let s := setFlow f s
    if f.req.pt ≠ 0xFF ∧ p.pt ≠ f.req.pt then discard f.req.stream 2 s
    else
      let seq := extendSeq f.highest p.seq
      if f.lastOut.any fun n => decide (seq ≤ n) then discard f.req.stream 1 s
      else if f.held.any fun q => decide (q.seq = seq) then discard f.req.stream 0 s
      else if f.bufBytes < f.heldBytes + p.bytes then discard f.req.stream 4 s
      else
        admitPacket f
          ⟨seq, ingress, ingress.add (f.req.jitterMs * 1000000), p.bytes, p.timestamp, p.marker, p.ts⟩ s

/-- A matched datagram of a transport stream over UDP; it has no sequence number and leaves at once. -/
def tsPacket (f : Flow) (ts : List TsPacket) (pcr : Option Nat) (bytes : Nat) (malformed : Bool)
    (ingress : CardTime) (s : State) : State :=
  if malformed then discard f.req.stream 3 s
  else if f.bufBytes < f.heldBytes + bytes then discard f.req.stream 4 s
  else
    let f := match f.anchor, pcr with
      | none, some b => { f with anchor := some (b, ingress) }
      | _, _ => f
    let seq := f.highest.getD 65535 + 1
    admitPacket f ⟨seq, ingress, ingress.add (f.req.jitterMs * 1000000), bytes, 0, false, ts⟩ s

/-! ## The host path (R404, R405) -/

/-- A counter triple of a logical port's host path changed. -/
def modHostPath (port : Nat) (f : Nat × Nat × Nat → Nat × Nat × Nat) (s : State) : State :=
  s.modCtr fun c => { c with hostPath := SMap.modify (0, 0, 0) c.hostPath port f }

/-- A frame with its header (Table 13-4), padded to a multiple of 8 bytes. -/
def hostFrame (f : Frame) : List Byte :=
  leBytes 1 1 ++ leBytes 1 f.port ++ leBytes 2 f.bytes.length ++ leBytes 2 f.vlan ++ zeroBytes 2 ++
  leBytes 8 f.ingress.sec ++ leBytes 4 f.ingress.ns ++ zeroBytes 12 ++ f.bytes ++
  zeroBytes (roundUp 8 f.bytes.length - f.bytes.length)

/-- The host-path page that is being filled is delivered. The manual gives such a page no header layout: its first 60 bytes
are free. -/
def deliverHostPage (p : PageSet) (s : State) : State :=
  match p.posted with
  | [] => s
  | addr :: rest =>
    if p.fill = 0 then s
    else
      let seq := p.pageSeq + 1
      let s := (sendPage p.handle addr (freeBytes 60 s) false s).useFreshN 60
      let s := setPageSet
        { p with
          posted := rest, pageSeq := seq, fill := 0, frames := 0, undone := p.undone ++ [addr]
          sent := p.sent ++ [⟨addr, seq, 0, [], []⟩] } s
      writeDone ⟨p.handle, addr, seq, none, 0⟩ s

/-- A frame of the host path is dropped. -/
def hostDrop (port : Nat) (s : State) : State := modHostPath port (fun c => (c.1, c.2.1, c.2.2 + 1)) s

/-- An unmatched frame is written into the host-path page set, or dropped when no page has space; a page in which it does not fit
is delivered first (R404, R405). -/
def hostPath (f : Frame) (s : State) : State :=
  let s := modHostPath f.port (fun c => (c.1 + 1, c.2)) s
  match s.obj.pageSets.find? fun p => decide (p.kind = 3) with
  | none => hostDrop f.port s
  | some p =>
    let bytes := hostFrame f
    if pagesStopped s p.session ∨ pageBytes < 64 + bytes.length then hostDrop f.port s
    else
      let s := if p.fill ≠ 0 ∧ pageBytes < p.fill + bytes.length then deliverHostPage p s else s
      match s.obj.pageSets.find? fun q => decide (q.handle = p.handle) with
      | none => hostDrop f.port s
      | some p =>
        match p.posted with
        | [] => hostDrop f.port s
        | addr :: _ =>
          let fill := if p.fill = 0 then 64 else p.fill
          let s := sendPage p.handle (addr + fill) bytes true s
          let s := setPageSet
            { p with
              fill := fill + bytes.length, frames := p.frames + 1, since := if p.fill = 0 then s.time.tick else p.since } s
          modHostPath f.port (fun c => (c.1, c.2.1 + 1, c.2.2)) s

/-- A page is delivered 20 us after its first record (R554); the model delivers a host-path page in the same way. One that was
begun in this tick is another's. -/
def dueCompletionPageFlush (pageSet : Handle) (s : State) : Result :=
  match s.obj.pageSets.find? fun p => decide (p.handle = pageSet) with
  | none => .next s
  | some p =>
    if pagesStopped s p.session ∨ p.since = s.time.tick then .next s
    else if p.kind = 1 then .next (drainEvents (pumpRecords (deliverCompletion p s)))
    else if p.kind = 3 then .next (deliverHostPage p s)
    else .next s

/-- The deadline is reached (R653). -/
def execCompletionPageFlush (pageSet : Handle) (s : State) : Result :=
  atDeadline (.completionPageFlush pageSet) (dueCompletionPageFlush pageSet) s

/-! ## Frames (R384 to R387, R400) -/

/-- Two VLAN tags, an IP fragment, IPv4 options or an IPv6 extension header: such a frame goes to the host path (R384). -/
def oddFrame (f : Frame) : Bool := decide (1 < f.tags) || f.fragment || f.ipOptions || f.extHeader

/-- A frame that is never matched to a flow (R384). -/
def unparsed (f : Frame) : Bool :=
  oddFrame f || !f.udp ||
    (match f.cksum with
      | .valid => false
      | .zero => f.ipv6
      | .wrong => true)

/-- Port, VLAN and destination address of an entry fit a frame. -/
def flowPlace (q : FlowReq) (f : Frame) : Bool :=
  (decide (q.port = f.port) || decide (q.port = 0xFF)) && decide (q.vlan = f.vlan) && decide (q.dstAddr = f.dst)

/-- The entry that a packet matches: an SSRC entry before a SOURCE entry (R387). Among entries of one kind an exact source goes
before any source, and the entry added first before the others (DESIGN CHOICE, log entry 173). -/
def matchFlow (s : State) (f : Frame) (ssrc : Option Nat) : Option Flow :=
  let here := s.obj.flows.filter fun x => flowPlace x.req f && decide (x.req.dstPort = f.dstPort)
  match here.find? fun x => decide (x.req.key = 1) && decide (some x.req.ssrc = ssrc) with
  | some x => some x
  | none =>
    match here.find? fun x => decide (x.req.key = 2) && decide (x.req.srcAddr = f.src) with
    | some x => some x
    | none => here.find? fun x => decide (x.req.key = 2) && decide (x.req.srcAddr = 0)

/-- RTP flows whose RTCP arrives on a frame's port: DST_PORT + 1, or DST_PORT with RTCP_MUX (R400). -/
def rtcpFlows (s : State) (f : Frame) : List Flow :=
  s.obj.flows.filter fun x =>
    decide (x.req.encap ≠ 2) && flowPlace x.req f && decide (f.dstPort = x.req.dstPort + (if x.req.flags.testBit 0 then 0 else 1)) &&
      (decide (x.req.key = 1) || decide (x.req.srcAddr = 0) || decide (x.req.srcAddr = f.src))

/-- A sender report updates the mapping of the flows that follow its SSRC (R400, R401). -/
def senderReport (flows : List Flow) (ssrc ntpSec ntpFrac rtp : Nat) (s : State) : State :=
  flows.foldl
    (fun s x =>
      if (if x.req.key = 1 then some x.req.ssrc else x.ssrc) = some ssrc then
        modIngest x.req.stream (fun c => { c with srCount := c.srCount + 1 })
          (setFlow { x with map := some (mapOf s.time.utcOffset ntpSec ntpFrac rtp) } s)
      else s) s

/-- A card address of a port and VLAN. -/
def hasAddr (s : State) (port vlan addr : Nat) : Bool := s.obj.addrs.contains ⟨port, vlan, addr⟩

/-- A UDP datagram that nothing of the card's own takes is matched as any other, with `word` at the place of an RTP SSRC; no flow's
payload format parses it (R387, Table 13-2). -/
def plainDatagram (f : Frame) (word : Option Nat) (s : State) : State :=
  match matchFlow s f word with
  | none => hostPath f s
  | some x => discard x.req.stream 3 s

/-- A datagram of PTP: its ports, and its standard multicast addresses over IPv4 and IPv6 (R640; the numbers are those of IEEE
1588-2019, PRESUMED, log entry 168). -/
def ptpDatagram (f : Frame) : Bool :=
  !unparsed f && (decide (f.dstPort = 319) || decide (f.dstPort = 320)) &&
    (if f.ipv6 then
        decide (f.dst / 2 ^ 112 / 16 = 0xFF0 ∧ f.dst % 2 ^ 112 = 0x181) || decide (f.dst = 0xFF02 * 2 ^ 112 + 0x6B)
      else decide (f.dst = 0xFFFFE0000181) || decide (f.dst = 0xFFFFE000006B))

/-- A PTP message to the card's clock: the card servo consumes it, and the host's passes it to the host path (R642, R643). -/
def ptpMessage (f : Frame) (m : PtpMsg) (s : State) : State :=
  if servoActive s = false then hostPath f s
  else if m.domain ≠ s.time.ptpCfg.toNat / 256 % 256 then s
  else servoMessage f.ingress m s

/-- The joined groups of a frame's port and VLAN are reported, as far as there are any (R392). A query is answered with the
IP option or extension header that queries carry (DEDUCED, assumption 130). -/
def answerQuery (f : Frame) (s : State) : State :=
  match s.obj.groups.filter fun g => decide (g.port = f.port) && decide (g.vlan = f.vlan) with
  | [] => hostPath f s
  | l => l.foldl (fun s g => s.push (.frame g.port g.vlan (.groupReport g.group g.source false))) s

/-- A frame for control core 3 (Table 22-1, R666). -/
def frameFor3 (f : Frame) (g : State → State) : State → State := forCore3 (.frameReceive f) g

/-- What one frame does, by its contents (R384 to R405). RTCP where no flow takes it is matched as any other datagram (R400). -/
def receive (f : Frame) (s : State) : State :=
  match f.body with
  | .arp a | .ndp a =>
    if oddFrame f = false ∧ hasAddr s f.port f.vlan a then
      frameFor3 f (fun s => s.push (.frame f.port f.vlan (.arpReply a))) s
    else hostPath f s
  | .echo =>
    if oddFrame f = false ∧ hasAddr s f.port f.vlan f.dst then
      frameFor3 f (fun s => s.push (.frame f.port f.vlan (.echoReply f.src))) s
    else hostPath f s
  | .groupQuery => if 1 < f.tags ∨ f.fragment then hostPath f s else frameFor3 f (answerQuery f) s
  | .heartbeat =>
    if unparsed f then hostPath f s
    else if s.pair.mode = 0 then plainDatagram f none s
    else s.modPair fun p => { p with lastNetBeat := s.time.tick }
  | .ptp m =>
    if unparsed f then hostPath f s
    else if ptpDatagram f && ptpEnabled s && decide (f.port = ptpPort s) then frameFor3 f (ptpMessage f m) s
    else plainDatagram f none s
  | .rtp p =>
    if unparsed f then hostPath f s
    else
      match matchFlow s f (some p.ssrc) with
      | none => hostPath f s
      | some x =>
        if x.req.encap = 2 then discard x.req.stream 3 s else rtpPacket x p f.ingress s
  | .senderReport ssrc ns nf rt =>
    if unparsed f then hostPath f s
    else
      match rtcpFlows s f with
      | [] => plainDatagram f (some ns) s
      | l => senderReport l ssrc ns nf rt s
  | .rtcpOther => if unparsed f then hostPath f s else if rtcpFlows s f = [] then plainDatagram f none s else s
  | .ts l pcr bytes malformed =>
    if unparsed f then hostPath f s
    else
      match matchFlow s f none with
      | none => hostPath f s
      | some x =>
        if x.req.encap = 2 then tsPacket x l pcr bytes malformed f.ingress s else discard x.req.stream 3 s
  | .other => if unparsed f then hostPath f s else plainDatagram f none s

/-- A frame arrives at a logical port. A port that is down receives nothing; a card in FAULT is stopped (R694, R744). The
frame carries the time at which its delimiter passed the MAC, from which the ingress stamp follows (R644). -/
def execFrameReceive (f : Frame) (s : State) : Result :=
  if s.board.portsUp.getD f.port false = false ∨ s.host.state = .fault then .next s
  else .next (receive { f with ingress := ingressStamp s f.port f.ingress } s)

/-- A gap deadline is reached: gaps whose oldest held packet has reached its release time are declared lost, and what they held
back leaves (R395 steps 3 and 4, R396). -/
def releaseGaps : List HeldPacket → Flow → State → Flow × State
  | [], f, s => (f, s)
  | _ :: l, f, s =>
    match f.held with
    | [] => (f, s)
    | p :: _ =>
      if reachedNow s p.release = false then (f, s)
      else
        let (f, s) := declareLost f s
        let (f, s) := leaveReady f.held f s
        releaseGaps l f s

/-- What the deadline does. -/
def dueJitterGapDeadline (flow : Handle) (s : State) : Result :=
  match findFlow s flow with
  | none => .next s
  | some f =>
    let (f, s) := releaseGaps f.held f s
    .next (setFlow f s)

/-- The deadline is reached (R653). -/
def execJitterGapDeadline (flow : Handle) (s : State) : Result :=
  atDeadline (.jitterGapDeadline flow) (dueJitterGapDeadline flow) s

/-! ## `FLOW_SET` -/

/-- The fields of an entry are within Table 13-1 and R388, R392. -/
def flowFieldsOk (q : FlowReq) : Bool :=
  (decide (q.port ≤ 7) || decide (q.port = 0xFF)) && decide (1 ≤ q.key ∧ q.key ≤ 2) &&
  (decide (q.vlan ≤ 4094) || decide (q.vlan = 0xFFFF)) && decide (1 ≤ q.dstPort) &&
  (decide (q.key = 1) || decide (q.ssrc = 0)) && decide (1 ≤ q.encap ∧ q.encap ≤ 3) &&
  !(decide (q.key = 1) && decide (q.encap = 2)) &&
  (if q.encap = 1 then decide (1 ≤ q.payload ∧ q.payload ≤ 5) else decide (q.payload = 0)) &&
  (decide (q.pt ≤ 127) || decide (q.pt = 0xFF)) && decide (q.flags < 4) &&
  !(q.flags.testBit 1 && decide (q.port = 0xFF)) && decide (q.jitterMs ≤ 500) &&
  decide (1000 ≤ q.clockRate ∧ q.clockRate ≤ 1000000) && (decide (q.encap ≠ 3) || decide (q.clockRate = 90000))

/-- Bytes of a jitter buffer (R389). -/
def jitterBytes (bitRate jitterMs : Nat) : Nat := ceilDiv (bitRate * (jitterMs + 50)) 8000

/-- A group is joined with its report (R392). -/
def joinGroup (h : Handle) (q : FlowReq) (s : State) : State :=
  (s.modObj fun o => { o with groups := o.groups ++ [⟨q.port, q.vlan, q.dstAddr, q.srcAddr, h⟩] }).push
    (.frame q.port q.vlan (.groupReport q.dstAddr q.srcAddr false))

/-- A flow's group is left; the leave is sent with the last flow that shares it (R392). -/
def leaveGroup (h : Handle) (s : State) : State :=
  match s.obj.groups.find? fun g => decide (g.flow = h) with
  | none => s
  | some g =>
    let s := s.modObj fun o => { o with groups := o.groups.filter (· != g) }
    if s.obj.groups.any fun x =>
        decide (x.port = g.port) && decide (x.vlan = g.vlan) && decide (x.group = g.group) && decide (x.source = g.source)
    then s
    else s.push (.frame g.port g.vlan (.groupReport g.group g.source true))

/-- A flow is flushed and its entry freed (R391). -/
def removeFlow (f : Flow) (s : State) : State :=
  let (f, s) := emptyOutbox f s
  let (f, s) := flushFlow f.held f s
  leaveGroup f.handle (s.modObj fun o => { o with flows := removeKey (·.handle) f.handle o.flows })

/-- `FLOW_SET` ADD. -/
def flowAddBody (h : Hdr) (q : FlowReq) (s : State) : Reply :=
  match checkFree s q.stream tStream ((findStream s q.stream).map (·.session)) h.session, findStream s q.stream with
  | some st, _ => .no st
  | none, none => .no stNotFound
  | none, some x =>
    if flowFieldsOk q = false ∨ q.flow ≠ 0 ∨ x.enc.isSome ∨ x.decl.source ≠ 1 ∨
        (q.encap = 1 ∧ q.payload ≠ x.decl.codec) then .no stBadValue
    else if s.obj.flows.any fun f => decide (f.req.matchKey = q.matchKey) || decide (f.req.stream = q.stream) then
      .no stBusyResource
    else if 1024 ≤ countOf s tFlow then .no stLimitExceeded
    else
      let n := jitterBytes x.decl.bitRate q.jitterMs
      if privateFits s n = false then .no stNoSpace
      else
        let hd := newHandle s tFlow
        let f : Flow := { handle := hd, session := h.session, req := q, bufBytes := n }
        let s := issued hd (setFlow f s)
        .ok (if q.flags.testBit 1 then joinGroup hd q s else s) (leBytes 4 hd.toNat)

/-- `FLOW_SET` MODIFY (R390). Other fields that differ from the entry's give ST_BAD_VALUE, and one that sets or clears JOIN joins or
leaves at once (DESIGN CHOICE, log entries 171 and 172). -/
def flowModifyBody (h : Hdr) (q : FlowReq) (s : State) : Reply :=
  match checkFree s q.flow tFlow ((findFlow s q.flow).map (·.session)) h.session, findFlow s q.flow with
  | some st, _ => .no st
  | none, none => .no stNotFound
  | none, some f =>
    let new := { f.req with pt := q.pt, flags := q.flags, jitterMs := q.jitterMs, tsProgram := q.tsProgram }
    if flowFieldsOk q = false ∨ q.stream ≠ 0 ∨ { q with stream := f.req.stream, flow := f.req.flow } ≠ new then
      .no stBadValue
    else
      let s := setFlow { f with req := new } s
      let s :=
        if f.req.flags.testBit 1 = q.flags.testBit 1 then s
        else if q.flags.testBit 1 then joinGroup f.handle new s else leaveGroup f.handle s
      .ok s []

/-- The fields that REMOVE does not use are 0, or such as R388 and Table 13-1 take of an entry of the stream's (DEDUCED, assumption
131). -/
def unusedFieldsOk (codec : Option Nat) (q : FlowReq) : Bool :=
  (decide (q.port ≤ 7) || decide (q.port = 0xFF)) && decide (q.key ≤ 2) &&
  (decide (q.vlan ≤ 4094) || decide (q.vlan = 0xFFFF)) && (decide (q.key = 1) || decide (q.ssrc = 0)) &&
  decide (q.encap ≤ 3) && !(decide (q.key = 1) && decide (q.encap = 2)) &&
  (decide (q.payload = 0) || decide (q.encap = 1 ∧ some q.payload = codec)) &&
  (decide (q.pt ≤ 127) || decide (q.pt = 0xFF)) && decide (q.flags < 4) &&
  !(q.flags.testBit 1 && decide (q.port = 0xFF)) && decide (q.jitterMs ≤ 500) &&
  (decide (q.clockRate = 0) || decide (1000 ≤ q.clockRate ∧ q.clockRate ≤ 1000000)) &&
  (decide (q.encap ≠ 3) || decide (q.clockRate = 0) || decide (q.clockRate = 90000))

/-- `FLOW_SET` REMOVE (R391). -/
def flowRemoveBody (h : Hdr) (q : FlowReq) (s : State) : Reply :=
  match checkFree s q.flow tFlow ((findFlow s q.flow).map (·.session)) h.session, findFlow s q.flow with
  | some st, _ => .no st
  | none, none => .no stNotFound
  | none, some f =>
    let codec := (findStream s f.req.stream).map (·.decl.codec)
    if q.stream ≠ 0 ∨ unusedFieldsOk codec q = false then .no stBadValue else .ok (removeFlow f s) []

/-- ADDR_ADD and ADDR_REMOVE name a logical port, a VLAN and an address only (R393). -/
def addrFieldsOk (q : FlowReq) : Bool :=
  decide (q.port ≤ 7) && (decide (q.vlan ≤ 4094) || decide (q.vlan = 0xFFFF)) && decide (q.key = 0) &&
  decide (q.flow = 0) && decide (q.stream = 0) && decide (q.dstPort = 0) && decide (q.ssrc = 0) && decide (q.encap = 0) &&
  decide (q.payload = 0) && decide (q.pt = 0) && decide (q.flags = 0) && decide (q.jitterMs = 0) &&
  decide (q.tsProgram = 0) && decide (q.clockRate = 0) && decide (q.srcAddr = 0)

/-- `FLOW_SET` ADDR_ADD (R385, R393). -/
def addrAddBody (q : FlowReq) (s : State) : Reply :=
  if addrFieldsOk q = false then .no stBadValue
  else if hasAddr s q.port q.vlan q.dstAddr then .no stBusyResource
  else if 8 ≤ (s.obj.addrs.filter fun a => decide (a.port = q.port) && decide (a.vlan = q.vlan)).length then
    .no stLimitExceeded
  else .ok (s.modObj fun o => { o with addrs := o.addrs ++ [⟨q.port, q.vlan, q.dstAddr⟩] }) []

/-- A datagram destination sends from a card address: the one of its port and VLAN, or with none there, one of its port (R394, R524,
Table 17-6). -/
def usesAddr (s : State) (d : Dest) (a : CardAddr) : Bool :=
  decide (d.req.kind = 2) && decide (d.req.port = a.port) && decide (d.req.srcAddr = a.addr) &&
    (decide (d.req.vlan = a.vlan) || !hasAddr s d.req.port d.req.vlan d.req.srcAddr)

/-- `FLOW_SET` ADDR_REMOVE (R393, R394). -/
def addrRemoveBody (q : FlowReq) (s : State) : Reply :=
  let a : CardAddr := ⟨q.port, q.vlan, q.dstAddr⟩
  if addrFieldsOk q = false then .no stBadValue
  else if hasAddr s q.port q.vlan q.dstAddr = false then .no stNotFound
  else if (s.obj.dests.any fun d => usesAddr s d a) = true ∨
      (firstAddr s a.port = some a ∧ ((ptpEnabled s = true ∧ ptpPort s = a.port) ∨ s.pair.mode ≠ 0)) then
    .no stBusyResource
  else .ok (s.modObj fun o => { o with addrs := o.addrs.filter (· != a) }) []

/-- The taking of the command. -/
def runFlowSetAdd (h : Hdr) (f : FlowReq) : State → State :=
  serve kPlain h 80 (flowAddBody h f)

def execFlowSetAdd (h : Hdr) (f : FlowReq) (s : State) : Result :=
  .next (enter h 0x23 (.flowSetAdd h f) (runFlowSetAdd h f) s)
/-- The taking of the command. -/
def runFlowSetModify (h : Hdr) (f : FlowReq) : State → State :=
  serve kPlain h 80 (flowModifyBody h f)

def execFlowSetModify (h : Hdr) (f : FlowReq) (s : State) : Result :=
  .next (enter h 0x23 (.flowSetModify h f) (runFlowSetModify h f) s)
/-- The taking of the command. -/
def runFlowSetRemove (h : Hdr) (f : FlowReq) : State → State :=
  serve kPlain h 80 (flowRemoveBody h f)

def execFlowSetRemove (h : Hdr) (f : FlowReq) (s : State) : Result :=
  .next (enter h 0x23 (.flowSetRemove h f) (runFlowSetRemove h f) s)
/-- The taking of the command. -/
def runFlowSetAddrAdd (h : Hdr) (f : FlowReq) : State → State :=
  serve kPlain h 80 (addrAddBody f)

def execFlowSetAddrAdd (h : Hdr) (f : FlowReq) (s : State) : Result :=
  .next (enter h 0x23 (.flowSetAddrAdd h f) (runFlowSetAddrAdd h f) s)
/-- The taking of the command. -/
def runFlowSetAddrRemove (h : Hdr) (f : FlowReq) : State → State :=
  serve kPlain h 80 (addrRemoveBody f)

def execFlowSetAddrRemove (h : Hdr) (f : FlowReq) (s : State) : Result :=
  .next (enter h 0x23 (.flowSetAddrRemove h f) (runFlowSetAddrRemove h f) s)

/-! ## Host-fed streams (R406 to R413, R581) -/

/-- MAGIC of a record. -/
def recordMagic : List Byte := [0x54, 0x4A, 0x58, 0x52]

/-- Bytes dropped up to the next 8-byte boundary that holds MAGIC; the flag says that none was found yet. -/
def scanMagic : Nat → List Byte → List Byte × Bool
  | 0, bs => (bs, true)
  | fuel + 1, bs =>
    if bs.length < 4 then (bs, true)
    else if bs.take 4 = recordMagic then (bs, false)
    else if bs.length < 8 then (bs, true)
    else scanMagic fuel (bs.drop 8)

/-- Bytes of a record on the wire: header, payload, CRC-32C, padding (R411). -/
def recordSize (len : Nat) : Nat := roundUp 8 (20 + len)

/-- Why a whole record is discarded, if it is (R413, Table 13-2). Reserved FLAGS that are not 0 make it malformed (R18,
Table 13-7). -/
def recordFault (h : Handle) (bs : List Byte) (len : Nat) : Option Nat :=
  let body := bs.take (16 + len)
  let crc := leNat ((bs.drop (16 + len)).take 4)
  let type := leNat ((bs.drop 4).take 2)
  if crc ≠ (crc32c body).toNat then some 5
  else if leNat ((bs.drop 6).take 2) ≠ 0 then some 3
  else if type = 1 ∧ len < 16 then some 3
  else if type ≠ 1 ∧ len ≠ 0 then some 3
  else if leNat ((bs.drop 12).take 4) ≠ h.toNat then some 6
  else none

/-- The read times of the bytes past the first `n`. -/
def dropTimes : Nat → List (Nat × CardTime) → List (Nat × CardTime)
  | _, [] => []
  | n, (k, t) :: l => if n < k then (k - n, t) :: l else dropTimes (n - k) l

/-- Bytes that read times stand for. -/
def timedBytes (times : List (Nat × CardTime)) : Nat := times.foldl (fun n x => n + x.1) 0

/-- The card time at which byte `n` was read. -/
def readTimeAt (now : CardTime) (times : List (Nat × CardTime)) (n : Nat) : CardTime :=
  (((dropTimes n times).head?).map (·.2)).getD now

/-- An ACCESS_UNIT record's capture time: its own when marked valid, and otherwise the time `read` at which its first byte
was read (R410, R412). -/
def recordUnit (read : CardTime) (payload : List Byte) : AccessUnit :=
  let valid := leNat ((payload.drop 12).take 4) % 2 = 1
  ⟨if valid then ⟨leNat (payload.take 8) % 2 ^ 48, leNat ((payload.drop 8).take 4)⟩ else read, !decide valid, false,
    payload.length - 16⟩

/-- A record is received and used. -/
def useUnit (h : Handle) (s : State) : State :=
  modIngest h (fun c => { c with received := c.received + 1, used := c.used + 1 }) s

/-- Records parsed from the front of a stream's bytes, as far as they are complete (R411 to R413). `times` are the read times
of the bytes that parsing began with, of which `bs` are the last. -/
def parseRecords (h : Handle) (times : List (Nat × CardTime)) : Nat → List Byte → Bool → State → List Byte × Bool × State
  | 0, bs, scan, s => (bs, scan, s)
  | fuel + 1, bs, scan, s =>
    if scan then
      match scanMagic (bs.length / 8 + 1) bs with
      | (bs, true) => (bs, true, s)
      | (bs, false) => parseRecords h times fuel bs false s
    else if bs.length < 16 then (bs, false, s)
    else
      let type := leNat ((bs.drop 4).take 2)
      let len := leNat ((bs.drop 8).take 4)
      if bs.take 4 ≠ recordMagic ∨ ¬ (1 ≤ type ∧ type ≤ 3) ∨ 16777216 < len then
        parseRecords h times fuel (bs.drop 8) true (discard h 3 s)
      else if bs.length < recordSize len then (bs, false, s)
      else
        match recordFault h bs len with
        | some 6 => parseRecords h times fuel (bs.drop (recordSize len)) true (discard h 6 s)
        | some r => parseRecords h times fuel (bs.drop 8) true (discard h r s)
        | none =>
          let s := useUnit h s
          let s :=
            if type = 1 then
              let read := readTimeAt s.now times (timedBytes times - bs.length)
              emitUnit h (recordUnit read ((bs.drop 16).take len)) s
            else if type = 3 then modStream h (fun x => { x with feedEnded := true }) s
            else s
          parseRecords h times fuel (bs.drop (recordSize len)) false s

/-- Capture time of a unit of a container other than RECORD, whose first byte was read at `now` (R410). -/
def unitCapture (f : FeedReq) (now : CardTime) (u : FeedUnit) : CardTime × Bool :=
  match u.ts with
  | some x =>
    if f.timescale = 0 ∨ f.container = 3 then (now, true)
    else (timeOfInt ((f.anchor.toNs : Int) + ((x : Int) - f.anchorTs) * 1000000000 / f.timescale), false)
  | none => (now, true)

/-- A unit of a container other than RECORD (R398, R410, R413); `times` are the read times of the bytes it is found in. -/
def feedUnit (f : FeedReq) (times : List (Nat × CardTime)) (s : State) (u : FeedUnit) : State :=
  if u.malformed then discard f.stream 3 s
  else
    let (t, e) := unitCapture f (readTimeAt s.now times u.first) u
    let s := modIngest f.stream (fun c => { c with lost := c.lost + u.lost }) (useUnit f.stream s)
    emitUnit f.stream ⟨t, e, decide (u.lost ≠ 0), u.bytes⟩ s

/-- A feed's bytes have all been read, at the times that `times` give: they are parsed, and the feed is answered (R408,
R409). -/
def feedDone (h : Hdr) (f : FeedReq) (data : List Byte) (times : List (Nat × CardTime)) (units : List FeedUnit)
    (s : State) : State :=
  let s := modStream f.stream
    (fun x =>
      { x with
        container := some f.container
        feedTail := if f.flags.testBit 1 then [] else x.feedTail
        feedTimes := (if f.flags.testBit 1 then [] else x.feedTimes) ++ times
        feedScan := if f.flags.testBit 1 then false else x.feedScan
        feedEnded := x.feedEnded || f.flags.testBit 0 }) s
  let s :=
    match findStream s f.stream with
    | none => s
    | some x =>
      if f.container = 5 then
        let bs := x.feedTail ++ data
        let (tail, scan, s) := parseRecords f.stream x.feedTimes (bs.length + 2) bs x.feedScan s
        modStream f.stream
          (fun x =>
            { x with
              feedTail := tail
              feedScan := scan
              feedTimes := dropTimes (timedBytes x.feedTimes - tail.length) x.feedTimes }) s
      else
        modStream f.stream
          (fun x => { x with feedTimes := dropTimes (units.foldl (fun n u => max n u.past) 0) x.feedTimes })
          (units.foldl (feedUnit f x.feedTimes) s)
  answer h stOk 0 [] s.obj s

/-- A feed's reads are issued, and it waits for their data. -/
def feedWaits (h : Hdr) (f : FeedReq) (data : Option (List Byte)) (units : List FeedUnit) (s : State) : State :=
  let n := (requestsOf s f.entries).length
  setLong (.streamFeed h f data units true (List.replicate n none) (List.replicate n {}))
    (startReads (.feed f.stream) f.entries s)

/-- A feed in flight that finds room begins its reads (R581). -/
def feedStart (h : Hdr) (f : FeedReq) (data : Option (List Byte)) (units : List FeedUnit) (s : State) : State :=
  match data with
  | some d =>
    if readsFree s then feedDone h f d [(d.length, s.now)] units (instantReads f.entries s)
    else feedWaits h f data units s
  | none => feedWaits h f none units s

/-- A stream's feed buffer has room for a feed. -/
def feedRoom (s : State) (f : FeedReq) : Bool :=
  match findStream s f.stream with
  | none => false
  | some x => decide (x.feedUsed + f.total ≤ x.feedBytes)

/-- A feed that waits for room begins when there is some. -/
def feedRetry (stream : Handle) (s : State) : State :=
  match s.host.long.find? fun l => match l with
    | .streamFeed _ f _ _ false _ _ => decide (f.stream = stream)
    | _ => false with
  | some (.streamFeed h f data units _ _ _) => if feedRoom s f then feedStart h f data units s else s
  | _ => s

/-- The fields of Table 13-5 are in range. -/
def feedFieldsOk (f : FeedReq) : Bool :=
  decide (1 ≤ f.container ∧ f.container ≤ 5) && decide (f.flags < 4) &&
  decide (1 ≤ f.entries.length ∧ f.entries.length ≤ 249) &&
  f.entries.all (fun e => decide (1 ≤ e.2 ∧ e.2 ≤ 4194304)) && decide (f.anchor.sec < 2 ^ 48) &&
  decide (f.anchor.ns < 1000000000)

/-- `STREAM_FEED` (R406 to R409, R581). -/
def streamFeedBody (h : Hdr) (f : FeedReq) (data : Option (List Byte)) (units : List FeedUnit) (s : State) : Reply :=
  match checkFree s f.stream tStream ((findStream s f.stream).map (·.session)) h.session, findStream s f.stream with
  | some st, _ => .no st
  | none, none => .no stNotFound
  | none, some x =>
    if feedFieldsOk f = false ∨ x.container.any (· != f.container) then .no stBadValue
    else if x.enc.isSome ∨ x.decl.source ≠ 2 then .no stWrongState
    else if x.feedBytes < f.total then .no stLimitExceeded
    else
      let s := startLong (.streamFeed h f data units false [] []) s
      .wait (if feedRoom s f then feedStart h f data units s else s)

/-- The taking of the command. -/
def runStreamFeed (h : Hdr) (f : FeedReq) (data : Option (List Byte)) (units : List FeedUnit) : State → State :=
  serve kPlain h (roundUp 8 (0x30 + 16 * f.entries.length)) (streamFeedBody h f data units)

def execStreamFeed (h : Hdr) (f : FeedReq) (data : Option (List Byte)) (units : List FeedUnit) (s : State) : Result :=
  .next (enter h 0x22 (.streamFeed h f data units) (runStreamFeed h f data units) s)

/-- A feed has found no room for 1,000 ms (R581). -/
def dueStreamFeedTimeout (stream : Handle) (s : State) : Result :=
  match s.host.long.find? fun l => match l with
    | .streamFeed _ f _ _ false _ _ => decide (f.stream = stream)
    | _ => false with
  | some l => .next (answer l.hdr stTimeout 0 [] s.obj s)
  | none => .next s

/-- The deadline is reached (R653). -/
def execStreamFeedTimeout (stream : Handle) (s : State) : Result :=
  atDeadline (.streamFeedTimeout stream) (dueStreamFeedTimeout stream) s

end Machine
end Sys2Proof
end

