-- ==== Sys2Proof/Machine/Video.lean ====
section
/-! DEFINITION. Decode and encode streams: their commands, header parsing, decode and encode engines (chapter 14, R577 to
R582). -/

namespace Sys2Proof

/-- Largest DPB_DEPTH of a codec (Table 14-3). -/
def maxDpb (codec : Nat) : Nat := if codec ≤ 3 then 16 else if codec = 4 then 8 else 1

/-- The fields of Table 14-3 are in range. -/
def DecodeDecl.fieldsOk (d : DecodeDecl) : Bool :=
  decide (1 ≤ d.codec ∧ d.codec ≤ 5) && decide (d.chroma ≤ 1) && (decide (d.bitDepth = 8) || decide (d.bitDepth = 10)) &&
  decide (1 ≤ d.dpbDepth ∧ d.dpbDepth ≤ maxDpb d.codec) && decide (16 ≤ d.maxWidth ∧ d.maxWidth ≤ 8192) &&
  decide (d.maxWidth % 8 = 0) && decide (16 ≤ d.maxHeight ∧ d.maxHeight ≤ 4352) && decide (d.maxHeight % 8 = 0) &&
  decide (1000 ≤ d.bitRate ∧ d.bitRate ≤ 800000000) && decide (1000 ≤ d.picRate ∧ d.picRate ≤ 240000) &&
  decide (2 ≤ d.outBufs ∧ d.outBufs ≤ 16) && decide (1 ≤ d.source ∧ d.source ≤ 2)

/-- The fields of Table 15-1 are in range (R452), the pool aside. -/
def OutputDesc.fieldsOk (o : OutputDesc) : Bool :=
  let top := if o.kind = 3 then 512 else 4096
  decide (1 ≤ o.kind ∧ o.kind ≤ 3) && (decide (o.outFmt = 0x01) || decide (o.outFmt = 0x10) || decide (o.outFmt = 0x30)) &&
  decide (o.matrix ≤ 3) && decide (o.flags < 16) && decide (o.flags % 4 ≠ 3) && decide (o.filter ≤ 2) &&
  decide (o.s2d ≤ 3) && (decide (o.s2d = 0) || decide (o.kind = 1)) &&
  (if o.kind = 2 then decide (1 ≤ o.levels ∧ o.levels ≤ 6) else decide (o.levels = 1)) &&
  decide (2 ≤ o.depth ∧ o.depth ≤ 16) && decide (16 ≤ o.outW ∧ o.outW ≤ top) && decide (16 ≤ o.outH ∧ o.outH ≤ top) &&
  (decide (o.cropW = 0) == decide (o.cropH = 0)) &&
  (decide (o.cropW ≠ 0) || (decide (o.cropX = 0) && decide (o.cropY = 0))) &&
  (List.range 5).all (fun k =>
    let f := o.factors.getD k 0
    if k + 1 < o.levels then decide (16 ≤ f ∧ f ≤ 256) else decide (f = 0)) &&
  (if o.packs then
    decide (o.kind ≠ 2) && decide (1 ≤ o.packRows) && decide (o.packRow % 64 = 0) &&
      decide (64 ≤ o.packRow ∧ o.packRow ≤ 1048576) && decide (o.segmentRows ≤ o.packRows)
   else decide (o.packRows = 0) && decide (o.packRow = 0)) &&
  (o.mean ++ o.rstd).all finite32

/-- Cycle budget of a picture (R432). -/
def DecodeDecl.budget (d : DecodeDecl) : Nat := 2 * d.maxWidth * d.maxHeight + 8 * d.bitRate * 1000 / d.picRate

/-- Rows that loop filters hold back at a slice boundary (R436). -/
def filterRows (codec : Nat) : Nat :=
  match codec with
  | 1 => 4
  | 2 => 8
  | 5 => 0
  | _ => 16

/-- Profiles that the decode engines accept (Table 14-1). -/
def codecProfiles (codec : Nat) : List VideoProfile :=
  match codec with
  | 1 => [.constrainedBaseline, .main, .high, .high10]
  | 2 => [.main, .main10, .main422p10]
  | 3 => [.main10]
  | 4 => [.main]
  | 5 => [.baseline]
  | _ => []

/-- Highest level in tenths; none where levels do not apply (Table 14-1). -/
def codecLevel (codec : Nat) : Option Nat :=
  match codec with
  | 1 => some 52
  | 2 => some 61
  | 3 => some 51
  | 4 => some 61
  | _ => none

/-- Features that cause refusal (Table 14-1): H.265 field coding is decoded as separate pictures, and AV1 film grain is not
applied. -/
def refusedFeatures (codec : Nat) : List VideoFeature :=
  match codec with
  | 1 => [.fieldPictures, .mbaff, .fmo, .aso]
  | 3 => [.multiLayer, .subpictureExtraction]
  | 5 => [.progressive, .arithmetic, .lossless]
  | _ => []

/-- Codec, profile, level and features lie within Table 14-1. -/
def SliceParse.supported (p : SliceParse) : Bool :=
  (codecProfiles p.codec).contains p.profile &&
    (match codecLevel p.codec with
      | some n => decide (p.level ≤ n)
      | none => true) &&
    p.features.all fun f => !(refusedFeatures p.codec).contains f

/-- Why a picture's parameters fail the checks of R423, and DETAIL (Table 14-6, Table 17-4). -/
def limitFault (d : DecodeDecl) (p : SliceParse) : Option (Nat × Nat) :=
  if p.codec ≠ d.codec ∨ p.supported = false ∨ 2 < p.chroma ∨
      (p.chroma = 1 ∧ p.codec ≠ 2 ∧ p.codec ≠ 5) ∨ ¬ (p.bitDepth = 8 ∨ p.bitDepth = 10) ∨
      (p.codec = 5 ∧ p.bitDepth ≠ 8) then some (4, 0)
  else if (p.chroma = 1 ∧ d.chroma = 0) ∨ d.bitDepth < p.bitDepth then some (3, 0)
  else if d.maxWidth < p.width ∨ d.maxHeight < p.height then some (1, p.width % 65536 + 65536 * (p.height % 65536))
  else if d.dpbDepth < p.dpb then some (2, p.dpb)
  else none

/-- The fields of Table 14-9 are in range. -/
def EncodeDecl.fieldsOk (d : EncodeDecl) (srcDepth : Nat) : Bool :=
  let jpeg := decide (d.codec = 5)
  (decide (d.codec = 2) || decide (d.codec = 4) || jpeg) && (decide (d.bitDepth = 8) || decide (d.bitDepth = 10)) &&
  (!jpeg || decide (d.bitDepth = 8)) && decide (d.bitDepth ≤ srcDepth) && (jpeg || decide (d.rcMode ≤ 2)) &&
  decide (64 ≤ d.width ∧ d.width ≤ 4096) && decide (d.width % 8 = 0) && decide (64 ≤ d.height ∧ d.height ≤ 2304) &&
  decide (d.height % 8 = 0) &&
  (jpeg || decide (d.rcMode = 2) ||
    (decide (10000 ≤ d.target ∧ d.target ≤ 200000000) && decide (100 ≤ d.vbvMs ∧ d.vbvMs ≤ 10000))) &&
  (if !jpeg && decide (d.rcMode = 1) then decide (d.target ≤ d.peak ∧ d.peak ≤ 400000000) else decide (d.peak = 0)) &&
  (if jpeg then decide (1 ≤ d.qpI ∧ d.qpI ≤ 100)
   else decide (d.rcMode ≠ 2) ||
    (decide (d.qpI ≤ (if d.codec = 4 then 255 else 51)) && decide (d.qpP ≤ (if d.codec = 4 then 255 else 51)))) &&
  decide (1 ≤ d.gopLen ∧ d.gopLen ≤ 1024) && decide (d.bFrames ≤ 3) && (decide (d.codec = 2) || decide (d.bFrames = 0)) &&
  decide (d.pictureStep ≤ 1024) && (jpeg || decide (1 ≤ d.pictureStep))

/-- Bytes of a raw 4:2:0 picture of an encode stream. -/
def EncodeDecl.rawBytes (d : EncodeDecl) : Nat := d.width * d.height * 3 / 2 * (if d.bitDepth = 10 then 2 else 1)

/-- STATE of a stream (Table 19-4). -/
def Stream.stateCode (x : Stream) : Nat :=
  if x.enc.isSome then 3
  else match x.parse with
    | .waitRap => 0
    | .decoding => 1
    | .skipping _ => 2

namespace Machine

/-! ## `STREAM_OPEN` (R417 to R419, R451, R452, R580) -/

/-- Buffers taken from a DDR pool for a stream, in order. -/
def takeBufs (pool : Handle) : Nat → List BufRef → State → List BufRef × State
  | 0, acc, s => (acc, s)
  | n + 1, acc, s =>
    match findPool s pool with
    | none => (acc, s)
    | some p =>
      let j := firstFree p.bufs 0
      takeBufs pool n (acc ++ [⟨p.handle, (p.buf j).gen, p.addrOf j⟩]) (takeBuf p j none s)

/-- The first of several statuses. -/
def firstStatus (l : List (Option Nat)) : Option Nat := l.findSome? id

/-- The check of a pool's handle. -/
def checkPool (s : State) (pool sess : Handle) : Option Nat :=
  checkHandle pool tPool ((findPool s pool).map (·.session)) sess

/-- An output fits its pool (R452). -/
def outputFits (s : State) (o : OutputDesc) (eyelets : Bool) : Bool :=
  match findPool s o.pool with
  | none => false
  | some p => decide (p.space ≠ 3) && !p.arena && decide (o.itemBytes eyelets ≤ p.bufBytes)

/-- `STREAM_OPEN` of a decode stream. -/
def streamOpenBody (h : Hdr) (d : DecodeDecl) (outs : List OutputDesc) (s : State) : Reply :=
  match firstStatus (checkPool s d.pool h.session :: outs.map fun o => checkPool s o.pool h.session), findPool s d.pool with
  | some st, _ => .no st
  | none, none => .no stNotFound
  | none, some p =>
    let need := d.dpbDepth + 1 + d.outBufs
    let feed := if d.source = 2 then max 4194304 (d.bitRate / 4) else 0
    if d.fieldsOk = false ∨ p.space ≠ 2 ∨ p.arena = true ∨ p.bufBytes < max d.outBytes d.refBytes then .no stBadValue
    else if 1024 ≤ countOf s tStream then .no stLimitExceeded
    else if p.free < need then .counted (countNoSpace d.pool s) stNoSpace 0 []
    else if privateFits s (contextBytes + feed) = false then .no stNoSpace
    else if 8 < outs.length ∨
        (outs.all fun o => o.fieldsOk && outputFits s o (outs.any fun q => decide (q.kind = 3))) = false then .no stBadValue
    else
      let (bufs, s) := takeBufs d.pool need [] s
      let hd := newHandle s tStream
      let x : Stream :=
        { handle := hd, session := h.session, decl := d, outputs := outs.map fun o => { desc := o },
          refSlots := bufs.take (d.dpbDepth + 1), outBufs := (bufs.drop (d.dpbDepth + 1)).map fun b => (b, none),
          preparing := need, feedBytes := feed }
      .ok (issued hd (s.modObj fun o => { o with streams := o.streams ++ [x] })) (leBytes 4 hd.toNat)

/-! ## `ENCODE_OPEN` (R416, R443, R444) -/

/-- `ENCODE_OPEN`. -/
def encodeOpenBody (h : Hdr) (d : EncodeDecl) (s : State) : Reply :=
  match firstStatus [checkFree s d.source tStream ((findStream s d.source).map (·.session)) h.session,
      checkPool s d.pool h.session], findStream s d.source, findPool s d.pool with
  | some st, _, _ => .no st
  | none, some x, some p =>
    let need := if d.codec = 5 then 2 else 4
    if d.fieldsOk x.decl.bitDepth = false ∨ p.space ≠ 2 ∨ p.arena = true then .no stBadValue
    else if x.enc.isSome then .no stWrongState
    else if 1024 ≤ countOf s tStream then .no stLimitExceeded
    else if p.free < need then .counted (countNoSpace d.pool s) stNoSpace 0 []
    else if p.bufBytes < d.rawBytes then .no stNoSpace
    else
      let (bufs, s) := takeBufs d.pool need [] s
      let hd := newHandle s tStream
      let e : Stream :=
        { handle := hd, session := h.session
          decl := { codec := d.codec, chroma := 0, bitDepth := d.bitDepth, dpbDepth := 0, maxWidth := d.width,
                    maxHeight := d.height, bitRate := 0, picRate := 0, outBufs := 0, source := 0, pool := d.pool }
          outputs := [], enc := some { decl := d, bufs := bufs }, preparing := need }
      .ok (issued hd (s.modObj fun o => { o with streams := o.streams ++ [e] })) (leBytes 4 hd.toNat)
  | none, _, _ => .no stNotFound

/-! ## Header parsing and skipping (R422 to R425, R433) -/

/-- Control core that parses a stream (R422). -/
def parseCore (h : Handle) : Nat := 1 + h.index % 2

/-- Pictures in the decode queue. -/
def queueLength (s : State) : Nat :=
  s.obj.streams.foldl (fun n x => n + (x.pics.filter fun p => match p.phase with
    | .queued _ => true
    | _ => false).length) 0

/-- The first picture of a stream whose decode has not ended. -/
def headPicture (x : Stream) : Option Picture := x.pics.find? fun p => decide (p.phase ≠ .ended)

/-- A picture is skipped: counted, reported when the reason is new, its frame closed (R424, R425). -/
def skipPicture (h : Handle) (frame slot reason detail : Nat) (capture : CardTime) (estimated : Bool) (s : State) :
    State :=
  match findStream s h with
  | none => s
  | some x =>
    let n := x.statusCount + 1
    let s := modStream h (fun x =>
      { x with
        statusCount := n
        skipReason := some reason
        dec := { x.dec with skipped := listAdd x.dec.skipped slot 1 } }) s
    let s := if x.skipReason = some reason then s else statusPicot h reason n detail frame capture estimated s
    closeFrame h frame s

/-- A picture that may be decoded is reached: skipping ends, with a RESYNCED status (R424, R433). -/
def resumeDecoding (h : Handle) (frame : Nat) (capture : CardTime) (estimated : Bool) (s : State) : State :=
  match findStream s h with
  | none => s
  | some x =>
    let s := match x.parse with
      | .skipping _ => statusPicot h 7 x.statusCount 0 frame capture estimated s
      | _ => s
    modStream h (fun x => { x with parse := .decoding, skipReason := none, statusCount := 0 }) s

/-- The frame number of the next picture: the stream's pictures are counted in output order from 0 (R439), so the picture's own
place in decode order, moved by the places that output order moves it. A number that is taken, which no stream of a codec asks
for, gives way to the first free one. -/
def frameNumber (x : Stream) (p : SliceParse) : Nat :=
  let n := if p.reorder = 0 ∨ p.codec = 5 then x.parsed else ((x.parsed : Int) + p.shift).toNat
  let taken (f : Nat) : Bool := decide (f < x.nextFrame) || x.closedFrames.contains f || x.pics.any fun q => decide (q.frame = f)
  if taken n then
    (((List.range (x.pics.length + x.closedFrames.length + 1)).map (x.nextFrame + ·)).find? fun f => !taken f).getD n
  else n

/-- A new picture of an access unit whose parameters passed. -/
def newPicture (h : Handle) (a : AccessUnit) (p : SliceParse) (frame : Nat) : Picture :=
  { stream := h, frame := frame, width := p.width, height := p.height, capture := a.capture,
    quality := { estimated := a.estimated }, allParsed := false, slices := [], phase := .waiting,
    outputFlag := p.output, reorder := if p.codec = 5 then 0 else p.reorder
    flush := decide (p.rap = .idr) || decide (p.rap = .bla) || decide (p.rap = .key)
    rap := decide (p.rap ≠ .none), lost := a.lost, refs := p.refs, keeps := p.keeps, chroma := p.chroma,
    bitDepth := p.bitDepth, fullRange := p.fullRange, matrixCoeffs := p.matrixCoeffs }

/-! ## Samples (R416, R420, R421, R426, R427) -/

/-- Raw sample rows of a plane are written from row `y` on, the bytes up to the pitch being undefined (Table 14-5). -/
def writePlane (base pitch : Nat) : Nat → List (List Byte) → State → State
  | _, [], s => s
  | y, r :: rs, s =>
    let n := pitch - r.length
    writePlane base pitch (y + 1) rs (hubStore (base + y * pitch) (r ++ freeBytes n s) (s.useFreshN n))

/-- Chroma rows that go with the first `n` luma rows of a picture (R462). -/
def chromaCount (x : Stream) (p : Picture) (n : Nat) : Nat := if picChroma x p = 1 then n else ceilDiv n 2

/-- More rows of a picture, behind those that it keeps: they go to its output buffer, where it has one, and to the picture as the
engines hold it. -/
def putRows (x : Stream) (p : Picture) (luma chroma : List (List Byte)) (s : State) : State :=
  let s := match (p.outBuf.bind fun i => x.outBufs[i]?).map (·.1.addr) with
    | none => s
    | some base =>
      writePlane (base + x.decl.pitch * x.decl.maxHeight) x.decl.pitch p.chromaRows.length chroma
        (writePlane base x.decl.pitch p.luma.length luma s)
  modPicture x.handle p.frame (fun q =>
    { q with luma := q.luma.take p.luma.length ++ luma, chromaRows := q.chromaRows.take p.chromaRows.length ++ chroma }) s

/-- A picture as far as its published progress goes: what of it is not final is concealed with the rest when it is abandoned or
its stream closes (R433, R436, R440). -/
def Picture.published (x : Stream) (p : Picture) : Picture :=
  { p with luma := p.luma.take p.progress, chromaRows := p.chromaRows.take (chromaCount x p p.progress) }

/-- The rows that a picture lacks: concealed from its reference picture, or the mid value (R426, R427). -/
def restRows (x : Stream) (p : Picture) (ref : Option Picture) : List (List Byte) × List (List Byte) :=
  ((List.range (p.height - p.luma.length)).map fun i => concealRow x p ref true (p.luma.length + i),
    (List.range (chromaCount x p p.height - p.chromaRows.length)).map fun i =>
      concealRow x p ref false (p.chromaRows.length + i))

/-- A row of `n` samples of `e` bytes as an engine writes it: the value in the low bits, zeros above (Table 14-5). -/
def sampleRow (e depth n : Nat) (bs : List Byte) : List Byte :=
  ((List.range n).map fun i => leBytes e (leNat ((bs.drop (i * e)).take e) % 2 ^ depth)).flatten

/-- The samples of a row that `hit` names are those of another row. -/
def mixRow (e : Nat) (hit : Nat → Bool) (row other : List Byte) : List Byte :=
  ((List.range (row.length / e)).map fun i => ((if hit i then other else row).drop (i * e)).take e).flatten

/-- A luma sample lies in a block. -/
def blockHas (b : Block) (x y : Nat) : Bool := decide (b.x ≤ x ∧ x < b.x + b.w) && decide (b.y ≤ y ∧ y < b.y + b.h)

/-- Rows of a slice from its samples, luma rows first: those of the blocks that were not decoded are concealed from `ref`, or
take the mid value; the chroma of a 4:0:0 picture is the mid value (R416, R426, R427). -/
def sliceRows (x : Stream) (p : Picture) (ref : Option Picture) (rows : Nat) (samples : List Byte) (missing : List Block) :
    List (List Byte) × List (List Byte) :=
  let e := x.decl.sampleBytes
  let n := p.width
  let c := 2 * ceilDiv p.width 2
  let y0 := p.luma.length
  let c0 := p.chromaRows.length
  let k := if picChroma x p = 1 then 1 else 2
  let luma := (List.range rows).map fun i =>
    mixRow e (fun u => missing.any fun b => blockHas b u (y0 + i)) (sampleRow e p.bitDepth n (samples.drop (i * n * e)))
      (concealRow x p ref true (y0 + i))
  let chroma := (List.range (chromaCount x p (y0 + rows) - c0)).map fun i =>
    if p.chroma = 2 then concealRow x p none false (c0 + i)
    else
      mixRow e (fun u => missing.any fun b => blockHas b (u / 2 * 2) ((c0 + i) * k))
        (sampleRow e p.bitDepth c (samples.drop (rows * n * e + i * c * e))) (concealRow x p ref false (c0 + i))
  (luma, chroma)

/-- The bytes of a reference slot change as its picture is coded into it, in a format that the manual leaves to the engines:
they are open from then on (R421). -/
def openSlot (x : Stream) (slot : Option Nat) (s : State) : State :=
  match slot.bind fun i => x.refSlots[i]? with
  | none => s
  | some b => loseAreas [(b.addr, x.decl.refBytes)] [] s

/-! ## The end of a picture (R426 to R428, R433 to R442, R564) -/

/-- How a picture's decode ends: all its data is decoded; it is abandoned; its stream closes. -/
inductive PicEnd where
  | done | abandoned | closed
  deriving DecidableEq, Repr

/-- A picture leaves the stream, dropped under a reason of Table 14-8. -/
def dropPicture (h : Handle) (p : Picture) (reason : Nat) (s : State) : State :=
  let s := modStream h (fun x =>
    { x with
      pics := x.pics.filter fun q => !decide (q.frame = p.frame)
      outBufs := x.outBufs.map fun b => if b.2 = some p.frame then (b.1, none) else b
      dec := { x.dec with decoded := x.dec.decoded + 1, dropped := listAdd x.dec.dropped reason 1 } }) s
  closeFrame h p.frame s

/-- A picture counts as decoded and forwarded (R442). -/
def countForwarded (h : Handle) (s : State) : State :=
  modStream h (fun x => { x with dec := { x.dec with decoded := x.dec.decoded + 1, forwarded := x.dec.forwarded + 1 } }) s

/-- A picture enters the orphan ring, which the oldest leaves when it is full (R564). -/
def enterRing (h : Handle) (p : Picture) (s : State) : State :=
  let s := modPicture h p.frame (fun q => { q with place := 3 }) s
  match findStream s h with
  | none => s
  | some x =>
    let ring := x.pics.filter fun q => decide (q.place = 3)
    match ring with
    | [] => s
    | old :: _ => if x.decl.outBufs - 1 < ring.length then dropPicture h old 2 s else s

/-- Pictures whose decode has ended leave in output order as the codec's output process releases them (R435): the lowest frame
that waits, once more wait than the parameters let precede a picture, or than the declaration lets be held, or before a picture
that every earlier one precedes: one that waits, or frame `bound`, whose decode starts. (The process is the codec's: that it is
the bumping process of H.264, H.265 and H.266 is PRESUMED, log entry 144.) -/
def outputPictures (h : Handle) (bound : Option Nat) : Nat → State → State
  | 0, s => s
  | fuel + 1, s =>
    match findStream s h with
    | none => s
    | some x =>
      let wait := x.pics.filter fun p => decide (p.place = 1)
      match wait.foldl (fun (b : Option Picture) p => match b with
          | none => some p
          | some q => if p.frame < q.frame then some p else some q) none with
      | none => s
      | some p =>
        if decide (min p.reorder x.decl.dpbDepth < wait.length) ||
            wait.any (fun q => q.flush && decide (p.frame < q.frame)) || bound.any fun f => decide (p.frame < f) then
          outputPictures h bound fuel (if s.host.state = .orphaned then enterRing h p s else forwardPicture h p s)
        else s

/-- An AV1 frame is shown again, once every earlier picture of its stream has been decoded: the frame's samples and marks, at no
decode cost (R428, R437). A frame that no slot holds any more shows the mid value, concealed. -/
def showExisting (h : Handle) (x : Stream) (base : Picture) (shown : Nat) (s : State) : State :=
  let pic := match x.refPics.find? fun q => decide (q.frame = shown) with
    | some q =>
      { base with
        width := q.width, height := q.height, chroma := q.chroma, bitDepth := q.bitDepth, fullRange := q.fullRange
        matrixCoeffs := q.matrixCoeffs, luma := q.luma, chromaRows := q.chromaRows
        quality := { q.quality with estimated := base.quality.estimated } }
    | none =>
      let (l, c) := restRows x base none
      { base with luma := l, chromaRows := c, quality := { base.quality with concealed := true } }
  let pic := { pic with phase := .ended, rowsDone := pic.height, progress := pic.height, outputFlag := true }
  let q := pic.quality
  let s := modStream h (fun x =>
    { x with
      marked := if q.concealed || q.partly || q.abandoned then pic.frame :: x.marked else x.marked
      dec := { x.dec with
        concealed := x.dec.concealed + q.concealed.toNat, partly := x.dec.partly + q.partly.toNat } }) s
  match freeOutBuf x with
  | none => dropPicture h pic 1 s
  | some i =>
    let bare := { pic with outBuf := some i, luma := [], chromaRows := [] }
    let s := modStream h (fun x =>
      { x with
        pics := listUpd (fun p => decide (p.frame = pic.frame)) (fun _ => bare) x.pics
        outBufs := match x.outBufs[i]? with
          | none => x.outBufs
          | some b => listSet x.outBufs i (b.1, some pic.frame) }) s
    let s := putRows x bare pic.luma pic.chromaRows s
    if s.host.state = .orphaned then enterRing h { pic with outBuf := some i } s
    else outputPictures h none 64 (modPicture h pic.frame (fun r => { r with place := 1 }) (countForwarded h s))

/-- A stream's next picture comes up: a frame that is only shown again is shown, and then the picture behind it; another enters
the decode queue when a slice of it that is not decoded has been parsed (R429, R431, R437). -/
def kickFrom (h : Handle) : Nat → State → State
  | 0, s => s
  | fuel + 1, s =>
    match (findStream s h).bind fun x => (headPicture x).map fun p => (x, p) with
    | none => s
    | some (x, p) =>
      match p.shows with
      | some f => kickFrom h fuel (releasePictures h (readyEncodes (showExisting h x p f s)))
      | none =>
        if (p.phase = .waiting ∨ p.phase = .parkedSlice) ∧ p.decoded < p.slices.length then
          let s := modPicture h p.frame (fun q => { q with phase := .queued s.time.tick }) s
          let n := queueLength s
          s.modVideo fun v => { v with decodePeak := max v.decodePeak n }
        else s

/-- A stream's next picture comes up. -/
def kick (h : Handle) (s : State) : State := kickFrom h (((findStream s h).map (·.pics.length)).getD 0 + 1) s

/-- The marks of a picture when its decode ends: it is concealed also when it refers to a marked picture, unless it is a random
access point (R426 to R428, R433). -/
def endMarks (x : Stream) (p : Picture) (how : PicEnd) : Quality :=
  { p.quality with
    concealed := p.quality.concealed || p.lost || (!p.rap && p.refs.any x.marked.contains) || p.slices.any (·.damaged)
    partly := p.quality.partly || (decide (how = .done) && decide (p.rowsDone < p.height))
    abandoned := decide (how ≠ .done) }

/-- Marked pictures of a stream after a picture: a random access point decoded without concealment leaves none (R428). -/
def marksAfter (x : Stream) (p : Picture) (q : Quality) : List Nat :=
  if q.concealed || q.partly || q.abandoned then p.frame :: x.marked else if p.rap then [] else x.marked

/-- The engine of a picture becomes idle at a picture boundary. -/
def freeEngine (p : Picture) (how : PicEnd) (s : State) : State :=
  match p.phase with
  | .onEngine e => s.modEng e fun v =>
      { v with run := 0, stream := 0, latest := p.stream, pictures := v.pictures + 1, stopping := false,
               abandons := v.abandons + (decide (how = .abandoned)).toNat }
  | _ => s

/-- Video cycles spent on a picture and its stream. -/
def spendCycles (h : Handle) (frame e n : Nat) (budgeted : Bool) (s : State) : State :=
  let s := modPicture h frame (fun q =>
    { q with totalCycles := q.totalCycles + n, periodCycles := q.periodCycles + (if budgeted then n else 0) }) s
  let s := modStream h (fun x => { x with dec := { x.dec with videoCycles := x.dec.videoCycles + n } }) s
  s.modEng e fun v => { v with busy := v.busy + n }

/-- Video cycles that an engine has worked since its latest slice boundary, when its picture ends without one: 40 in each tick
(R441). -/
def unfinished (p : Picture) (how : PicEnd) (s : State) : Nat :=
  match p.phase with
  | .onEngine e => if how ≠ .done ∧ (s.eng e).run = 1 then 40 * (s.time.tick - (s.eng e).since) else 0
  | _ => 0

/-- They count for the picture, its stream and its engine. -/
def spendUnfinished (p : Picture) (how : PicEnd) (s : State) : State :=
  match p.phase with
  | .onEngine e => spendCycles p.stream p.frame e (unfinished p how s) true s
  | _ => s

/-- A picture's decode ends: rows not decoded are concealed or take the mid value, the marks and counters are set, complete row
progress is published, its slot holds it for reference, and it goes where R435 to R440 and R564 send it. -/
def endPicture (h : Handle) (p : Picture) (how : PicEnd) (s : State) : State :=
  match findStream s h with
  | none => s
  | some x =>
    let q := endMarks x p how
    let p := if how = .done then p else Picture.published x p
    let (luma, chroma) := restRows x p (if how = .done then none else concealRef x p)
    let s := putRows x p luma chroma s
    let cycles := unfinished p how s
    let s := freeEngine p how (spendUnfinished p how s)
    let p := { p with
      luma := p.luma ++ luma, chromaRows := p.chromaRows ++ chroma, phase := .ended, quality := q, progress := p.height }
    let s := modStream h (fun x =>
      { x with
        marked := marksAfter x p q
        lastDecoded := some p.frame
        refPics := if p.slot.isSome then x.refPics ++ [p] else x.refPics
        dec := { x.dec with
          concealed := x.dec.concealed + q.concealed.toNat
          partly := x.dec.partly + q.partly.toNat
          abandoned := x.dec.abandoned + (decide (how = .abandoned)).toNat
          peakCycles := max x.dec.peakCycles (p.totalCycles + cycles) } }) s
    let s := modPicture h p.frame (fun r => { r with phase := .ended, quality := q, progress := p.height }) s
    let s := if p.forwarded then markItems h p.frame q s else s
    let s :=
      if how = .closed then dropPicture h p 3 s
      else if p.outputFlag = false then dropPicture h p 0 s
      else if p.forwarded then countForwarded h s
      else if p.outBuf.isNone then dropPicture h p 1 s
      else if s.host.state = .orphaned then enterRing h p s
      else outputPictures h none 64 (modPicture h p.frame (fun r => { r with place := 1 }) (countForwarded h s))
    kick h (releasePictures h (readyEncodes s))

/-- The pictures of a stream that wait behind an abandoned one are skipped up to the next random access point (R433). -/
def skipToRap (h : Handle) : List Picture → State → State
  | [], s => s
  | p :: l, s =>
    if p.rap then resumeDecoding h p.frame p.capture p.quality.estimated s
    else
      let s := modStream h (fun x =>
        { x with
          pics := x.pics.filter fun q => !decide (q.frame = p.frame)
          parsing := if p.allParsed = false ∧ x.parsing = 1 then 2 else x.parsing }) s
      skipToRap h l (skipPicture h p.frame 0 6 0 p.capture p.quality.estimated s)

/-- A picture is abandoned (R433). -/
def abandonPicture (h : Handle) (p : Picture) (s : State) : State :=
  match findStream s h with
  | none => s
  | some x =>
    let later := x.pics.filter fun q => decide (q.phase = .waiting)
    let s := modStream h (fun x =>
      { x with
        parse := .skipping 6, skipReason := some 6, statusCount := 1
        parsing := if p.allParsed = false ∧ x.parsing = 1 then 2 else x.parsing }) s
    let s := statusPicot h 6 1 0 p.frame p.capture p.quality.estimated s
    let s := modPicture h p.frame (fun q => { q with allParsed := true }) s
    let s := endPicture h { p with allParsed := true } .abandoned s
    kick h (skipToRap h later s)

/-- Ticks of 250 ms (R433). -/
abbrev abandonTicks : Nat := 6250000

/-- 250 ms have passed since a picture's decode first started: the picture, on an engine or parked, is abandoned (R433,
R434). -/
def abandonDue (stream : Handle) (s : State) : Result :=
  match (findStream s stream).bind fun x =>
      x.pics.find? fun p => p.started && decide (p.phase ≠ .ended) && decide (p.startTick + abandonTicks ≤ s.time.tick) with
  | none => .next s
  | some p => .next (abandonPicture stream p s)

/-- The abandonment of a picture, or of a shadow picture (R739). -/
def duePictureAbandon (stream : Handle) (s : State) : Result := onShadow (abandonDue stream) s

/-- The deadline is reached (R653). -/
def execPictureAbandon (stream : Handle) (s : State) : Result :=
  atDeadline (.pictureAbandon stream) (duePictureAbandon stream) s

/-! ## Header parsing of a picture -/

/-- The first slice of an access unit: its picture takes the next frame number, and is accepted or skipped (R423 to R425, R437,
R439). -/
def firstSlice (x : Stream) (a : AccessUnit) (p : SliceParse) (s : State) : State :=
  let h := x.handle
  let frame := frameNumber x p
  let rap := decide (p.rap ≠ .none)
  let decoding := decide (x.parse = .decoding)
  let s := modStream h (fun x => { x with parsed := x.parsed + 1 }) s
  match limitFault x.decl p with
  | some (r, detail) =>
    skipPicture h frame 0 r detail a.capture a.estimated
      (modStream h (fun x => { x with parse := .skipping r, parsing := 2 }) s)
  | none =>
    if rap ∨ (decoding = true ∧ (p.rasl && x.cra) = false) then
      let s := resumeDecoding h frame a.capture a.estimated s
      let s := modStream h (fun x =>
        let cra := if rap then decide (p.rap = .cra) && !decoding else x.cra
        { x with cra := cra, parsing := 1 }) s
      let s := if p.codec = 4 ∧ p.features.contains .filmGrain = true ∧ x.grainSent = false then
          statusPicot h 0x0A 1 0 frame a.capture a.estimated (modStream h (fun x => { x with grainSent := true }) s)
        else s
      match p.showExisting with
      | some f =>
        let shown := { newPicture h a p frame with shows := some f, allParsed := true }
        kick h (modStream h (fun x => { x with parsing := 2, pics := x.pics ++ [shown] }) s)
      | none => modStream h (fun x => { x with pics := x.pics ++ [newPicture h a p frame] }) s
    else
      let s := modStream h (fun x => { x with parsing := 2 }) s
      match x.parse with
      | .skipping r => skipPicture h frame (if r = 5 then 1 else 0) r 0 a.capture a.estimated s
      | _ => skipPicture h frame 1 5 0 a.capture a.estimated s

/-- A slice of the picture being parsed becomes work for the engines. -/
def addSlice (h : Handle) (a : AccessUnit) (p : SliceParse) (s : State) : State :=
  kick h (modStream h (fun x =>
    let add (q : Picture) : Picture :=
      { q with slices := q.slices ++ [⟨p.rows, p.damaged, p.filterAcross⟩], allParsed := p.last, lost := q.lost || a.lost }
    { x with pics := listUpd (fun q => !q.allParsed) add x.pics }) s)

/-- The access unit that a slice header comes from, with the complete units behind it: the oldest complete unit, or the one
that ingest still assembles, which is read as it arrives and whose last slice is parsed once it is complete (DEDUCED, R429,
R431). -/
def parseUnit (x : Stream) (p : SliceParse) (s : State) : Option (AccessUnit × List AccessUnit) :=
  match x.aus with
  | a :: rest => some (a, rest)
  | [] =>
    if p.last then none
    else ((s.obj.flows.find? fun f => decide (f.req.stream = x.handle)).bind (·.open_)).map fun o => (o.2, [])

/-- Control core 1 or 2 parses a slice header (R422 to R429). -/
def parseSlice (stream : Handle) (p : SliceParse) (s : State) : Result :=
  match findStream s stream with
  | none => .next s
  | some x =>
    if (s.cc (parseCore stream)).run ≠ 1 ∨ x.enc.isSome ∨ (p.first = (decide (x.parsing ≠ 0))) then .next s
    else
      match parseUnit x p s with
      | none => .next s
      | some (a, rest) =>
        let s := if p.first then firstSlice x a p s else s
        let s := if ((findStream s stream).map (·.parsing)).getD 0 = 1 then addSlice stream a p s else s
        .next (if p.last then feedRetry stream (modStream stream (fun x => { x with parsing := 0, aus := rest }) s) else s)

/-- A slice header of a stream, or of one that is decoded in shadow, is parsed (R422 to R429, R739). -/
def execSliceHeaderParse (stream : Handle) (p : SliceParse) (s : State) : Result := onShadow (parseSlice stream p) s

/-! ## Decode engines (R429 to R436) -/

/-- The queued job that an idle engine takes: the earliest, then the lowest INDEX, of streams whose buffers are ready
(R430, R577). A picture that is being saved can be taken once it is saved. -/
def nextDecode (s : State) : Option (Stream × Picture) :=
  let saving (x : Stream) : Bool := (List.range 16).any fun e => decide ((s.eng e).run = 2 ∧ (s.eng e).stream = x.handle)
  let jobs := (s.obj.streams.filter fun x => decide (x.preparing = 0) && !saving x).filterMap fun x =>
    match headPicture x with
    | some p => match p.phase with
      | .queued t => some (t, x, p)
      | _ => none
    | none => none
  (jobs.foldl (fun (b : Option (Nat × Stream × Picture)) j => match b with
    | none => some j
    | some k =>
      if j.1 < k.1 ∨ (j.1 = k.1 ∧ j.2.1.handle.index < k.2.1.handle.index) then some j else some k) none).map (·.2)

/-- The reference slots as a picture starts: the pictures that the codec keeps stay, and the picture takes the first free slot,
or that of the oldest one (R418). -/
def takeSlot (x : Stream) (p : Picture) : List Picture × Option Nat :=
  let kept := x.refPics.filter fun q => p.keeps.contains q.frame
  match (List.range x.refSlots.length).find? fun i => !kept.any fun q => decide (q.slot = some i) with
  | some i => (kept, some i)
  | none => (kept.drop 1, kept.head?.bind (·.slot))

/-- Marks that a picture has as its decode starts: it is concealed when ingest lost data of it, or when it refers to a marked
picture without being a random access point (R426, R428). -/
def startMarks (x : Stream) (p : Picture) : Quality :=
  { p.quality with concealed := p.quality.concealed || p.lost || (!p.rap && p.refs.any x.marked.contains) }

/-- A picture's decode starts: it takes a reference slot, and an output buffer where one is free, and is forwarded at once where
its stream allows no reordering (R418, R421, R435, R438). -/
def beginPicture (x : Stream) (p : Picture) (s : State) : State :=
  let h := x.handle
  let buf := if p.outputFlag then freeOutBuf x else none
  let (kept, slot) := takeSlot x p
  let p := { p with quality := startMarks x p }
  let s := openSlot x slot (modStream h (fun x => { x with refPics := kept }) s)
  let s := modPicture h p.frame (fun q =>
    { q with started := true, outBuf := buf, slot := slot, startTick := s.time.tick, quality := p.quality }) s
  match buf with
  | none => s
  | some i =>
    let s := modStream h (fun x =>
      { x with outBufs := match x.outBufs[i]? with
          | none => x.outBufs
          | some b => listSet x.outBufs i (b.1, some p.frame) }) s
    if decide (p.reorder = 0) && !decide (s.host.state = .orphaned) then forwardPicture h { p with outBuf := some i } s else s

/-- A picture's decode starts; the pictures that an IDR, a BLA or an AV1 key picture lets go leave first (R435). -/
def startPicture (x : Stream) (p : Picture) (s : State) : State :=
  let s := if p.flush then outputPictures x.handle (some p.frame) 64 s else s
  beginPicture ((findStream s x.handle).getD x) p s

/-- An idle decode engine takes a job; the restore of a parked picture takes 2,000 video cycles (R430, R431, R432). -/
def takeJob (engine : Nat) (s : State) : Result :=
  if 16 ≤ engine ∨ (s.eng engine).run ≠ 0 ∨ s.host.state = .fault then .next s
  else
    match nextDecode s with
    | none => .next s
    | some (x, p) =>
      let h := x.handle
      let s := s.modEng engine fun v =>
        { v with run := if p.started then 3 else 1, stream := h, since := s.time.tick,
                 switches := v.switches + (decide (v.latest ≠ 0) && decide (v.latest ≠ h)).toNat }
      let s := modPicture h p.frame (fun q => { q with phase := .onEngine engine, periodCycles := 0 }) s
      .next (if p.started then spendCycles h p.frame engine 2000 false s
        else startPicture x { p with phase := .onEngine engine, periodCycles := 0 } s)

/-- An idle decode engine takes a job, in MIRRORED mode of the shadow decode (R430, R739). -/
def execDecodeEngineTakeJob (engine : Nat) (s : State) : Result := onShadow (takeJob engine) s

/-- The picture on an engine. -/
def enginePicture (s : State) (e : Nat) : Option (Stream × Picture) :=
  s.obj.streams.findSome? fun x => (x.pics.find? fun p => decide (p.phase = .onEngine e)).map fun p => (x, p)

/-- The slots of the pictures that a picture refers to hold poisoned lines, which its engine reads (R358). -/
def refsPoisoned (x : Stream) (p : Picture) (s : State) : Bool :=
  (x.refPics.filter fun q => p.refs.contains q.frame).any fun q =>
    match q.slot.bind fun i => x.refSlots[i]? with
    | none => false
    | some b => !rangeClean s b.addr x.decl.refBytes

/-- The engine of a picture reads the slots of the pictures that it refers to; how much of them is the engines' own (R421): the
model takes all of it (UNVERIFIED, log entry 144). -/
def readRefs (x : Stream) (p : Picture) (s : State) : State :=
  ((x.refPics.filter fun q => p.refs.contains q.frame).filterMap fun q => q.slot.bind fun i => x.refSlots[i]?).foldl
    (fun s b => hubLoad b.addr x.decl.refBytes s) s

/-- A picture's marks change while it is decoded: those of its items follow (R428, R463). -/
def markPicture (h : Handle) (frame : Nat) (q : Quality) (s : State) : State :=
  match (findStream s h).bind fun x => x.pics.find? fun p => decide (p.frame = frame) with
  | none => s
  | some p =>
    if p.quality = q then s
    else
      let s := modPicture h frame (fun r => { r with quality := q }) s
      if p.forwarded then markItems h frame q s else s

/-- A slice has been decoded: its rows are written and progress rises to the final rows. Of a damaged slice, or one whose engine
read poison, what was not decoded is concealed; samples that the data do not reach take the mid value, and the picture is
partial (R358, R426, R427, R436). -/
def decodeSlice (x : Stream) (p : Picture) (e cycles : Nat) (samples : List Byte) (missing : List Block) (s : State) : State :=
  let sl := p.slices[p.decoded]?
  let rows := min ((sl.map (·.rows)).getD 0) (p.height - p.luma.length)
  let s := readRefs x p s
  let poison := refsPoisoned x p s
  let damaged := (sl.map (·.damaged)).getD false || poison
  let (luma, chroma) := sliceRows x p (if damaged then concealRef x p else none) rows samples missing
  let s := openSlot x p.slot (putRows x p luma chroma s)
  let s := if poison then contained fkVideoPoison 0 x.handle.toNat 0 s else s
  let s := spendCycles x.handle p.frame e cycles true s
  let s := s.modEng e fun v => { v with run := 1, since := s.time.tick }
  let s := markPicture x.handle p.frame
    { p.quality with
      concealed := p.quality.concealed || damaged
      partly := p.quality.partly || (!damaged && decide (missing ≠ [])) } s
  modPicture x.handle p.frame (fun q =>
    let done := q.rowsDone + rows
    let across := match q.slices[q.decoded + 1]? with
      | none => true
      | some n => n.filterAcross
    { q with
      rowsDone := done
      decoded := q.decoded + 1
      progress := max q.progress (if across then done - filterRows x.decl.codec else done) }) s

/-- A picture is saved and parked (R431). -/
def parkPicture (h : Handle) (p : Picture) (e : Nat) (forBudget : Bool) (s : State) : State :=
  let s := spendCycles h p.frame e 2000 false s
  let s := s.modEng e fun v => { v with run := 2, since := s.time.tick, latest := 0, yields := v.yields + 1 }
  let s := modStream h (fun x => { x with dec := { x.dec with yields := x.dec.yields + forBudget.toNat } }) s
  kick h (modPicture h p.frame (fun q => { q with phase := .parkedSlice }) s)

/-- Ticks of a save or a restore: 2,000 video cycles. -/
abbrev saveTicks : Nat := 50

/-- A tick of an engine: a save that is over leaves it idle, a restore that is over leaves it at work (R431, R450). -/
def engineTick (now : Nat) (v : VideoEngine) : VideoEngine :=
  if v.since + saveTicks ≤ now then
    (if v.run = 2 then { v with run := 0, stream := 0 } else if v.run = 3 then { v with run := 1, since := now } else v)
  else v

/-- The engine's picture was lost: it stops at this slice boundary (R665). -/
def stopEngine (e cycles : Nat) (s : State) : State :=
  let h := (s.eng e).stream
  let spent := (s.eng e).spent + cycles
  let s := modStream h (fun x =>
    { x with dec := { x.dec with videoCycles := x.dec.videoCycles + cycles, peakCycles := max x.dec.peakCycles spent } }) s
  s.modEng e fun v =>
    { v with run := 0, spent := 0, stream := 0, latest := h, pictures := v.pictures + 1, busy := v.busy + cycles, stopping := false }

/-- An engine reaches a slice boundary that is not the end of its picture (R431, R432, R436). -/
def sliceEnd (engine cycles : Nat) (samples : List Byte) (missing : List Block) (s : State) : Result :=
  match enginePicture s engine with
  | none => .next (if (s.eng engine).stopping then stopEngine engine cycles s else s)
  | some (x, p) =>
    if p.slices.length ≤ p.decoded ∨ (p.allParsed = true ∧ p.slices.length ≤ p.decoded + 1) then .next s
    else
      let s := decodeSlice x p engine cycles samples missing s
      match enginePicture s engine with
      | none => .next s
      | some (x, p) =>
        if p.slices.length ≤ p.decoded then .next (parkPicture x.handle p engine false s)
        else if x.decl.budget < p.periodCycles then .next (parkPicture x.handle p engine true s)
        else .next s

/-- A slice ends, of a picture or of a shadow picture (R431, R739). -/
def execDecodeSliceEnd (engine cycles : Nat) (samples : List Byte) (missing : List Block) (s : State) : Result :=
  onShadow (sliceEnd engine cycles samples missing) s

/-- The last slice of a picture ends (R427, R434, R442). -/
def pictureEnd (engine cycles : Nat) (samples : List Byte) (missing : List Block) (s : State) : Result :=
  match enginePicture s engine with
  | none => .next (if (s.eng engine).stopping then stopEngine engine cycles s else s)
  | some (x, p) =>
    if p.allParsed = false ∨ p.slices.length ≠ p.decoded + 1 then .next s
    else
      let s := decodeSlice x p engine cycles samples missing s
      match enginePicture s engine with
      | none => .next s
      | some (x, p) => .next (endPicture x.handle p .done s)

/-- The last slice ends, of a picture or of a shadow picture (R434, R739). -/
def execDecodePictureEnd (engine cycles : Nat) (samples : List Byte) (missing : List Block) (s : State) : Result :=
  onShadow (pictureEnd engine cycles samples missing) s

/-! ## Closing and querying -/

/-- A restart of its core loses the picture of a stream that is being parsed. -/
def losesPicture (x : Stream) : Bool := decide (x.parsing = 1) && x.pics.any fun p => !p.allParsed

/-- A picture that a control-core restart loses: it is counted as skipped with reason RESTART; one that was forwarded
completes over concealed rows; the engine on it stops at its next slice boundary; later pictures that refer to it are marked
(R428, R439, R665, R667). The rest of its access unit is passed over. -/
def losePicture (h : Handle) (s : State) : State :=
  match findStream s h with
  | none => s
  | some x =>
    if x.parsing ≠ 1 then
      modStream h (fun x =>
        { x with
          parsing := if x.aus.isEmpty then x.parsing else 0
          aus := if x.parsing = 0 then x.aus else x.aus.drop 1 }) s
    else
      match x.pics.find? fun p => !p.allParsed with
      | none => s
      | some p =>
        let s := match p.phase with
          | .onEngine e => s.modEng e fun v => { v with stopping := true, spent := p.totalCycles }
          | _ => s
        let q := { p.quality with concealed := true }
        let p := Picture.published x p
        let (luma, chroma) := restRows x p (concealRef x p)
        let s := if p.forwarded then
            modPicture h p.frame (fun r => { r with quality := q }) (markItems h p.frame q (putRows x p luma chroma s))
          else s
        let s := modStream h (fun x =>
          { x with
            parsing := if x.aus.isEmpty then 2 else 0, aus := x.aus.drop 1
            pics := if p.forwarded then
                listUpd (fun q => decide (q.frame = p.frame)) (fun q => { q with phase := .ended, progress := q.height }) x.pics
              else x.pics.filter fun q => !decide (q.frame = p.frame)
            outBufs := if p.forwarded then x.outBufs
              else x.outBufs.map fun b => if b.2 = some p.frame then (b.1, none) else b
            marked := p.frame :: x.marked
            dec := { x.dec with
              skipped := listAdd x.dec.skipped 2 1, peakCycles := max x.dec.peakCycles p.totalCycles } }) s
        let s := statusPicot h 9 1 0 p.frame p.capture p.quality.estimated s
        kick h (releasePictures h (readyEncodes (closeFrame h p.frame s)))

/-- The jobs of a closing stream whose strip runs are the last users of the output buffers they read (R440). -/
def keepSources (h : Handle) (s : State) : State :=
  match findStream s h with
  | none => s
  | some x =>
    let src (j : ScalerJob) : Option BufRef := (x.outBufs.find? fun b => decide (b.2 = some j.frame)).map (·.1)
    s.modObj fun o =>
      { o with jobs := listUpd (fun j => decide (j.stream = h) && j.running) (fun j => { j with srcBuf := src j }) o.jobs }

/-- A stream's scaler jobs end with it: those not at a strip at once, the others at its boundary (R440). -/
def closeJobs (x : Stream) (s : State) : State :=
  let s := s.modObj fun o =>
    { o with jobs := (o.jobs.filter fun j => !(decide (j.stream = x.handle) && !j.running)).map fun j =>
        if j.stream = x.handle then { j with ended := true } else j }
  assignJobs s.obj.jobs.length s

/-- Ledgers of a stream: received = used + discarded (R398), decoded = forwarded + dropped (R442). -/
def streamLedgers (x : Stream) : List Ledger :=
  [Ledger.ofSum 8 x.handle.toNat x.ingest.received [x.ingest.used, x.ingest.discarded.foldl (· + ·) 0],
    Ledger.ofSum 9 x.handle.toNat x.dec.decoded [x.dec.forwarded, x.dec.dropped.foldl (· + ·) 0]]

/-- The items of a picture that its stream's closing finishes complete over the concealed rows: every strip that is left is
written, and their progress is complete (R440, R463). `x` and `p`: the stream and the picture as they were finished. -/
def completeItems (x : Stream) (p : Picture) (jobs : List ScalerJob) (s : State) : State :=
  jobs.foldl
    (fun s j =>
      match findItem s j.item with
      | none => s
      | some i =>
        let s := j.strips.foldl (fun s t => writeStrip i j t x p s) s
        setProgress i.id (if i.kind = 4 then i.rowsUsed else i.rows) s) s

/-- The picture of a stream that closes is finished as R433 does, and its items complete over it (R440, R463). -/
def finishPicture (h : Handle) (s : State) : State :=
  match findStream s h with
  | none => s
  | some x =>
    match x.pics.find? fun p => p.started && decide (p.phase ≠ .ended) with
    | none => s
    | some p =>
      let jobs := s.obj.jobs.filter fun j => decide (j.stream = h) && decide (j.frame = p.frame) && decide (j.item ≠ 0)
      completeItems x p jobs (endPicture h p .closed s)

/-- A stream ends: its flow is removed, its picture finished, its items dropped, its buffers returned (R391, R440, R578). The
buffer that a running strip reads goes back once the strip ends. -/
def endStream (x : Stream) (s : State) : State :=
  let h := x.handle
  let s := (s.obj.flows.filter fun f => decide (f.req.stream = h)).foldl (fun s f => removeFlow f s) s
  let s := closeJobs ((findStream s h).getD x) (finishPicture h (keepSources h s))
  let x := (findStream s h).getD x
  let s := checkLedgers (streamLedgers x) s
  let s := match x.enc with
    | some e => e.working.foldl (fun (s : State) (w : EncodeWork) => s.modEng (16 + w.engine) fun v =>
          { v with run := 0, stream := 0, busy := v.busy + 40 * (s.time.tick - v.since) }) s
    | none => s
  let s := (s.obj.items.filter fun i => decide (i.stream = h)).foldl (fun s i => retireItem i s) s
  let kept := s.obj.jobs.filterMap (·.srcBuf)
  let s := s.modObj fun o =>
    { o with
      streams := removeKey (·.handle) h o.streams
      jobs := o.jobs.filter fun j => !(decide (j.encode = some h) && !j.running) }
  let s := match x.enc with
    | some e => releasePictures e.decl.source (assignJobs s.obj.jobs.length s)
    | none => s
  let bufs := x.refSlots ++ x.outBufs.map (·.1) ++ ((x.enc.map (·.bufs)).getD [])
  let s := (bufs.filter fun b => !kept.contains b).foldl (fun s b => unrefBuf b s) s
  let s := releaseStream h s
  s.modObj fun o => { o with routes := removeKey (·.stream) h o.routes }

/-- A queued or running stitch has a slot that names a stream. -/
def streamInStitch (s : State) (h : Handle) : Bool :=
  s.obj.stitches.any fun t => t.req.slots.any fun l => decide (l.stream = h)

/-- `STREAM_CLOSE` (R440, R577, R578). -/
def streamCloseBody (h : Hdr) (stream : Handle) (s : State) : Reply :=
  match checkFree s stream tStream ((findStream s stream).map (·.session)) h.session, findStream s stream with
  | some st, _ => .no st
  | none, none => .no stNotFound
  | none, some x =>
    if streamInStitch s stream ∨ x.preparing ≠ 0 ∨
        (s.obj.streams.any fun y => y.enc.any fun e => decide (e.decl.source = stream)) = true then .no stBusyResource
    else .ok (endStream x s) []

/-- Ingest counter block (Table 13-8). -/
def ingestBlock (c : IngestCounters) : List Byte :=
  leBytes 8 c.received ++ leBytes 8 c.used ++ (c.discarded.map (leBytes 8)).flatten ++ leBytes 8 c.lost ++
  leBytes 8 c.reordered ++ leBytes 8 c.srCount ++ leBytes 8 c.ssrcChanges ++ leBytes 8 c.heldPeak

/-- Decode counter block (Table 14-8). -/
def decodeBlock (c : DecodeCounters) : List Byte :=
  leBytes 8 c.decoded ++ leBytes 8 c.forwarded ++ (c.dropped.map (leBytes 8)).flatten ++
  (c.skipped.map (leBytes 8)).flatten ++ leBytes 8 c.concealed ++ leBytes 8 c.partly ++ leBytes 8 c.abandoned ++
  leBytes 8 c.yields ++ leBytes 8 c.videoCycles ++ leBytes 8 c.peakCycles

/-- Output counter block (Table 15-6). -/
def outputBlock (c : OutputCounters) : List Byte :=
  leBytes 8 c.created ++ leBytes 8 c.consumed ++ (c.dropped.map (leBytes 8)).flatten ++ leBytes 8 c.eyeletsCut ++
  leBytes 8 c.predCommits ++ leBytes 8 c.predDiscards ++ leBytes 8 c.videoCycles

/-- The response of `STREAM_QUERY` (Table 19-4). -/
def queryBlock (x : Stream) : List Byte :=
  leBytes 1 (Stream.stateCode x) ++ leBytes 1 (if x.enc.isSome then 2 else 1) ++ leBytes 1 x.outputs.length ++ zeroBytes 5 ++
  leBytes 8 (x.lastForwarded.getD (2 ^ 64 - 1)) ++
  (match x.enc with
    | none => ingestBlock x.ingest ++ decodeBlock x.dec
    | some e => leBytes 8 e.encoded ++ leBytes 8 e.keys ++ leBytes 8 e.bytes ++ zeroBytes 88 ++ zeroBytes 120) ++
  (x.outputs.map fun o => outputBlock o.ctr).flatten

/-- `STREAM_QUERY` (R582). -/
def streamQueryBody (h : Hdr) (stream : Handle) (s : State) : Reply :=
  match checkFree s stream tStream ((findStream s stream).map (·.session)) h.session, findStream s stream with
  | some st, _ => .no st
  | none, none => .no stNotFound
  | none, some x => .ok s (queryBlock x)

/-- `EYELET_POLICY` (R473). -/
def eyeletPolicyBody (h : Hdr) (stream : Handle) (output fit maxAge marginPct : Nat) (s : State) : Reply :=
  match checkFree s stream tStream ((findStream s stream).map (·.session)) h.session, findStream s stream with
  | some st, _ => .no st
  | none, none => .no stNotFound
  | none, some x =>
    match x.outputs[output]? with
    | none => .no stBadValue
    | some o =>
      if 1 < fit ∨ 255 < maxAge ∨ 100 < marginPct then .no stBadValue
      else if o.desc.kind ≠ 3 then .no stWrongState
      else
        .ok (modStream stream (fun x =>
          { x with outputs := listSet x.outputs output { o with marginPct := marginPct, fit := fit, maxAge := maxAge } }) s) []

/-! ## Encoding (R445 to R449) -/

/-- A picture whose encoding has begun becomes a key picture, from which the GOP count restarts: it counts itself, the anchor of a
B picture, and what has been taken after it. With an anchor the B pictures that precede it become P pictures; for a picture that
itself precedes the latest key picture the count stays that key picture's (R446). -/
def makeKey (w : EncodeWork) (e : EncodeState) : EncodeState :=
  let after := (e.working.filter fun v => decide (w.place < v.place)).length
  { e with
    working := e.working.map fun v => if v.place = w.place then { v with key := true } else v
    history := match e.history[w.place]? with
      | none => e.history
      | some r => listSet e.history w.place (r.1, r.2.1, true)
    gopPos := if w.kind = 2 then e.gopPos else if w.kind = 1 then 2 + after else 1 + after
    pPending := if w.index = 0 then e.pPending else w.index
    bPending := if w.index = 0 then e.bPending else 0 }

/-- An encode stream after `KEY_PICTURE`: the picture whose encoding began in this tick becomes a key picture; else the next one
whose encoding has not begun will. Of several that began in the tick it is the first (R446; DESIGN CHOICE, log entry 145). -/
def askKey (now : Nat) (e : EncodeState) : EncodeState :=
  match e.working.find? fun w => decide (w.tick = now) with
  | some w => if w.key then e else makeKey w e
  | none => { e with keyRequested := true }

/-- `KEY_PICTURE` (R446, R579). -/
def keyPictureBody (h : Hdr) (stream : Handle) (s : State) : Reply :=
  match checkFree s stream tStream ((findStream s stream).map (·.session)) h.session, findStream s stream with
  | some st, _ => .no st
  | none, none => .no stNotFound
  | none, some x =>
    match x.enc with
    | none => .no stWrongState
    | some e =>
      if e.decl.codec = 5 ∧ e.decl.pictureStep = 0 then
        if 16 ≤ e.thumbs then .no stLimitExceeded
        else .ok (modStream stream (fun x => { x with enc := some { e with thumbs := e.thumbs + 1 } }) s) []
      else
        .ok (markEligible (modStream stream (fun x => { x with enc := some (askKey s.time.tick e) }) s)) []

/-- An encode stream whose eligible picture an engine takes (R445, R446). -/
def takePicture (engine now : Nat) (e : EncodeState) (q : EncodePic) (i : Nat) (key : Bool) (b pp : Nat) : EncodeState :=
  let kind := if 0 < e.pPending then 2 else if 0 < e.bPending ∧ e.keyRequested = false then 1 else 0
  { e with
    working := e.working ++ [⟨engine, q, key, e.history.length, i, if e.decl.codec = 5 then 0 else kind, now⟩]
    history := e.history ++ [(q.luma, q.chromaRows, key)]
    pics := e.pics.eraseIdx i
    bPending := b
    pPending := pp
    first := false
    keyRequested := if key then false else e.keyRequested
    gopPos := if key then (if 0 < e.bPending then 2 else 1) else if 0 < e.pPending then e.gopPos else e.gopPos + 1 }

/-- A scaled source picture as the encode engine reads it from its buffer: poison is concealed from the picture encoded before
it, or with the mid value, and contained (R358, R426, R453, Table 24-1). -/
def readScaled (h : Handle) (e : EncodeState) (q : EncodePic) (s : State) : EncodePic × State :=
  if q.base = 0 then (q, s)
  else
    let w := (q.luma.headD []).length
    let planes := [(q.base, w * q.luma.length), (q.base + w * q.luma.length, w * q.chromaRows.length)]
    let s := planes.foldl (fun s a => hubLoad a.1 a.2 s) s
    let bad := planeLines s planes
    if bad = [] then (q, s)
    else
      let mid := if w = e.decl.width then [128#8] else leBytes 2 512
      let other (rows : List (List Byte)) (y : Nat) : List Byte := rows.getD y (List.replicate (w / mid.length) mid).flatten
      let prev := (e.history.getLast?).getD ([], [], false)
      let mend (at_ : Nat) (rows old : List (List Byte)) : List (List Byte) :=
        ((List.range rows.length).zip rows).map fun r => mendRow bad (at_ + r.1 * w) r.2 (other old r.1)
      ({ q with
          quality := { q.quality with concealed := true }
          luma := mend q.base q.luma prev.1, chromaRows := mend (q.base + w * q.luma.length) q.chromaRows prev.2.1 },
        contained fkVideoPoison 0 h.toNat 0 s)

/-- An idle encode engine takes the picture that became eligible earliest, then of the lowest INDEX (R449). -/
def execEncodeEngineTakePicture (engine : Nat) (s : State) : Result :=
  if 4 ≤ engine ∨ (s.eng (16 + engine)).run ≠ 0 ∨ s.host.state = .fault then .next s
  else
    let s := markEligible s
    let cand := s.obj.streams.filterMap fun x => x.enc.bind fun e => (eligible x).map fun r => (x, e, r)
    let since (c : Stream × EncodeState × EncodePic × Nat × Bool × Nat × Nat) : Nat :=
      eligibleSince c.2.1 c.2.2.1 c.2.2.2.2.1
    let best := cand.foldl (fun (b : Option (Stream × EncodeState × EncodePic × Nat × Bool × Nat × Nat)) c => match b with
      | none => some c
      | some d => if since c < since d ∨ (since c = since d ∧ c.1.handle.index < d.1.handle.index) then some c else some d) none
    match best with
    | none => .next s
    | some (x, e, q, i, key, b, pp) =>
      let s := s.modEng (16 + engine) fun v =>
        { v with run := 1, stream := x.handle, since := s.time.tick,
                 switches := v.switches + (decide (v.latest ≠ 0) && decide (v.latest ≠ x.handle)).toNat }
      let r := readScaled x.handle e q s
      .next (modStream x.handle (fun x => { x with enc := some (takePicture engine s.time.tick e r.1 i key b pp) }) r.2)

/-! ## Encoded bits (R447, R448) -/

/-- The numbers of a declaration on which the encoded bits depend (R448). -/
def declKey (d : EncodeDecl) : List Nat :=
  [d.codec, d.bitDepth, d.rcMode, d.width, d.height, d.target, d.peak, d.vbvMs, d.qpI, d.qpP, d.gopLen, d.bFrames,
    d.pictureStep]

/-- The rate at which the buffer model is filled: TARGET in CBR, PEAK in VBR; none in CQP and for JPEG (R447). -/
def fillRate (d : EncodeDecl) : Option Nat :=
  if d.codec = 5 ∨ 2 ≤ d.rcMode then none else some (if d.rcMode = 0 then d.target else d.peak)

/-- The quantiser that a declaration fixes for a picture: in CQP, and for JPEG (R447). -/
def fixedQuantiser (d : EncodeDecl) (key : Bool) : Option Nat :=
  if d.codec = 5 then some d.qpI else if d.rcMode = 2 then some (if key then d.qpI else d.qpP) else none

/-- Parts of a bit in which the buffer model counts: 1,000 PIC_RATE, so that no fraction of a picture's share is lost. -/
def bitParts (picRate : Nat) : Nat := 1000 * max 1 picRate

/-- What `rate` gives in the time of `n` pictures, in parts of a bit: the pictures come at the source's declared rate (DESIGN
CHOICE, log entry 145: R447 names no picture times). -/
def pictureBits (d : EncodeDecl) (rate n : Nat) : Nat := n * rate * max 1 d.pictureStep * 1000000

/-- The buffer model of R447: its level in parts of a bit, the pictures encoded, and their bytes. -/
structure BufferModel where
  level : Nat
  pictures : Nat
  bytes : Nat
  deriving DecidableEq, Repr

/-- Fewest and most bytes of a picture that keep R447: the buffer never overflows; in CBR it never underflows; in VBR the long-run
rate stays within one buffer of TARGET. -/
def auBounds (d : EncodeDecl) (picRate rate : Nat) (m : BufferModel) : Nat × Nat :=
  let byte := 8 * bitParts picRate
  let size := rate * d.vbvMs * max 1 picRate
  let fill := pictureBits d rate 1
  let most := (size - m.level) / byte
  if d.rcMode = 0 then (ceilDiv (fill - m.level) byte, most)
  else
    let aim := pictureBits d d.target (m.pictures + 1)
    let sent := byte * m.bytes
    (ceilDiv (aim - size - sent) byte, min most ((aim + size - sent) / byte))

/-- Bytes of a picture's access unit: a length within what R447 allows. -/
def unitLength (d : EncodeDecl) (picRate : Nat) (m : BufferModel) (hist : List (List (List Byte) × List (List Byte) × Bool)) : Nat :=
  let free := Config.encodedLength (declKey d) hist
  match fillRate d with
  | none => free
  | some rate =>
    let (lo, hi) := auBounds d picRate rate m
    if lo ≤ hi then lo + free % (hi - lo + 1) else hi

/-- The buffer model once a picture has been encoded. -/
def BufferModel.take (d : EncodeDecl) (picRate : Nat) (m : BufferModel)
    (hist : List (List (List Byte) × List (List Byte) × Bool)) : BufferModel :=
  let n := unitLength d picRate m hist
  { level := m.level + 8 * bitParts picRate * n - ((fillRate d).map fun r => pictureBits d r 1).getD 0
    pictures := m.pictures + 1, bytes := m.bytes + n }

/-- The buffer model after the pictures of a history; where it begins is the encoder's. -/
def bufferAfter (d : EncodeDecl) (picRate : Nat) (hist : List (List (List Byte) × List (List Byte) × Bool)) : BufferModel :=
  let size := ((fillRate d).map fun r => r * d.vbvMs / 1000).getD 0
  (List.range hist.length).foldl (fun m k => m.take d picRate (hist.take (k + 1)))
    ⟨Config.vbvStart (declKey d) % (size + 1) * bitParts picRate, 0, 0⟩

/-- The access unit of the last picture of a history in coding order. Its bytes and its length are a function of the declaration,
the source pictures and the key marks alone (R448). -/
def encodeUnit (d : EncodeDecl) (picRate : Nat) (hist : List (List (List Byte) × List (List Byte) × Bool)) : List Byte :=
  (List.range (unitLength d picRate (bufferAfter d picRate hist.dropLast) hist)).map (Config.encodedByte (declKey d) hist)

/-- Data bytes of a CLIP fragment: what fits the picots of the stream's destination. -/
def clipRoom (s : State) (h : Handle) : Nat :=
  (min 65472 (((findRoute s h).bind fun r => findDest s r.dest).map (·.largest) |>.getD 65472) - 64) / 8 * 8

/-- CLIP picots of an access unit, from an offset on (Table 17-4, R521). -/
def clipPicots (h : Handle) (p : EncodePic) (codec kind total room : Nat) : Nat → Nat → List Byte → State → State
  | 0, _, _, s => s
  | fuel + 1, off, bs, s =>
    let part := bs.take room
    let more := decide (room < bs.length)
    let s := formPicot
      { type := 6, more := more, unordered := true, quality := p.quality, stream := h, capture := p.capture, seq := 0,
        frame := p.frame, completion := s.now
        payload := leBytes 1 codec ++ leBytes 1 kind ++ zeroBytes 2 ++ leBytes 4 total ++ leBytes 4 off ++
          leBytes 4 part.length ++ part } s
    if more then clipPicots h p codec kind total room fuel (off + room) (bs.drop room) s else s

/-- An encode stream whose picture has been encoded, with the bytes of its access unit and the level of the buffer model. -/
def endEncode (e : EncodeState) (w : EncodeWork) (n now level : Nat) : EncodeState :=
  { e with
    working := e.working.filter fun v => decide (v.place ≠ w.place)
    anchorEnd := if w.kind = 1 then e.anchorEnd else now
    encoded := e.encoded + 1, keys := e.keys + w.key.toNat, bytes := e.bytes + n
    vbv := (fillRate e.decl).map fun _ => level, quantiser := fixedQuantiser e.decl w.key }

/-- An encode engine ends a picture: its access unit leaves as CLIP picots (R443, R449, R513). -/
def execEncodePictureEnd (engine : Nat) (s : State) : Result :=
  let found := s.obj.streams.findSome? fun x => x.enc.bind fun e =>
    (e.working.find? fun w => decide (w.engine = engine)).map fun w => (x, e, w)
  match found with
  | none => .next s
  | some (x, e, w) =>
    let room := max 8 (clipRoom s x.handle)
    let hist := e.history.take (w.place + 1)
    let rate := ((findStream s e.decl.source).map (·.decl.picRate)).getD 0
    let au := encodeUnit e.decl rate hist
    let s := s.modEng (16 + engine) fun v =>
      { v with run := 0, stream := 0, latest := x.handle, pictures := v.pictures + 1,
               busy := v.busy + 40 * (s.time.tick - v.since) }
    let s := modStream x.handle (fun x =>
      { x with
        lastForwarded := some w.pic.frame
        enc := some (endEncode e w au.length s.time.tick (bufferAfter e.decl rate hist).level) }) s
    let kind := if e.decl.codec = 5 then 2 else if w.key then 0 else 1
    .next (markEligible (clipPicots x.handle w.pic e.decl.codec kind au.length room (au.length / room + 1) 0 au s))

/-- The taking of the command. -/
def runStreamOpen (h : Hdr) (d : DecodeDecl) (outs : List OutputDesc) : State → State :=
  serve kPlain h (0x40 + 64 * outs.length) (streamOpenBody h d outs)

def execStreamOpen (h : Hdr) (d : DecodeDecl) (outs : List OutputDesc) (s : State) : Result :=
  .next (enter h 0x20 (.streamOpen h d outs) (runStreamOpen h d outs) s)
/-- The taking of the command. -/
def runStreamClose (h : Hdr) (stream : Handle) : State → State :=
  serve kPlain h 8 (streamCloseBody h stream)

def execStreamClose (h : Hdr) (stream : Handle) (s : State) : Result :=
  .next (enter h 0x21 (.streamClose h stream) (runStreamClose h stream) s)
/-- The taking of the command. -/
def runKeyPicture (h : Hdr) (stream : Handle) : State → State :=
  serve kPlain h 8 (keyPictureBody h stream)

def execKeyPicture (h : Hdr) (stream : Handle) (s : State) : Result :=
  .next (enter h 0x24 (.keyPicture h stream) (runKeyPicture h stream) s)
/-- The taking of the command. -/
def runEncodeOpen (h : Hdr) (d : EncodeDecl) : State → State :=
  serve kPlain h 40 (encodeOpenBody h d)

def execEncodeOpen (h : Hdr) (d : EncodeDecl) (s : State) : Result :=
  .next (enter h 0x25 (.encodeOpen h d) (runEncodeOpen h d) s)
/-- The taking of the command. -/
def runStreamQuery (h : Hdr) (stream : Handle) : State → State :=
  serve kPlain h 8 (streamQueryBody h stream)

def execStreamQuery (h : Hdr) (stream : Handle) (s : State) : Result :=
  .next (enter h 0x26 (.streamQuery h stream) (runStreamQuery h stream) s)
/-- The taking of the command. -/
def runEyeletPolicy (h : Hdr) (stream : Handle) (output fit maxAge marginPct : Nat) : State → State :=
  serve kPlain h 16 (eyeletPolicyBody h stream output fit maxAge marginPct)

def execEyeletPolicy (h : Hdr) (stream : Handle) (output fit maxAge marginPct : Nat) (s : State) : Result :=
  .next (enter h 0x27 (.eyeletPolicy h stream output fit maxAge marginPct) (runEyeletPolicy h stream output fit maxAge marginPct) s)

end Machine
end Sys2Proof
end

