-- ==== Sys2Proof/Machine/Firmware.lean ====
section
/-! DEFINITION. Control cores, their watchdogs and restarts, and the event gatherer (chapter 22). -/

namespace Sys2Proof

/-- Sources 241 to 247, 254, 255 and 384 to 511 are reserved (Table 22-7). -/
def reservedSource (n : Nat) : Bool :=
  decide (241 ≤ n ∧ n ≤ 247) || decide (254 ≤ n ∧ n ≤ 255) || decide (384 ≤ n)

/-- Sources 248 to 253 are always on (R685). -/
def alwaysOn (n : Nat) : Bool := decide (248 ≤ n ∧ n ≤ 253)

/-- PEND of a source (R676, R677). -/
def EvgSource.pend (x : EvgSource) : Bool := if x.level then x.pendLevel else decide (x.count ≠ 0)

/-- An arrival at an edge source (R676). -/
def EvgSource.arrive (x : EvgSource) : EvgSource :=
  let x := { x with total := (x.total + 1) % 2 ^ 32 }
  if x.count < 255 then { x with count := x.count + 1 } else { x with excess := (x.excess + 1) % 2 ^ 32 }

/-- A level source whose condition is sampled asserted (R677). -/
def EvgSource.assert_ (x : EvgSource) : EvgSource :=
  if x.pendLevel then x else { x with pendLevel := true, total := (x.total + 1) % 2 ^ 32 }

/-- A completion of a source with recorded `k`; `asserted`: the condition of a level source as re-sampled (R677, R680). -/
def EvgSource.complete (x : EvgSource) (k : Nat) (asserted : Bool) : EvgSource :=
  if x.level then
    if x.pendLevel && !asserted then { x with pendLevel := false, served := (x.served + 1) % 2 ^ 32 }
    else if asserted then x.assert_ else x
  else { x with count := x.count - k, served := (x.served + min k x.count) % 2 ^ 32 }

namespace Machine

/-! ## Restarts (R661 to R668) -/

/-- Restart causes of Table 22-3. -/
abbrev rcWatchdog : Nat := 1
abbrev rcStackMismatch : Nat := 2
abbrev rcStackRule : Nat := 3

/-- Streams that core 1 (even INDEX) or core 2 (odd INDEX) works for (Table 22-1), in shadow on a standby (R739). -/
def streamsOfCore (s : State) (c : Nat) : List Stream :=
  if c = 1 ∨ c = 2 then
    ((if shadowing s then s.pair.replica.streams else s.obj.streams).filter fun x => decide (x.handle.index % 2 = c - 1))
  else []

/-- The boot core restarts a control core (R662, R665, R667, R668): the fourth restart within 10 s is escalated. The core runs
again at `CONTROL_CORE_RESUME`; the time that takes, in ARG3, is open up to 2 ms. -/
def restartCore (c cause : Nat) (s : State) : State :=
  if (s.cc c).run ≠ 1 then s
  else
    let mine := streamsOfCore s c
    let lost := (mine.filter losesPicture).length
    let s := s.modCc c fun k =>
      { k with
        run := 3
        wdogLeft := 250000
        lastCause := cause
        restarts := k.restarts + 1
        lastTick := s.time.tick
        recent := (k.recent.filter fun t => decide (s.time.tick ≤ t + 250000000)) ++ [s.time.tick]
        lostStreams := lost }
    let s := s.modEvg fun e => { e with prio := SMap.set [] e.prio c [] }
    let s := shadowed (fun s => mine.foldl (fun s x => losePicture x.handle s) s) s
    let s := logWrite 4 1 [c, cause] s
    let ns := Config.freeNat s.fresh % 2000001
    let s := issueEvent evRestart c [cause, (s.cc c).restarts, lost, ns] s.useFresh
    let s := setCause causeRestart s
    if 4 ≤ (s.cc c).recent.length then escalate fkRestartStorm c s else contained fkCoreRestart c 0 0 s

/-- A write of CC.WDOG_KICK (R660); the boot core has none. -/
def execCcWdogKick (core : Nat) (s : State) : Result :=
  if 4 ≤ core then .next s else .next (s.modCc core fun k => { k with wdogLeft := 250000 })

/-- A running core's watchdog reaches zero (R660, R661). -/
def dueWatchdogExpiry (core : Nat) (s : State) : Result :=
  if 4 ≤ core then .next s else .next (restartCore core rcWatchdog s)

/-- The deadline is reached (R653). -/
def execWatchdogExpiry (core : Nat) (s : State) : Result :=
  atDeadline (.watchdogExpiry core) (dueWatchdogExpiry core) s

/-- A control core traps: exception, memory error or self-check. An error in the image cannot be restarted from (R661,
R662). -/
def execControlCoreException (core cause : Nat) (image : Bool) (s : State) : Result :=
  if 4 ≤ core ∨ ¬ (4 ≤ cause ∧ cause ≤ 6) ∨ (s.cc core).run ≠ 1 then .next s
  else if image then
    .next (escalate fkImageUe core (s.modCc core fun k => { k with run := 2, lastCause := cause, lastTick := s.time.tick }))
  else .next (restartCore core cause s)

/-- The boot core's own watchdog expires: from PERST# on, while the core has power (R656). -/
def dueBootCoreWatchdogExpiry (s : State) : Result :=
  if (s.cc 4).run ≠ 1 ∨ 6 ≤ s.power.state then .next s
  else .next (escalate fkBootWatchdog 0 (s.modCc 4 fun c => { c with wdogLeft := 0 }))

/-- The deadline is reached (R653). -/
def execBootCoreWatchdogExpiry (s : State) : Result :=
  atDeadline .bootCoreWatchdogExpiry dueBootCoreWatchdogExpiry s

/-! ## The event gatherer (R674 to R682) -/

/-- The gatherer counts arrivals of a source now: only the always-on ones without its power (R684, R685). -/
def gathers (s : State) (n : Nat) : Bool :=
  decide (n < 512) && !reservedSource n && (alwaysOn n || decide (s.power.state < 6)) && (s.power.aux || s.power.main)

/-- A source raises core `c`'s interrupt (R678). -/
def interrupts (s : State) (c n : Nat) : Bool :=
  let x := s.src n
  x.pend && !x.mask && decide (x.target = c) &&
    match SMap.get [] s.evg.prio c with
    | [] => true
    | t :: _ => decide (t.2.1 < x.priority)

/-- An arrival at an edge source. -/
def execEdgeSourceArrival (source : Nat) (s : State) : Result :=
  if gathers s source = false ∨ (s.src source).level then .next s else .next (s.modSrc source EvgSource.arrive)

/-- A level source's condition is sampled asserted. -/
def execLevelSourceAssert (source : Nat) (s : State) : Result :=
  if gathers s source = false ∨ (s.src source).level = false then .next s else .next (s.modSrc source EvgSource.assert_)

/-- An entry breaks a rule of the stack (R679). -/
def entryBreaks (s : State) (c n : Nat) : Bool :=
  let x := s.src n
  let st := SMap.get [] s.evg.prio c
  decide (8 ≤ st.length) || reservedSource n || decide (512 ≤ n) || decide (x.target ≠ c) || !x.pend ||
    match st with
    | [] => false
    | t :: _ => decide (x.priority < t.2.1)

/-- A write of EVG.ENTER (R679). -/
def execEvgEnter (core source : Nat) (s : State) : Result :=
  if 4 ≤ core ∨ (s.cc core).run ≠ 1 then .next s
  else if entryBreaks s core source then .next (restartCore core rcStackRule s)
  else
    let x := s.src source
    let k := if x.level then 0 else x.count
    .next (s.modEvg fun e => { e with prio := SMap.modify [] e.prio core fun l => (source, x.priority, k) :: l })

/-- A write of EVG.DONE (R680, R681). -/
def execEvgDone (core source : Nat) (asserted : Bool) (s : State) : Result :=
  if 4 ≤ core ∨ (s.cc core).run ≠ 1 then .next s
  else
    match SMap.get [] s.evg.prio core with
    | [] => .next (restartCore core rcStackMismatch s)
    | t :: rest =>
      if t.1 ≠ source then .next (restartCore core rcStackMismatch s)
      else
        .next ((s.modEvg fun e => { e with prio := SMap.set [] e.prio core rest }).modSrc source
          fun x => x.complete t.2.2 asserted)

/-- A write of EVG.RAISE: one arrival at a soft source (R683). -/
def execEvgRaise (source : Nat) (s : State) : Result :=
  if 256 ≤ source ∧ source ≤ 383 ∧ gathers s source = true ∧ (s.src source).level = false then
    .next (s.modSrc source EvgSource.arrive)
  else .next s

end Machine
end Sys2Proof
end

