-- ==== Sys2Proof/Machine/Stitches.lean ====
section
/-! DEFINITION. Partitions, clients, and the posting, cancelling and starting of stitches (chapter 16). -/

namespace Sys2Proof

/-- Size of a `STITCH_POST` request (Tables 16-3, 16-4 and 19-6). -/
def StitchReq.size (r : StitchReq) : Nat := roundUp 8 (128 + 16 * r.slots.length + 8 * r.leaves.length + 16 * r.joins.length)

/-- No two of a list are equal. -/
def distinct {α : Type} [DecidableEq α] : List α → Bool
  | [] => true
  | x :: l => !l.contains x && distinct l

/-- A field with its default where it is 0. -/
def orDefault (v d : Nat) : Nat := if v = 0 then d else v

namespace Machine

/-- The first status of a list of checks. -/
def firstOf (l : List (Option Nat)) : Option Nat := l.findSome? id

/-- A check that gives one status. -/
def failIf (c : Bool) (st : Nat) : Option Nat := if c then some st else none

/-! ## Partitions (R479 to R482) -/

/-- The region of a kind that starts at a granule of a stack. -/
def regionAt (s : State) (kind stack g0 : Nat) : Option Region :=
  s.obj.regions.find? fun r => decide (r.kind = kind) && r.stackMask.testBit stack && decide (r.g0 = g0)

/-- Granules of the region that a partition names in a stack; 0 for none. -/
def regionGranules (s : State) (kind stack : Nat) (g0s : List Nat) : Nat :=
  ((regionAt s kind stack (g0s.getD stack 0xFFFF)).map (·.count)).getD 0

/-- The fields of Table 16-1 that CREATE and MODIFY set are in range. -/
def partLimitsOk (r : PartReq) : Bool :=
  decide (r.sliceMs ≤ 100) && decide (r.beBoundMs ≤ 25) && decide (r.lcCapMs ≤ 25) &&
    (decide (r.timeoutMs = 0) || (decide (50 ≤ r.timeoutMs) && decide (r.timeoutMs ≤ 10000)))

/-- Quads of a stack in a mask. -/
def stackQuads (quads k : Nat) : Nat := ((List.range 8).filter fun i => quads.testBit (8 * k + i)).length

/-- Quads lie in 1, 2 or 4 stacks with equal numbers in each. -/
def quadsOk (quads : Nat) : Bool :=
  let ns := ((List.range 4).map (stackQuads quads)).filter fun n => decide (n ≠ 0)
  decide (quads < 2 ^ 32) && (decide (ns.length = 1) || decide (ns.length = 2) || decide (ns.length = 4)) &&
    ns.all fun n => decide (n = ns.headD 0)

/-- A partition as a request describes it. -/
def partOf (h sess : Handle) (r : PartReq) : Partition :=
  { handle := h, session := sess, quads := r.quads, sliceMs := orDefault r.sliceMs 10, beBoundMs := orDefault r.beBoundMs 5,
    lcCapMs := orDefault r.lcCapMs 25, timeoutMs := orDefault r.timeoutMs 1000, modelG0 := r.modelG0, workG0 := r.workG0 }

/-- A granule field names a region of a kind in a spanned stack, or none. -/
def g0Ok (s : State) (p : Partition) (kind k g : Nat) : Bool :=
  decide (g = 0xFFFF) || ((partitionStacks p).contains k && (regionAt s kind k g).isSome)

/-- The regions of a request are as R480 step 2 asks. -/
def regionsOk (s : State) (p : Partition) : Bool :=
  (List.range 4).all (fun k => g0Ok s p 1 k (p.modelG0.getD k 0xFFFF) && g0Ok s p 2 k (p.workG0.getD k 0xFFFF)) &&
    (partitionStacks p).all fun k =>
      decide (regionGranules s 1 k p.modelG0 = regionGranules s 1 ((partitionStacks p).headD 0) p.modelG0)

/-- A quad or a region of a partition belongs to another one already (R480 step 3), or a `PILLOW_PLAN` in flight names the region
(R576). -/
def partTaken (s : State) (p : Partition) : Bool :=
  ((partitionStacks p).any fun k =>
    planInFlight s (2 ^ k) (p.modelG0.getD k 0xFFFF) 1 || planInFlight s (2 ^ k) (p.workG0.getD k 0xFFFF) 1) ||
  s.obj.partitions.any fun q =>
    decide (q.quads &&& p.quads ≠ 0) || s.obj.regions.any fun r => partitionNames p r && partitionNames q r

/-- `PARTITION_SET` CREATE, its checks in the order of R480. -/
def partCreateBody (h : Hdr) (r : PartReq) (s : State) : Reply :=
  let hd := newHandle s tPartition
  let p := partOf hd h.session r
  match firstOf
      [failIf (decide (r.partition ≠ 0) || !partLimitsOk r || !quadsOk r.quads) stBadValue,
        failIf (!regionsOk s p) stBadValue, failIf (partTaken s p) stBusyResource] with
  | some st => .no st
  | none => .ok (issued hd (s.modObj fun o => { o with partitions := o.partitions ++ [p] })) (leBytes 4 hd.toNat)

/-- `PARTITION_SET` MODIFY (R481). -/
def partModifyBody (h : Hdr) (r : PartReq) (s : State) : Reply :=
  let found := findPart s r.partition
  match checkFree s r.partition tPartition (found.map (·.session)) h.session, found with
  | some st, _ => .no st
  | none, none => .no stNotFound
  | none, some p =>
    if partLimitsOk r = false ∨ r.quads ≠ p.quads ∨ r.modelG0 ≠ p.modelG0 ∨ r.workG0 ≠ p.workG0 then .no stBadValue
    else
      .ok (modPart p.handle (fun p =>
        { p with
          sliceMs := orDefault r.sliceMs 10
          beBoundMs := orDefault r.beBoundMs 5
          lcCapMs := orDefault r.lcCapMs 25
          timeoutMs := orDefault r.timeoutMs 1000 }) s) (leBytes 4 p.handle.toNat)

/-- A partition has a stitch queued or running. -/
def partBusy (s : State) (h : Handle) : Bool := s.obj.stitches.any fun t => decide (t.req.partition = h)

/-- Queued and running stitches of a partition (R508). -/
def partStitches (s : State) (h : Handle) : Nat := (s.obj.stitches.filter fun t => decide (t.req.partition = h)).length

/-- The ledger of a partition: posted = completed + cancelled + queued and running (R508). -/
def partLedger (s : State) (p : Partition) : Ledger :=
  Ledger.ofSum 5 p.handle.toNat p.posted [p.completed, p.cancelled, partStitches s p.handle]

/-- A partition ends, its ledger checked: with it its residencies and the places kept for it. A partition of this card that a
failover suspended, and that no taken-over partition overlaps any more, goes on (R482, R748). -/
def dropPartition (h : Handle) (s : State) : State :=
  let s := match findPart s h with
    | none => s
    | some p => checkLedger (partLedger s p) s
  s.modObj fun o =>
    let left := o.partitions.filter fun p => !decide (p.handle = h)
    { o with
      partitions := left.map fun p =>
        { p with suspended := p.suspended && left.any fun q => decide (q.handle ≠ p.handle ∧ q.quads &&& p.quads ≠ 0) } }

/-- `PARTITION_SET` REMOVE (R482). -/
def partRemoveBody (h : Hdr) (r : PartReq) (s : State) : Reply :=
  let found := findPart s r.partition
  match checkFree s r.partition tPartition (found.map (·.session)) h.session, found with
  | some st, _ => .no st
  | none, none => .no stNotFound
  | none, some p =>
    if partBusy s p.handle then .no stBusyResource else .ok (dropPartition p.handle s) (leBytes 4 p.handle.toNat)

/-- The taking of the command. -/
def runPartitionSetCreate (h : Hdr) (p : PartReq) : State → State :=
  serve kPlain h 48 (partCreateBody h p)

def execPartitionSetCreate (h : Hdr) (p : PartReq) (s : State) : Result :=
  .next (enter h 0x44 (.partitionSetCreate h p) (runPartitionSetCreate h p) s)

/-- The taking of the command. -/
def runPartitionSetModify (h : Hdr) (p : PartReq) : State → State :=
  serve kPlain h 48 (partModifyBody h p)

def execPartitionSetModify (h : Hdr) (p : PartReq) (s : State) : Result :=
  .next (enter h 0x44 (.partitionSetModify h p) (runPartitionSetModify h p) s)

/-- The taking of the command. -/
def runPartitionSetRemove (h : Hdr) (p : PartReq) : State → State :=
  serve kPlain h 48 (partRemoveBody h p)

def execPartitionSetRemove (h : Hdr) (p : PartReq) (s : State) : Result :=
  .next (enter h 0x44 (.partitionSetRemove h p) (runPartitionSetRemove h p) s)

/-! ## Clients (R483, R484, R509) -/

/-- CLASSES and WEIGHT are in range (Table 16-2). -/
def clientFieldsOk (classes weight : Nat) : Bool := decide (1 ≤ classes ∧ classes ≤ 3) && decide (1 ≤ weight ∧ weight ≤ 16)

/-- `CLIENT_SET` CREATE. -/
def clientCreateBody (h : Hdr) (classes weight : Nat) (s : State) : Reply :=
  let hd := newHandle s tClient
  if clientFieldsOk classes weight = false then .no stBadValue
  else if 256 ≤ countOf s tClient then .no stLimitExceeded
  else
    .ok (issued hd (s.modObj fun o =>
      { o with clients := o.clients ++ [{ handle := hd, session := h.session, classes := classes, weight := weight }] }))
      (leBytes 4 hd.toNat)

/-- `CLIENT_SET` MODIFY. -/
def clientModifyBody (h : Hdr) (client : Handle) (classes weight : Nat) (s : State) : Reply :=
  match checkHandle client tClient ((findClient s client).map (·.session)) h.session with
  | some st => .no st
  | none =>
    if clientFieldsOk classes weight = false then .no stBadValue
    else .ok (modClient client (fun c => { c with classes := classes, weight := weight }) s) (leBytes 4 client.toNat)

/-- A client ends: no slice and no debt stays. -/
def dropClient (client : Handle) (s : State) : State :=
  s.modObj fun o =>
    { o with
      clients := removeKey (·.handle) client o.clients
      partitions := o.partitions.map fun p =>
        { p with holder := if p.holder = some client then none else p.holder, debts := removeKey (·.1) client p.debts } }

/-- `CLIENT_SET` REMOVE. -/
def clientRemoveBody (h : Hdr) (client : Handle) (s : State) : Reply :=
  match checkHandle client tClient ((findClient s client).map (·.session)) h.session with
  | some st => .no st
  | none =>
    if s.obj.stitches.any fun t => decide (t.req.client = client) then .no stBusyResource
    else .ok (dropClient client s) (leBytes 4 client.toNat)

/-- Present debt of a client over all partitions, in ns. -/
def debtSum (s : State) (c : Handle) : Nat := s.obj.partitions.foldl (fun n p => n + Partition.debtOf p c) 0

/-- The client statistics block (Table 16-8). -/
def clientBlock (c : Client) (debtNs : Nat) : List Byte :=
  leBytes 8 c.stitches ++ leBytes 8 c.cancelled ++ leBytes 8 c.waitSum ++ leBytes 8 c.waitMax ++
  (c.waitHist.map (leBytes 8)).flatten ++ leBytes 8 c.preemptClass ++ leBytes 8 c.preemptSlice ++
  leBytes 8 (debtNs / 1000) ++ leBytes 8 c.quadCycles ++ leBytes 8 c.replays ++ leBytes 8 c.ovfTiles ++
  leBytes 8 c.residencyUs ++ zeroBytes 8

/-- `CLIENT_STATS`. -/
def clientStatsBody (h : Hdr) (client : Handle) (s : State) : Reply :=
  match checkHandle client tClient ((findClient s client).map (·.session)) h.session, findClient s client with
  | some st, _ => .no st
  | none, none => .no stNotFound
  | none, some c => .ok s (clientBlock c (debtSum s client))

/-- The taking of the command. -/
def runClientSetCreate (h : Hdr) (classes weight : Nat) : State → State :=
  serve kPlain h 16 (clientCreateBody h classes weight)

def execClientSetCreate (h : Hdr) (classes weight : Nat) (s : State) : Result :=
  .next (enter h 0x42 (.clientSetCreate h classes weight) (runClientSetCreate h classes weight) s)

/-- The taking of the command. -/
def runClientSetModify (h : Hdr) (client : Handle) (classes weight : Nat) : State → State :=
  serve kPlain h 16 (clientModifyBody h client classes weight)

def execClientSetModify (h : Hdr) (client : Handle) (classes weight : Nat) (s : State) : Result :=
  .next (enter h 0x42 (.clientSetModify h client classes weight) (runClientSetModify h client classes weight) s)

/-- The taking of the command. -/
def runClientSetRemove (h : Hdr) (client : Handle) : State → State :=
  serve kPlain h 16 (clientRemoveBody h client)

def execClientSetRemove (h : Hdr) (client : Handle) (s : State) : Result :=
  .next (enter h 0x42 (.clientSetRemove h client) (runClientSetRemove h client) s)

/-- The taking of the command. -/
def runClientStats (h : Hdr) (client : Handle) : State → State :=
  serve kPlain h 8 (clientStatsBody h client)

def execClientStats (h : Hdr) (client : Handle) (s : State) : Result :=
  .next (enter h 0x43 (.clientStats h client) (runClientStats h client) s)

/-! ## Posting (R485 to R487, R586, R587) -/

/-- The layout of the bobbin that a slot binds: its record's bobbin, or the one a join makes. -/
def slotLayout (s : State) (m : Model) (r : StitchReq) (i : Nat) : Option BobbinLayout :=
  match r.slots[i]? with
  | none => none
  | some x =>
    if x.bobbin ≠ 0 then (findBobbin s x.bobbin).map (·.layout)
    else (r.joins.find? fun j => decide (j.slot = i)).bind fun j => m.layouts[j.layout]?

/-- Fields of Table 16-3, Table 16-4 and Table 19-6 out of their ranges, and what R486 step 1 sets beside them. -/
def postFieldsOk (s : State) (p : Partition) (m : Model) (r : StitchReq) : Bool :=
  decide (r.cls ≤ 1) && decide (r.entry ≤ 15) && decide (r.flags ≤ 1) && decide (r.vector ≤ 255) &&
    decide (r.slots.length ≤ 128) && decide (r.leaves.length ≤ 16) && decide (r.joins.length ≤ 16) &&
    (r.slots.all fun x =>
      !x.reservedFlags &&
        (decide (x.stream = 0) || decide (x.output < ((findStream s x.stream).map fun y => y.outputs.length).getD 0))) &&
    ((List.range r.slots.length).all fun i =>
      decide (((r.slots[i]?).map (·.append)).getD 0 ≤ ((slotLayout s m r i).map (·.stage)).getD 0)) &&
    decide (m.quads = p.quadList.length) && decide (m.nStacks = (partitionStacks p).length) &&
    (m.entries.any fun e => decide (e.1 = r.entry)) && decide (m.slotsNeeded ≤ r.slots.length)

/-- The checks on joins and leaves of R307, R317 and R587 that reserve nothing. -/
def bobbinChecks (s : State) (r : StitchReq) : Option Nat :=
  let bs := (r.slots.map (·.bobbin)).filter (· ≠ 0)
  firstOf
    [failIf (!distinct bs) stBadValue,
      failIf ((r.joins.any fun j => decide (r.slots.length ≤ j.slot) ||
        decide (((r.slots[j.slot]?).map (·.bobbin)).getD 0 ≠ 0)) || !distinct (r.joins.map (·.slot))) stBadValue,
      failIf (bs.any fun b => s.obj.stitches.any fun t =>
        decide (t.req.partition ≠ r.partition) && (stitchBobbins t).contains b) stBusyResource,
      failIf (r.leaves.any fun b => bs.contains b || bobbinNamed s b) stBusyResource]

/-- The bobbins of the joins, each with its handle issued, posted and not yet created (R317); or the status of the first
that fails its checks. -/
def postJoins (sess : Handle) (model : Handle) : List JoinRec → State → Except Nat (List Handle × State)
  | [], s => .ok ([], s)
  | j :: l, s =>
    let hd := newHandle s tBobbin
    match checkCreate s sess j.layout model j.arena j.maxPos j.pfx hd with
    | .error st => .error st
    | .ok b =>
      let s := issued hd (s.modObj fun o => { o with bobbins := o.bobbins ++ [{ b with posted := true }] })
      match postJoins sess model l s with
      | .error st => .error st
      | .ok (hs, s) => .ok (hd :: hs, s)

/-- Handles that a request names (R12, R550, R576). -/
def postHandles (s : State) (sess : Handle) (r : StitchReq) : Option Nat :=
  firstOf (
    [checkFree s r.partition tPartition ((findPart s r.partition).map (·.session)) sess,
      checkFree s r.model tModel ((findModel s r.model).map (·.session)) sess,
      checkHandle r.client tClient ((findClient s r.client).map (·.session)) sess] ++
    (r.slots.map fun x =>
      if x.stream = 0 then none else checkFree s x.stream tStream ((findStream s x.stream).map (·.session)) sess) ++
    (r.slots.map fun x =>
      if x.bobbin = 0 then none
      else checkHandle x.bobbin tBobbin (((findBobbin s x.bobbin).filter (!·.isPrefix)).map (·.session)) sess) ++
    (r.leaves.map fun b => checkHandle b tBobbin (((findBobbin s b).filter (!·.isPrefix)).map (·.session)) sess) ++
    (r.joins.map fun j =>
      [checkHandle j.arena tPool ((findPool s j.arena).map (·.session)) sess,
        if j.pfx = 0 then none
        else checkHandle j.pfx tPrefix (((findBobbin s j.pfx).filter (·.hostRef)).map (·.session)) sess]).flatten)

/-- Regions too small for the model's pillow places, or absent (R486 step 5). -/
def regionsTooSmall (s : State) (p : Partition) (m : Model) : Bool :=
  let has (w : Bool) : Bool := m.places.any fun pl => decide (pl.space = 1) && pl.writable == w
  (partitionStacks p).any fun k =>
    let a := regionGranules s 1 k p.modelG0
    let b := regionGranules s 2 k p.workG0
    decide (a * granuleBytes < m.pillowRo) || decide (b * granuleBytes < m.pillowRw) ||
      (has false && decide (a = 0)) || (has true && decide (b = 0))

/-- Writable DDR and hub SRAM places of a model for a partition (R486 step 7). -/
def takePlaces (s : State) (m : Model) : Option PartPlaces :=
  let ddr := if m.ddrRw = 0 then some 0 else placeExtent s 2 64 m.ddrRw
  let hub := if m.hubRw = 0 then some 0 else placeExtent s 3 64 m.hubRw
  match ddr, hub with
  | some d, some u => some ⟨m.handle, d, m.ddrRw, u, m.hubRw⟩
  | _, _ => none

/-- A partition keeps the places of a model. -/
def withPlaces (s : State) (p : Partition) (m : Model) : Option Partition :=
  if p.places.any fun x => decide (x.model = m.handle) then some p
  else (takePlaces s m).map fun x => { p with places := p.places ++ [x] }

/-- The checks of R486 steps 2, 3, 5 and 6. -/
def postLimits (s : State) (p : Partition) (m : Model) (c : Client) (r : StitchReq) : Option Nat × Option Nat :=
  let capMs := if r.cls = 0 then p.lcCapMs else p.beBoundMs
  let queued := (s.obj.stitches.filter fun t =>
    decide (t.req.partition = r.partition) && decide (t.req.cls = r.cls) && decide (t.phase = .queued)).length
  (firstOf
    [failIf (!c.classes.testBit r.cls || (decide (r.cls = 0) && !m.lcEligible)) stDenied,
      failIf (decide (capMs * 1500000 < m.stitchCycles)) stLimitExceeded],
    firstOf [failIf (regionsTooSmall s p m) stLimitExceeded, failIf (decide (64 ≤ queued)) stLimitExceeded])

/-- `STITCH_POST`, its checks in the order of R486. -/
def stitchPostBody (h : Hdr) (r : StitchReq) (s : State) : Reply :=
  match postHandles s h.session r, findPart s r.partition, findModel s r.model, findClient s r.client with
  | some st, _, _, _ => .no st
  | none, some p, some m, some c =>
    let (first, second) := postLimits s p m c r
    match firstOf [failIf p.suspended stWrongState, failIf (!postFieldsOk s p m r) stBadValue, first, bobbinChecks s r] with
    | some st => .no st
    | none =>
      match postJoins h.session r.model r.joins s with
      | .error st => .no st
      | .ok (hs, s') =>
        match second, withPlaces s p m with
        | some st, _ => .no st
        | none, none => .no stNoSpace
        | none, some p =>
          let id := s.ctr.stitchId
          let t : Stitch := { id := id, session := h.session, req := r, joinHandles := hs, postTick := s.time.tick }
          let s' := s'.modObj fun o =>
            { o with
              partitions := upsert (·.handle) { p with posted := p.posted + 1 } o.partitions
              stitches := o.stitches ++ [t] }
          .ok (s'.modCtr fun c => { c with stitchId := id + 1, posted := c.posted + 1 })
            (leBytes 8 id ++ (hs.map fun x => leBytes 4 x.toNat).flatten)
  | none, _, _, _ => .no stNotFound

/-- The taking of the command. -/
def runStitchPost (h : Hdr) (r : StitchReq) : State → State :=
  serve kPlain h r.size (stitchPostBody h r)

def execStitchPost (h : Hdr) (r : StitchReq) (s : State) : Result :=
  .next (enter h 0x40 (.stitchPost h r) (runStitchPost h r) s)

/-! ## Cancelling (R489) -/

/-- A queued stitch is cancelled: the handles of its joins are retired and its record is written. -/
def cancelStitch (t : Stitch) (s : State) : State :=
  let s := ((List.range t.joinHandles.length).zip t.joinHandles).foldl (fun s j => retireJoin j.1 j.2 s) s
  writeRecord t 1 0 ⟨0, [0, 0, 0, 0, 0, 0], 0, 0, 0⟩ s

/-- `STITCH_CANCEL`. -/
def stitchCancelBody (h : Hdr) (id : Nat) (s : State) : Reply :=
  match s.obj.stitches.find? fun t => decide (t.wire = id) && decide (t.session = h.session) with
  | none => .no stNotFound
  | some t => if t.phase ≠ .queued then .no stWrongState else .ok (cancelStitch t s) []

/-- The taking of the command. -/
def runStitchCancel (h : Hdr) (id : Nat) : State → State :=
  serve kPlain h 16 (stitchCancelBody h id)

def execStitchCancel (h : Hdr) (id : Nat) (s : State) : Result :=
  .next (enter h 0x41 (.stitchCancel h id) (runStitchCancel h id) s)

/-! ## Starting (R491, R498 to R501, R196) -/

/-- A dispatch decision for a partition. -/
def dueDispatchDecision (partition : Handle) (s : State) : Result := .next (decide_ partition s)

/-- The deadline is reached (R653). -/
def execDispatchDecision (partition : Handle) (s : State) : Result :=
  atDeadline (.dispatchDecision partition) (dueDispatchDecision partition) s

/-- The model of a starting stitch counts as started now (R501). -/
def touchModel (p : Partition) (m : Model) (s : State) : State :=
  nextOrder (modPart p.handle (fun q =>
    { q with
      residents := listUpd (fun r => decide (r.model = m.handle)) (fun r => { r with lastStart := some s.ctr.order })
        q.residents }) s)

/-- The model is resident, or its copy begins, or the stitch does no work (R498 step 4, R501). -/
def startResidency (p : Partition) (id : Nat) (m : Model) (s : State) : State :=
  if p.residents.any fun r => decide (r.model = m.handle) then
    (match findPart (touchModel p m s) p.handle with
    | none => s
    | some p => startSteps p id m (touchModel p m s))
  else
    match makeResident p m false s with
    | none => notRun p id stNoSpace s
    | some q =>
      let s := touchModel q m (nextOrder (modPart p.handle (fun _ => q) s))
      if m.granules = 0 then
        (match findPart s p.handle with
        | none => s
        | some p => startSteps p id m s)
      else modStitch id (fun t => { t with phase := .copying, copyTick := s.time.tick }) s

/-- A partition that shares quads with another waits while a stitch runs there: after a failover in SHARED mode (R748). -/
def quadsTaken (s : State) (p : Partition) : Bool :=
  s.obj.partitions.any fun q => decide (q.handle ≠ p.handle ∧ q.quads &&& p.quads ≠ 0) && q.running.isSome

/-- Every slot that requires an item has one to bind, in slot order (R498 step 2). An item that a dispatch decision counted on can
be gone since, dropped or bound by another partition's stitch: the stitch then waits for another. -/
def slotsFilled (s : State) (t : Stitch) : Bool :=
  let want (r : SlotRec) : Nat := (t.req.slots.filter fun q => q.stream = r.stream && q.output = r.output).length
  t.req.slots.all fun r =>
    r.stream = 0 || !r.require || decide (want r ≤ (readyItems s r.stream r.output).length)

/-- Once its joins' bobbins are ready the selected stitch binds its slots, pins its prefixes and makes its model resident
(R318, R319, R498 steps 2 to 4). A stitch replayed after a failover keeps its bindings (R745). -/
def execStitchSlotBind (partition : Handle) (s : State) : Result :=
  match findPart s partition with
  | none => .next s
  | some p =>
    match p.running.bind (findStitch s) with
    | none => .next s
    | some t =>
      let ready := t.joinHandles.all fun h => match findBobbin s h with
        | none => true
        | some b => !b.preparing
      match findModel s t.req.model with
      | none => .next s
      | some m =>
        if t.phase ≠ .joining ∨ ready = false ∨ quadsTaken s p = true then .next s
        else if t.replayed = false ∧ slotsFilled s t = false then .next s
        else if t.replayed then .next (startResidency p t.id m s)
        else
          let (items, s) := bindSlots t.id t.req.slots s
          let pins := pinsFor t s
          let s := modStitch t.id (fun t =>
            { t with
              items := items.map fun x => x.map (·.id)
              frames := items.map fun x => (x.map (·.frame)).getD (2 ^ 64 - 1)
              pinned := pins }) s
          match bobbinStop p t s with
          | some st => .next (notRun p t.id st s)
          | none => .next (mirrorFlush (startResidency p t.id m s))

/-- The copy of the model's read-only pillow places ends (R501). -/
def execModelResidencyCopyDone (partition : Handle) (s : State) : Result :=
  match findPart s partition with
  | none => .next s
  | some p =>
    match p.running.bind (findStitch s) with
    | none => .next s
    | some t =>
      match findModel s t.req.model with
      | none => .next s
      | some m =>
        if t.phase ≠ .copying then .next s
        else
          let ns := (s.time.tick - t.copyTick) * 40
          .next (startSteps p t.id m (modStitch t.id (fun t => { t with residencyNs := ns }) (fillPlaces p m s)))

/-- The implicit knot releases: cycle 0 of every core of the partition (R196, R498, R499). -/
def execStitchCycleZero (partition : Handle) (s : State) : Result :=
  match findPart s partition with
  | none => .next s
  | some p =>
    match p.running.bind (findStitch s) with
    | none => .next s
    | some t =>
      if t.phase ≠ .starting then .next s
      else
        let s := modStitch t.id (fun t =>
          { t with
            phase := .running
            zeroTick := s.time.tick
            cycle0 := s.now
            waitUs := (s.time.tick - t.postTick) * 40 / 1000
            stepMax := max t.stepMax s.power.step }) s
        let s := p.cores.foldl (fun s n => s.modCore n fun c => { c with run := 1, counting := true }) s
        .next (s.modPower fun q => { q with pll := true })

end Machine
end Sys2Proof
end

