-- ==== Sys2Proof/Machine/Ledgers.lean ====
section
/-! DEFINITION. Every ledger of the card, `AUDIT` and its check once a second, and the summary of `RESYNC` (R565, R566,
R595, R728, Tables 18-8 and 19-9). -/

namespace Sys2Proof

/-- An entry of 48 bytes for a ledger (R595). -/
def ledgerEntry (code unit : Nat) (terms : List Nat) : List Byte :=
  leBytes 2 code ++ zeroBytes 2 ++ leBytes 4 unit ++ ((List.range 4).map fun i => leBytes 8 (terms.getD i 0)).flatten ++
    zeroBytes 8

/-- Pending arrivals of a source (R682). -/
def EvgSource.pending (x : EvgSource) : Nat := if x.level then x.pendLevel.toNat else x.count

namespace Machine

/-- The ledger of an event source: TOTAL = SERVED + pending + EXCESS modulo 2^32 (R682). -/
def eventLedger (s : State) (n : Nat) : Ledger :=
  let x := s.src n
  ⟨11, n, [x.total, x.served, x.pending, x.excess], decide (x.total % 2 ^ 32 = (x.served + x.pending + x.excess) % 2 ^ 32)⟩

/-- The credit ledger of a die link, over its two ports: issued = returned + in flight (R27). -/
def linkLedger (s : State) (l : Nat) : Ledger :=
  let a := SMap.get {} s.ctr.links (2 * l)
  let b := SMap.get {} s.ctr.links (2 * l + 1)
  Ledger.ofSum 12 l (a.issued + b.issued) [a.returned + b.returned, a.inFlight + b.inFlight]

/-- Every ledger, by code (Table 19-9); the frame ledgers of shadow pictures are counted on the standby (R739). -/
def ledgers (s : State) : List Ledger :=
  [Ledger.ofSum 1 0 s.pcie.issued [s.pcie.completed, s.pcie.reads.length]] ++
  (s.obj.pools.map (poolLedgers s)).flatten ++
  ((List.range 4).map fun k => Ledger.ofTotal 4 k (384 - freeGranules s k) (freeGranules s k) 384) ++
  s.obj.partitions.map (partLedger s) ++
  [Ledger.ofSum 5 0xFFFFFFFF s.ctr.posted [s.ctr.completed, s.ctr.cancelled, s.obj.stitches.length]] ++
  s.obj.pageSets.map (pageLedger s) ++
  s.obj.dests.map destLedger ++
  [Ledger.ofSum 7 0xFFFFFFFF s.ctr.produced
    [s.ctr.delivered, cardBuffered s, s.ctr.dropped.foldl (· + ·) 0]] ++
  ((s.obj.streams ++ if shadowing s then s.pair.replica.streams else []).map streamLedgers).flatten ++
  [Ledger.ofSum 10 0 s.time.taken [s.time.read + s.time.txq.length, s.time.dropped]] ++
  (List.range 512).map (eventLedger s) ++
  (List.range 8).map (linkLedger s) ++
  (List.range 8).map fun p =>
    let c := SMap.get (0, 0, 0) s.ctr.hostPath p
    Ledger.ofSum 13 p c.1 [c.2.1, c.2.2]

/-- Ledgers out of balance. -/
def imbalanced (s : State) : List Ledger := (ledgers s).filter fun l => !l.balanced

/-- Every ledger is checked; an imbalance is an escalated fault (R728). -/
def auditAll (s : State) : State := checkLedgers (imbalanced s) s

/-- `AUDIT` (R595); a second one while one is in flight is refused (R576). -/
def auditBody (h : Hdr) (s : State) : Reply :=
  let bad := imbalanced s
  if s.host.long.any fun l => match l with
      | .audit _ => true
      | _ => false
  then .no stBusyResource
  else .ok (startLong (.audit h) (auditAll s))
    (leBytes 4 (ledgers s).length ++ leBytes 4 bad.length ++
      ((bad.take 80).map fun l => ledgerEntry l.code l.unit l.terms).flatten)

/-- The taking of the command. -/
def runAudit (h : Hdr) : State → State := serve kResync h 8 (auditBody h)

def execAudit (h : Hdr) (s : State) : Result := .next (enter h 0x07 (.audit h) (runAudit h) s)

/-- Control core 0 checks every ledger once each second (R728). -/
def execAuditPeriodic (s : State) : Result := .next (if (s.cc 0).run = 1 then auditAll s else s)

/-! ## `PAIR_STATUS` -/

/-- Age in us of the oldest checkpoint that the partner has not acknowledged (Table 19-8 LAG_US). -/
def lagUs (s : State) : Nat :=
  match s.pair.checkpoints with
  | [] => 0
  | c :: _ => (s.time.tick - c.2) * 40 / 1000

/-- The response of `PAIR_STATUS`. -/
def pairStatus (s : State) : List Byte :=
  leBytes 1 (pairCode s) ++ leBytes 1 s.pair.mode ++ leBytes 1 (s.pair.lanes + 16 * s.pair.authenticated.toNat) ++
  zeroBytes 1 ++ leBytes 4 s.pair.failovers ++ leBytes 8 s.pair.partnerSerial ++ leBytes 8 (lagUs s) ++ zeroBytes 8

/-- The taking of the command. -/
def runPairStatus (h : Hdr) : State → State := serve kStandby h 8 fun s => .ok s (pairStatus s)

def execPairStatus (h : Hdr) (s : State) : Result := .next (enter h 0x92 (.pairStatus h) (runPairStatus h) s)

/-! ## `RESYNC` (R565, R566) -/

/-- Handles with their sessions. -/
def ownedHandles (o : Objects) : List (Handle × Handle) :=
  o.sessions.map (fun x => (x.handle, 0)) ++ o.streams.map (fun x => (x.handle, x.session)) ++
  o.models.map (fun x => (x.handle, x.session)) ++ o.bobbins.map (fun x => (x.handle, x.session)) ++
  o.pools.map (fun x => (x.handle, x.session)) ++ o.clients.map (fun x => (x.handle, x.session)) ++
  o.pageSets.map (fun x => (x.handle, x.session)) ++ o.units.map (fun x => (x.handle, x.session)) ++
  o.flows.map (fun x => (x.handle, x.session)) ++ o.partitions.map fun x => (x.handle, x.session)

/-- Completion records that are held: those waiting for a page and those of a page not delivered. -/
def heldRecords (s : State) : List StitchRec :=
  ((s.obj.pageSets.map (·.filling)).flatten ++ s.obj.heldRecs.map (·.2)).filterMap fun r => match r with
    | .stitch r => some r
    | .event _ => none

/-- Events that are held. -/
def heldEvents (s : State) : List EventRec :=
  s.host.events.map (·.1) ++ s.obj.heldRecs.filterMap fun r => match r.2 with
    | .stitch _ => none
    | .event e => some e

/-- The sections of the summary, each with its code, its entry size and its entries (Table 18-8). -/
def summarySections (s : State) : List (Nat × Nat × List (List Byte)) :=
  [(1, 16, s.obj.sessions.map fun x =>
      leBytes 4 x.handle.toNat ++ leBytes 1 x.proto ++ leBytes 1 x.events.toNat ++ zeroBytes 2 ++
        leBytes 4 s.host.leaseMs ++ zeroBytes 4),
    (2, 32, (ownedHandles s.obj).map fun x =>
      leBytes 4 x.1.toNat ++ leBytes 4 x.2.toNat ++ leBytes 16 (((findModel s x.1).map (·.modelId)).getD 0) ++ zeroBytes 8),
    (3, 48, s.obj.streams.map fun x =>
      leBytes 4 x.handle.toNat ++ leBytes 1 x.decl.source ++ leBytes 1 (Stream.stateCode x) ++ zeroBytes 2 ++
        leBytes 8 (x.lastDecoded.getD (2 ^ 64 - 1)) ++ leBytes 8 (x.lastForwarded.getD (2 ^ 64 - 1)) ++
        leBytes 4 (x.pics.filter fun p => decide (p.place = 3)).length ++ leBytes 4 x.outputs.length ++ zeroBytes 16),
    (4, 32,
      (s.obj.stitches.map fun t =>
        leBytes 8 t.wire ++ leBytes 1 (decide (t.phase ≠ .queued)).toNat ++ leBytes 1 t.req.cls ++ zeroBytes 2 ++
          leBytes 4 t.req.partition.toNat ++ leBytes 4 t.req.client.toNat ++ leBytes 4 t.req.tag ++ zeroBytes 8) ++
      (heldRecords s).map fun r =>
        leBytes 8 r.id ++ leBytes 1 2 ++ leBytes 1 r.cls ++ zeroBytes 2 ++ leBytes 4 r.partition.toNat ++
          leBytes 4 r.client.toNat ++ leBytes 4 r.tag ++ zeroBytes 8),
    (5, 48, (ledgers s).map fun l => ledgerEntry l.code l.unit l.terms),
    (6, 32, [pairStatus s]),
    (7, 64, (heldEvents s).map EventRec.bytes),
    (8, 16, [leBytes 4 0 ++ zeroBytes 4 ++ leBytes 8 s.ctr.corrected, leBytes 4 1 ++ zeroBytes 4 ++ leBytes 8 s.ctr.contained]),
    (9, 32, s.obj.dests.map fun d =>
      leBytes 4 d.id ++ zeroBytes 4 ++ leBytes 8 d.nextSeq ++ leBytes 8 d.ackHwm ++ leBytes 8 d.buffered),
    (10, 32, s.obj.pageSets.map fun p =>
      leBytes 4 p.handle.toNat ++ leBytes 1 p.kind ++ leBytes 1 p.vector ++ zeroBytes 2 ++ leBytes 4 p.postedCount ++
        leBytes 4 p.filledCount ++ leBytes 4 (pagesHeld s p) ++ zeroBytes 4 ++ leBytes 8 p.pageSeq)]

/-- Directory entries of sections whose entries begin at an offset. -/
def summaryDirectory : Nat → List (Nat × Nat × List (List Byte)) → List Byte
  | _, [] => []
  | off, (code, size, es) :: l =>
    leBytes 2 code ++ zeroBytes 2 ++ leBytes 4 es.length ++ leBytes 4 off ++ leBytes 4 size ++
      summaryDirectory (off + size * es.length) l

/-- The summary (R566). -/
def summary (snapshot : Nat) (s : State) : List Byte :=
  let secs := summarySections s
  leBytes 4 0x53584A54 ++ leBytes 1 1 ++ zeroBytes 3 ++ leBytes 8 snapshot ++ leBytes 4 s.host.fwVersion ++
  leBytes 1 s.host.protoMin ++ leBytes 1 s.host.protoMax ++ leBytes 1 (s.host.state.code + 16 * pairCode s) ++ zeroBytes 1 ++
  leBytes 8 s.now.sec ++ leBytes 4 s.now.ns ++ leBytes 4 secs.length ++ zeroBytes 24 ++
  summaryDirectory (64 + 16 * secs.length) secs ++ (secs.map fun x => x.2.2.flatten).flatten

/-- `RESYNC` (R565); a second one while one is in flight is refused (R576). SNAPSHOT of a summary that does not fit is open. -/
def resyncBody (h : Hdr) (buffer size : Nat) (s : State) : Reply :=
  if ¬ (1 ≤ size ∧ size ≤ 2 ^ 26 ∧ size % 4096 = 0) then .no stBadValue
  else if s.host.long.any fun l => match l with
      | .resync _ => true
      | _ => false
  then .no stBusyResource
  else
    let n := s.host.snapshot + 1
    let bytes := summary n s
    if size < bytes.length then
      .counted (s.useFreshN 8) stNoSpace 0 (freeBytes 8 s ++ leBytes 4 0 ++ leBytes 4 bytes.length)
    else
      let resp := leBytes 8 n ++ leBytes 4 bytes.length ++ leBytes 4 bytes.length
      let m : OutMsg := .hostWrite buffer bytes true
      let s := startLong (.resync h) (s.modHost fun x => { x with snapshot := n })
      if s.pcie.bme then .ok (s.pushLink m) resp
      else .wait (s.modPcie fun p => { p with waiting := p.waiting ++ [.resync h m resp] })

/-- `RESYNC` names session 0 or an open session (R565). -/
def resyncKind (h : Hdr) (s : State) : CmdKind :=
  if h.session = 0 ∨ (findSession s h.session).isSome then kResync else { kResync with sessionless := false }

/-- The taking of the command. -/
def runResync (h : Hdr) (buffer size : Nat) (s : State) : State := serve (resyncKind h s) h 24 (resyncBody h buffer size) s

def execResync (h : Hdr) (buffer size : Nat) (s : State) : Result :=
  .next (enter h 0x04 (.resync h buffer size) (runResync h buffer size) s)

end Machine
end Sys2Proof
end

