-- ==== Sys2Proof/Machine/MemEvents.lean ====
section
/-! DEFINITION. What happens in device memory apart from accesses by the fabric: tag rewrites, the DDR5 controllers, patrol
scrubbing, the die links, and the host's BAR2 (chapter 11, R330, R375, R535, R604, R605, R615, R616, R722). -/

namespace Sys2Proof

namespace Machine

/-! ## Tag rewrites (R375, R577) -/

/-- A stream's buffer has its new tags: one less to prepare. -/
def streamPrepared (pool : Handle) (addr gen : Nat) (s : State) : State :=
  let mine (b : BufRef) : Bool := decide (b.pool = pool) && decide (b.addr = addr) && decide (b.gen = gen)
  let has (x : Stream) : Bool :=
    x.refSlots.any mine || (x.outBufs.any fun b => mine b.1) || (x.enc.any fun e => e.bufs.any mine)
  s.modObj fun o => { o with streams := listUpd has (fun x => { x with preparing := x.preparing - 1 }) o.streams }

/-- The run of a bobbin that starts at a granule has its new tags, once no rewrite of it is left. -/
def runPrepared (e : TagExtent) (s : State) : State :=
  if tagPending e.owner e.buffer s then s
  else
    let mine (b : Bobbin) : Bool := decide (b.arena = e.owner) && decide (b.g0 = e.buffer)
    s.modObj fun o => { o with bobbins := listUpd mine (fun b => { b with rewriting := false }) o.bobbins }

/-- What waited in an item for its buffer's tags is written (R375). -/
def itemsPrepared (e : TagExtent) (s : State) : State :=
  (s.obj.items.filter fun i =>
    decide (i.buf.pool = e.owner) && decide (i.buf.addr = 64 * e.first) && decide (i.buf.gen = e.gen)).foldl
      (fun s i => flushItem i s) s

/-- The allocation whose tag rewrite has ended completes: a `POOL_ALLOC` is answered, although its buffer or its pool has ended
since (R375, R577). -/
def allocPrepared (e : TagExtent) (s : State) : State :=
  let s := itemsPrepared e (streamPrepared e.owner (64 * e.first) e.gen (runPrepared e s))
  match e.waiter with
  | none => s
  | some h => answerLater h stOk 0 (allocResponse e.owner e.pool e.gen (64 * e.first)) s

/-- The tag rewrite of an allocated DDR buffer, or of a run by its first granule, ends. Of several that follow one another on
one buffer the oldest ends: its allocation completes (R375). -/
def execTagRewriteComplete (pool : Handle) (buffer : Nat) (s : State) : Result :=
  match (endOldest pool buffer s.mem.tags).2 with
  | none => .next s
  | some e => .next (allocPrepared e (tagDone pool buffer s))

/-! ## DDR5 channels (R348 to R356) -/

/-- Level at which a channel leaves panic (R349). -/
def panicLeave (c : DdrChannel) : Nat := min 100 (c.panicPct + 12)

/-- A refresh falls due: postponed in panic or behind a row hit, up to 8; the ninth is mandatory (R350). While ALERT_n is
asserted, one that is not postponed waits for it to clear (R353). -/
def execDdrRefreshDue (channel : Nat) (rowHitOldest : Bool) (s : State) : Result :=
  let c := s.ddr channel
  if 4 ≤ channel ∨ c.works = false then .next s
  else if c.panic || rowHitOldest then
    .next (s.modDdr channel fun c =>
      if c.refOutstanding < 8 then
        { c with refOutstanding := c.refOutstanding + 1, refPeak := max c.refPeak (c.refOutstanding + 1) }
      else c.order .mandatory)
  else .next (s.modDdr channel (DdrChannel.order .refresh))

/-- A bank's activation count requires refresh management (R352). -/
def execRefreshManagementDue (channel bank : Nat) (s : State) : Result :=
  if 4 ≤ channel ∨ 64 ≤ bank ∨ (s.ddr channel).works = false then .next s
  else .next (s.modDdr channel (DdrChannel.order (.manage bank)))

/-- The level of the RT read buffer falls below PANIC_PCT (R349). -/
def execDdrPanicEnter (channel level : Nat) (s : State) : Result :=
  let c := s.ddr channel
  if 4 ≤ channel ∨ c.works = false ∨ c.panicPct ≤ level then .next s
  else .next (s.modDdr channel fun c => { c with panic := true })

/-- The level reaches PANIC_PCT plus 12, or 100: the channel leaves panic, and postponed refreshes go when no row hit is the
oldest request (R349, R351). -/
def execDdrPanicExit (channel level : Nat) (rowHitOldest : Bool) (s : State) : Result :=
  let c := s.ddr channel
  if 4 ≤ channel ∨ c.panic = false ∨ level < panicLeave c then .next s
  else
    .next (s.modDdr channel fun c =>
      if rowHitOldest then { c with panic := false } else DdrChannel.order .postponed { c with panic := false })

/-- ALERT_n stops issue. When the window of the latest replay has not completed, that replay counts as consecutive: the alert
after the fourth such replay puts the channel into FAULT, which is escalated (R353, R354, Table 24-1). -/
def execDdrAlert (channel : Nat) (writeCrc within : Bool) (s : State) : Result :=
  let c := s.ddr channel
  if 4 ≤ channel ∨ c.works = false ∨ c.alert then .next s
  else
    let n := if within then c.consecutive + 1 else 0
    let s := s.modDdr channel fun c => { c with alert := true, alertCrc := writeCrc, consecutive := n }
    if n < 4 then .next s
    else
      .next (escalate fkDdrChannel channel (s.modDdr channel fun d =>
        { d with state := 3, panic := false, alert := false, waiting := [], faultCause := if writeCrc then 3 else 2, sticky := true }))

/-- The alert clears and every command in the retry buffer is replayed, from the oldest unacknowledged one: a corrected fault,
invisible in results (R353, Table 24-1). -/
def execDdrAlertClear (channel : Nat) (s : State) : Result :=
  let c := s.ddr channel
  if c.alert = false then .next s
  else
    .next (corrected (s.modDdr channel fun c =>
      { c.resume with
        crcReplays := c.crcReplays + c.alertCrc.toNat
        parityReplays := c.parityReplays + (!c.alertCrc).toNat }))

/-- DQS oscillator tracking of a trained channel (R356). -/
def execDqsOscillatorTracking (channel : Nat) (s : State) : Result :=
  if 4 ≤ channel ∨ (s.ddr channel).works = false then .next s
  else .next (s.modDdr channel (DdrChannel.order .dqs))

/-- ZQ calibration of a trained channel (R356). -/
def execZqCalibration (channel : Nat) (s : State) : Result :=
  if 4 ≤ channel ∨ (s.ddr channel).works = false then .next s
  else .next (s.modDdr channel (DdrChannel.order .zq))

/-! ## Patrol scrubbing (R357, R359, R360) -/

/-- A patrol read of a DDR channel: the next line in ascending order, whatever it finds (R359). -/
def scrubDdr (c : Nat) (finding : EccFinding) (s : State) : State :=
  let a := channelGlobal c (s.ddr c).scrubAddr
  accessLine false a (upset [(a / 64, finding)] (s.modDdr c fun d => { d with scrubAddr := (d.scrubAddr + 64) % channelBytes }))

/-- A patrol read of a stack's pillow. -/
def scrubPillow (k : Nat) (finding : EccFinding) (s : State) : State :=
  let a := pillowAt k (s.pil k).scrubAddr
  accessLine false a (upset [(a / 64, finding)] (s.modPil k fun d => { d with scrubAddr := (d.scrubAddr + 64) % pillowBytes }))

/-- Patrol scrubbing reads the next line. -/
def execPatrolScrubRead (pillow : Bool) (unit : Nat) (finding : EccFinding) (s : State) : Result :=
  if 4 ≤ unit then .next s
  else if pillow then .next (scrubPillow unit finding s)
  else if (s.ddr unit).works = false then .next s
  else .next (scrubDdr unit finding s)

/-! ## Die links (Table 24-1) -/

/-- A flit fails its CRC and is resent. When the fourth consecutive resend of one flit fails, the link is down. -/
def execDieLinkCrcError (link : Nat) (resent : Bool) (s : State) : Result :=
  if 8 ≤ link ∨ s.ctr.linksDown.contains link then .next s
  else
    let n := if resent then SMap.get 0 s.ctr.linkRetries link + 1 else 0
    let s := s.modCtr fun c => { c with linkRetries := SMap.set 0 c.linkRetries link n }
    if n < 4 then .next (corrected s)
    else .next (escalate fkDieLinkDown link (s.modCtr fun c => { c with linksDown := c.linksDown ++ [link] }))

/-! ## BAR2 (R325, R328, R329, R535, R536, R615, R616) -/

/-- Bytes of BAR2. -/
def bar2Bytes (s : State) : Nat := if s.pcie.barSize = 14 then 2 ^ 34 else 2 ^ 39

/-- Device address of a BAR2 offset. -/
def bar2Address (s : State) (offset : Nat) : Nat := if s.pcie.barSize = 14 then s.host.b2Base + offset else offset

/-- A host read through BAR2, less what lies outside it: card-private and reserved addresses read zero. A read of a line that
reports poison, or of a channel in FAULT, answers a poisoned completion (R354, R358; the spec names no other reader of the
host's kind: DEDUCED, log entry 138). -/
def bar2Read (offset size : Nat) (ecc : List (Nat × EccFinding)) (s : State) : State :=
  if bar2Bytes s < offset + size then unsupported false s
  else
    let ps := (pieces (bar2Address s offset) size).filter fun p => (areaOf p.1).shared
    let s := accessPieces false ps (carry 4 false ps (upset ecc s))
    let data := (List.range size).map fun i =>
      let a := bar2Address s (offset + i)
      if (areaOf a).shared then memByte s a else 0
    s.push (if ps.any fun p => poisoned s p.1 then .readPoisoned data else .readData data)

/-- A host read through BAR2. -/
def execBar2Read (offset size : Nat) (ecc : List (Nat × EccFinding)) (s : State) : Result :=
  .next (hostAccess false (bar2Read offset size ecc) s)

/-- The scratch of a core whose partition has a stitch queued or running (R329). -/
def scratchBusy (s : State) (a : Nat) : Bool :=
  decide (areaOf a = .scratch) &&
    s.obj.partitions.any fun p =>
      p.cores.contains ((a - scratchBase) / scratchBytes) && s.obj.stitches.any fun t => decide (t.req.partition = p.handle)

/-- Bytes written through BAR2, piece by piece, but for lines that lost their tag words; a poisoned write poisons its lines
(R344, R615). -/
def bar2Pieces (lostTags : List Nat) (poisoned : Bool) : List (Nat × Nat) → List Byte → State → State
  | [], _, s => s
  | (a, k) :: ps, bs, s =>
    let s' := if (areaOf a).shared && !lostTags.contains (a / 64) then pieceWrite a (bs.take k) s else s
    let s' := if poisoned && (areaOf a).shared then
        overflowCheck a (if areaOf a = .pillow then (a - pillowBase) / pillowBytes else 0) (poisonLine a s') else s'
    bar2Pieces lostTags poisoned ps (bs.drop k) s'

/-- A host write through BAR2: card-private and reserved addresses discard it. A poisoned one is logged as Poisoned TLP
Received. A posted write has no answer that could carry its uncorrectable error to the host: it is escalated as DATA_POISON
(R342, Table 24-1; DESIGN CHOICE, log entry 138). -/
def bar2Write (offset : Nat) (data : List Byte) (poison : Option (List Byte)) (ecc : List (Nat × EccFinding)) (s : State) :
    Result :=
  if bar2Bytes s < offset + data.length then .next (unsupported true s)
  else
    let ps := pieces (bar2Address s offset) data.length
    if ps.any fun p => scratchBusy s p.1 then .fault (.undefinedEffect 329)
    else
      let s := match poison with
        | some header => poisonedTlp header s
        | none => s
      let open_ := ps.filter fun p => (areaOf p.1).shared
      let s := carry 4 true open_ (upset ecc s)
      let lostTags := badTags s open_
      let s := accessPieces true open_ s
      .next (uncorrectable (dropsPiece lostTags s open_) (bar2Pieces lostTags poison.isSome ps data s))

/-- A host write through BAR2. -/
def execBar2Write (offset : Nat) (data : List Byte) (poison : Option (List Byte)) (ecc : List (Nat × EccFinding)) (s : State) :
    Result :=
  barAccess true (bar2Write offset data poison ecc) s

/-- A request outside the BARs, of a type the card does not complete, or to another function (R616). -/
def execUnsupportedRequest (_kind : UrKind) (posted : Bool) (header : List Byte) (s : State) : Result :=
  linkAccess (fun s => .next (unsupportedTlp posted header s)) s

/-- A write of B2.BASE, whole or of one half (R606): at 16 GiB a multiple of 16 GiB from 0 to 0x7C_0000_0000 is taken; any other
write is ignored (R536). -/
def b2Write (offset size value : Nat) (s : State) : Result :=
  let old := s.host.b2Base
  let new :=
    if size = 8 ∧ offset = 0 then some value
    else if size = 4 ∧ offset = 0 then some (old / 2 ^ 32 * 2 ^ 32 + value % 2 ^ 32)
    else if size = 4 ∧ offset = 4 then some (old % 2 ^ 32 + value % 2 ^ 32 * 2 ^ 32)
    else none
  match new with
  | none => .next s
  | some v =>
    if s.pcie.barSize = 14 ∧ v % 2 ^ 34 = 0 ∧ v ≤ 0x7C00000000 then .next (s.modHost fun h => { h with b2Base := v })
    else .next s

/-- The request of the host. -/
def execB2BaseWrite (offset size value : Nat) (s : State) : Result := barAccess true (b2Write offset size value) s

/-- A write of the BAR Size field of BAR2: 14 or 19, any other value is ignored; a change zeroes B2.BASE, and while Memory
Space Enable is set it has no defined effect (R604, R605). -/
def barSizeWrite (value : Nat) (s : State) : Result :=
  if (value ≠ 14 ∧ value ≠ 19) ∨ value = s.pcie.barSize then .next s
  else if s.pcie.mse then .fault (.undefinedEffect 605)
  else .next ((s.modPcie fun p => { p with barSize := value }).modHost fun h => { h with b2Base := 0 })

/-- The configuration write of it. -/
def execResizableBarSizeWrite (value : Nat) (s : State) : Result := cfgAccess (barSizeWrite value) s

/-- A write of MC.RT_CFG: a field out of range makes it ignored (R362); a non-zero reserved bit has no defined effect (R6). -/
def execMcRtCfgWrite (channel value : Nat) (s : State) : Result :=
  let pct := value % 128
  let age := value / 256 % 4096
  if 4 ≤ channel then .next s
  else if value / 128 % 2 = 1 ∨ 2 ^ 20 ≤ value then .fault (.undefinedEffect 6)
  else if 1 ≤ pct ∧ pct ≤ 100 ∧ 10 ≤ age ∧ age ≤ 400 then .next (s.modDdr channel fun c => { c with panicPct := pct, ageCap := age })
  else .next s

end Machine
end Sys2Proof
end

