-- ==== Sys2Proof/Machine/Paths.lean ====
section
/-! DEFINITION. The checks of the loader that follow the paths of the code, one for each subcode of Table 7-12 that has any. The
entries of a `GATHER` list and `VGATHER` indices that the pricking does not fix the loader cannot see and does not check; a
requantiser entry or window descriptor that it does not fix is rejected (log entry 42). -/

namespace Sys2Proof

/-- A test of the acts of each core, given its number. -/
def Path.each (t : Path) (f : Nat → List Sched → Bool) : Bool := (List.range t.cores.length).all fun n => f n (t.acts n)

/-- A test of each act with the acts before and after it. -/
def splits (f : List Sched → Sched → List Sched → Bool) (before : List Sched) : List Sched → Bool
  | [] => true
  | x :: l => f before x l && splits f (before ++ [x]) l

/-- The row operation of an act on an array, with its slot. -/
def Act.rows (a : Act) (array : Nat) : Option (ArraySlot × RowOp) :=
  match a with
  | .array x addr stride saddr sstride mask =>
    if x.array = array ∧ (x.op = 1 ∨ x.op = 2) then some (x, x.rowOp addr stride saddr sstride mask) else none
  | _ => none

/-- Blocks of a row operation that go to a hoop. -/
def RowOp.blocksOf (o : RowOp) (hoop : Bool) : List Nat :=
  (List.range (ceilDiv o.n 32)).filter fun b => o.hoopFor (32 * b) = hoop

/-! ## FORMAT (R79, R164) -/

/-- Modes and formats of row operations against the latest `LOADW` of their array, which `loads` lists, newest first. -/
def formatsAlong (loads : List (Nat × Nat × Nat)) : List Sched → Bool
  | [] => true
  | x :: l =>
    match x.act with
    | .array a .. =>
      if a.op = 0 then formatsAlong ((a.array, a.mode, a.fmt) :: loads) l
      else if a.op = 3 then formatsAlong loads l
      else
        (match loads.find? fun w => decide (w.1 = a.array) with
        | none => fmtCodes.any fun w => pairOk a.mode w a.fmt
        | some w => decide (w.2.1 = a.mode) && pairOk a.mode w.2.2 a.fmt) && formatsAlong loads l
    | _ => formatsAlong loads l

/-! ## CODE (R105, R115, R167, R276) -/

/-- A hoop after an act: the layout of what has been added since its latest `CLEAR` or zero-starting block (true for integer,
none when nothing was), and whether two layouts have met in it. -/
def hoopStep (array : Nat) (hoop : Bool) (h : Option Bool × Bool) (x : Sched) : Option Bool × Bool :=
  match x.act with
  | .array a .. =>
    if a.array ≠ array then h
    else if a.op = 3 then (if decide (a.hoop = 1) = hoop then (none, h.2) else h)
    else
      match x.act.rows array with
      | none => h
      | some (_, o) =>
        if o.blocksOf hoop = [] then h
        else
          let t := o.mode.integer
          (some t, h.2 || h.1.any fun u => decide (u ≠ t))
  | _ => h

/-- The layout of a hoop after some acts. -/
def hoopLayout (l : List Sched) (array : Nat) (hoop : Bool) : Option Bool := (l.foldl (hoopStep array hoop) (none, false)).1

/-- No two accumulation types meet in a hoop (R105). -/
def oneType (l : List Sched) : Bool :=
  (List.range 4).all fun a => [false, true].all fun h => !(l.foldl (hoopStep a h) (none, false)).2

/-- Nothing integer is added to a hoop before its next `CLEAR` or zero-starting block (R276). -/
def floatNext (array : Nat) (hoop : Bool) : List Sched → Bool
  | [] => true
  | x :: l =>
    match x.act with
    | .array a .. =>
      if a.array ≠ array then floatNext array hoop l
      else if a.op = 3 then (if decide (a.hoop = 1) = hoop then true else floatNext array hoop l)
      else
        match x.act.rows array with
        | none => floatNext array hoop l
        | some (_, o) => if o.blocksOf hoop = [] then floatNext array hoop l else !o.mode.integer
    | _ => floatNext array hoop l

/-- Elements of a vector register that a format's rows fill at once (R167), 0 for other formats. -/
def laneRows (fmt : Nat) : Nat :=
  match fmt with
  | 0x32 => 2
  | 0x30 => 4
  | 0x01 => 8
  | _ => 0

/-- Formats of the partials that an ADD drain reads, where the pricking fixes them: the OUT_FMT of the drain that wrote a row
last. A row that another slot has written since has no format for the loader. R115 names the partial's format and gives the
loader no source for it: this is the model's choice (DESIGN CHOICE, log entry 141). -/
def partialFmts (p : Pricking) (t : Path) (n : Nat) (daddr : Nat) (dstride : Int) (cycle : Nat) : List Nat :=
  ((List.range 32).filterMap fun (r : Nat) =>
    (latestWriter (((wrapRun (daddr + r * dstride) 128).map fun v => nearWriters t.writers n v.1 v.2 (cycle + r + 1)).flatten)).bind
      fun w => match w.act with
        | .drain form _ _ _ _ _ _ _ _ q => if form = 2 then some 0 else p.tableFmt t w.core q w.cycle
        | _ => none).eraseDups

/-- A drain and an `HROWSET` of SCALE against the layout of their hoop, and a drain to the vector unit against its registers
(R115, R167, R276). -/
def hoopUseOk (p : Pricking) (t : Path) (n : Nat) (before : List Sched) (x : Sched) (after : List Sched) : Bool :=
  match x.act with
  | .drain form array hoop _ divides toVector dreg daddr dstride qaddr =>
    let fmt := p.tableFmt t n qaddr x.cycle
    let partialOk (f : Nat) : Bool := decide (form ≠ 1) || (partialFmts p t n daddr dstride x.cycle).all fun g => decide (g = f)
    (match hoopLayout before array hoop with
    | none => true
    | some true => decide (form ≠ 2) && !divides && partialOk 0x05
    | some false => partialOk 0x32) &&
      (!toVector || fmt.all fun f => decide (laneRows f = 0) || decide (dreg + 32 / laneRows f ≤ 32))
  | .vector v _ =>
    if bitsAt v 32 8 = 0x41 ∧ bitsAt v 3 2 = 2 then
      decide (hoopLayout before (bitsAt v 0 2) (v.testBit 2) ≠ some true) && floatNext (bitsAt v 0 2) (v.testBit 2) after
    else true
  | _ => true

/-! ## SCHEDULE (R76, R85, R114, R117, R120, R165, R177, R278) -/

/-- An array is free when its next operation is scheduled (R76). -/
def arraysFree (p : Pricking) (t : Path) (n : Nat) : List (Nat × Nat) → List Sched → Bool
  | _, [] => true
  | busy, x :: l =>
    match x.act with
    | .array a addr stride saddr sstride mask =>
      ((busy.find? fun b => decide (b.1 = a.array)).all fun b => decide (b.2 ≤ x.cycle)) &&
        arraysFree p t n
          ((a.array, x.cycle + p.occupancy t n a (a.rowOp addr stride saddr sstride mask) x.cycle) :: busy) l
    | _ => arraysFree p t n busy l

/-- Drains of an array, as cycle and hoop. -/
def drainsOf (array : Nat) (l : List Sched) : List (Nat × Bool) :=
  l.filterMap fun x => match x.act with
    | .drain _ a hoop .. => if a = array then some (x.cycle, hoop) else none
    | _ => none

/-- The port of an array is free when a drain is scheduled (R114). -/
def portsFree (l : List Sched) : Bool :=
  (List.range 4).all fun a =>
    let d := (drainsOf a l).map (·.1)
    (d.zip (d.drop 1)).all fun x => decide (x.1 + 32 ≤ x.2)

/-- A block of rows that waits to be drained: hoop, the first cycle in which a row is added, the cycle of its last entry. -/
structure OpenBlock where
  hoop : Bool
  first : Nat
  last : Nat
  deriving DecidableEq, Repr

/-- A row operation's blocks join those that wait: blocks 0 and 1 go on with what their hoop holds (R83). -/
def joinBlocks (c e : Nat) (o : RowOp) (l : List OpenBlock) : List OpenBlock :=
  (List.range (ceilDiv o.n 32)).foldl
    (fun l b =>
      let h := o.hoopFor (32 * b)
      let last := c + e * min o.n (32 * b + 32) - 1
      match (l.filter fun x => decide (x.hoop = h)).getLast?, decide (b < 2) with
      | some x, true => l.map fun y => if y = x then { y with last := last } else y
      | _, _ => l ++ [⟨h, c + e * (32 * b + 1) + 7, last⟩]) l

/-- What becomes of the blocks of an array along a path: each drain with the block that it reads, and at the end each block that
no drain read. -/
def blocksAlong (p : Pricking) (t : Path) (n array : Nat) : List OpenBlock → List Sched → List (Option (Nat × Bool) × OpenBlock)
  | l, [] => l.map fun b => (none, b)
  | l, x :: xs =>
    match x.act with
    | .array a .. =>
      if a.array ≠ array ∨ a.op = 0 then blocksAlong p t n array l xs
      else if a.op = 3 then
        let gone := l.filter fun b => b.hoop = decide (a.hoop = 1)
        gone.map (fun b => (none, b)) ++ blocksAlong p t n array (l.filter fun b => b.hoop ≠ decide (a.hoop = 1)) xs
      else
        match x.act.rows array with
        | none => blocksAlong p t n array l xs
        | some (_, o) => blocksAlong p t n array (joinBlocks x.cycle (p.entryCycles t n o x.cycle) o l) xs
    | .drain _ a hoop .. =>
      if a ≠ array then blocksAlong p t n array l xs
      else
        match l.find? fun b => decide (b.hoop = hoop) with
        | none => blocksAlong p t n array l xs
        | some b => (some (x.cycle, hoop), b) :: blocksAlong p t n array (l.erase b) xs
    | _ => blocksAlong p t n array l xs

/-- Drains are scheduled after the last entry of their block (R117). -/
def drainsLate (p : Pricking) (t : Path) (n : Nat) (l : List Sched) : Bool :=
  (List.range 4).all fun a => (blocksAlong p t n a [] l).all fun x => match x.1 with
    | none => true
    | some d => decide (x.2.last < d.1)

/-- Every block of a long `STREAM` is drained before the stream returns to its hoop (R85). -/
def blocksDrained (p : Pricking) (t : Path) (n : Nat) (l : List Sched) : Bool :=
  l.all fun x => (List.range 4).all fun a =>
    match x.act.rows a with
    | none => true
    | some (_, o) =>
      let e := p.entryCycles t n o x.cycle
      (List.range (ceilDiv o.n 32)).all fun b =>
        decide (b < 2) || (drainsOf a l).any fun d =>
          decide (d.2 = o.hoopFor (32 * b)) && decide (x.cycle + e * 32 * (b - 1) ≤ d.1) && decide (d.1 < x.cycle + e * 32 * b)

/-- No `CLEAR` is scheduled while a drain of its hoop holds the port (R120). -/
def clearsOk (l : List Sched) : Bool :=
  l.all fun x => match x.act with
    | .array a .. =>
      decide (a.op ≠ 3) || (drainsOf a.array l).all fun d =>
        decide (d.2 ≠ decide (a.hoop = 1)) || decide (x.cycle < d.1) || decide (d.1 + 32 ≤ x.cycle)
    | _ => true

/-- No address register that an ARRAY operation reads is written in its bundle or in the four cycles before (R165). -/
def addressesSettled (l : List Sched) : Bool :=
  l.all fun x => match x.act with
    | .array a .. =>
      decide (a.op = 3) || l.all fun y => match y.act with
        | .arWrite r =>
          (decide (r ≠ a.areg) && (decide (r ≠ a.sreg) || !isMx a.fmt)) || decide (y.cycle + 4 < x.cycle) ||
            decide (x.cycle < y.cycle)
        | _ => true
    | _ => true

/-- Registers that a VECTOR operation reads (Table 6-7). -/
def vectorReads (v : Nat) : List Nat :=
  let va := bitsAt v 47 5
  let vb := bitsAt v 52 5
  let vc := bitsAt v 57 5
  match bitsAt v 32 8 with
  | 0x01 | 0x02 | 0x03 | 0x05 | 0x06 | 0x07 | 0x20 => [va, vb]
  | 0x04 | 0x08 => [va, vb, vc]
  | 0x09 | 0x30 | 0x40 => []
  | 0x32 => [vb]
  | _ => [va]

/-- Registers that a VECTOR operation writes. -/
def vectorWrites (v : Nat) : List Nat :=
  let vd := bitsAt v 42 5
  match bitsAt v 32 8 with
  | 0x20 | 0x23 => [vd, vd + 1]
  | 0x31 | 0x41 => []
  | _ => [vd]

/-- Latency of a VECTOR operation (Table 6-7). -/
def vectorLatency (v : Nat) : Nat :=
  match bitsAt v 32 8 with
  | 0x01 | 0x02 | 0x03 | 0x04 => 4
  | 0x05 | 0x06 | 0x07 | 0x08 | 0x09 => 2
  | 0x0A | 0x40 => 3
  | 0x10 | 0x11 | 0x12 | 0x13 => 8
  | 0x14 | 0x15 | 0x16 | 0x17 => 12
  | 0x20 | 0x22 => 6
  | 0x21 => 10
  | 0x23 => 16
  | 0x30 => 5
  | _ => 4 + 2 * 2 ^ bitsAt v 40 2

/-- Vector registers are read once the latency of what wrote them has elapsed, those that a drain fills apart, and `VLD` and
`VST` name aligned addresses (R177). `ready` gives the cycle from which each register can be read, newest first. -/
def vectorsReady (p : Pricking) (t : Path) (n : Nat) : List (Nat × Nat) → List Sched → Bool
  | _, [] => true
  | ready, x :: l =>
    match x.act with
    | .vector v addr =>
      (decide (bitsAt v 32 8 ≠ 0x30 ∧ bitsAt v 32 8 ≠ 0x31) || decide (addr % 64 = 0)) &&
        ((vectorReads v).all fun r => (ready.find? fun w => decide (w.1 = r)).all fun w => decide (w.2 ≤ x.cycle)) &&
        vectorsReady p t n ((vectorWrites v).map (fun r => (r, x.cycle + vectorLatency v)) ++ ready) l
    | .drain _ _ _ _ _ true vbase _ _ qaddr =>
      let per := max 1 (laneRows ((p.tableFmt t n qaddr x.cycle).getD 0x32))
      vectorsReady p t n ((List.range (32 / per)).map (fun i => (vbase + i, 0)) ++ ready) l
    | _ => vectorsReady p t n ready l

/-- An `HROWSET` of SCALE multiplies each row after the additions of earlier bundles, and clear of the hoop's drains (R278). Which
cycles its write takes R278 does not say: the model counts all of its multiplications, cycles c to c + 31 (DESIGN CHOICE, log
entry 141). -/
def scalesOk (p : Pricking) (t : Path) (n : Nat) (l : List Sched) : Bool :=
  l.all fun x => match x.act with
    | .vector v _ =>
      if bitsAt v 32 8 = 0x41 ∧ bitsAt v 3 2 = 2 then
        let a := bitsAt v 0 2
        let h := v.testBit 2
        let c := x.cycle + 2
        (l.all fun y => decide (x.cycle ≤ y.cycle) || match y.act.rows a with
          | none => true
          | some (_, o) =>
            let e := p.entryCycles t n o y.cycle
            (List.range o.n).all fun i => decide (o.hoopFor i ≠ h) || decide (y.cycle + e * (i + 1) + 7 < c + i % 32)) &&
          (drainsOf a l).all fun d => decide (d.2 ≠ h) || decide (d.1 + 32 ≤ c) || decide (c + 32 ≤ d.1)
      else true
    | _ => true

/-! ## HOOP_DEMAND (R122) -/

/-- A tile of an array: its hoop, the cycle of its first contribution, the last cycle of the latest drain that read it, whether
rows have been added since that drain, and whether an integer mode added them. -/
structure Tile where
  hoop : Bool
  first : Nat
  read : Option Nat := none
  added : Bool := true
  integer : Bool
  deriving DecidableEq, Repr

/-- The drain that ends a tile, if one has read all of it. -/
def Tile.ended (x : Tile) : Option Nat := if x.added then none else x.read

/-- A row operation adds to the tiles of its array: blocks 0 and 1 to the tile that their hoop holds; a later block starts a tile
(R83, R122). Answers the tiles that it ends and those that are live. -/
def joinTiles (c e : Nat) (o : RowOp) (l : List Tile) : List Tile × List Tile :=
  (List.range (ceilDiv o.n 32)).foldl
    (fun (acc : List Tile × List Tile) b =>
      let h := o.hoopFor (32 * b)
      let new : Tile := { hoop := h, first := c + e * (32 * b + 1) + 7, integer := o.mode.integer }
      match (acc.2.filter fun x => decide (x.hoop = h)).getLast? with
      | none => (acc.1, acc.2 ++ [new])
      | some x =>
        if b < 2 then
          (acc.1, acc.2.map fun y => if y = x then { y with added := true, integer := y.integer || o.mode.integer } else y)
        else if x.ended.isSome then (acc.1 ++ [x], acc.2.filter (· ≠ x) ++ [new])
        else (acc.1, acc.2 ++ [new])) ([], l)

/-- The tiles of an array along a path, each as it ends: by a `CLEAR`, by a ZERO drain, by a block that starts from zero, or not
at all (R122). A drain without ZERO leaves its tile to be added to, unless the hoop's next tile already waits. -/
def tilesAlong (p : Pricking) (t : Path) (n array : Nat) : List Tile → List Sched → List Tile
  | l, [] => l
  | l, x :: xs =>
    match x.act with
    | .array a .. =>
      if a.array ≠ array ∨ a.op = 0 then tilesAlong p t n array l xs
      else if a.op = 3 then
        let h := decide (a.hoop = 1)
        (l.filter fun y => y.hoop = h) ++ tilesAlong p t n array (l.filter fun y => y.hoop ≠ h) xs
      else
        match x.act.rows array with
        | none => tilesAlong p t n array l xs
        | some (_, o) =>
          let r := joinTiles x.cycle (p.entryCycles t n o x.cycle) o l
          r.1 ++ tilesAlong p t n array r.2 xs
    | .drain _ a hoop zero .. =>
      if a ≠ array then tilesAlong p t n array l xs
      else
        match l.filter fun y => decide (y.hoop = hoop) with
        | [] => tilesAlong p t n array l xs
        | y :: more =>
          let z := { y with read := some (x.cycle + 31), added := false }
          if zero ∨ more ≠ [] then z :: tilesAlong p t n array (l.erase y) xs
          else tilesAlong p t n array (l.map fun w => if w = y then z else w) xs
    | _ => tilesAlong p t n array l xs

/-- Tiles of an array, as the cycles from the first contribution to the end of the last drain that reads them. One that no drain
reads, or that is added to after its last drain, lives until the core's `END`, and as long as rows are still added after it. -/
def tilesOf (p : Pricking) (t : Path) (n array : Nat) (l : List Sched) : List (Nat × Nat) :=
  let tiles := tilesAlong p t n array [] l
  let last := (tiles.map (·.first)).foldl max ((t.cores.getD n {}).cycle)
  tiles.map fun x => (x.first, x.ended.getD last)

/-- No array of a core holds more tiles at once than its role declares. -/
def demandMet (p : Pricking) (t : Path) (n : Nat) (l : List Sched) : Bool :=
  (List.range 4).all fun a =>
    let ts := tilesOf p t n a l
    ts.all fun x => decide
      ((ts.filter fun y => decide (y.1 ≤ x.1) && decide (x.1 ≤ y.2)).length ≤ bitsAt (((p.roleMap[n]?).map (·.2)).getD 0) (2 * a) 2)

/-! ## SCRATCH_ORDER (R148, R159, R181, R247, R267) -/

/-- Every byte that is read from a core's scratch has been written by then (R159). -/
def readsCovered (cores : Nat) (as : List Access) : Bool :=
  (List.range cores).all fun c =>
    let mine := as.filter fun a => decide (a.core = c)
    let writes := mine.filter fun a => a.write
    mine.all fun a =>
      a.write || (writes.foldl
        (fun left w => if w.seen ≤ a.first ∧ w.lo < a.lo + a.n ∧ a.lo < w.lo + w.n then uncovered w.lo w.n left else left)
        [(a.lo, a.n)]).all fun r => decide (r.2 = 0)

/-- Some slot of some core writes bytes of a core's scratch in some cycles. -/
def written (as : List Access) (core lo n first last : Nat) : Bool :=
  as.any fun w => w.write && w.meets ⟨core, 0, false, first, last, first, lo, n, 0⟩ && decide (w.first ≤ last) && decide (first < w.seen)

/-- Cycle of the `SH_WAIT` that first covers the descriptor started last before the acts: `later` descriptors of its shuttle have
been started since. -/
def coveredAt (sh : Nat) : Nat → List Sched → Option Nat
  | _, [] => none
  | later, x :: l =>
    match x.act with
    | .start s .. => coveredAt sh (if s = sh then later + 1 else later) l
    | .wait s q => if s = sh ∧ q ≤ later then some x.cycle else coveredAt sh later l
    | _ => coveredAt sh later l

/-- Bytes that R181 protects: what a descriptor writes in its core's scratch, and what it reads there for a destination that lies
outside, run by run; counts stand at their largest. -/
def protectedRuns (p : Pricking) (t : Path) (n : Nat) (d : Desc) (src dst : DescEnd) (begins : Nat) : List (Nat × Nat) :=
  let c := (d.count1, d.count2)
  let job := if d.form = 5 then p.jobIn t n src begins else none
  let mine (l : List (Nat × Nat × Nat)) : List (Nat × Nat) := (l.filter fun r => decide (r.1 = n)).map (·.2)
  let outside (l : List (Nat × Nat × Nat)) : Bool := decide (l = []) || l.any fun r => decide (r.1 ≠ n)
  let written := d.writes job dst c
  mine written ++
    if d.form = 4 ∨ d.form = 5 then (if outside written then mine (d.readRuns job src c) else [])
    else
      (((d.dstRuns c).zip (d.srcRuns c)).map fun r =>
        let out := match dst with
          | .scratch core off => apertureRuns core (off + r.1) d.count0
          | _ => []
        match src with
        | .scratch core off => if outside out then mine (apertureRuns core (off + r.2.1) r.2.2) else []
        | _ => []).flatten

/-- No slot of the core touches protected bytes until an `SH_WAIT` covers the descriptor: neither an ARRAY, DRAIN or VECTOR slot nor
another descriptor of its SHUTTLE slot (R181). -/
def shuttlesApart (p : Pricking) (t : Path) (n : Nat) (mine : List Access) (before : List Sched) (x : Sched) (after : List Sched) : Bool :=
  match x.act with
  | .start sh d src dst begins _ =>
    let until_ := coveredAt sh 0 after
    (protectedRuns p t n d src dst begins).all fun q =>
      !mine.any fun a =>
        (decide (a.slot ≠ 3) || decide (a.act ≠ before.length)) && a.meets ⟨n, 3, false, 0, 0, 0, q.1, q.2, 0⟩ && decide (x.cycle ≤ a.last) &&
          until_.all fun u => decide (a.first < u)
  | _ => true

/-- Cycle of the last entry of a row operation. -/
def Pricking.lastEntry (p : Pricking) (t : Path) (n : Nat) (o : RowOp) (c : Nat) : Nat := c + p.entryCycles t n o c * o.n - 1

/-- A requantiser table and a window descriptor stand unwritten while they are in use (R148, R247). A drain counts from its
scheduled cycle to the write of its last row, without what R116 may hold it: the manual does not say when a drain starts and
ends for this check (DESIGN CHOICE, log entry 141). -/
def tablesStand (p : Pricking) (t : Path) (n : Nat) (as : List Access) (x : Sched) : Bool :=
  match x.act with
  | .drain form _ _ _ _ _ _ _ _ qaddr =>
    decide (form = 2) ||
      (wrapRun qaddr 512).all fun r => !written as n r.1 r.2 x.cycle (x.cycle + 31 + drainDelay form)
  | .array a addr stride saddr sstride mask =>
    let o := a.rowOp addr stride saddr sstride mask
    decide (a.op = 0) || decide (a.op = 3) || !o.window ||
      (wrapRun addr 64).all fun r => !written as n r.1 r.2 (x.cycle - 4) (p.lastEntry t n o x.cycle)
  | _ => true

/-- Knots that a core passes, as number, arrival and release. -/
def knotsOf (l : List Sched) : List (Nat × Nat × Nat) :=
  l.filterMap fun x => match x.act with
    | .knot k r => some (k, x.cycle, r)
    | _ => none

/-- Between the start of another core's descriptor and a window-mode read of the rows that it writes lies a knot of both cores
(R267). R192 speaks of a descriptor started before its core arrives at the knot: one that the knot's own bundle starts counts as
started before (DESIGN CHOICE, log entry 162). -/
def selvagesOk (p : Pricking) (t : Path) (as : List (Nat × Access)) : Bool :=
  (List.range t.cores.length).all fun m => (t.acts m).all fun x =>
    match x.act with
    | .start _ d src dst begins _ =>
      (d.writes (if d.form = 5 then p.jobIn t m src begins else none) dst (d.counts t.lens)).all fun w => decide (w.1 = m) || as.all fun a =>
        let reads := match ((t.acts a.1)[a.2.act]?).map (·.act) with
          | some (.array _ _ stride ..) => decide (stride = -1) && decide (a.2.slot = 0)
          | _ => false
        !reads || decide (a.2.core ≠ w.1) || !a.2.meets ⟨w.1, 3, true, 0, 0, 0, w.2.1, w.2.2, 0⟩ ||
          decide (a.2.first < x.cycle) ||
          (knotsOf (t.acts m)).any fun k =>
            decide (x.cycle ≤ k.2.1) && (knotsOf (t.acts a.1)).any fun j =>
              decide (j.1 = k.1) && decide (j.2.2 = k.2.2) && decide (k.2.2 ≤ a.2.first)
    | _ => true

/-- SCRATCH_ORDER along a path. -/
def scratchOrdered (p : Pricking) (t : Path) : Bool :=
  let tagged := p.accesses t
  let as := tagged.map (·.2)
  (as.all fun a => decide (a.lo + a.n ≤ p.scratchBytes)) && readsCovered t.cores.length as &&
    (t.each fun n l =>
      let mine := (tagged.filter fun x => decide (x.1 = n)).map (·.2)
      splits (shuttlesApart p t n mine) [] l && l.all (tablesStand p t n as)) && selvagesOk p t tagged

/-! ## REQUANT_ENTRY (R142 to R147, R152 to R154) -/

/-- A clamp of a floating-point output: an infinity or a number that the format holds exactly (R146). -/
def clampExact (fmt code : Nat) : Bool :=
  match bf16 code with
  | .nan => false
  | .inf _ => true
  | v => (elemVal fmt (convertRne fmt v)).eqv v

/-- A requantiser entry keeps R142 to R146, R152 and R153, for a hoop of a layout, when anything was added to it. -/
def entryOk (b : List Byte) (layout : Option Bool) (toVector : Bool) : Bool :=
  let q := QEntry.parse b
  let rest := field b 0 4 + field b 4 1 + field b 5 1 + field b 6 2 + field b 8 2 + field b 10 2
  decide (field b 13 1 < 4) && decide (field b 14 2 = 0) &&
    [0x01, 0x02, 0x03, 0x04, 0x05, 0x10, 0x11, 0x30, 0x31, 0x32].contains q.fmt &&
    (!toVector || [0x01, 0x30, 0x32].contains q.fmt) && (fp32 q.mult).isFin &&
    if q.pass then
      decide (rest = 0) && !q.stoch &&
        (match layout with
        | some i => decide (q.fmt = if i then 0x05 else 0x32)
        | none => decide (q.fmt = 0x05 ∨ q.fmt = 0x32))
    else
      decide (-32 ≤ q.shift ∧ q.shift ≤ 31) && decide (q.act ≤ 2) &&
        match intRange q.fmt with
        | some (lo, hi, _) =>
          let full := decide (q.lo = 0x8000 ∧ q.hi = 0x7FFF)
          decide (lo ≤ q.zp ∧ q.zp ≤ hi) &&
            (full || (decide (q.fmt ≠ 0x05) && decide (lo ≤ signExt 16 q.lo) && decide (signExt 16 q.lo ≤ signExt 16 q.hi) &&
              decide (signExt 16 q.hi ≤ hi)))
        | none => decide (q.zp = 0) && clampExact q.fmt q.lo && clampExact q.fmt q.hi && !((bf16 q.hi).lt (bf16 q.lo))

/-- The table of each drain of a path: its boundary, one OUT_FMT, and every entry (R52, R147, R154). An entry that the pricking
does not fix cannot be checked, and fails (DESIGN CHOICE, log entry 42). -/
def tableOk (p : Pricking) (t : Path) (n : Nat) (before : List Sched) (x : Sched) (_ : List Sched) : Bool :=
  match x.act with
  | .drain form array hoop _ _ toVector _ _ _ qaddr =>
    if form = 2 then true
    else
      let known := (List.range 32).filterMap fun j => p.knownBytes t n ((qaddr + 16 * j) % 8388608) 16 x.cycle
      decide (qaddr % 16 = 0) && decide (known.length = 32) &&
        (known.all fun b => entryOk b (hoopLayout before array hoop) toVector) &&
        decide (((known.map fun b => field b 12 1).eraseDups).length = 1)
  | _ => true

/-! ## WINDOW (R245, R246, R248 to R251, R253, R257, R258, R265) -/

/-- Lines that each of the four feeders needs in each entry cycle of a window-mode operation. -/
def WinDesc.cycleLines (d : WinDesc) (o : RowOp) (lens : List Nat) : List (List (List Nat)) :=
  let size := elemBits o.fmt / 8
  let e := if o.mode = .f16 then 2 else 1
  let each := o.mode.k / 4 / e
  let taps := if d.op = 0 then 1 else d.taps
  ((List.range o.n).map fun i => ((List.range taps).map fun tap => (List.range e).map fun part => (List.range 4).map fun g =>
    if o.masked lens i then []
    else
      (((List.range each).map fun j =>
        let el := d.elementTaps o.mode.k (g * (o.mode.k / 4) + part * each + j)
        let el := if d.op = 0 then el else el.filter fun x => decide (x.2 = tap)
        el.filterMap fun x => (d.tapAt size x.1 x.2 (d.pos0 + i)).map (· / 64)).flatten).eraseDups).flatten).flatten

/-- In no entry cycle do the feeders together need two lines of one bank, less the lines that each read in its previous two entry
cycles, at most 16 (R258). `kept` holds those of each feeder. -/
def banksClear (kept : List (List Nat × List Nat)) : List (List (List Nat)) → Bool
  | [] => true
  | c :: l =>
    let reads := (kept.zip c).map fun x => x.2.filter fun line => !((x.1.1 ++ x.1.2).take 16).contains line
    let all := reads.flatten.eraseDups
    decide (((all.map (· % 32)).eraseDups).length = all.length) && banksClear ((kept.zip reads).map fun x => (x.2, x.1.1)) l

/-- Fields of a window descriptor within Table 8-2, its reserved bits zero. -/
def windowFieldsOk (b : List Byte) (o : RowOp) : Bool :=
  let d := WinDesc.parse b
  let size := elemBits o.fmt / 8
  let f := d.d2s * d.d2s
  decide (d.op ≤ 2) && decide (field b 1 1 < 4) && decide (d.padMode ≤ 2) && [0, 1, 2, 3, 5, 6, 7].contains d.regroup &&
    decide (1 ≤ d.kh ∧ d.kh ≤ 15) && decide (1 ≤ d.kw ∧ d.kw ≤ 15) && decide (1 ≤ d.dy ∧ d.dy ≤ 8) && decide (1 ≤ d.dx ∧ d.dx ≤ 8) &&
    decide (1 ≤ d.sy ∧ d.sy ≤ 16) && decide (1 ≤ d.sx ∧ d.sx ≤ 16) && (decide (size ≠ 1) || decide (d.padValue < 256)) &&
    decide (1 ≤ d.inH ∧ d.inH ≤ 16384) && decide (1 ≤ d.inW ∧ d.inW ≤ 16384) && decide (1 ≤ d.channels ∧ d.channels ≤ 4096) &&
    decide (1 ≤ d.rows ∧ d.rows ≤ 16384) && decide (field b 0x1E 2 = 0) && decide (d.base % 64 = 0) && decide (d.planeStride % 64 = 0) &&
    decide (d.rowPitch % 64 = 0) && decide ((if d.blocked then 32 * d.inW * size else d.inW * size) ≤ d.rowPitch) &&
    decide (field b 0x34 12 = 0) && decide (d.channels % f = 0) &&
    decide (d.k0 % (if d.op = 0 then o.mode.k else 32) = 0)

/-- The modes and formats in which an operation of window mode runs (R249). -/
def windowModeOk (op : Nat) (o : RowOp) : Bool :=
  !isMx o.fmt && (if op = 0 then [Mode.i8, .f8, .ft, .f16].contains o.mode else [Mode.i8, .f8, .f16].contains o.mode)

/-- Geometry of a window-mode operation (R249 to R251, R253, R257), its planes within SCRATCH_BYTES, and its banks. -/
def windowShapeOk (p : Pricking) (lens : List Nat) (d : WinDesc) (o : RowOp) : Bool :=
  let outOf (h pads dil k st : Nat) : Int := ((h + pads : Nat) - (dil * (k - 1) + 1 : Nat) : Int) / st + 1
  let planes := if d.blocked then ceilDiv d.channels 32 else d.channels
  let cp := roundUp o.mode.k d.presC
  windowModeOk d.op o &&
    decide ((d.outH : Int) = outOf d.presH (d.padTop + d.padBottom) d.dy d.kh d.sy) && decide (1 ≤ d.outH) &&
    decide ((d.outW : Int) = outOf d.presW (d.padLeft + d.padRight) d.dx d.kw d.sx) && decide (1 ≤ d.outW) &&
    decide (d.pos0 + o.n ≤ d.outH * d.outW) &&
    (decide (d.op ≠ 0) || decide (d.k0 < (if d.tapInner then d.presC else cp) * d.taps)) &&
    decide (d.base + (planes - 1) * d.planeStride + d.rows * d.rowPitch ≤ p.scratchBytes) &&
    ((List.range o.n).all fun i => (List.range d.taps).all fun tap =>
      let iy : Int := ((d.pos0 + i) / d.outW * d.sy + tap / d.kw * d.dy : Nat) - (d.padTop : Int)
      let ix : Int := ((d.pos0 + i) % d.outW * d.sx + tap % d.kw * d.dx : Nat) - (d.padLeft : Int)
      !decide (0 ≤ iy ∧ iy < d.presH ∧ 0 ≤ ix ∧ ix < d.presW) ||
        (List.range d.presC).all fun c =>
          (d.stored c iy.toNat ix.toNat).all fun s => decide (d.row0 ≤ s.2.1 ∧ s.2.1 < d.row0 + d.rows)) &&
    banksClear (List.replicate 4 ([], [])) (d.cycleLines o lens)

/-- Window-mode operations of a path; no `LOADW` runs in window mode. A descriptor that the pricking does not fix cannot be checked,
and fails (R248; DESIGN CHOICE, log entry 42). -/
def windowsOk (p : Pricking) (t : Path) (n : Nat) (l : List Sched) : Bool :=
  l.all fun x => match x.act with
    | .array a addr stride saddr sstride mask =>
      if stride ≠ -1 ∨ a.op = 3 then true
      else if a.op = 0 then false
      else
        let o := a.rowOp addr stride saddr sstride mask
        decide (addr % 64 = 0) && (p.knownBytes t n addr 64 (x.cycle - 4)).any fun b =>
          windowFieldsOk b o && windowShapeOk p t.lens (WinDesc.parse b) o
    | _ => true

/-! ## CLASS_LENGTH (R243) and REPLAY_UNSAFE (R128) -/

/-- STITCH_CYCLES covers the scheduled length of a path: every core's `END` lies within it, and no core goes on beyond. -/
def lengthCovered (p : Pricking) (t : Path) : Bool :=
  t.cores.all fun w =>
    (w.acts.all fun x => decide (x.act ≠ .fin) || decide (x.cycle + 1 ≤ p.stitchCycles)) &&
      (w.done || w.knot.isSome || decide (w.cycle ≤ p.stitchCycles))

/-- The acts of an array in the window of a tile whose drain follows: from the latest `CLEAR` of its hoop on, with their numbers;
none without a `CLEAR` (R125). -/
def tileWindow (array : Nat) (hoop : Bool) (before : List Sched) : Option (List (Nat × Sched)) :=
  ((List.range before.length).zip before).foldl
    (fun w x => match x.2.act with
      | .array a .. =>
        if a.array ≠ array then w
        else if a.op = 3 then (if decide (a.hoop = 1) = hoop then some [] else w)
        else if a.op = 0 then w.map (· ++ [x])
        else match x.2.act.rows array with
          | some (_, o) => if o.blocksOf hoop = [] then w else w.map (· ++ [x])
          | none => w
      | _ => w) none

/-- A row operation of an integer mode adds into the hoop since its latest `CLEAR`. -/
def integerTile (array : Nat) (hoop : Bool) (before : List Sched) : Bool := decide (hoopLayout before array hoop = some true)

/-- Every row operation of a pass sequence has a `LOADW` of the sequence before it. -/
def loadsFirst : Bool → List (Nat × Sched) → Bool
  | _, [] => true
  | have_, x :: l =>
    match x.2.act with
    | .array a .. => if a.op = 0 then loadsFirst true l else have_ && loadsFirst have_ l
    | _ => loadsFirst have_ l

/-- The tile that a drain reads, when an integer mode built it, can be replayed (R128). -/
def tileReplays (as : List (Nat × Access)) (n : Nat) (before : List Sched) (x : Sched) (_ : List Sched) : Bool :=
  match x.act with
  | .drain form array hoop .. =>
    if integerTile array hoop before = false then true
    else
      match tileWindow array hoop before with
      | none => false
      | some w =>
        let isLoad (y : Nat × Sched) : Bool := match y.2.act with
          | .array a .. => decide (a.op = 0)
          | _ => false
        let short (y : Nat × Sched) : Bool := match y.2.act.rows array with
          | some (_, o) => decide (o.n ≤ 32)
          | none => true
        let reads := (as.filter fun a => decide (a.1 = n) && !a.2.write && w.any fun y => decide (y.1 = a.2.act)).map (·.2)
        let first := (reads.map (·.first)).foldl min x.cycle
        decide (w.length ≤ 16) && w.all short && (!w.any isLoad || loadsFirst false w) && decide (form < 2) &&
          reads.all fun a => !written (as.map (·.2)) a.core a.lo a.n first x.cycle
  | _ => true

/-- Every integer tile is read by a drain (R128). -/
def tilesDrained (p : Pricking) (t : Path) (n : Nat) (l : List Sched) : Bool :=
  (List.range 4).all fun a => (tilesAlong p t n a [] l).all fun x => !x.integer || x.ended.isSome

/-! ## The checks of each subcode -/

/-- The path checks of a subcode hold on the paths `ts` of a pricking. -/
def pathsOk (sub : Nat) (p : Pricking) (ts : List Path) : Bool :=
  match sub with
  | 0x08 => ts.all fun t => t.each (demandMet p t)
  | 0x09 => ts.all fun t => t.each fun _ l => formatsAlong [] l
  | 0x0E => ts.all fun t => t.each fun n l => oneType l && splits (hoopUseOk p t n) [] l
  | 0x0F =>
    ts.all fun t => t.each fun n l =>
      arraysFree p t n [] l && blocksDrained p t n l && portsFree l && drainsLate p t n l && clearsOk l && addressesSettled l &&
        vectorsReady p t n [] l && scalesOk p t n l
  | 0x10 => ts.all (scratchOrdered p)
  | 0x13 => ts.all fun t => t.each fun n l => splits (tableOk p t n) [] l
  | 0x14 => ts.all fun t => t.each (windowsOk p t)
  | 0x19 => p.longest.all (lengthCovered p)
  | 0x1A => !p.cls.testBit 1 || ts.all fun t =>
      (let as := p.accesses t; t.each fun n l => splits (tileReplays as n) [] l && tilesDrained p t n l)
  | _ => true

/-- Every path that a stitch of a pricking can take, with what its acts write. -/
def Pricking.allPaths (p : Pricking) : List Path := p.paths.map p.drawUp

end Sys2Proof
end

