-- ==== Sys2Proof/Machine/Models.lean ====
section
/-! DEFINITION. Loading, unloading and pinning of models (R225, R240 to R243, R502, R503, R583, R584, R762). -/

namespace Sys2Proof.Machine

/-- The best-effort bound in force, in ms (R488). -/
def beBound (s : State) : Nat :=
  if s.obj.partitions = [] then 5 else s.obj.partitions.foldl (fun n p => max n p.beBoundMs) 0

/-- The subcode of the first condition of Table 7-12 from HOOP_DEMAND on that a pricking breaks, given its paths and the
best-effort bound. -/
def tablesReject (p : Pricking) (ts : List Path) (bound : Nat) : Option Nat :=
  if (demandsOk p && pathsOk 0x08 p ts) = false then some 0x08
  else if (formatsOk p && pathsOk 0x09 p ts) = false then some 0x09
  else if p.tensors.all (tensorOk p) = false then some 0x0A
  else if outputsOk p = false then some 0x0B
  else if headsOk p = false then some 0x0C
  else if placementOk p = false then some 0x0D
  else if (bundlesOk p && pathsOk 0x0E p ts) = false then some 0x0E
  else if pathsOk 0x0F p ts = false then some 0x0F
  else if pathsOk 0x10 p ts = false then some 0x10
  else if shuttleOk p = false then some 0x11
  else if ppuJobsOk p = false then some 0x12
  else if pathsOk 0x13 p ts = false then some 0x13
  else if pathsOk 0x14 p ts = false then some 0x14
  else if knotsOk p = false then some 0x15
  else if lengthsOk p = false then some 0x16
  else if skipsOk p = false then some 0x17
  else if templatesOk p = false then some 0x18
  else if (classOk p bound && pathsOk 0x19 p ts) = false then some 0x19
  else if pathsOk 0x1A p ts = false then some 0x1A
  else none

/-- The subcode of the first condition of Table 7-12 that a pricking breaks, in the order of the subcodes (R240). -/
def loadReject (img : List Byte) (total : Nat) (s : State) : Option Nat :=
  let p := Pricking.parse img
  if headerOk img total = false then some 0x01
  else if generationOk img = false then some 0x02
  else if digestOk img = false then some 0x03
  else if signatureOk img s.sec.required s.sec.ownerValid = false then some 0x04
  else if directoryOk p = false then some 0x05
  else if resourceOk p = false then some 0x06
  else if roleMapOk p = false then some 0x07
  else tablesReject p p.allPaths (beBound s)

/-- The contents of every read-only place are put into DDR; pointers within DDR places are relocated (R225, R228, R229). -/
def fillDdr (p : Pricking) (m : Model) (s : State) : State :=
  let s := (List.range m.places.length).foldl
    (fun s i =>
      if (m.places[i]?).any fun pl => !pl.writable then hubStore (m.ddrBase + roCopyOffset m i) (p.blob i) s else s) s
  m.relocs.foldl
    (fun s r =>
      if r.kind = 3 ∧ ((m.places[r.holder]?).any fun pl => decide (pl.space = 2)) = true then
        let a := m.ddrBase + roCopyOffset m r.holder + r.index
        rawWrite a (leBytes 8 (ptrAdd (memNat s a 8) ((m.ddrBase + roCopyOffset m r.target : Nat) : Int))) s
      else s) s

/-- All bytes of an image have come: it is checked, placed and answered (R240 to R242, R583). -/
def loadDone (session : Handle) (img : List Byte) (total : Nat) (s : State) : Reply :=
  match loadReject img total s with
  | some sub => .fail stPrickingRejected sub []
  | none =>
    let p := Pricking.parse img
    let n := Pricking.ddrBytes p
    match if n = 0 then some 0 else placeExtent s 2 64 n with
    | none => .no stNoSpace
    | some base =>
      let h := newHandle s tModel
      let m := p.model h session base n s.ctr.order
      let s := nextOrder (issued h s)
      let s := s.modObj fun o => { o with models := o.models ++ [m] }
      .ok (fillDdr p m s) (leBytes 4 h.toNat ++ zeroBytes 4 ++ m.digest)

/-- A load whose image arrived after its taking is answered. -/
def loadLater (h : Hdr) (img : List Byte) (total : Nat) (s : State) : State :=
  match loadDone h.session img total s with
  | .ok s' r => answer h stOk 0 r s.obj s'
  | .fail st d r => answer h st d r s.obj s
  | .counted s' st d r => answer h st d r s.obj s'
  | .wait s' => s'

/-- `MODEL_LOAD` (Table 19-5, R583): its image is read from host memory, then checked. -/
def modelLoadBody (h : Hdr) (entries : List (Nat × Nat)) (total : Nat) (image : Option (List Byte)) (s : State) : Reply :=
  if 256 ≤ countOf s tModel then .no stLimitExceeded
  else if (decide (1 ≤ entries.length ∧ entries.length ≤ 250) && entries.all fun e => decide (1 ≤ e.2 ∧ e.2 ≤ 2 ^ 31)) = false then
    .no stBadValue
  else
    match image, readsFree s with
    | some d, true =>
      let s := instantReads entries s
      match loadDone h.session d total s with
      | .fail st d r => .counted s st d r
      | r => r
    | _, _ =>
      let s := startLong (.modelLoad h entries total (List.replicate (requestsOf s entries).length none)) s
      .wait (startReads (.modelLoad h.mbox) entries s)

/-- The taking of the command. -/
def runModelLoad (h : Hdr) (entries : List (Nat × Nat)) (total : Nat) (image : Option (List Byte)) : State → State :=
  serve kPlain h (0x10 + 16 * entries.length) (modelLoadBody h entries total image)

def execModelLoad (h : Hdr) (entries : List (Nat × Nat)) (total : Nat) (image : Option (List Byte)) (s : State) : Result :=
  .next (enter h 0x30 (.modelLoad h entries total image) (runModelLoad h entries total image) s)

/-- A model goes: its places, its residencies and what partitions keep for it (R584). -/
def dropModel (h : Handle) (s : State) : State :=
  s.modObj fun o =>
    { o with
      models := removeKey (·.handle) h o.models
      partitions := o.partitions.map fun p =>
        { p with
          residents := p.residents.filter fun r => !decide (r.model = h)
          places := p.places.filter fun x => !decide (x.model = h) } }

/-- `MODEL_UNLOAD` (R503, R584). -/
def modelUnloadBody (h : Hdr) (model : Handle) (s : State) : Reply :=
  match checkFree s model tModel ((findModel s model).map (·.session)) h.session with
  | some st => .no st
  | none =>
    if (s.obj.partitions.any fun p => p.residents.any fun r => decide (r.model = model) && r.pinned) ∨
        (s.obj.stitches.any fun t => decide (t.req.model = model)) then .no stBusyResource
    else .ok (dropModel model s) []

/-- The taking of the command. -/
def runModelUnload (h : Hdr) (model : Handle) : State → State :=
  serve kPlain h 8 (modelUnloadBody h model)

def execModelUnload (h : Hdr) (model : Handle) (s : State) : Result :=
  .next (enter h 0x31 (.modelUnload h model) (runModelUnload h model) s)

/-- `MODEL_PIN`: it takes effect at the partition's next idle point (R502). -/
def modelPinBody (h : Hdr) (model partition : Handle) (pinning : Bool) (s : State) : Reply :=
  match firstOf [checkFree s model tModel ((findModel s model).map (·.session)) h.session,
      checkFree s partition tPartition ((findPart s partition).map (·.session)) h.session] with
  | some st => .no st
  | none =>
    .wait (modPart partition (fun p => { p with pins := p.pins ++ [(h, model)] })
      (startLong (.modelPin h model partition pinning) s))

/-- The taking of the command. -/
def runModelPinSet (h : Hdr) (model partition : Handle) : State → State :=
  serve kPlain h 16 (modelPinBody h model partition true)

def execModelPinSet (h : Hdr) (model partition : Handle) (s : State) : Result :=
  .next (enter h 0x32 (.modelPinSet h model partition) (runModelPinSet h model partition) s)

/-- The taking of the command. -/
def runModelPinClear (h : Hdr) (model partition : Handle) : State → State :=
  serve kPlain h 16 (modelPinBody h model partition false)

def execModelPinClear (h : Hdr) (model partition : Handle) (s : State) : Result :=
  .next (enter h 0x32 (.modelPinClear h model partition) (runModelPinClear h model partition) s)

/-- A pin in flight sets the mark. -/
def pinSets (s : State) (h : Hdr) : Bool :=
  s.host.long.any fun l => match l with
    | .modelPin x _ _ b => decide (x.mbox = h.mbox) && b
    | _ => false

/-- A model's pin mark on a partition. -/
def markPin (p : Partition) (model : Handle) (b : Bool) : Partition :=
  { p with residents := listUpd (fun r => decide (r.model = model)) (fun r => { r with pinned := b }) p.residents }

/-- A pin of an idle partition, already taken off its queue, takes effect, its copy done, and is answered (R502). -/
def applyPin (p : Partition) (h : Hdr) (model : Handle) (s : State) : State :=
  let keep (p : Partition) : State := modPart p.handle (fun _ => p) s
  if pinSets s h = false then answerLater h stOk 0 [] (keep (markPin p model false))
  else if p.residents.any fun r => decide (r.model = model) then answerLater h stOk 0 [] (keep (markPin p model true))
  else
    match findModel s model with
    | none => answerLater h stNotFound 0 [] (keep p)
    | some m =>
      match makeResident p m true s with
      | none => answerLater h stNoSpace 0 [] (keep p)
      | some q => answerLater h stOk 0 [] (fillPlaces q m (nextOrder (keep q)))

/-- The first pin of an idle partition takes effect (R502). -/
def execModelPinApply (partition : Handle) (s : State) : Result :=
  match findPart s partition with
  | none => .next s
  | some p =>
    match p.pins with
    | [] => .next s
    | (h, model) :: rest => if p.running.isSome then .next s else .next (applyPin { p with pins := rest } h model s)

end Sys2Proof.Machine
end

