-- ==== Sys2Proof/Machine/Sessions.lean ====
section
/-! DEFINITION. Sessions, the lease, the orphaned state, `ADOPT` and `RESET_WORK` (R542, R548 to R551, R560 to R569,
R743). -/

namespace Sys2Proof.Machine

/-! ## Opening, renewing (R548, R560, R561) -/

/-- LEASE_MS: a period, or 0 to keep the one in force (Table 18-5). -/
def leaseOk (ms : Nat) : Bool := decide (ms = 0) || decide (50 ≤ ms ∧ ms ≤ 10000)

/-- The period in force changes; what is left of a running lease changes with it. -/
def setPeriod (ms : Nat) (s : State) : State :=
  if ms = 0 then s
  else s.modHost fun h => { h with leaseMs := ms, leaseLeft := h.leaseLeft.map fun n => n + ms * 25000 - h.leaseMs * 25000 }

/-- Versions of a list: 1 to 8 of them. -/
def versionsOk (vs : List Nat) : Bool := decide (1 ≤ vs.length ∧ vs.length ≤ 8) && vs.all fun v => decide (v < 256)

/-- The highest version of a list that the card supports. -/
def commonVersion (s : State) (vs : List Nat) : Option Nat :=
  (vs.filter fun v => decide (s.host.protoMin ≤ v ∧ v ≤ s.host.protoMax)).max?

/-- `OPEN_SESSION` (R548). -/
def openSessionBody (flags leaseMs : Nat) (versions : List Nat) (s : State) : Reply :=
  if flags < 2 ∧ leaseOk leaseMs = true ∧ versionsOk versions = true then
    match commonVersion s versions with
    | none => .no stBadVersion
    | some v =>
      if 16 ≤ countOf s tSession then .no stLimitExceeded
      else
        let hd := newHandle s tSession
        let s := s.modObj fun o => { o with sessions := o.sessions ++ [⟨hd, v, decide (flags = 1), false⟩] }
        let s := setPeriod leaseMs s
        let s := if s.host.leaseLeft.isNone then renewLease s else s
        .ok (issued hd s)
          (leBytes 4 hd.toNat ++ leBytes 1 v ++ zeroBytes 3 ++ leBytes 4 s.host.leaseMs ++ leBytes 4 s.host.fwVersion)
  else .no stBadValue

/-- The taking of the command. -/
def runOpenSession (h : Hdr) (flags leaseMs : Nat) (versions : List Nat) : State → State :=
  serve kOpen h 16 (openSessionBody flags leaseMs versions)

def execOpenSession (h : Hdr) (flags leaseMs : Nat) (versions : List Nat) (s : State) : Result :=
  .next (enter h 0x01 (.openSession h flags leaseMs versions) (runOpenSession h flags leaseMs versions) s)

/-- `LEASE_RENEW`: the response holds the period in force. -/
def leaseRenewBody (leaseMs : Nat) (s : State) : Reply :=
  if leaseOk leaseMs = false then .no stBadValue
  else
    let s := renewLease (setPeriod leaseMs s)
    .ok s (leBytes 4 s.host.leaseMs)

/-- The taking of the command. -/
def runLeaseRenew (h : Hdr) (leaseMs : Nat) : State → State := serve kStandby h 8 (leaseRenewBody leaseMs)

def execLeaseRenew (h : Hdr) (leaseMs : Nat) (s : State) : Result :=
  .next (enter h 0x03 (.leaseRenew h leaseMs) (runLeaseRenew h leaseMs) s)

/-! ## Closing (R551) -/

/-- A page set ends, its ledger checked; pages posted and not filled are never written. -/
def endPageSet (p : PageSet) (s : State) : State :=
  let s := dropPageWrites p.handle (checkLedger (pageLedger s p) s)
  s.modObj fun o => { o with pageSets := removeKey (·.handle) p.handle o.pageSets }

/-- Every object of a session is ended as its own closing command would end it: streams with their flows, encode streams
before their sources; partitions, clients, models, bobbins and prefixes, pools, destinations with their picots dropped for
RESET, page sets, time units, and pillow regions that nothing of another session uses (R551). -/
def endObjects (h : Handle) (s : State) : State :=
  let mine (x : Stream) : Bool := decide (x.session = h)
  let s := (s.obj.streams.filter fun x => mine x && x.enc.isSome).foldl (fun s x => endStream x s) s
  let s := (s.obj.streams.filter mine).foldl (fun s x => endStream x s) s
  let s := (s.obj.flows.filter fun f => decide (f.session = h)).foldl (fun s f => removeFlow f s) s
  let s := (s.obj.partitions.filter fun p => decide (p.session = h)).foldl (fun s p => dropPartition p.handle s) s
  let s := (s.obj.clients.filter fun c => decide (c.session = h)).foldl (fun s c => dropClient c.handle s) s
  let s := (s.obj.models.filter fun m => decide (m.session = h)).foldl (fun s m => dropModel m.handle s) s
  let s := (s.obj.bobbins.filter fun b => decide (b.session = h) && !b.isPrefix && !b.posted).foldl
    (fun s b => freeBobbin b s) s
  let s := settlePrefixes (s.modObj fun o =>
    { o with bobbins := listUpd (fun b => decide (b.session = h) && b.isPrefix) (fun b => { b with hostRef := false }) o.bobbins })
  let s := releaseHeld ((s.obj.pools.filter fun p => decide (p.session = h)).foldl (fun s p => dropPool p.handle s) s)
  let s := (s.obj.dests.filter fun d => decide (d.session = h)).foldl
    (fun s d => dropDest d (s.modObj fun o => { o with routes := o.routes.filter fun r => decide (r.dest ≠ d.id) })) s
  let s := (s.obj.pageSets.filter fun p => decide (p.session = h)).foldl (fun s p => endPageSet p s) s
  let s := (s.obj.units.filter fun u => decide (u.session = h)).foldl (fun s u => freeUnit u.unit s) s
  let s := (s.obj.regions.filter fun r => decide (r.session = h)).foldl
    (fun s r =>
      if (s.obj.partitions.any fun p => partitionNames p r) || poolInRegion s.obj r then s else clearRegion r s) s
  s.modObj fun o => { o with heldRecs := o.heldRecs.filter fun r => decide (r.1 ≠ h) }

/-- A session is closed; the lease stops with the last one (R560). -/
def endSession (h : Handle) (s : State) : State :=
  let s := endObjects h s
  let s := drainEvents (s.modObj fun o => { o with sessions := removeKey (·.handle) h o.sessions })
  if s.obj.sessions = [] then s.modHost fun x => { x with leaseLeft := none } else s

/-- A session has a stitch queued or running, or a long command in flight in another mailbox. -/
def sessionBusy (s : State) (h : Hdr) : Bool :=
  (s.obj.stitches.any fun t => decide (t.session = h.session)) ||
    s.host.long.any fun l => decide (l.hdr.session = h.session)

/-- `CLOSE_SESSION` (R551). -/
def closeSessionBody (h : Hdr) (s : State) : Reply :=
  if sessionBusy s h then .no stBusyResource else .ok (endSession h.session s) []

/-- The taking of the command. -/
def runCloseSession (h : Hdr) : State → State := serve kStandby h 8 (closeSessionBody h)

def execCloseSession (h : Hdr) (s : State) : Result := .next (enter h 0x02 (.closeSession h) (runCloseSession h) s)

/-! ## The orphaned state (R562 to R564) -/

/-- A command that names an open session is in execution (R562). -/
def sessionCommand (s : State) : Bool :=
  s.host.mboxes.any fun m => m.2.own && (findSession s m.2.session).isSome

/-- The card becomes orphaned: no message is sent for it (R563). -/
def becomeOrphaned (s : State) : State :=
  setCause causeLease (s.modHost fun h => { h with state := .orphaned, leaseLeft := none })

/-- The lease has run out with no command of an open session in execution (R562, R563). -/
def dueLeaseExpiry (s : State) : Result :=
  if s.host.state = .ready ∧ s.host.leaseLeft = some 0 ∧ sessionCommand s = false then .next (becomeOrphaned s)
  else .next s

/-- The deadline is reached (R653). -/
def execLeaseExpiry (s : State) : Result :=
  atDeadline .leaseExpiry dueLeaseExpiry s

/-! ## `ADOPT` (R567, R568) -/

/-- Pictures of a stream's orphan ring pass to the scalers in frame order (R564, R568 step 4). -/
def releaseRing (h : Handle) (s : State) : State :=
  let ring := ((findStream s h).map (·.pics)).getD [] |>.filter fun p => decide (p.place = 3)
  let order := ring.foldl (fun (l : List Picture) p =>
    (l.takeWhile fun q => decide (q.frame ≤ p.frame)) ++ p :: l.dropWhile fun q => decide (q.frame ≤ p.frame)) []
  order.foldl (fun s p => forwardPicture h p (countForwarded h s)) s

/-- Posted pages of a page set are discarded and its ledger restarts; records of pages not acknowledged, and those of the
page being filled, are held again (R568 steps 2 and 6). -/
def restartPages (p : PageSet) (s : State) : State :=
  let old := (p.sent.map (·.recs)).flatten.filter fun r => match r with
    | .stitch _ => true
    | .event _ => false
  let recs := (old ++ p.filling).map fun r => (p.session, r)
  let s := setPageSet
    { p with
      posted := [], postedCount := 0, filledCount := 0, filling := [], fill := 0, frames := 0, sent := [], undone := [] }
    (dropPageWrites p.handle s)
  if recs = [] then s else setCause causeEvent (s.modObj fun o => { o with heldRecs := recs ++ o.heldRecs })

/-- A page destination resumes at ACK_HWM + 1 (R568 step 5). -/
def resumeDest (d : Dest) (s : State) : State :=
  if d.isPages then
    let again := ((d.sent.map (·.picots)).flatten ++ d.filling).filter fun p => decide (d.ackHwm < p.seq)
    setDest { d with queue := again ++ d.queue, filling := [], fill := 0, pageAddr := 0, sent := [], awaiting := [] } s
  else s

/-- Pages, records and destinations of a session start again. -/
def restartDelivery (h : Handle) (s : State) : State :=
  let s := (s.obj.pageSets.filter fun p => decide (p.session = h)).foldl (fun s p => restartPages p s) s
  (s.obj.dests.filter fun d => decide (d.session = h)).foldl (fun s d => resumeDest d s) s

/-- Sessions that an `ADOPT` concerns: every one in the orphaned state, those taken over and held otherwise (R750). -/
def adoptable (s : State) : List Session :=
  if s.host.state = .orphaned then s.obj.sessions else s.obj.sessions.filter (·.held)

/-- `ADOPT` (R567, R568, R750). -/
def adoptBody (snapshot leaseMs : Nat) (versions : List Nat) (s : State) : Reply :=
  let own := decide (s.host.state = .orphaned)
  let ss := adoptable s
  if own = false ∧ ss = [] then .no stWrongState
  else if leaseOk leaseMs = false ∨ versionsOk versions = false ∨ snapshot = 0 ∨ snapshot ≠ s.host.snapshot then
    .no stBadValue
  else if (ss.all fun x => versions.contains x.proto) = false then .no stBadVersion
  else
    let s := ss.foldl (fun s x => restartDelivery x.handle s) s
    let s := s.modObj fun o => { o with sessions := o.sessions.map fun x => { x with held := false } }
    let s := if own then
        let s := setPeriod leaseMs (s.modHost fun h => { h with state := .ready })
        let s := if s.obj.sessions = [] then s else renewLease s
        s.obj.streams.foldl (fun s x => releaseRing x.handle s) s
      else if s.host.leaseLeft.isNone then renewLease s
      else s
    let s := (s.obj.dests.map (·.id)).foldl (fun s d => pump d s) s
    let s := drainEvents (pumpRecords s)
    .ok (issueEvent evAdopted 0 [] s) []

/-- The taking of the command. -/
def runAdopt (h : Hdr) (snapshot leaseMs : Nat) (versions : List Nat) : State → State :=
  serve kAdopt h 24 (adoptBody snapshot leaseMs versions)

def execAdopt (h : Hdr) (snapshot leaseMs : Nat) (versions : List Nat) (s : State) : Result :=
  .next (enter h 0x05 (.adopt h snapshot leaseMs versions) (runAdopt h snapshot leaseMs versions) s)

/-! ## `RESET_WORK` (R569, R743) -/

/-- Queued stitches are cancelled without records (R569 step 1). -/
def cancelQueued (s : State) : State :=
  (s.obj.stitches.filter fun t => decide (t.phase = .queued)).foldl (fun s t => cancelStitch t s) s

/-- Long commands that work on what has been ended fail; those of the pair go on. -/
def failLong (s : State) : State :=
  s.host.long.foldl
    (fun s l => match l with
      | .modelLoad h _ _ _ => answerLater h stWrongState 0 [] (dropReads (.modelLoad h.mbox) s)
      | .streamFeed h f _ _ _ _ _ => answerLater h stWrongState 0 [] (dropReads (.feed f.stream) s)
      | .modelPin h _ _ _ => answerLater h stWrongState 0 [] s
      | .resetWork _ | .pairJoin _ _ _ | .pairEvacuate _ | .resync _ | .audit _ | .pillowPlan _ _ _ _ => s) s

/-- Shared memory: what is not card-private (Table 11-1, Table 11-3). -/
def workAreas : List (Nat × Nat) :=
  [(0, ddrGeneralEnd), (pillowBase, 4 * pillowBytes), (scratchBase, 128 * scratchBytes), (hubShared, hubEnd - hubShared)]

/-- Memory of the replicas that the card holds. -/
def replicaAreas (o : Objects) : List (Nat × Nat) :=
  takenExtents o 2 ++ takenExtents o 3 ++
    (o.regions.map fun r =>
      (maskStacks r.stackMask).map fun k => (pillowAt k (r.g0 * granuleBytes), r.count * granuleBytes)).flatten

/-- Every object of every session is ended and every session closed; the lease stops; the partner is told (R569 steps 3 to
5, R743). Memory outside card-private ranges and the partner's replicas is open from then on (Table 18-8a). -/
def endAllWork (s : State) : State :=
  let s := failLong s
  let s := (s.obj.sessions.map (·.handle)).foldl (fun s h => endSession h s) s
  let s := s.modObj fun o => { o with heldRecs := [], stitches := [] }
  let s := loseAreas workAreas (replicaAreas s.pair.replica) s
  let s := s.modHost fun h =>
    { h with leaseLeft := none, ending := false, state := if h.state = .orphaned then .ready else h.state }
  mirrorItem (fun n => .reset n) (s.modPair fun p => { p with mirrored := s.obj })

/-- The work of every session begins to end: queued stitches go, running ones complete first. -/
def beginEnding (s : State) : State := cancelQueued (s.modHost fun h => { h with ending := true })

/-- The work of every session ends at once: running stitches are stopped (Table 18-8a, R744), without records. -/
def endWorkNow (s : State) : State :=
  let s := abandonRunning (s.modHost fun h => { h with ending := true })
  let s := s.obj.stitches.foldl (fun s t => cancelStitch t s) s
  endAllWork (s.modObj fun o => { o with partitions := o.partitions.map fun p => { p with running := none } })

/-- `RESET_WORK`: answered once the running stitches have completed. -/
def resetWorkBody (h : Hdr) (s : State) : Reply :=
  let s := beginEnding s
  if s.obj.stitches = [] then .ok (endAllWork s) [] else .wait (startLong (.resetWork h) s)

/-- `RESET_WORK` names no session and is permitted in the orphaned state and on a standby (R569; in FAULT R694 holds, log entries 52
and 53). -/
abbrev kReset : CmdKind := { sessionless := true, orphan := true, standby := true }

/-- The taking of the command. -/
def runResetWork (h : Hdr) : State → State := serve kReset h 8 (resetWorkBody h)

def execResetWork (h : Hdr) (s : State) : Result := .next (enter h 0x06 (.resetWork h) (runResetWork h) s)

/-- The work that was being ended has ended, once no stitch is left; a `RESET_WORK` is answered. -/
def endIfIdle (s : State) : State :=
  if s.host.ending = true ∧ s.obj.stitches = [] then
    let waiting := s.host.long.filterMap fun l => match l with
      | .resetWork h => some h
      | _ => none
    let s := endAllWork s
    waiting.foldl (fun s h => answerLater h stOk 0 [] s) s
  else s

/-! ## Unknown opcodes (R542) -/

/-- The taking of a command whose opcode Table 19-1 does not list. -/
def runUnknownOpcode (h : Hdr) (s : State) : State :=
  let s := renewFor h s
  answer h (if s.host.state = .fault then stWrongState else stBadOpcode) 0 [] s.obj s

end Sys2Proof.Machine
end

