-- ==== Sys2Proof/Machine/Diag.lean ====
section
/-! DEFINITION. `POWER_STATE`, `LOG_CONFIG`, `TRACE_SET` and `MEASUREMENTS` (R594, R671 to R673, R698, R702, R763, Table
19-8). -/

namespace Sys2Proof

/-- Bytes of a 256-bit mask. -/
def maskBytes (m : BitVec 256) : List Byte := leBytes 32 m.toNat

/-- A model inserted in load order. -/
def insertModel (m : Model) : List Model → List Model
  | [] => [m]
  | x :: l => if m.order < x.order then m :: x :: l else x :: insertModel m l

/-- Loaded prickings in load order (R763). -/
def Objects.loaded (o : Objects) : List Model := o.models.foldl (fun l m => insertModel m l) []

namespace Machine

/-! ## Power states by command (R594, R698, R702) -/

/-- PLL_IDLE_US: a time, or 0 to keep the one in force. -/
def pllIdleOk (us : Nat) : Bool := decide (us = 0) || decide (10 ≤ us ∧ us ≤ 1000000)

/-- PLL_IDLE_US set unless it is 0. -/
def setPllIdle (us : Nat) (s : State) : State :=
  if us = 0 then s else s.modPower fun p => { p with pllIdleUs := us }

/-- Every DDR channel enters or leaves self-refresh. -/
def selfRefreshAll (on : Bool) (s : State) : State :=
  (List.range 4).foldl (fun s c => s.modDdr c fun d => { d with selfRefresh := on }) s

/-- The card is in NAP: the compute PLLs are stopped, every DDR channel is in self-refresh (R702). -/
def enterNap (s : State) : State :=
  selfRefreshAll true (s.modPower fun p => { p with state := 3, pll := false, vdd := [600, 600, 600, 600] })

/-- `POWER_STATE` with TARGET NAP. -/
def powerNapBody (us : Nat) (s : State) : Reply :=
  if pllIdleOk us = false then .no stBadValue
  else if s.obj.streams ≠ [] ∨ s.obj.stitches ≠ [] then .no stBusyResource
  else
    let s := setPllIdle us s
    .ok (if s.power.state = 1 then enterNap s else s) []

/-- `POWER_STATE` with TARGET READY: the state a card that takes commands already has. -/
def powerReadyBody (us : Nat) (s : State) : Reply :=
  if pllIdleOk us = false then .no stBadValue else .ok (setPllIdle us s) []

/-- The taking of the command. -/
def runPowerStateNap (h : Hdr) (us : Nat) : State → State := serve kStandby h 8 (powerNapBody us)

def execPowerStateNap (h : Hdr) (us : Nat) (s : State) : Result :=
  .next (enter h 0xA1 (.powerStateNap h us) (runPowerStateNap h us) s)

/-- The taking of the command. -/
def runPowerStateReady (h : Hdr) (us : Nat) : State → State := serve kStandby h 8 (powerReadyBody us)

def execPowerStateReady (h : Hdr) (us : Nat) (s : State) : Result :=
  .next (enter h 0xA1 (.powerStateReady h us) (runPowerStateReady h us) s)

/-! ## The log (R671 to R673) -/

/-- `LOG_CONFIG`. -/
def logConfigBody (levels : List Nat) (s : State) : Reply :=
  if levels.length ≠ 4 ∨ (levels.all fun l => decide (l ≤ 7)) = false then .no stBadValue
  else .ok (s.modFw fun w => { w with levels := levels }) (leBytes 8 s.fw.logIndex)

/-- The taking of the command. -/
def runLogConfig (h : Hdr) (levels : List Nat) : State → State := serve kStandby h 8 (logConfigBody levels)

def execLogConfig (h : Hdr) (levels : List Nat) (s : State) : Result :=
  .next (enter h 0xB0 (.logConfig h levels) (runLogConfig h levels) s)

/-- `TRACE_SET`: the response holds the mask in force. -/
def traceSetBody (mask : BitVec 256) (s : State) : Reply := .ok (s.modFw fun w => { w with trace := mask }) (maskBytes mask)

/-- The taking of the command. -/
def runTraceSetEnable (h : Hdr) (mask : BitVec 256) : State → State :=
  serve kStandby h 40 fun s => traceSetBody (s.fw.trace ||| mask) s

def execTraceSetEnable (h : Hdr) (mask : BitVec 256) (s : State) : Result :=
  .next (enter h 0xB1 (.traceSetEnable h mask) (runTraceSetEnable h mask) s)

/-- The taking of the command. -/
def runTraceSetDisable (h : Hdr) (mask : BitVec 256) : State → State :=
  serve kStandby h 40 fun s => traceSetBody (s.fw.trace &&& ~~~mask) s

def execTraceSetDisable (h : Hdr) (mask : BitVec 256) (s : State) : Result :=
  .next (enter h 0xB1 (.traceSetDisable h mask) (runTraceSetDisable h mask) s)

/-- The taking of the command. -/
def runTraceSetReplace (h : Hdr) (mask : BitVec 256) : State → State := serve kStandby h 40 (traceSetBody mask)

def execTraceSetReplace (h : Hdr) (mask : BitVec 256) (s : State) : Result :=
  .next (enter h 0xB1 (.traceSetReplace h mask) (runTraceSetReplace h mask) s)

/-! ## Measurements (R763) -/

/-- The measurement list: kind, model handle and digest of each index. -/
def measurementList (s : State) : List (Nat × Handle × List Byte) :=
  (1, 0, Config.bootRomDigest) :: (2, 0, s.sec.fwDigest) :: s.obj.loaded.map fun m => (3, m.handle, m.digest)

/-- A record of `MEASUREMENTS`. -/
def measurementRecord (index : Nat) (x : Nat × Handle × List Byte) : List Byte :=
  leBytes 2 index ++ leBytes 1 x.1 ++ zeroBytes 1 ++ leBytes 4 x.2.1.toNat ++
    ((List.range 32).map fun i => x.2.2.getD i 0) ++ zeroBytes 8

/-- `MEASUREMENTS`. -/
def measurementsBody (first count : Nat) (s : State) : Reply :=
  if ¬ (1 ≤ count ∧ count ≤ 80) then .no stBadValue
  else
    let l := measurementList s
    let part := (((List.range l.length).zip l).drop first).take count
    .ok s (leBytes 2 l.length ++ leBytes 2 part.length ++ zeroBytes 4 ++
      (part.map fun x => measurementRecord x.1 x.2).flatten)

/-- The taking of the command. -/
def runMeasurements (h : Hdr) (first count : Nat) : State → State := serve kStandby h 8 (measurementsBody first count)

def execMeasurements (h : Hdr) (first count : Nat) (s : State) : Result :=
  .next (enter h 0xC0 (.measurements h first count) (runMeasurements h first count) s)

end Machine
end Sys2Proof
end

