-- ==== Sys2Proof/Machine/Pair.lean ====
section
/-! DEFINITION. The redundant pair: forming it, mirroring, detecting a failed partner, taking its work over, evacuating
(chapter 24, R593, R730 to R752). -/

namespace Sys2Proof

/-- The extents of DDR and hub SRAM that an object takes. -/
def ObjRec.extents : ObjRec → List (Nat × Nat × Nat)
  | .pool p => if p.space = 1 then [] else [(p.space, p.base, p.bytes)]
  | .model m => [(2, m.ddrBase, m.ddrBytes)]
  | .partition p =>
    (p.places.map fun x => (2, x.ddrBase, x.ddrBytes)) ++ p.places.map fun x => (3, x.hubBase, x.hubBytes)
  | _ => []

/-- Two roles asked for in MIRRORED mode go together (R731). -/
def rolesFit (mode a b : Nat) : Bool := decide (mode = 2) || decide (a = 0) || decide (b = 0) || decide (a ≠ b)

namespace Machine

/-- PAIR_STATE reasons of Table 24-4. -/
abbrev rsJoined : Nat := 1
abbrev rsInSync : Nat := 2
abbrev rsFailover : Nat := 3
abbrev rsEvacuated : Nat := 4
abbrev rsBrideLost : Nat := 5
abbrev rsPartnerReset : Nat := 6

/-- A PAIR_STATE event (Table 24-2). -/
def pairEvent (reason : Nat) (s : State) : State :=
  issueEvent evPairState 0 [pairCode s, s.pair.mode, reason, s.pair.partnerSerial] s

/-- The card with the lower ID.SERIAL is senior (R691). -/
def isSenior (s : State) : Bool := decide (Config.serial.toNat < s.pair.partnerSerial)

/-! ## Outputs that waited (R736 to R738) -/

/-- An output that waited goes. -/
def releaseDeferred (d : Deferred) (s : State) : State :=
  match d with
  | .answer h st det resp _ => writeAnswer h st det resp (restartOutput resp s)
  | .stitch id => releaseStitch id s
  | .out (.msix v) => sendMsix v s
  | .out (.hostWrite a bs r) => send (.hostWrite a bs r) s
  | .out m => s.push m
  | .done d => sendDone d s
  | .datagram dest last m => sendDatagram dest last m s

/-- A command that the partner refused: what it changed is taken back, and the partner's status answered (R738). -/
def refuseDeferred (status : Nat) (d : Deferred) (s : State) : State :=
  match d with
  | .answer h _ _ _ undo =>
    let s := s.modObj fun o => Objects.applyAll o undo
    writeAnswer h status 0 [] (s.modPair fun p => { p with mirrored := s.obj })
  | d => releaseDeferred d s

/-- Every output that waits goes, the card having left the pair (R737). -/
def releaseAll (s : State) : State :=
  let ws := s.pair.waiting
  ws.foldl (fun s w => releaseDeferred w.2 s) (s.modPair fun p => { p with waiting := [], checkpoints := [] })

/-- The partner acknowledges items up to a number, the last of them with a status. -/
def acknowledged (seq status : Nat) (s : State) : State :=
  let go := s.pair.waiting.filter fun w => decide (w.1 ≤ seq)
  let s := s.modPair fun p =>
    { p with
      ackSeq := max p.ackSeq seq
      waiting := p.waiting.filter fun w => !decide (w.1 ≤ seq)
      checkpoints := p.checkpoints.filter fun c => decide (seq < c.1) }
  go.foldl (fun s w => if w.1 = seq ∧ status ≠ 0 then refuseDeferred status w.2 s else releaseDeferred w.2 s) s

def execMirrorAckReceive (seq status : Nat) (s : State) : Result :=
  if s.pair.mode = 0 then .next s else .next (acknowledged seq status s)

/-! ## Leaving and forming a pair (R593, R731, R732) -/

/-- The card is in no pair: replicas go, and what waited proceeds without mirroring. -/
def leavePair (s : State) : State :=
  releaseAll (s.modPair fun p =>
    { p with
      mode := 0, role := 0, inSync := false, sendSeq := 0, ackSeq := 0, mirrored := {}, replica := {}, ownJoin := none,
      partnerJoin := none })

/-- The header of the `PAIR_JOIN` that waits. -/
def joinHdr (s : State) : Option Hdr :=
  s.host.long.findSome? fun l => match l with
    | .pairJoin h _ _ => some h
    | _ => none

/-- This card's role when a pair forms: what it asks for, else what its partner leaves, else by seniority (R731). -/
def roleOfJoin (s : State) (mode own other : Nat) : Nat :=
  if mode = 2 then 0
  else if own ≠ 0 then own
  else if other ≠ 0 then 3 - other
  else if isSenior s then 1 else 2

/-- A standby holds no object, and no session but the one that joins (R731). -/
def emptyFor (s : State) (sess : Handle) : Bool :=
  decide (({ s.obj with sessions := [], heldRecs := [], addrs := [] } : Objects) = {}) &&
    s.obj.sessions.all fun x => decide (x.handle = sess)

/-- Both cards have asked: the status of this card's `PAIR_JOIN`, and the state with the pair formed where it is OK. -/
def formPair (sess : Handle) (mode own pmode other : Nat) (s : State) : Nat × State :=
  let role := roleOfJoin s mode own other
  if mode ≠ pmode ∨ rolesFit mode own other = false then (stDenied, s)
  else if mode = 1 ∧ role = 2 ∧ emptyFor s sess = false then (stWrongState, s)
  else
    let s := s.modPair fun p =>
      { p with
        mode := mode, role := role, inSync := false, sendSeq := 0, ackSeq := 0, waiting := [], mirrored := {},
        replica := {}, ownJoin := none, partnerJoin := none, checkpoints := [], lastBeat := s.time.tick,
        lastNetBeat := s.time.tick }
    (stOk, pairEvent rsJoined s)

/-- A `PAIR_JOIN` of the partner still counts: it was taken within 2,000 ms (R731). -/
def freshJoin (s : State) (j : Nat × Nat × Nat) : Bool := decide (s.time.tick ≤ j.2.2 + 50000000)

/-- `PAIR_JOIN` (R593, R731). -/
def pairJoinBody (h : Hdr) (mode role : Nat) (s : State) : Reply :=
  if (joinHdr s).isSome then .no stBusyResource
  else if ¬ (1 ≤ mode ∧ mode ≤ 2 ∧ role ≤ 2) then .no stBadValue
  else if s.pair.lanes < 4 ∨ s.pair.authenticated = false then .no stPartnerAbsent
  else if s.pair.mode ≠ 0 then .no stWrongState
  else
    let told := s.push (.bride (.join mode role Config.serial.toNat))
    match s.pair.partnerJoin.filter (freshJoin s) with
    | some (pmode, prole, _) =>
      match formPair h.session mode role pmode prole told with
      | (0, s) => .ok s []
      | (st, _) => .counted (told.modPair fun p => { p with partnerJoin := none }) st 0 []
    | none =>
      .wait (startLong (.pairJoin h mode role)
        (told.modPair fun p => { p with ownJoin := some (mode, role, s.time.tick), partnerJoin := none }))

/-- The taking of the command. -/
def runPairJoin (h : Hdr) (mode role : Nat) : State → State := serve kStandby h 8 (pairJoinBody h mode role)

def execPairJoin (h : Hdr) (mode role : Nat) (s : State) : Result :=
  .next (enter h 0x90 (.pairJoin h mode role) (runPairJoin h mode role) s)

/-- The partner has taken a `PAIR_JOIN`. -/
def execPartnerPairJoin (mode role serial : Nat) (s : State) : Result :=
  if s.pair.mode ≠ 0 ∨ s.pair.lanes < 4 ∨ s.host.state = .fault then .next s
  else
    let s := s.modPair fun p => { p with partnerSerial := serial }
    match s.pair.ownJoin, joinHdr s with
    | some (m, r, _), some h =>
      match formPair h.session m r mode role s with
      | (0, s) => .next (answerLater h stOk 0 [] s)
      | (st, s) => .next (answerLater h st 0 [] (s.modPair fun p => { p with ownJoin := none }))
    | _, _ => .next (s.modPair fun p => { p with partnerJoin := some (mode, role, s.time.tick) })

/-- The partner has issued no `PAIR_JOIN` within 2,000 ms (R731). -/
def duePairJoinTimeout (s : State) : Result :=
  match joinHdr s with
  | none => .next s
  | some h => .next (answerLater h stPartnerAbsent 0 [] (s.modPair fun p => { p with ownJoin := none }))

/-- The deadline is reached (R653). -/
def execPairJoinTimeout (s : State) : Result :=
  atDeadline .pairJoinTimeout duePairJoinTimeout s

/-- This card's copy of its objects to the partner is done (R732). -/
def execPairSyncComplete (s : State) : Result :=
  if s.pair.mode = 0 ∨ s.pair.inSync then .next s
  else
    let s := s.modPair fun p => { p with inSync := true }
    .next (pairEvent rsInSync (mirrorFlush s))

/-! ## Replicas (R735, R738, R743) -/

/-- The handles of objects. -/
def allHandles (o : Objects) : List Handle :=
  o.sessions.map (·.handle) ++ o.streams.map (·.handle) ++ o.flows.map (·.handle) ++ o.models.map (·.handle) ++
  o.bobbins.map (·.handle) ++ o.pools.map (·.handle) ++ o.clients.map (·.handle) ++ o.pageSets.map (·.handle) ++
  o.units.map (·.handle) ++ o.partitions.map (·.handle)

/-- The GENs of handles that this card adopts are kept, so that its next handle of an INDEX follows them (R11). -/
def adoptGens (l : List Handle) (s : State) : State := l.foldl (fun s h => issued h s) s

/-- An object of the partner finds its memory free on this card. -/
def replicaFits (s : State) (o : ObjRec) : Bool :=
  o.extents.all fun e => clearOf (takenExtents s.obj e.1) e.2.1 e.2.2

/-- A replica destination changed. -/
def modReplicaDest (i : Nat) (f : Dest → Dest) (s : State) : State :=
  s.modPair fun p =>
    { p with replica := { p.replica with dests := listUpd (fun d => decide (d.id = i)) f p.replica.dests } }

/-- A release on the partner: the replica's SEQUENCE and queue follow. -/
def Dest.mirrorRelease (d : Dest) (seq : Nat) (x : Picot) : Dest :=
  if seq < d.nextSeq then d
  else { d with nextSeq := seq + 1, produced := d.produced + 1, queue := d.queue ++ [{ x with seq := seq }] }

/-- A delivery on the partner: the picots up to a SEQUENCE are delivered, those of a page not yet acknowledged. -/
def Dest.mirrorDelivery (d : Dest) (seq : Nat) : Dest :=
  let all := d.filling ++ d.queue
  let gone := (d.awaiting ++ all).filter fun p => decide (p.seq ≤ seq)
  let fresh := gone.filter fun p => decide (d.deliveredSeq < p.seq)
  { d with
    queue := all.filter fun p => decide (seq < p.seq), filling := [], fill := 0
    awaiting := d.awaiting.filter fun p => decide (seq < p.seq), lastSent := max d.lastSent seq
    delivered := d.delivered + fresh.length
    deliveredSeq := max d.deliveredSeq seq
    sent :=
      if d.isPages ∧ gone ≠ [] ∧ (d.sent.all fun x => decide (x.lastSeq ≠ seq)) = true then
        d.sent ++ [⟨d.pageAddr, d.pageSeq, seq, [], gone⟩]
      else d.sent }

/-- A re-post on the partner. -/
def Dest.mirrorRepost (d : Dest) (seq : Nat) : Dest :=
  { d with ackHwm := max d.ackHwm seq, sent := d.sent.filter fun x => decide (seq < x.lastSeq) }

/-- A replica bobbin's memory follows its record: one that takes its run is laid out there, the end of a copy from its prefix is
carried out, and its header is written (R290, R294, R311, R314, R318, R323). A posted join has no run yet. The replicas are the
state's objects. -/
def followBobbin (old : Option Bobbin) (x : Bobbin) (s : State) : State :=
  let placed := old.filter fun b => !b.posted
  let s := match placed with
    | none =>
      if x.isPrefix then s
      else
        let n := 2 * x.layout.tables * x.layout.slots
        (bobbinBases s x).foldl (fun s a => hubStore (a + x.layout.scrOff) (emptyScores n s) s) s
    | some b =>
      match (b.link.bind (findBobbin s)), b.copying, x.copying with
      | some q, 1, 0 => linkCopy x q s
      | some q, 2, 0 => forkRecords x q x.pos s
      | _, _, _ => s
  if (placed.map (·.header)) = some x.header then s else writeHeader x.handle s

/-- The tags of this card's DDR follow a replica pool: a buffer or granule that it shows allocated, or at another generation, has
its lines tagged (R343, R375, R735). -/
def followPool (old : Option Pool) (p : Pool) (s : State) : State :=
  if p.space ≠ 2 then s
  else
    (p.bufs.filter fun x => x.2.allocated &&
        old.all fun q => !((q.buf x.1).allocated && decide ((q.buf x.1).gen = x.2.gen))).foldl
      (fun s x => tagRewrite (p.addrOf x.1 / 64) (p.bufBytes / 64) p.id x.2.gen s) s

/-- A destination's record keeps the marks of the deliveries that were mirrored before (R735). -/
def Dest.marked (x old : Dest) : Dest :=
  if x.deliveredSeq < old.deliveredSeq then
    { x with
      awaiting := x.awaiting.filter fun p => decide (old.deliveredSeq < p.seq)
      delivered := x.delivered + (x.awaiting.filter fun p => decide (x.deliveredSeq < p.seq ∧ p.seq ≤ old.deliveredSeq)).length
      deliveredSeq := old.deliveredSeq }
  else x

/-- A mirrored change as this card keeps it: a posting counts from the tick in which its item came (R499), and a record that has
come to stand in a page is held by it (R735). -/
def ObjRec.received (r : ObjRec) (o : Objects) (tick : Nat) : ObjRec :=
  match r with
  | .stitch x =>
    .stitch { x with postTick := ((o.stitches.find? fun t => decide (t.id = x.id)).map (·.postTick)).getD tick }
  | .dest x => .dest (((o.dests.find? fun d => decide (d.id = x.id)).map (Dest.marked x)).getD x)
  | r => r

/-- Records of the partner that stand in no page yet, after a page set's change. -/
def pruneRecords (r : ObjRec) (held : List (Handle × CRec)) : List (Handle × CRec) :=
  match r with
  | .pageSet p =>
    let inPages := p.filling ++ (p.sent.map (·.recs)).flatten
    held.filter fun x => !(decide (x.1 = p.session) && inPages.contains x.2)
  | _ => held

/-- One mirrored change of an object takes effect on its replica; what it says of a handle's GEN and of stitch numbers is kept
(R11, R487, R735, R739). -/
def applyObject (r : ObjRec) (s : State) : State :=
  let old := s.pair.replica
  let r := ObjRec.received r old s.time.tick
  let seen := match r with
    | .stitch x => max x.id x.wire
    | _ => 0
  let new := if shadowing s then old.follow s.time.tick r else old.apply r
  let s := adoptGens (allHandles (Objects.apply {} r)) (s.modPair fun p =>
    { p with replica := { new with heldRecs := pruneRecords r new.heldRecs }, stitchSeen := max p.stitchSeen seen })
  match r with
  | .bobbin x =>
    if x.posted then s
    else { followBobbin (old.bobbins.find? fun b => decide (b.handle = x.handle)) x { s with obj := s.pair.replica } with obj := s.obj }
  | .pool p => followPool (old.pools.find? fun q => decide (q.handle = p.handle)) p s
  | _ => s

/-- A mirror item takes effect; the status of its acknowledgement. -/
def applyItem (m : MirrorItem) (s : State) : Nat × State :=
  match m with
  | .object o => if replicaFits s o = false then (stNoSpace, s) else (stOk, applyObject o s)
  | .checkpoint _ os log =>
    (stOk, log.foldl (fun s x => hubStore x.1 x.2 s) (os.foldl (fun s r => applyObject r s) s))
  | .accessUnit h au =>
    (stOk, s.modPair fun p =>
      { p with replica := { p.replica with
        streams := listUpd (fun x => decide (x.handle = h)) (fun x => { x with aus := x.aus ++ [au] }) p.replica.streams } })
  | .release i seq x => (stOk, modReplicaDest i (fun d => Dest.mirrorRelease d seq x) s)
  | .delivery i seq => (stOk, modReplicaDest i (fun d => Dest.mirrorDelivery d seq) s)
  | .repost i seq => (stOk, modReplicaDest i (fun d => Dest.mirrorRepost d seq) s)
  | .record sess r =>
    (stOk, s.modPair fun p => { p with replica := { p.replica with heldRecs := p.replica.heldRecs ++ [(sess, r)] } })
  | .contents a bs => (stOk, hubStore a bs s)
  | .reset => (stOk, pairEvent rsPartnerReset (s.modPair fun p => { p with replica := {} }))

/-- A bride message that needs action wakes the card from NAP (Table 23-3). -/
def wakeFromNap (s : State) : State :=
  if s.power.state = 3 then s.modPower fun p => { p with state := 5 } else s

/-- A mirror item arrives: it is applied and acknowledged. -/
def execMirrorItemReceive (seq : Nat) (m : MirrorItem) (s : State) : Result :=
  if s.pair.mode = 0 ∨ s.host.state = .fault then .next s
  else
    let (st, s) := applyItem m (wakeFromNap s)
    .next (s.push (.bride (.ack seq st)))

/-! ## Failover (R741 to R750) -/

/-- Addresses and groups of the failed card become this card's, announced three times each (R745 step 1). -/
def takeAddresses (s : State) : State :=
  let new := s.pair.replica.addrs.filter fun a => !s.obj.addrs.contains a
  let s := s.modObj fun o => { o with addrs := o.addrs ++ new }
  let s := (List.range 3).foldl
    (fun s _ => s.pair.replica.addrs.foldl (fun s a => s.push (.frame a.port a.vlan (.gratuitous a.addr))) s) s
  s.pair.replica.groups.foldl (fun s g => s.push (.frame g.port g.vlan (.groupReport g.group g.source false))) s

/-- A destination as the survivor takes it: UDP destinations resend what was never marked delivered (R745 step 4). -/
def Dest.taken (d : Dest) : Dest :=
  let left := (d.awaiting ++ d.filling ++ d.queue).filter fun p => decide (d.deliveredSeq < p.seq)
  if d.isPages then { d with queue := d.filling ++ d.queue, filling := [], fill := 0, pageAddr := 0 }
  else { d with queue := left, filling := [], fill := 0, awaiting := [], mac := none }

/-- A stream as the survivor takes it: in SHARED mode it waits for a random access point (R748); in MIRRORED mode it goes on
as its shadow stands (R747). -/
def Stream.taken (x : Stream) (shared : Bool) : Stream :=
  if shared then
    { x with
      enc := x.enc.map fun e =>
        { e with working := [], history := e.history.take (e.working.foldl (fun n w => min n w.place) e.history.length) }
      parse := .skipping 5, skipReason := none, parsing := 0, pics := [], aus := [], preparing := 0 }
  else { x with preparing := 0 }

/-- A stitch ran on the failed card at the last checkpoint (R745 step 3). -/
def Stitch.ran (t : Stitch) : Bool :=
  match t.phase with
  | .queued | .recorded _ => false
  | .joining | .copying | .starting | .running => true

/-- A stitch as the survivor takes it: one that ran starts again ahead of every other, with its bindings (R745 step 3). Its
waiting time counts from the tick in which its posting was mirrored (R499; DEDUCED, log entry 164). -/
def Stitch.taken (t : Stitch) (tick : Nat) : Stitch :=
  if Stitch.ran t then
    { t with
      phase := .joining, replayed := true, rerun := false, finished := [], stop := none, detail := 0, selTick := tick }
  else t

/-- Objects of the failed card as the survivor takes them; its sessions are held (R745 step 2, R750). -/
def Objects.taken (o : Objects) (shared : Bool) (tick : Nat) : Objects :=
  let ran := o.stitches.filter Stitch.ran
  { o with
    sessions := o.sessions.map fun x => { x with held := true }
    streams := o.streams.map fun x => Stream.taken x shared
    stitches := (o.stitches.map fun t => Stitch.taken t tick)
    bobbins := o.bobbins.map fun b => { b with rewriting := false }
    partitions := o.partitions.map fun p =>
      { p with running := (ran.find? fun t => decide (t.req.partition = p.handle)).map (·.id) }
    dests := o.dests.map Dest.taken
    addrs := [] }

/-- Stitches taken over bear numbers from `base` on among the survivor's, and keep their STITCH_IDs (R487). -/
def Objects.renumber (o : Objects) (base : Nat) : Objects :=
  let new (i : Nat) : Nat := base + (o.stitches.map (·.id)).findIdx (· = i)
  { o with
    stitches := o.stitches.map fun t => { t with id := new t.id }
    items := o.items.map fun i => match i.state with
      | .bound t => { i with state := .bound (new t) }
      | _ => i
    partitions := o.partitions.map fun p => { p with running := p.running.map new } }

/-- This card's objects with those taken over. -/
def Objects.join (a b : Objects) : Objects where
  sessions := a.sessions ++ b.sessions
  streams := a.streams ++ b.streams
  flows := a.flows ++ b.flows
  models := a.models ++ b.models
  bobbins := a.bobbins ++ b.bobbins
  pools := a.pools ++ b.pools
  clients := a.clients ++ b.clients
  pageSets := a.pageSets ++ b.pageSets
  units := a.units ++ b.units
  partitions := a.partitions ++ b.partitions
  stitches := a.stitches ++ b.stitches
  items := a.items ++ b.items
  jobs := a.jobs ++ b.jobs
  dests := a.dests ++ b.dests
  routes := a.routes ++ b.routes
  addrs := a.addrs ++ b.addrs
  groups := a.groups ++ b.groups
  regions := a.regions ++ b.regions
  heldPicots := a.heldPicots ++ b.heldPicots
  heldRecs := a.heldRecs ++ b.heldRecs

/-- An encode stream taken over in MIRRORED mode: each picture that was being encoded is encoded again from its start, by the
same engine of this card, and pictures that wait to be scaled are scaled from their shadow (R747). -/
def resumeEncode (x : Stream) (s : State) : State :=
  match x.enc with
  | none => s
  | some e =>
    let s := e.working.foldl
      (fun (s : State) w => s.modEng (16 + w.engine) fun v => { v with run := 1, stream := x.handle, since := s.time.tick }) s
    (e.pics.filter (·.scaling)).foldl
      (fun s q =>
        match (findStream s e.decl.source).bind fun y => (y.pics.find? fun p => decide (p.frame = q.frame)).map fun p => (y, p) with
        | none => s
        | some (y, p) =>
          let d := encodeDesc e.decl
          let strips := (levelStrips (sourceOf y p d) d 0 (d.outW, d.outH) 0).filter fun t => decide (q.luma.length ≤ t.first)
          addJob (fun n =>
            { order := n, item := 0, stream := y.handle, output := 0, frame := p.frame, buf := ⟨0, 0, 0⟩, desc := d,
              marginPct := 0, fit := 0, cuts := [], strips := strips, encode := some x.handle }) s) s

/-- The survivor sheds best-effort work in SHARED mode, each cancelled stitch with its record (R748). -/
def shedWork (taken : List Partition) (s : State) : State :=
  let overlaps (p : Partition) : Bool :=
    !(taken.any fun q => decide (q.handle = p.handle)) && taken.any fun q => decide (q.quads &&& p.quads ≠ 0)
  let s := s.modObj fun o =>
    { o with partitions := listUpd overlaps (fun p => { p with suspended := true }) o.partitions }
  let shed := s.obj.stitches.filter fun t =>
    decide (t.phase = .queued) &&
      ((taken.any fun q => decide (q.handle = t.req.partition) && decide (t.req.cls ≠ 0)) ||
        s.obj.partitions.any fun p => decide (p.handle = t.req.partition) && overlaps p)
  shed.foldl (fun s t => cancelStitch t s) s

/-- Evacuation ends unfinished: SERVICE goes off (R752). -/
def stopEvacuating (s : State) : State :=
  if s.pair.evacuating then
    let waiting := s.host.long.filterMap fun l => match l with
      | .pairEvacuate h => some h
      | _ => none
    waiting.foldl (fun s h => answerLater h stPartnerAbsent 0 [] s) (s.modPair fun p => { p with evacuating := false })
  else s

/-- This card takes over its partner's work (R745 to R750). `cause`: the tick of the cause. -/
def takeOver (kind cause : Nat) (s : State) : State :=
  let s := stopEvacuating s
  let shared := decide (s.pair.mode = 2)
  let r := s.pair.replica
  let base := max s.ctr.stitchId (s.pair.stitchSeen + 1)
  let got := Objects.renumber (Objects.taken r shared s.time.tick) base
  let s := takeAddresses s
  let s := leavePair s
  let s := adoptGens (allHandles got) (s.modObj fun o => Objects.join o got)
  let s := if shared then s else got.streams.foldl (fun s x => resumeEncode x s) s
  let ran := (got.stitches.filter Stitch.ran).map (·.id)
  let waiting := got.heldPicots.length + got.dests.foldl (fun n d => n + d.buffered) 0
  let s := s.modCtr fun c =>
    { c with
      posted := c.posted + got.stitches.length, produced := c.produced + waiting, stitchId := base + got.stitches.length }
  let s := got.stitches.foldl
    (fun s t => match t.phase with
      | .recorded rec_ => countStitch t rec_ s
      | _ => s) s
  let s := if shared then shedWork got.partitions s else s
  let s := got.streams.foldl (fun s x => kick x.handle s) s
  let s := got.dests.foldl
    (fun s d => if d.isPages then s else s.push (.frame d.req.port d.req.vlan (.resolve d.req.dstAddr))) s
  let s := s.modPair fun p => { p with failovers := p.failovers + 1 }
  let s := pairEvent rsFailover s
  if ran = [] then
    issueEvent evFailover 0 [kind, 0, got.streams.length, (s.time.tick - cause) * 40 / 1000] s
  else s.modPair fun p => { p with failover := some ⟨kind, cause, ran.length, ran, got.streams.length⟩ }

/-- Partner lost with no takeover: both cards leave the pair and keep their own work (R741). -/
def brideLost (s : State) : State :=
  let s := stopEvacuating s
  let s := s.modPair fun p => { p with mode := 0, role := 0, inSync := false }
  let s := pairEvent rsBrideLost s
  leavePair s

/-- The partner's work is taken over; a card that sleeps asks the host to wake it, and takes the work then (R620, R741). -/
def takeWork (kind cause : Nat) (s : State) : State :=
  if 6 ≤ s.power.state then signalWake (s.modPair fun p => { p with wakeFor := some (kind, cause) })
  else takeOver kind cause (wakeFromNap s)

/-- The decision on a partner that has gone silent (R737, R741). -/
def decidePartner (networkStopped : Bool) (s : State) : State :=
  if s.pair.mode = 0 ∨ s.host.state = .fault then s
  else if networkStopped && healthy s then takeWork 0 s.pair.lastBeat s
  else brideLost s

def dueBrideHeartbeatTimeout (networkStopped : Bool) (s : State) : Result := .next (decidePartner networkStopped s)

/-- The deadline is reached (R653). -/
def execBrideHeartbeatTimeout (networkStopped : Bool) (s : State) : Result :=
  atDeadline (.brideHeartbeatTimeout networkStopped) (dueBrideHeartbeatTimeout networkStopped) s

/-- A mirror item has gone unacknowledged for 5 ms (R737). -/
def dueMirrorAckTimeout (networkStopped : Bool) (s : State) : Result :=
  if mustWait s then .next (decidePartner networkStopped s) else .next s

/-- The deadline is reached (R653). -/
def execMirrorAckTimeout (networkStopped : Bool) (s : State) : Result :=
  atDeadline (.mirrorAckTimeout networkStopped) (dueMirrorAckTimeout networkStopped) s

/-- The partner reports an escalated fault, or its evacuation as kind 0 (R741). A report to a card in OFF, which holds no pair any
more, shows that a partner needs it (R620). -/
def execPartnerFaultReport (kind : Nat) (s : State) : Result :=
  if s.power.state = 7 then .next (signalWake s)
  else if healthy s = false ∨ s.host.state = .fault then .next s
  else .next (takeWork kind s.time.tick s)

/-- The card finds that its partner has taken its work: it stops all output and enters FAULT (R742). -/
def execPartnerTakeoverDetected (s : State) : Result :=
  if s.host.state = .fault then .next s
  else
    let s := s.modPair fun p => { p with mode := 0, role := 0, inSync := false, waiting := [], checkpoints := [] }
    .next (enterFault fkAudit 0xFF s)

/-! ## Heartbeats and the bride (R730, R740, R772) -/

/-- The card is in a pair over a usable bride, and core 3 runs (R666). -/
def beating (s : State) : Bool :=
  decide (s.pair.mode ≠ 0) && decide ((s.cc 3).run = 1) && !decide (s.host.state = .fault) && decide (s.power.state < 6)

def execBrideHeartbeatSend (s : State) : Result :=
  if beating s ∧ 4 ≤ s.pair.lanes then .next (s.push (.bride .heartbeat)) else .next s

/-- A heartbeat datagram goes out on every logical port that holds a card address, to the partner's first address on it. -/
def execNetworkHeartbeatSend (s : State) : Result :=
  if beating s then
    .next ((List.range 8).foldl
      (fun s port =>
        match firstAddr s port, s.pair.replica.addrs.find? fun a => decide (a.port = port) with
        | some a, some b => s.push (.frame port a.vlan (.heartbeat a.addr b.addr))
        | _, _ => s) s)
  else .next s

def execBrideHeartbeatReceive (s : State) : Result := .next (s.modPair fun p => { p with lastBeat := s.time.tick })

/-- A lane is lost; with fewer than 4 the bride is lost (R730). -/
def execBrideLaneLoss (lane : Nat) (s : State) : Result :=
  if 8 ≤ lane then .next s else .next (s.modPair fun p => { p with lanes := p.lanes - 1 })

/-- A reconnected cable retrains its lanes; the pair re-forms only through `PAIR_JOIN` (R772). -/
def execBrideCableReconnect (lanes : Nat) (s : State) : Result :=
  .next ((if s.pair.mode = 0 then s else brideLost s).modPair fun p => { p with lanes := min lanes 8 })

/-! ## Evacuation (R751, R752) -/

/-- Evacuation starts: dispatch stops, SERVICE blinks. -/
def startEvacuation (s : State) : State := s.modPair fun p => { p with evacuating := true }

/-- `PAIR_EVACUATE` (R593): answered once the card may be pulled. -/
def pairEvacuateBody (h : Hdr) (s : State) : Reply :=
  if s.host.long.any fun l => match l with
      | .pairEvacuate _ => true
      | _ => false then .no stBusyResource
  else if healthy s = false then .no stPartnerAbsent
  else .wait (startLong (.pairEvacuate h) (startEvacuation s))

/-- The taking of the command. -/
def runPairEvacuate (h : Hdr) : State → State := serve kStandby h 8 (pairEvacuateBody h)

def execPairEvacuate (h : Hdr) (s : State) : Result := .next (enter h 0x91 (.pairEvacuate h) (runPairEvacuate h) s)

/-- The card ends its work without records and leaves the pair, its partner having taken the work (R751 steps 4 and 5). -/
def handOver (msg : BrideMsg) (s : State) : State :=
  let s := s.push (.bride msg)
  let s := s.modPair fun p => { p with mode := 0, role := 0, inSync := false, waiting := [], checkpoints := [] }
  let s := pairEvent rsEvacuated s
  let s := endWorkNow s
  leavePair s

/-- The evacuating card's running stitches have completed and the partner has every item: it hands over, answers
`PAIR_EVACUATE` and sets SERVICE steady (R751 steps 4 to 6). -/
def execEvacuationHandover (s : State) : Result :=
  if s.pair.evacuating = false ∨ anyRunning s = true ∨ mustWait s = true then .next s
  else
    let waiting := s.host.long.filterMap fun l => match l with
      | .pairEvacuate h => some h
      | _ => none
    let s := handOver .evacuated s
    let s := s.modPair fun p => { p with evacuating := false, evacuated := true }
    .next (waiting.foldl (fun s h => answerLater h stOk 0 [] s) s)

/-- What every press does in SLEEP and OFF, and a short press elsewhere: LOCATE is toggled (R775), and a wake is signalled as
the state allows (R620). -/
def shortPress (s : State) : State := signalWake (s.modBoard fun b => { b with locate := !b.locate })

/-- A short press acts at its release (R774, R775). Without auxiliary power the always-on island does not see it. -/
def execServiceShortPress (s : State) : Result := if s.power.aux || s.power.main then .next (shortPress s) else .next s

/-- The SERVICE button held for 2 s: in SLEEP and OFF a press like any other; else evacuation starts in a healthy pair whose partner
does not evacuate; otherwise STATE blinks amber three times (R751, R752, R775). Every press sets PME_Status (R620). -/
def execServiceLongPress (partnerEvacuating : Bool) (s : State) : Result :=
  if s.power.aux = false ∧ s.power.main = false then .next s
  else if 6 ≤ s.power.state then .next (shortPress s)
  else
    let s := signalWake s
    if s.pair.evacuating then .next s
    else if healthy s ∧ partnerEvacuating = false then .next (startEvacuation s)
    else .next (s.modBoard fun b => { b with flashUntil := s.time.tick + 37500000 })

end Machine
end Sys2Proof
end

