-- ==== Sys2Proof/Machine/Held.lean ====
section
/-! DEFINITION. Commands that were held with OWN 1, taken in the order of their arrival (R543, R619, R664, R693). -/

namespace Sys2Proof.Machine

/-- The taking of a command that was held: what its mailbox asks for, its OWNER write having been done. -/
def runHeld (i : Instr) : State → State :=
  match i with
  | .openSession h flags leaseMs versions => runOpenSession h flags leaseMs versions
  | .closeSession h => runCloseSession h
  | .leaseRenew h leaseMs => runLeaseRenew h leaseMs
  | .resync h buffer size => runResync h buffer size
  | .adopt h snapshot leaseMs versions => runAdopt h snapshot leaseMs versions
  | .resetWork h => runResetWork h
  | .audit h => runAudit h
  | .streamOpen h d outs => runStreamOpen h d outs
  | .streamClose h stream => runStreamClose h stream
  | .streamFeed h f data units => runStreamFeed h f data units
  | .flowSetAdd h f => runFlowSetAdd h f
  | .flowSetModify h f => runFlowSetModify h f
  | .flowSetRemove h f => runFlowSetRemove h f
  | .flowSetAddrAdd h f => runFlowSetAddrAdd h f
  | .flowSetAddrRemove h f => runFlowSetAddrRemove h f
  | .keyPicture h stream => runKeyPicture h stream
  | .encodeOpen h d => runEncodeOpen h d
  | .streamQuery h stream => runStreamQuery h stream
  | .eyeletPolicy h stream output fit maxAge marginPct => runEyeletPolicy h stream output fit maxAge marginPct
  | .modelLoad h entries total image => runModelLoad h entries total image
  | .modelUnload h model => runModelUnload h model
  | .modelPinSet h model partition => runModelPinSet h model partition
  | .modelPinClear h model partition => runModelPinClear h model partition
  | .pillowPlanSet h kind stackMask g0 count => runPillowPlanSet h kind stackMask g0 count
  | .pillowPlanClear h kind stackMask g0 count => runPillowPlanClear h kind stackMask g0 count
  | .stitchPost h r => runStitchPost h r
  | .stitchCancel h id => runStitchCancel h id
  | .clientSetCreate h classes weight => runClientSetCreate h classes weight
  | .clientSetModify h client classes weight => runClientSetModify h client classes weight
  | .clientSetRemove h client => runClientSetRemove h client
  | .clientStats h client => runClientStats h client
  | .partitionSetCreate h p => runPartitionSetCreate h p
  | .partitionSetModify h p => runPartitionSetModify h p
  | .partitionSetRemove h p => runPartitionSetRemove h p
  | .bobbinCreate h layout model arena maxPos pfx => runBobbinCreate h layout model arena maxPos pfx
  | .bobbinRelease h bobbin => runBobbinRelease h bobbin
  | .prefixCreate h bobbin => runPrefixCreate h bobbin
  | .prefixFork h bobbin p => runPrefixFork h bobbin p
  | .poolCreate h space bufLog2 flags count stackMask regionOffset => runPoolCreate h space bufLog2 flags count stackMask regionOffset
  | .poolAlloc h pool => runPoolAlloc h pool
  | .poolFreeUnref h b => runPoolFreeUnref h b
  | .poolFreeRef h b => runPoolFreeRef h b
  | .poolFreeDestroy h pool => runPoolFreeDestroy h pool
  | .poolStats h pool => runPoolStats h pool
  | .pagesPostCreate h kind vector addrs => runPagesPostCreate h kind vector addrs
  | .pagesPostAdd h pageSet addrs => runPagesPostAdd h pageSet addrs
  | .picotRouteDestSet h r => runPicotRouteDestSet h r
  | .picotRouteDestRemove h dest => runPicotRouteDestRemove h dest
  | .picotRouteStreamSet h r => runPicotRouteStreamSet h r
  | .picotRouteStats h dest => runPicotRouteStats h dest
  | .timeStep h sec ns => runTimeStep h sec ns
  | .timeRate h rate => runTimeRate h rate
  | .timeUnitClaim h unit function connector periodNs start => runTimeUnitClaim h unit function connector periodNs start
  | .timeUnitRelease h unit => runTimeUnitRelease h unit
  | .pairJoin h mode role => runPairJoin h mode role
  | .pairEvacuate h => runPairEvacuate h
  | .pairStatus h => runPairStatus h
  | .powerCap h capW => runPowerCap h capW
  | .powerStateNap h pllIdleUs => runPowerStateNap h pllIdleUs
  | .powerStateReady h pllIdleUs => runPowerStateReady h pllIdleUs
  | .logConfig h levels => runLogConfig h levels
  | .traceSetEnable h mask => runTraceSetEnable h mask
  | .traceSetDisable h mask => runTraceSetDisable h mask
  | .traceSetReplace h mask => runTraceSetReplace h mask
  | .measurements h first count => runMeasurements h first count
  | .unknownOpcode h _ => runUnknownOpcode h
  | _ => id

/-- Held commands are taken in order, as far as none of them makes the card hold again. -/
def takeList : List Instr → State → State
  | [], s => s
  | i :: l, s =>
    if holding s = true ∧ s.host.state ≠ .fault then s.modHost fun h => { h with held := i :: l ++ h.held }
    else takeList l (runHeld i s)

/-- Every command that is held is taken. -/
def takeHeld (s : State) : State := takeList s.host.held (s.modHost fun h => { h with held := [] })

end Sys2Proof.Machine
end

