-- ==== Sys2Proof/Machine/PowerStates.lean ====
section
/-! DEFINITION. The card's power states: entering and leaving SLEEP, waking from NAP, the thermal trip, and what the loss of
main power and PERST# leave (R570, R618, R619, R684, R685, R694 to R706, R711 to R714). -/

namespace Sys2Proof.Machine

/-! ## SLEEP (R618, R704 to R706) -/

/-- A write of D3hot takes effect: with a session open the card first acts as `RESET_WORK`; entry steps follow (R618). -/
def beginSleep (s : State) : State :=
  let s := s.modPower fun p => { p with state := 4, d3Pending := false, d0Pending := false }
  if s.obj.sessions = [] then s else beginEnding s

/-- A write of D3hot that waited takes effect at READY (R695, R698). -/
def sleepIfPending (s : State) : State := if s.power.d3Pending then beginSleep s else s

/-- What a write of D3hot does, by power state: at once in READY and ACTIVE; at READY during bring-up and on a wake, which it
causes in NAP (R695, R698). -/
def d3hotWrite (s : State) : State :=
  let s := s.modPcie fun p => { p with d3hot := true }
  if s.host.state = .fault then s
  else
    match s.power.state with
    | 0 | 5 => s.modPower fun p => { p with d3Pending := true }
    | 1 | 2 => beginSleep s
    | 3 => s.modPower fun p => { p with d3Pending := true, state := 5 }
    | 4 => s.modPower fun p => { p with d0Pending := false }
    | _ => s

def execD3hotWrite (s : State) : Result := cfgAccess (fun s => .next (d3hotWrite s)) s

/-- Device address of the pillow save area (Table 11-1, R704). -/
abbrev saveArea : Nat := 0x1F00000000
/-- Lines from the pillow save area to the pillows. -/
abbrev saveLines : Nat := (pillowBase - saveArea) / 64

/-- The line lies in the pillow save area. -/
def inSaveArea (l : Nat) : Bool := decide (saveArea / 64 ≤ l) && decide (l < (saveArea + 4 * pillowBytes) / 64)

/-- Every stack's pillow is copied to its save area, poisoned lines as poisoned lines; the copy finds
the errors that lie in the lines it reads (R357, R358, R704 step 2). -/
def savePillows (s : State) : State :=
  let s := rangeFinds true saveArea (4 * pillowBytes) (rangeFinds false pillowBase (4 * pillowBytes) s)
  let s := copyRange pillowBase saveArea (4 * pillowBytes) s
  let bad := ((List.range 4).map fun k => (s.pil k).poison).flatten
  let s := s.modMem fun m =>
    { m with poison := (m.poison.filter fun l => !inSaveArea l) ++ bad.map (· - saveLines) }
  (List.range 4).foldl (fun s k => s.modPil k fun p => { p with retained := false }) s

/-- Every stack's pillow is restored from its save area, the copy finding errors as above (R357, Table 23-4). -/
def restorePillows (s : State) : State :=
  let s := rangeFinds true pillowBase (4 * pillowBytes) (rangeFinds false saveArea (4 * pillowBytes) s)
  let s := copyRange saveArea pillowBase (4 * pillowBytes) s
  let bad := (s.mem.poison.filter inSaveArea).map fun (l : Nat) => l + saveLines
  (List.range 4).foldl
    (fun s k => s.modPil k fun p =>
      { p with retained := true, poison := bad.filter fun l => decide ((l * 64 - pillowBase) / pillowBytes = k) }) s

/-- The gatherer's sources but the always-on ones go into retention registers (R684). -/
def saveGatherer (s : State) : State :=
  s.modEvg fun e =>
    { e with saved := some (e.sources.filter fun x => !alwaysOn x.1), sources := e.sources.filter fun x => alwaysOn x.1 }

/-- The saved sources are restored; the always-on ones have gone on counting (R685). -/
def restoreGatherer (s : State) : State :=
  s.modEvg fun e =>
    let old := e.saved.getD []
    { e with
      sources := (old.filter fun x => decide (x.1 < 248)) ++ (e.sources.filter fun x => alwaysOn x.1) ++
        old.filter fun x => decide (253 < x.1)
      saved := none }

/-- Every priority stack is empty (R684). -/
def stacksEmpty (s : State) : Bool := s.evg.prio.all fun x => x.2.isEmpty

/-- The steps of R704 from the second on: pillows, PLLs and gatherer, DDR self-refresh, power removed, the clock on ticks in
HOLDOVER. The scratch of the cores is lost. A write of D0 that arrived meanwhile begins the wake (R705). -/
def sleepDown (s : State) : State :=
  let s := selfRefreshAll true (saveGatherer (savePillows s))
  let s := loseAreas [(scratchBase, 128 * scratchBytes)] [] s
  let s := s.modPower fun p =>
    { p with state := if p.d0Pending then 5 else 6, d0Pending := false, pll := false, vdd := [0, 0, 0, 0] }
  let s := s.modBoard fun b => { b with portsUp := List.replicate 8 false }
  let s := s.modTime fun t => if t.sync = 1 then { t with sync := 2 } else t
  let s := (List.range 4).foldl (fun s c => s.modCc c fun k => { k with run := 0 }) s
  s.modHost fun h => { h with state := .starting }

/-- The running stitches have completed and the work has ended: the card enters SLEEP. -/
def execSleepEntry (s : State) : Result :=
  if s.power.state ≠ 4 then .next s
  else
    let s := endIfIdle s
    if s.obj.stitches ≠ [] ∨ stacksEmpty s = false then .next s else .next (sleepDown s)

/-- What a write of D0 does: it wakes the card from SLEEP, during entry when that ends (R705, R706). -/
def d0Write (s : State) : State :=
  let s := s.modPcie fun p => { p with d3hot := false }
  match s.power.state with
  | 6 => s.modPower fun p => { p with state := 5 }
  | 4 => s.modPower fun p => { p with d0Pending := true }
  | _ => s.modPower fun p => { p with d3Pending := false }

def execD0Write (s : State) : Result := cfgAccess (fun s => .next (d0Write s)) s

/-- Control cores start, their watchdogs full. -/
def startFirmware (s : State) : State :=
  (List.range 4).foldl (fun s c => s.modCc c fun k => { k with run := 1, wdogLeft := 250000 }) s

/-! ## NAP -/

/-- The card has woken from NAP: it takes the commands that wait (R594, R698, R703). -/
def execNapWakeComplete (s : State) : Result :=
  if s.power.state ≠ 5 ∨ s.host.state = .rom ∨ s.host.state = .starting then .next s
  else .next (sleepIfPending (takeHeld (selfRefreshAll false (s.modPower fun p => { p with state := 1 }))))

/-! ## Loss of power and PERST# (R570, R632, R684 to R686, R714) -/

/-- The state as PERST# or the loss of main power leaves it: firmware, training, sessions, objects and memory are lost; the
always-on island keeps its tick count, its event sources, the LEDs and the SMBus address, and the fuses stay. A locked clock is in
HOLDOVER in OFF (Table 21-1). `units`: time units that drive edges in the always-on island (R784). -/
def restart (units : SMap TimeUnit) (s : State) : State :=
  { State.reset with
    pending := s.pending
    fresh := s.fresh + 1
    out := s.out
    mem := { MemUnit.init with lost := [⟨0, hubEnd, s.fresh, 0⟩] }
    time := { TimeUnitBlock.init with
      sec := s.time.sec, ns := s.time.ns, frac := s.time.frac, rate := s.time.rate, units := units,
      sync := if s.time.sync = 0 then 0 else if s.power.main then s.time.sync else 2 }
    evg := { EvgUnit.init with sources := s.evg.sources.filter fun x => alwaysOn x.1 }
    power := { PowerUnit.init with
      aux := s.power.aux, auxKept := s.power.auxKept, main := s.power.main, trip := s.power.trip, temps := s.power.temps,
      state := if s.power.main then 0 else 7 }
    sec := { SecUnit.init with
      securityVersion := s.sec.securityVersion, fkRevoked := s.sec.fkRevoked, required := s.sec.required,
      jtagDisable := s.sec.jtagDisable }
    board := { BoardUnit.init with
      locate := s.board.locate, smbusAddr := s.board.smbusAddr, smbusPrepared := s.board.smbusPrepared,
      modules := s.board.modules, inputMv := s.board.inputMv }
    pcie := { PcieUnit.init with perst := s.pcie.perst, pmeEnable := s.pcie.pmeEnable, pmeStatus := s.pcie.pmeStatus } }

/-- Time units that drive the connector or raise alarms go on in the always-on island. -/
def islandUnits (s : State) : SMap TimeUnit := s.time.units.filter fun u => u.2.isOutput

/-- Nothing is powered: the always-on island has lost its state too (R632, R686). -/
def darkCard (s : State) : State :=
  let s := restart [] s
  { s with
    time := TimeUnitBlock.init
    evg := EvgUnit.init
    power := { s.power with trip := false, temps := [0, 0, 0, 0, 0] }
    board := { BoardUnit.init with modules := s.board.modules, inputMv := s.board.inputMv }
    pcie := { PcieUnit.init with perst := s.pcie.perst } }

/-- Main power is gone: OFF, or with no auxiliary power either, nothing (Table 23-3, R782). -/
def mainOff (s : State) : State :=
  let s := s.modPower fun p => { p with main := false }
  if s.power.aux then restart (islandUnits s) s else darkCard s

/-- A TRIP removes power from every die but the always-on island and is latched there (R714). -/
def tripOff (temps : List Int) (s : State) : State := mainOff (s.modPower fun p => { p with temps := temps, trip := true })

/-- A sample of the junction sensors, every 100 us (R711 to R714, R717, R718). -/
def execThermalSample (temps : List Int) (s : State) : Result :=
  if s.power.main = false ∨ 6 ≤ s.power.state then .next (s.modPower fun p => { p with temps := temps })
  else if 1760 ≤ hottest temps then .next (tripOff temps s)
  else .next (followStep false (imbalanceUpdate (s.modPower fun p => thermalUpdate temps p)))

end Sys2Proof.Machine
end

