-- ==== Sys2Proof/Machine/Bringup.lean ====
section
/-! DEFINITION. PERST#, power, the boot mailbox, and the bring-up steps (R545 to R547, R570, R622, R632, R655 to R659, R687 to
R695, R714, R753 to R761, R779 to R782). -/

namespace Sys2Proof.Machine

/-! ## PERST# and power -/

/-- PERST# is asserted (R570, R695): time units live on only in OFF. -/
def execPerstAssert (s : State) : Result :=
  let units := if s.power.main then [] else islandUnits s
  let s := s.modPcie fun p => { p with perst := true }
  .next (if s.power.aux || s.power.main then restart units s else s)

/-- Every region reads below 85 degrees (R714). -/
def coolEnough (s : State) : Bool := s.power.temps.all fun t => decide (t < 1360)

/-- PERST# is deasserted with main power present: bring-up starts at step 0 with the boot core running. The clock loses its
discipline, and its value unless auxiliary power was present throughout (R632, R656, R688, R714). -/
def execPerstDeassert (s : State) : Result :=
  if s.pcie.perst = false then .next s
  else
    let kept := s.power.auxKept
    let s := s.modPcie fun p => { p with perst := false }
    let s := s.modPower fun p =>
      { p with main := true, state := 0, bringUp := 0, auxKept := p.aux, trip := p.trip && !coolEnough s }
    let s := s.modTime fun t =>
      { TimeUnitBlock.init with
        sec := if kept then t.sec else 0
        ns := if kept then t.ns else 0
        frac := if kept then t.frac else 0 }
    .next (s.modCc 4 fun k => { k with run := 1 })

/-- Auxiliary power is applied: the always-on island starts (R687). -/
def execAuxPowerApply (s : State) : Result :=
  .next (s.modPower fun p => { p with aux := true, auxKept := p.auxKept || !p.main })

/-- Auxiliary power is lost: the SMBus address goes, and with main power absent everything (R632, R686, R789). -/
def execAuxPowerLoss (s : State) : Result :=
  let s := s.modPower fun p => { p with aux := false, auxKept := false }
  if s.power.main then .next (s.modBoard fun b => { b with smbusAddr := none, smbusPrepared := false })
  else .next (darkCard s)

/-- Main power is removed, or after READY the 12V-2x6 input is lost (Table 23-3, R782). -/
def execMainPowerLoss (s : State) : Result := if s.power.main then .next (mainOff s) else .next s

/-! ## The boot mailbox (R545 to R547, R657 to R660) -/

/-- The identity registers, offsets 0x00 to 0x27 (Table 18-2). -/
def identityBytes (s : State) : List Byte :=
  leBytes 4 0x43584A54 ++ leBytes 1 1 ++ [Config.stepping] ++ zeroBytes 2 ++ leBytes 2 4 ++ leBytes 2 32 ++ leBytes 4 128 ++
    leBytes 4 Config.bootRomVersion.toNat ++ leBytes 4 s.host.fwVersion ++ leBytes 1 s.host.protoMin ++
    leBytes 1 s.host.protoMax ++ zeroBytes 2 ++ leBytes 4 s.sec.securityVersion ++ leBytes 8 Config.serial.toNat

/-- `n` bytes of an image from an offset on. -/
def piece (img : List Byte) (off n : Nat) : List Byte := (img.drop off).take n
/-- The number in them. -/
def pieceNat (img : List Byte) (off n : Nat) : Nat := leNat (piece img off n)

/-- The header of a firmware image keeps Table 22-2. -/
def imageHeaderOk (img : List Byte) (bytes : Nat) : Bool :=
  let zero (off n : Nat) : Bool := (piece img off n).all fun b => decide (b = 0)
  decide (pieceNat img 0 4 = 0x46584A54) && decide (pieceNat img 4 1 = 1) && decide (pieceNat img 5 1 = 1) && zero 6 2 &&
    decide (pieceNat img 8 4 = bytes) && decide (bytes % 64 = 0) &&
    decide (pieceNat img 0x14 1 ≤ pieceNat img 0x15 1) && zero 0x16 2 &&
    ((List.range 4).all fun c =>
      decide (pieceNat img (0x18 + 4 * c) 4 % 64 = 0) && decide (pieceNat img (0x18 + 4 * c) 4 < bytes)) &&
    decide (pieceNat img 0x28 4 ≤ 24 * 2 ^ 20) && zero 0x2C 20 && zero 0xC0 64

/-- DIGEST is the SM3 of the image with bytes 0x40 to 0xDF as zero (R657). -/
def imageDigestOk (img : List Byte) : Bool :=
  decide (sm3 (img.take 0x40 ++ zeroBytes 0xA0 ++ img.drop 0xE0) = piece img 0x40 32)

/-- The unrevoked key that SIGNER names and that verifies the signature (R758). -/
def imageSigner (s : State) (img : List Byte) : Option (Fin 4) :=
  [0, 1, 2, 3].find? fun (k : Fin 4) =>
    !s.sec.fkRevoked.getLsbD k.val && decide (piece img 0xA0 32 = Config.fkDigest k) &&
      Config.fkVerify k (piece img 0x40 32) (piece img 0x60 64)

/-- Step 3 starts: the four channels train, at the same time and from the first stage on (R355). -/
def startTraining (s : State) : State :=
  (List.range 4).foldl (fun s c => s.modDdr c fun d => { d with state := 1, trained := [] })
    (s.modPower fun p => { p with bringUp := 3 })

/-- The stages of training, in their order (R355). -/
def trainStages : List TrainStage :=
  [.chipSelect, .commandAddress, .writeLevelling, .readCentring, .writeCentring, .dfe, .vref]

/-- The image is accepted: fuses, lock, firmware data, identity, STARTING, control cores; the card goes on to step 3 (R659 to
R661, R757, R761). -/
def startImage (img : List Byte) (k : Fin 4) (s : State) : State :=
  let sv := pieceNat img 0x0C 4
  let s := s.modSec fun x =>
    { x with
      securityVersion := max x.securityVersion sv, fwLocked := true, signer := k.val, fwDigest := piece img 0x40 32,
      fwSecurity := sv, chainValid := Config.chainValid, ownerValid := Config.ownerKeysValid }
  let s := zeroRange 0x5000800000 0x1800000 s
  let s := s.modHost fun h =>
    { h with
      fwVersion := pieceNat img 0x10 4, protoMin := pieceNat img 0x14 1, protoMax := pieceNat img 0x15 1,
      state := .starting }
  let s := startFirmware s
  let s := s.modPcie fun p => { p with doeBusy := false }
  if s.board.inputMv < 10000 then s.modPower fun p => { p with bringUp := 2 } else startTraining s

/-- All bytes of the image have been read, into the firmware image region: header, digest, signature, security version, in that
order (R658). -/
def bootDone (h : Hdr) (img : List Byte) (bytes : Nat) (s : State) : State :=
  let s := rawWrite hubBase img s
  if imageHeaderOk img bytes = false ∨ imageDigestOk img = false then writeAnswer h stBadValue 0 [] s
  else
    match imageSigner s img with
    | none => writeAnswer h stDenied 1 [] s
    | some k =>
      if 64 < pieceNat img 0x0C 4 then writeAnswer h stBadValue 0 [] s
      else if pieceNat img 0x0C 4 < s.sec.securityVersion then writeAnswer h stDenied 2 [] s
      else writeAnswer h stOk 0 [] (startImage img k s)

/-- A `BOOT_LOAD` request keeps Table 18-4 and names no session. -/
def bootRequestOk (h : Hdr) (entries : List (Nat × Nat)) (bytes : Nat) : Bool :=
  !h.headerReserved && !h.bodyReserved && decide (h.session = 0) && decide (h.version = 1) &&
    decide (h.length = 0x10 + 16 * entries.length) && decide (1 ≤ entries.length ∧ entries.length ≤ 251) &&
    decide (4096 ≤ bytes ∧ bytes ≤ 8388608) && (entries.all fun e => decide (1 ≤ e.2 ∧ e.2 ≤ 4194304)) &&
    decide ((entries.map (·.2)).foldl (· + ·) 0 = bytes)

/-- A boot-mailbox command is taken: none is served while JTAG is unlocked (R768), nor once firmware has started (R547). -/
def bootServe (h : Hdr) (opcode : Nat) (body : State → State) (s : State) : State :=
  if (s.mbox 32).own then s.modHost fun x => { x with discards := satAdd32 x.discards 1 }
  else
    let s := takeOwner h opcode s
    if s.sec.unlocked then s
    else if s.host.state ≠ .rom then writeAnswer h stWrongState 0 [] s
    else body s

/-- The reads of `BOOT_LOAD`. -/
def bootLoadBody (h : Hdr) (entries : List (Nat × Nat)) (bytes : Nat) (image : Option (List Byte)) (s : State) : State :=
  if bootRequestOk h entries bytes = false then writeAnswer h stBadValue 0 [] s
  else
    match image, readsFree s with
    | some img, true => bootDone h img bytes (instantReads entries s)
    | _, _ =>
      let job : BootJob := ⟨h, entries, bytes, List.replicate (requestsOf s entries).length none⟩
      startReads .boot entries (s.modHost fun x => { x with boot := some job })

/-- `BOOT_LOAD`: its image is read from host memory, then verified and started. -/
def execBootLoad (h : Hdr) (entries : List (Nat × Nat)) (imageBytes : Nat) (image : Option (List Byte)) (s : State) : Result :=
  let h := { h with mbox := 32 }
  .next (hostAccess true (bootServe h 1 (bootLoadBody h entries imageBytes image)) s)

/-- The reads of `BOOT_LOAD` end without an image. -/
def bootFail (status detail : Nat) (s : State) : State :=
  match s.host.boot with
  | none => s
  | some j => writeAnswer j.hdr status detail [] (dropReads .boot (s.modHost fun x => { x with boot := none }))

/-- The reads of the image are not complete within 100 ms (R546). -/
def dueBootLoadTimeout (s : State) : Result := .next (bootFail stTimeout 0 s)

/-- The deadline is reached (R653). -/
def execBootLoadTimeout (s : State) : Result :=
  atDeadline .bootLoadTimeout dueBootLoadTimeout s

/-- `BOOT_QUERY` (R546). Its request, to which no rule gives a layout, is taken as 8 bytes with VERSION 1 and the rest reserved
(DESIGN CHOICE, log entry 174). -/
def execBootQuery (h : Hdr) (s : State) : Result :=
  let h := { h with mbox := 32 }
  .next (hostAccess true (bootServe h 2 fun s =>
    if h.headerReserved ∨ h.bodyReserved ∨ h.session ≠ 0 ∨ h.version ≠ 1 ∨ h.length ≠ 8 then writeAnswer h stBadValue 0 [] s
    else writeAnswer h stOk 0 (identityBytes s ++ zeroBytes 24) s) s)

/-- An opcode that Table 19-1 does not list, or in the boot mailbox any but 1 and 2 (R542, R545). -/
def execUnknownOpcode (h : Hdr) (opcode : Nat) (s : State) : Result :=
  if h.mbox = 32 then .next (hostAccess true (bootServe h opcode (writeAnswer h stBadOpcode 0 [])) s)
  else .next (enter h opcode (.unknownOpcode h opcode) (runUnknownOpcode h) s)

/-! ## Bring-up (Table 23-1) -/

/-- Bring-up ends in FAULT; the held commands are taken then (R694). -/
def bringUpFault (kind unit : Nat) (s : State) : State :=
  takeHeld (enterFault kind unit (s.modPower fun p => { p with bringUp := 8 }))

/-- Step 3: the channels that did all stages are ready; one that failed at a stage ends bring-up (R355, R694). The input must
hold 10 V (R781). -/
def trainingEnds (r : StepResult) (s : State) : State :=
  let s := s.modBoard fun b => { b with inputMv := r.inputMv }
  if r.inputMv < 10000 then
    (List.range 4).foldl (fun s c => s.modDdr c fun d => { d with state := 0, trained := [] })
      (s.modPower fun p => { p with bringUp := 2 })
  else
    let s := s.modPower fun p => { p with advertised := r.advertisedW, bringUp := 4 }
    let s := (List.range 4).foldl
      (fun s c => s.modDdr c fun d =>
        if r.failed.contains c then
          { d with state := 3, faultCause := 1, sticky := true, trained := trainStages.take (min r.stage 6) }
        else { d with state := 2, trained := trainStages }) s
    match (List.range 4).find? fun c => r.failed.contains c with
    | some c => bringUpFault fkTraining c s
    | none => s

/-- Step 5: every pillow line is zero; a stack that failed ends bring-up (R689, R694). -/
def selfTestEnds (r : StepResult) (s : State) : State :=
  let s := zeroRange pillowBase (4 * pillowBytes) s
  let s := (List.range 4).foldl
    (fun s k => s.modPil k fun p => { p with pass := !r.failed.contains k, retained := true, poison := [] }) s
  let s := s.modPower fun p => { p with bringUp := 6 }
  match (List.range 4).find? fun c => r.failed.contains c with
  | some c => bringUpFault fkSelfTest c s
  | none => s

/-- Step 7: the bride as it stands, then READY (R691 to R693, R757, R780). -/
def readyReached (r : StepResult) (s : State) : State :=
  let s := s.modPair fun p =>
    { p with
      lanes := min r.lanes 8, authenticated := r.authenticated && s.sec.chainValid,
      partnerSerial := if r.authenticated && s.sec.chainValid then r.partnerSerial else 0 }
  let s := s.modPower fun p => { p with bringUp := 8, state := 1, pll := true, vdd := [600, 600, 600, 600] }
  let s := setCause causeReady (s.modHost fun h => { h with state := .ready })
  let s := if availableW s < 300 then powerLimitEvent s else s
  sleepIfPending (takeHeld s)

/-- The widest of x1 to x16 that a port with some lanes supports. -/
def widest (lanes : Nat) : Nat := ([16, 8, 4, 2].find? fun n => decide (n ≤ lanes)).getD 1

/-- The link trains: as x16 at 64 GT/s in Flit mode when the port allows it, otherwise at the highest rate up to 32 GT/s and the
widest width that both ends support (R598). -/
def trainLink (r : StepResult) (p : PcieUnit) : PcieUnit :=
  let full := r.flit && decide (6 ≤ r.portRate) && decide (16 ≤ r.portLanes)
  { p with
    linkUp := true, flit := full, linkRate := if full then 6 else max 1 (min 5 r.portRate), linkWidth := widest r.portLanes }

/-- A bring-up step ends; the next one starts. Steps 1 and 2 end with `BOOT_LOAD`. -/
def execBringUpStepComplete (r : StepResult) (s : State) : Result :=
  if s.pcie.perst ∨ s.power.main = false ∨ s.power.trip then .next s
  else
    match s.power.bringUp with
    | 0 => .next ((s.modPcie (trainLink r)).modPower fun p => { p with bringUp := 1 })
    | 3 => .next (trainingEnds r s)
    | 4 => .next ((ddrZero s).modPower fun p => { p with bringUp := 5 })
    | 5 => .next (selfTestEnds r s)
    | 6 =>
      .next ((s.modBoard fun b => { b with modules := r.modules }).modPower fun p => { p with bringUp := 7 })
    | 7 => .next (readyReached r s)
    | _ => .next s

/-- The 12V-2x6 input rises above 11.04 V: bring-up that waits for it goes on to step 3 (R781). -/
def execInput12v2x6Rise (mv : Nat) (s : State) : Result :=
  if mv ≤ 11040 then .next s
  else
    let s := s.modBoard fun b => { b with inputMv := mv }
    if s.power.bringUp = 2 then .next (startTraining s) else .next s

end Sys2Proof.Machine
end

