-- ==== Sys2Proof/Machine/Endpoint.lean ====
section
/-! DEFINITION. The PCI Express endpoint: Bus Master Enable, the ends of the card's reads, link states, link loss, Function
Level Reset (chapter 20, R607 to R613, R621 to R625). -/

namespace Sys2Proof.Machine

/-! ## Bus Master Enable (R610) -/

def execBusMasterEnableClear (s : State) : Result := cfgAccess (fun s => .next (s.modPcie fun p => { p with bme := false })) s

/-- What waited for Bus Master Enable goes; in the orphaned state nothing is written into a page (R563, R610). -/
def sendWaiting (w : HostWait) (s : State) : State :=
  let stopped := decide (s.host.state = .orphaned)
  let keep (s : State) : State := s.modPcie fun p => { p with waiting := p.waiting ++ [w] }
  match w with
  | .msg m => s.pushLink m
  | .page _ m => if stopped then keep s else s.pushLink m
  | .done d => if stopped then keep s else finishDone d s
  | .resync h m resp => answerLater h stOk 0 resp (s.pushLink m)
  | .read r => pumpReads (s.modPcie fun p => { p with queued := p.queued ++ [r] })

/-- Reads that waited for tags go, then what waited for Bus Master Enable, in order; then MSI-X messages. -/
def busMasterSet (s : State) : State :=
  let waiting := s.pcie.waiting
  let s := pumpReads (s.modPcie fun p => { p with bme := true, waiting := [] })
  sendPendingMsix (waiting.foldl (fun s w => sendWaiting w s) s)

def execBusMasterEnableSet (s : State) : Result := cfgAccess (fun s => .next (busMasterSet s)) s

/-! ## Ends of reads (R611 to R613) -/

/-- An outstanding read is no longer outstanding: its tag counts as completed. -/
def readEnds (tag : Nat) (s : State) : State :=
  s.modPcie fun p => { p with completed := p.completed + 1, reads := p.reads.filter fun r => decide (r.tag ≠ tag) }

/-- The long command that a read belongs to. -/
def ownerCommand (s : State) (o : ReadOwner) : Option LongCmd :=
  s.host.long.find? fun l => match o, l with
    | .modelLoad m, .modelLoad h _ _ _ => decide (h.mbox = m)
    | .feed st, .streamFeed _ f _ _ true _ _ => decide (f.stream = st)
    | _, _ => false

/-- A read fails: so does the command that issued it, and its other reads are discarded (R611). -/
def readFails (o : ReadOwner) (status detail : Nat) (s : State) : State :=
  match o with
  | .boot => bootFail status detail s
  | .dropped => s
  | o =>
    let s' := dropReads o s
    match ownerCommand s o with
    | some l => answerLater l.hdr status detail [] s'
    | none => s'

/-- The data of one request has arrived; with the last one the command goes on. -/
def readData (r : OutRead) (data : List Byte) (s : State) : State :=
  match r.owner with
  | .boot =>
    match s.host.boot with
    | none => s
    | some j =>
      let got := gotPiece j.got r.piece data
      match gotAll got with
      | some img => bootDone j.hdr img j.imageBytes (s.modHost fun x => { x with boot := none })
      | none => s.modHost fun x => { x with boot := some { j with got := got } }
  | o =>
    match ownerCommand s o with
    | some (.modelLoad h entries total got) =>
      let got := gotPiece got r.piece data
      match gotAll got with
      | some img => loadLater h img total s
      | none => setLong (.modelLoad h entries total got) s
    | some (.streamFeed h f d units reading got times) =>
      let got := gotPiece got r.piece data
      let times := listSet times r.piece s.now
      match gotAll got with
      | some bs => feedDone h f bs ((got.map fun d => (d.getD []).length).zip times) units s
      | none => setLong (.streamFeed h f d units reading got times) s
    | _ => s

/-- Completion status as R611 gives it in DETAIL. -/
def CplStatus.detail : CplStatus → Nat
  | .ok => 0
  | .unsupported => 1
  | .abort => 2
  | .poisoned => 3

/-- A failed completion, as the endpoint's own status shows it (R600, R615). -/
def failedCompletion (st : CplStatus) (header : List Byte) (s : State) : State :=
  match st with
  | .ok => s
  | .unsupported => statusBit 13 s
  | .abort => statusBit 12 s
  | .poisoned => poisonedTlp header (if s.pcie.parityResponse then statusBit 8 s else s)

/-- A completion arrives. One that answers no outstanding read, or brings more than is asked or nothing, is an Unexpected Completion
(R613; DEDUCED, log entry 60); a tag is completed by the last of the completions that bring its data. -/
def readCompletion (tag : Nat) (status : CplStatus) (data header : List Byte) (s : State) : State :=
  let unexpected := uncorrectableError ueUnexpected true header s
  match s.pcie.reads.find? fun r => decide (r.tag = tag) with
  | none => unexpected
  | some r =>
    match status with
    | .ok =>
      let n := r.got.length + data.length
      if data = [] ∨ r.length < n then unexpected
      else if n < r.length then
        s.modPcie fun p =>
          { p with reads := listUpd (fun x => decide (x.tag = tag)) (fun x => { x with got := x.got ++ data }) p.reads }
      else pumpReads (readData r (r.got ++ data) (readEnds tag s))
    | st => pumpReads (readFails r.owner stBadPointer (CplStatus.detail st) (failedCompletion st header (readEnds tag s)))

def execPcieReadCompletion (tag : Nat) (status : CplStatus) (data header : List Byte) (s : State) : Result :=
  linkAccess (fun s => .next (readCompletion tag status data header s)) s

/-- A read's completion timeout expires, unless Completion Timeout Disable is set (R611, R612). The header that AER logs is free. -/
def readTimeout (tag : Nat) (s : State) : State :=
  match s.pcie.reads.find? fun r => decide (r.tag = tag) with
  | none => s
  | some r =>
    let s := (uncorrectableError ueCompletionTimeout false (freeBytes 16 s) s).useFreshN 16
    pumpReads (readFails r.owner stTimeout 4 (readEnds tag s))

def duePcieCompletionTimeout (tag : Nat) (s : State) : Result :=
  if s.pcie.cplDisable then .next s else .next (readTimeout tag s)

/-- The deadline is reached (R653). -/
def execPcieCompletionTimeout (tag : Nat) (s : State) : Result :=
  atDeadline (.pcieCompletionTimeout tag) (duePcieCompletionTimeout tag) s

/-! ## Link states (R621) -/

/-- The LTR value that the card has to report, in ns. -/
def ltrNs (s : State) : Nat :=
  if (s.obj.streams.any fun x => x.enc.isNone && decide (x.decl.source = 1)) ∨ s.obj.stitches ≠ [] then 10000
  else if s.power.state = 3 then 10000000
  else 1000000

/-- LTR_L1.2_THRESHOLD of L1 PM Substates Control 1, in ns. -/
def l12ThresholdNs (s : State) : Nat :=
  let hi := (s.pcie.kept 0x263).toNat
  ((s.pcie.kept 0x262).toNat + hi % 4 * 256) * 32 ^ (hi / 32)

/-- The latency that the card tolerates is reported when it is another than was reported last; the model does so at the end of a
tick (R621; DESIGN CHOICE, log entry 175). -/
def reportLtr (s : State) : State :=
  if s.pcie.linkUp && s.pcie.ltrEnable && !s.pcie.d3hot && decide (s.pcie.ltr ≠ some (ltrNs s)) then
    (s.modPcie fun p => { p with ltr := some (ltrNs s) }).pushLink (.ltr (ltrNs s))
  else s

/-- The latency last reported lets the link enter L1.2. -/
def ltrPermits (s : State) : Bool := s.pcie.ltr.any fun n => decide (l12ThresholdNs s ≤ n)

/-- The link has been idle for 8 us: with ASPM L1 enabled it enters L1, or L1.2 where the reported LTR permits it. -/
def execLinkIdleL1Entry (s : State) : Result :=
  if s.pcie.linkUp && s.pcie.l1Enable then
    let deep := s.pcie.l12Enable && s.pcie.ltrEnable && ltrPermits s
    .next (s.modPcie fun p => { p with linkState := if deep then 2 else 1 })
  else .next s

/-! ## Link loss (R625) -/

/-- Every outstanding read is treated as a completion timeout. -/
def readsTimeOut (s : State) : State := s.pcie.reads.foldl (fun s r => readTimeout r.tag s) s

/-- The link goes down for a reason other than PERST# or a Function Level Reset: the card is orphaned at once. -/
def execPcieLinkDown (s : State) : Result :=
  if s.pcie.linkUp = false then .next s
  else
    let s := readsTimeOut (s.modPcie fun p => { p with linkUp := false, linkState := 0 })
    .next (if s.host.state = .ready then becomeOrphaned s else s)

/-- The link returns. -/
def execPcieLinkUp (s : State) : Result :=
  if s.pcie.perst || !s.power.main || s.power.trip || decide (s.power.bringUp = 0) then .next s
  else
    .next ((pumpReads (s.modPcie fun p => { p with linkUp := true, linkState := 0, ltr := none })).modPair fun p =>
      { p with hostLost := false })

/-- Answers among the outputs that wait for the partner. -/
def Deferred.isAnswer : Deferred → Bool
  | .answer _ _ _ _ _ => true
  | _ => false

/-- Outputs to the host among those that wait for the partner, and picots. -/
def Deferred.toHost : Deferred → Bool
  | .out (.msix _) | .out (.hostWrite _ _ _) => true
  | .out _ => false
  | .answer _ _ _ _ _ | .stitch _ | .done _ | .datagram _ _ _ => true

/-- The link has been down for 100 ms in a pair: the card reports it to its partner; a healthy partner takes the work, and the
card ends it and stays READY; without a healthy partner the fault is a card fault (R625, R726). -/
def dueHostLinkLossTimeout (s : State) : Result :=
  if s.pcie.linkUp ∨ s.pcie.perst ∨ s.pair.mode = 0 ∨ s.pair.hostLost = true ∨ s.host.state = .fault then .next s
  else
    let s := (s.modPair fun p => { p with hostLost := true }).push (.bride (.fault fkHostLost))
    if healthy s = false then .next (escalate fkHostLost 0 s)
    else
      let s := abandonRunning s
      let s := s.modPair fun p =>
        { p with
          mode := 0, role := 0, inSync := false, checkpoints := [], waiting := p.waiting.filter fun w => Deferred.isAnswer w.2 }
      let s := pairEvent rsEvacuated s
      let s := endWorkNow (leavePair s)
      .next (internalError false (s.modPair fun p => { p with evacuating := false, evacuated := true }))

/-- The deadline is reached (R653). -/
def execHostLinkLossTimeout (s : State) : Result :=
  atDeadline .hostLinkLossTimeout dueHostLinkLossTimeout s

/-! ## Function Level Reset (R570, R623, R624, R695) -/

/-- Commands in the mailboxes are forgotten: their answers are never written. -/
def dropCommands (s : State) : State :=
  let s := s.modHost fun h =>
    { h with
      held := [], long := [], boot := none
      mboxes := h.mboxes.foldl (fun m e => SMap.modify {} m e.1 fun x => { x with own := false }) h.mboxes }
  let s := s.modPair fun p => { p with ownJoin := none, waiting := p.waiting.filter fun w => !(Deferred.toHost w.2) }
  s.modMem fun m => { m with tags := m.tags.map fun e => { e with waiter := none } }

/-- Reads are discarded, and their tags count as completed. -/
def dropAllReads (s : State) : State :=
  s.modPcie fun p => { p with reads := [], queued := [], waiting := [], completed := p.completed + p.reads.length }

/-- Configuration bytes that a Function Level Reset leaves: Link Control, sticky AER bytes, L1 PM Substates. -/
def flrKeeps (off : Nat) : Bool :=
  decide (off = 0x70) || decide (0x10C ≤ off ∧ off < 0x11A) || decide (0x260 ≤ off ∧ off < 0x264)

/-- The endpoint's registers as a Function Level Reset leaves them; BAR2 is 512 GiB again. -/
def resetEndpoint (p : PcieUnit) : PcieUnit :=
  { PcieUnit.init with
    linkUp := p.linkUp, perst := p.perst, maxPayload := p.maxPayload, flit := p.flit, linkRate := p.linkRate
    linkWidth := p.linkWidth, l1Enable := p.l1Enable, firstError := p.firstError, headerLog := p.headerLog
    l12Enable := p.l12Enable, linkState := p.linkState, pmeEnable := p.pmeEnable, pmeStatus := p.pmeStatus
    d3hot := p.d3hot, uncorr := p.uncorr, corr := p.corr, uncorrMask := p.uncorrMask, corrMask := p.corrMask
    cfg := p.cfg.filter fun b => flrKeeps b.1
    issued := p.issued, completed := p.completed, doeBusy := p.doeBusy, doeError := p.doeError, doeReady := p.doeReady }

/-- The host event status words, less FAULT, which only PERST# leaves (R694). -/
def resetStatusWords (s : State) : State :=
  s.modHost fun h =>
    { h with
      cause := 0, causeEnable := 0, vector := 0, discards := 0, b2Base := 0, msix := [], pba := [], events := []
      faultCode := if h.state = .fault then h.faultCode else 0 }

/-- What a Function Level Reset does. -/
def functionReset (s : State) : State :=
  let s := endWorkNow (dropAllReads (dropCommands s))
  resetStatusWords (s.modPcie resetEndpoint)

/-- A write of Initiate Function Level Reset. -/
def execFunctionLevelReset (s : State) : Result := cfgAccess (fun s => .next (functionReset s)) s

end Sys2Proof.Machine
end

