-- ==== Sys2Proof/Machine/Board.lean ====
section
/-! DEFINITION. The board: LEDs, the QSFP cages and their links, SMBus ARP, PLDM (R690, R773 to R776, R785 to R791). -/

namespace Sys2Proof

/-- A module that the card supports and powers: one of Table 26-6, of power classes 1 to 4 (R785, R787). -/
def ModuleInfo.usable (m : ModuleInfo) : Bool := m.supported && decide (m.powerClass ≤ 4)

/-- Patterns of the LEDs (Table 26-3). -/
inductive Led where
  | off | green1Hz | green | greenHalfHz | amber | amberFlashes | blue | amber2Hz
  deriving DecidableEq, Repr

namespace Machine

/-! ## LEDs (R773) -/

/-- The STATE LED: the flashes of a refused long press come first. -/
def stateLed (s : State) : Led :=
  if s.time.tick < s.board.flashUntil then .amberFlashes
  else if s.power.trip then .amber
  else if s.power.main = false ∨ 6 ≤ s.power.state then .off
  else match s.host.state with
    | .rom | .starting => .green1Hz
    | .ready => .green
    | .orphaned => .greenHalfHz
    | .fault => .amber

/-- The LOCATE LED. -/
def locateLed (s : State) : Led := if s.board.locate then .blue else .off

/-- The SERVICE LED. -/
def serviceLed (s : State) : Led :=
  if s.pair.evacuating then .amber2Hz else if s.pair.evacuated ∨ s.host.state = .fault then .amber else .off

/-! ## QSFP cages (R690, R785 to R788) -/

/-- Logical port `p` has a usable module, which in 100 Gb/s operation carries the first port of its cage alone (R383,
R786). -/
def portUsable (s : State) (p : Nat) : Bool :=
  match (s.board.modules.getD (p / 4) none) with
  | none => false
  | some m => m.usable && (m.breakoutOnly || decide (p % 4 = 0))

/-- Ports without a usable module are down. -/
def settlePorts (s : State) : State :=
  s.modBoard fun b =>
    { b with portsUp := (List.range 8).map fun p => b.portsUp.getD p false && portUsable s p }

/-- A change of presence that has held for 50 ms: on removal the cage's ports go down; a module is discovered, and its link
comes up by itself (R788). -/
def execQsfpPresenceChange (cage : Nat) (m : Option ModuleInfo) (s : State) : Result :=
  if 2 ≤ cage ∨ (s.power.aux || s.power.main) = false then .next s
  else .next (settlePorts (s.modBoard fun b => { b with modules := listSet b.modules cage m }))

/-- Links are started: from step 6 of bring-up on, with the MACs powered (R690, R704). -/
def linksRun (s : State) : Bool := decide (7 ≤ s.power.bringUp) && decide (s.power.state < 6) && s.power.main

/-- A link comes up or goes down (R690). -/
def execEthernetLinkChange (port : Nat) (up : Bool) (s : State) : Result :=
  if 8 ≤ port ∨ linksRun s = false ∨ (up && !portUsable s port) = true then .next s
  else .next (s.modBoard fun b => { b with portsUp := listSet b.portsUp port up })

/-! ## SMBus (R789) -/

/-- The UDID of Table 26-7. -/
def udid : Nat :=
  0x81 * 2 ^ 120 + 0x0B * 2 ^ 112 + 0x1F3D * 2 ^ 96 + 0x4800 * 2 ^ 80 + 0x0004 * 2 ^ 64 + 0x1F3D * 2 ^ 48 + 0x0001 * 2 ^ 32 +
    Config.serial.toNat % 2 ^ 32

/-- The bytes of Get UDID: the UDID, most significant byte first, and the address, 0xFF for none. -/
def udidBytes (s : State) : List Byte :=
  (leBytes 16 udid).reverse ++ leBytes 1 (match s.board.smbusAddr with
    | some a => 2 * a + 1
    | none => 0xFF)

/-- An SMBus ARP transaction at the default address. An address that is given is kept until a device reset or the loss of
auxiliary power; a card whose address is resolved and not prepared again does not answer Get UDID. -/
def execSmbusArp (op : ArpOp) (s : State) : Result :=
  if s.power.aux = false ∧ s.power.main = false then .next s
  else match op with
    | .prepare => .next ((s.modBoard fun b => { b with smbusPrepared := true }).push (.smbusAck []))
    | .resetDevice =>
      .next ((s.modBoard fun b => { b with smbusAddr := none, smbusPrepared := false }).push (.smbusAck []))
    | .getUdid =>
      if s.board.smbusAddr.isNone || s.board.smbusPrepared then .next (s.push (.smbusAck (udidBytes s))) else .next s
    | .assign u a =>
      if u = udid then
        .next ((s.modBoard fun b => { b with smbusAddr := some a, smbusPrepared := false }).push (.smbusAck []))
      else .next s

/-! ## Platform management (R776, R790, R791) -/

/-- Control core 3 serves MCTP: in READY, ACTIVE and NAP, and not while JTAG is unlocked. -/
def managementUp (s : State) : Bool :=
  decide (1 ≤ s.power.state ∧ s.power.state ≤ 3) && !s.sec.unlocked && s.power.main

/-- A message of a transport reaches control core 3: over SMBus only at an assigned address. -/
def mctpOpen (s : State) (t : Transport) : Bool :=
  managementUp s && match t with
    | .smbus => s.board.smbusAddr.isSome
    | .vdm => s.pcie.linkUp
    | .doe => false

/-- A PLDM write of the LOCATE effecter. -/
def execLocateEffecterWrite (value : Bool) (s : State) : Result :=
  .next (if managementUp s then
      forCore3 (.locateEffecterWrite value) (fun s => s.modBoard fun b => { b with locate := value }) s else s)

/-- The source of a sensor is powered and present. -/
def sensorUp (s : State) (id : Nat) : Bool :=
  if id = 16 ∨ id = 17 then (s.board.modules.getD (id - 16) none).isSome
  else if 12 ≤ id ∧ id ≤ 15 then decide (s.power.vdd.getD (id - 12) 0 ≠ 0)
  else true

/-- A sensor's reading in the unit of Table 26-8; voltages in mV. Sensors that are no state of the model read a free value. -/
def sensorValue (s : State) (id : Nat) : List Byte :=
  if id = 0 ∨ 17 < id then []
  else if id ≤ 5 then leBytesInt 4 (s.power.temps.getD (id - 1) 0 / 16)
  else if id = 8 then leBytes 4 (s.power.avgMw / 1000)
  else if 12 ≤ id ∧ id ≤ 15 then leBytes 4 (s.power.vdd.getD (id - 12) 0)
  else leBytes 4 (Config.sensor id s.fresh).toNat

/-- PLDM completion codes and the sensor state of an unavailable sensor. -/
abbrev pldmOk : Byte := 0x00
abbrev pldmBadId : Byte := 0x80
abbrev pldmBadType : Byte := 0x20
abbrev sensorEnabled : Byte := 0x00
abbrev sensorUnavailable : Byte := 0x02

/-- A PLDM request is served and answered. -/
def pldmServe (t : Transport) (r : PldmReq) (s : State) : State :=
  match r with
  | .base => s.push (.pldm t (pldmOk :: leBytes 8 0x15))
  | .readSensor id =>
    if id = 0 ∨ 17 < id then s.push (.pldm t [pldmBadId])
    else if sensorUp s id then (s.push (.pldm t (pldmOk :: sensorEnabled :: sensorValue s id))).useFresh
    else s.push (.pldm t [pldmOk, sensorUnavailable])
  | .setEffecter id v =>
    if id = 100 then (s.modBoard fun b => { b with locate := v }).push (.pldm t [pldmOk]) else s.push (.pldm t [pldmBadId])
  | .fru => s.push (.pldm t (pldmOk :: Config.fru))
  | .setEndpoint eid => (s.modBoard fun b => { b with eid := eid }).push (.pldm t (pldmOk :: leBytes 1 eid))
  | .otherType _ => s.push (.pldm t [pldmBadType])

/-- An MCTP message of PLDM: not acknowledged where nothing serves it; it waits while core 3 restarts (R666). -/
def execMctpPldmRequest (transport : Transport) (r : PldmReq) (s : State) : Result :=
  .next (if mctpOpen s transport then forCore3 (.mctpPldmRequest transport r) (pldmServe transport r) s else s)

end Machine
end Sys2Proof
end

