-- ==== Sys2Proof/Machine/Registers.lean ====
section
/-! DEFINITION. Writes to registers that have no behaviour of their own: each field acts by its access code (Table 0-2, R5,
R6, R533, R540, R558, R600 to R606, R615). -/

namespace Sys2Proof.Machine

/-- The 32-bit words of a write of 4 or 8 bytes: offset and value each. -/
def writeWords (offset size value : Nat) : List (Nat × Nat) :=
  if size = 8 then [(offset, value % 2 ^ 32), (offset + 4, value / 2 ^ 32 % 2 ^ 32)] else [(offset, value % 2 ^ 32)]

/-- A 32-bit register's bits outside `mask` are reserved: writing a one to them has no defined effect (R6). -/
def reservedHit (mask value : Nat) : Bool := decide (value &&& (2 ^ 32 - 1 - mask) ≠ 0)

/-- Words written in ascending order, until one has no defined effect. -/
def runWords (f : Nat → Nat → State → Result) : List (Nat × Nat) → State → Result
  | [], s => .next s
  | (o, v) :: l, s =>
    match f o v s with
    | .next s => runWords f l s
    | r => r

/-! ## BAR0 -/

/-- A mailbox's bytes other than an OWNER write that sets OWN: header words and payload (Table 18-3). -/
def mboxByte (m off b : Nat) (s : State) : State :=
  let at_ (x i : Nat) : Nat := x - x / 256 ^ i % 256 * 256 ^ i + b * 256 ^ i
  s.modMbox m fun x =>
    if off < 2 then x
    else if off < 4 then { x with seq := at_ x.seq (off - 2) }
    else if off < 6 then { x with opcode := at_ x.opcode (off - 4) }
    else if off = 6 then { x with irq := decide (b % 2 = 1) }
    else if off = 7 then { x with vector := b }
    else if off < 12 then { x with session := BitVec.ofNat 32 (at_ x.session.toNat (off - 8)) }
    else if off < 16 then { x with length := at_ x.length (off - 12) }
    else if off < 18 then { x with status := at_ x.status (off - 16) }
    else if off < 20 then x
    else if off < 24 then { x with detail := at_ x.detail (off - 20) }
    else if off < 64 then x
    else { x with payload := SMap.set 0 x.payload (off - 64) (BitVec.ofNat 8 b) }

/-- A write into a mailbox that sets no OWN: discarded and counted while OWN is 1 (R540). -/
def mboxWrite (m off size value : Nat) (s : State) : State :=
  if (s.mbox m).own then s.modHost fun h => { h with discards := satAdd32 h.discards 1 }
  else if off = 0 ∧ value % 2 = 1 then s
  else (List.range size).foldl (fun s i => mboxByte m (off + i) (value / 256 ^ i % 256) s) s

/-- An MSI-X table word; an entry that becomes unmasked sends what is pending (R558). -/
def msixWord (off value : Nat) (s : State) : State :=
  sendPendingMsix (s.modHost fun h =>
    { h with
      msix := SMap.modify {} h.msix (off / 16) fun e =>
        match off % 16 with
        | 0 => { e with addr := e.addr / 2 ^ 32 * 2 ^ 32 + value }
        | 4 => { e with addr := e.addr % 2 ^ 32 + value * 2 ^ 32 }
        | 8 => { e with data := value }
        | _ => { e with masked := decide (value % 2 = 1) } })

/-- A word of the register regions of BAR0 (Tables 18-2, 18-7, 21-5): HEV.CAUSE, HEV.CAUSE_ENABLE, HEV.VECTOR, the MSI-X table, and
the writable words of the card clock and of B2.BASE. -/
def bar0Word (off value : Nat) (s : State) : Result :=
  if 0x200000 ≤ off ∧ off < 0x201000 then .next (msixWord (off - 0x200000) value s)
  else if off = 0x310004 then
    if reservedHit 0x1F value then .fault (.undefinedEffect 6)
    else .next (s.modHost fun h => { h with cause := h.cause &&& ~~~(BitVec.ofNat 32 value) })
  else if off = 0x310008 then
    if reservedHit 0x1F value then .fault (.undefinedEffect 6)
    else .next (s.modHost fun h => { h with causeEnable := BitVec.ofNat 32 value })
  else if off = 0x31000C then
    if reservedHit 0xFF value then .fault (.undefinedEffect 6) else .next (s.modHost fun h => { h with vector := value })
  else if off = 0x300014 then timeUtcOffsetWrite value s
  else if off = 0x300018 then timeCtrlRelease value s
  else if off = 0x30001C then timePtpCfgWrite value s
  else if 0x320000 ≤ off ∧ off < 0x320008 then b2Write (off - 0x320000) 4 value s
  else .next s

/-- A write into BAR0 (R533, R606). -/
def bar0Write (off size value : Nat) (s : State) : Result :=
  if 0x80000 ≤ off ∧ off < 0x81000 then .next (mboxWrite 32 (off - 0x80000) size value s)
  else if 0x100000 ≤ off ∧ off < 0x120000 then .next (mboxWrite ((off - 0x100000) / 4096) (off % 4096) size value s)
  else if off = 0x320000 ∧ size = 8 then b2Write 0 8 value s
  else if (size = 4 ∨ size = 8) ∧ off % size = 0 then runWords bar0Word (writeWords off size value) s
  else .next s

/-! ## The control range (written by firmware) -/

/-- EVG.CFG: MODE may not change while the source is pending; COUNT is read-only (R675, Table 22-8). -/
def evgCfgWrite (n value : Nat) (s : State) : Result :=
  let x := s.src n
  let level := decide (value % 2 = 1)
  if reservedHit 0xFF00001F value then .fault (.undefinedEffect 6)
  else if level ≠ x.level ∧ (x.count ≠ 0 ∨ x.pendLevel) then .fault (.undefinedEffect 675)
  else .next (s.modSrc n fun x => { x with level := level, priority := value / 2 % 4, target := value / 8 % 4 })

/-- A word of the control range (Tables 11-8, 11-10, 22-8, 22-9). A scrub period outside its range is stored as written (DESIGN
CHOICE, log entry 176). -/
def controlWord (addr value : Nat) (s : State) : Result :=
  let o := addr - 0x6000000000
  if 0x200000 ≤ o ∧ o < 0x240000 then
    let c := (o - 0x200000) / 0x10000
    if o % 0x10000 = 4 then
      if reservedHit 0x1F value then .fault (.undefinedEffect 6)
      else
        .next (s.modDdr c fun d =>
          { d with faultCause := d.faultCause &&& (15 - value % 16), sticky := d.sticky && !(value.testBit 4) })
    else if o % 0x10000 = 0xC then .next (s.modDdr c fun d => { d with scrubHours := value })
    else .next s
  else if 0x300000 ≤ o ∧ o < 0x340000 then
    if o % 0x10000 = 4 then .next (s.modPil ((o - 0x300000) / 0x10000) fun d => { d with scrubHours := value }) else .next s
  else if 0x600040 ≤ o ∧ o < 0x600080 then
    .next ((List.range 32).foldl
      (fun s i => s.modSrc (8 * (o - 0x600040) + i) fun x => { x with mask := value.testBit i }) s)
  else if 0x601000 ≤ o ∧ o < 0x603000 ∧ o % 16 = 0 then evgCfgWrite ((o - 0x601000) / 16) value s
  else .next s

/-! ## Configuration space -/

/-- Bytes of configuration registers that the model keeps as written: their offset and the bits that are writable. -/
def cfgMasks : List (Nat × Nat) :=
  [(0x04, 0x40), (0x05, 0x05), (0x0C, 0xFF), (0x3C, 0xFF), (0x68, 0x0F), (0x69, 0x01), (0x70, 0xC1), (0x10C, 0xFF),
    (0x10D, 0xFF), (0x10E, 0xFF), (0x10F, 0xFF), (0x118, 0x40), (0x119, 0x01), (0x254, 0xFF), (0x255, 0x1F), (0x256, 0xFF),
    (0x257, 0x1F), (0x260, 0x0B), (0x262, 0xFF), (0x263, 0xE3), (0x26F, 0x80)] ++
  ((List.range 16).map fun l => [(0x208 + 4 * l, 0x7F), (0x209 + 4 * l, 0xFF)]).flatten

/-- Max_Payload_Size or Max_Read_Request_Size of its 3-bit code. -/
def sizeOfCode (c : Nat) : Nat := 128 * 2 ^ (c % 8)

/-- A byte of a BAR of `n` bytes. -/
def barByte (old n i b : Nat) : Nat :=
  (old - old / 256 ^ i % 256 * 256 ^ i + b * 256 ^ i) / n * n

/-- A byte of configuration space (Tables 20-1, 20-2): its writable bits that have no behaviour of their own. -/
def cfgByte (off b : Nat) (s : State) : State :=
  let s := match cfgMasks.find? fun m => decide (m.1 = off) with
    | some m => s.modPcie fun p => { p with cfg := SMap.set (cfgDefault off) p.cfg off (BitVec.ofNat 8 (b &&& m.2)) }
    | none => s
  if 0x10 ≤ off ∧ off < 0x18 then s.modPcie fun p => { p with bar0 := barByte p.bar0 (2 ^ 26) (off - 0x10) b }
  else if 0x18 ≤ off ∧ off < 0x20 then s.modPcie fun p => { p with bar2 := barByte p.bar2 (bar2Bytes s) (off - 0x18) b }
  else match off with
    | 0x04 => s.modPcie fun p => { p with mse := b.testBit 1 }
    | 0x07 => s.modPcie fun p => { p with status := p.status &&& ~~~(BitVec.ofNat 16 (b * 256)) }
    | 0x6A => s.modPcie fun p => { p with devStatus := p.devStatus &&& ~~~(BitVec.ofNat 4 b) }
    | 0x45 => s.modPcie fun p => { p with pmeEnable := b.testBit 0, pmeStatus := p.pmeStatus && !(b.testBit 7) }
    | 0x53 => sendPendingMsix (s.modPcie fun p => { p with msixEnable := b.testBit 7, msixMask := b.testBit 6 })
    | 0x68 => s.modPcie fun p => { p with relaxed := b.testBit 4, maxPayload := min 512 (sizeOfCode (b / 32)) }
    | 0x69 => s.modPcie fun p => { p with maxRead := min 4096 (sizeOfCode (b / 16)) }
    | 0x70 => s.modPcie fun p => { p with l1Enable := b.testBit 1 }
    | 0x88 => s.modPcie fun p => { p with cplTimeout := b % 16, cplDisable := b.testBit 4 }
    | 0x89 => s.modPcie fun p => { p with ltrEnable := b.testBit 2, tag10 := b.testBit 4 }
    | 0x260 => s.modPcie fun p => { p with l12Enable := b.testBit 2 }
    | 0x98 => s.modPcie fun p => { p with tag14 := b.testBit 2 }
    | _ =>
      let i := off % 4
      let bits := BitVec.ofNat 32 (b * 256 ^ i)
      let lane := BitVec.ofNat 32 (255 * 256 ^ i)
      if 0x104 ≤ off ∧ off < 0x108 then s.modPcie fun p => { p with uncorr := p.uncorr &&& ~~~bits }
      else if 0x108 ≤ off ∧ off < 0x10C then s.modPcie fun p => { p with uncorrMask := (p.uncorrMask &&& ~~~lane) ||| bits }
      else if 0x110 ≤ off ∧ off < 0x114 then s.modPcie fun p => { p with corr := p.corr &&& ~~~bits }
      else if 0x114 ≤ off ∧ off < 0x118 then s.modPcie fun p => { p with corrMask := (p.corrMask &&& ~~~lane) ||| bits }
      else s

/-- Bytes written to configuration space from an offset on. -/
def cfgBytes : Nat → List Byte → State → State
  | _, [], s => s
  | o, b :: bs, s => cfgBytes (o + 1) bs (cfgByte o b.toNat s)

/-- A write to a register. A poisoned one into BAR0 is discarded and logged with its header (R615). -/
def execRegisterWrite (space : RegSpace) (offset size value : Nat) (poison : Option (List Byte)) (s : State) : Result :=
  match space with
  | .bar0 =>
    barAccess true
      (fun s => match poison with
        | some header => .next (poisonedTlp header s)
        | none => bar0Write offset size value s) s
  | .control =>
    if (size = 4 ∨ size = 8) ∧ offset % size = 0 then runWords controlWord (writeWords offset size value) s else .next s
  | .config => cfgAccess (fun s => .next (cfgBytes offset (leBytes size value) s)) s

end Sys2Proof.Machine
end

