-- ==== Sys2Proof/Machine/RegisterReads.lean ====
section
/-! DEFINITION. What a read of a register returns (Table 0-2, R5, R382, R450, R465, R599 to R602, R604, R606, R654, R669, R683,
R720, R769): an RW field its last value, a field that State does not hold as a number its value as State gives it, a WO or
reserved field zero. What a read does besides is the commands of its own that the table has for it. -/

namespace Sys2Proof.Machine

/-- A register of a block: its offset, its bytes and its value. -/
abbrev RegField := Nat × Nat × Nat

/-- Byte `i` of a block of registers; reserved bytes are zero. -/
def blockByte (l : List RegField) (i : Nat) : Byte :=
  match l.find? fun r => decide (r.1 ≤ i) && decide (i < r.1 + r.2.1) with
  | some (o, _, v) => BitVec.ofNat 8 (v / 256 ^ (i - o))
  | none => 0

/-- Two's complement of some bits. -/
def signedField (bits : Nat) (n : Int) : Nat := (n % (2 ^ bits : Nat)).toNat

/-- Bits of a list of flags, the first lowest. -/
def bitField (l : List Bool) : Nat := l.foldr (fun b n => b.toNat + 2 * n) 0

/-! ## The control range -/

/-- A quad has no running stitch: it is clock-gated once the compute dies run (R699). -/
def gated (s : State) (core : Nat) : Bool :=
  s.power.pll && !(s.obj.partitions.any fun p => p.running.isSome && p.quads.testBit (core / 4))

/-- Table 6-16. -/
def coreBlock (s : State) (n : Nat) : List RegField :=
  let c := s.core n
  [(0x00, 4, (if c.replaying then 2 else c.run) + 4 * (gated s n).toNat), (0x08, 8, c.late), (0x28, 4, c.replays),
    (0x2C, 4, c.ovfTiles), (0x80, 8, c.cycles)] ++
  ((List.range 6).map fun i => (0x10 + 4 * i, 4, c.slip.getD i 0)) ++
  (List.range 6).map fun i => (0x40 + 8 * i, 8, c.slipTotal.getD i 0)

/-- Table 11-8. -/
def mcBlock (s : State) (c : Nat) : List RegField :=
  let d := s.ddr c
  [(0x00, 4, d.state + 4 * d.selfRefresh.toNat + 8 * d.panic.toNat), (0x04, 4, d.faultCause + 16 * d.sticky.toNat),
    (0x08, 4, d.panicPct + 256 * d.ageCap), (0x0C, 4, d.scrubHours), (0x10, 8, d.ce), (0x18, 8, d.ue), (0x20, 8, d.tagCe),
    (0x28, 8, d.tagMismatch), (0x30, 8, d.parityReplays), (0x38, 8, d.crcReplays), (0x40, 4, d.refOutstanding),
    (0x44, 4, d.refPeak), (0x48, 8, d.panicTicks), (0x50, 8, d.rfm), (0x58, 8, d.scrubAddr)]

/-- Table 11-10. -/
def pilBlock (s : State) (k : Nat) : List RegField :=
  let d := s.pil k
  [(0x00, 4, d.pass.toNat + 2 * d.retained.toNat + 4 * d.poison.length), (0x04, 4, d.scrubHours), (0x08, 8, d.ce),
    (0x10, 8, d.ue), (0x18, 8, d.scrubAddr), (0x20, 4, freeGranules s k)]

/-- Table 12-4: the block of the pool whose handle has an INDEX, zero when there is none. -/
def poolRegisters (s : State) (i : Nat) : List Byte :=
  match s.obj.pools.find? fun p => decide (p.handle.index = i) with
  | some p => poolBlock s p
  | none => zeroBytes 64

/-- Table 14-10, for the decode engines 0 to 15 and the encode engines as 16 to 19. -/
def engineBlock (s : State) (e : Nat) : List RegField :=
  let v := s.eng e
  let decode := decide (e < 16)
  [(0x00, 4, v.run), (0x04, 4, v.stream.toNat), (0x08, 8, v.busy), (0x10, 8, v.pictures), (0x18, 8, v.switches),
    (0x20, 8, if decode then v.yields else 0), (0x28, 8, if decode then v.abandons else 0),
    (0x30, 8, if decode then s.video.decodePeak else s.video.encodePeak)]

/-- Table 15-3. -/
def scalerBlock (s : State) (u : Nat) : List RegField :=
  let v := s.scl u
  [(0x00, 4, v.job.isSome.toNat + 2 * residents s u), (0x04, 4, v.stream.toNat), (0x08, 8, v.busy), (0x10, 8, v.starved),
    (0x18, 8, v.samples), (0x20, 8, v.jobs)]

/-- Table 22-4; the boot core is core 4. -/
def ccBlock (s : State) (c : Nat) : List RegField :=
  let v := s.cc c
  [(0x00, 4, v.run), (0x08, 4, v.wdogLeft), (0x0C, 4, if c = 4 then 0 else v.lastCause),
    (0x10, 8, if c = 4 then 0 else v.restarts), (0x18, 8, v.lastTick), (0x20, 8, v.busy)]

/-- EVG.TOP of a control core (Table 22-9). -/
def evgTop (s : State) (c : Nat) : Nat :=
  match SMap.get [] s.evg.prio c with
  | [] => 0
  | t :: l => t.1 + 512 * t.2.1 + 2048 * (l.length + 1)

/-- EVG.CFG of a source (Table 22-8). -/
def evgCfg (x : EvgSource) : Nat :=
  x.level.toNat + 2 * x.priority + 8 * x.target + (if x.level then 0 else 2 ^ 24 * x.count)

/-- A word of the event gatherer's block (Table 22-9). -/
def evgWord (s : State) (o : Nat) : Nat :=
  let sources (f : EvgSource → Bool) (k : Nat) : Nat := bitField ((List.range 32).map fun i => f (s.src (32 * k + i)))
  if o < 0x40 then sources (fun x => decide (0 < x.pending)) (o / 4)
  else if o < 0x80 then sources (·.mask) ((o - 0x40) / 4)
  else if 0x100 ≤ o ∧ o < 0x200 ∧ o % 0x40 = 8 then evgTop s ((o - 0x100) / 0x40)
  else if 0x1000 ≤ o ∧ o < 0x3000 then
    let x := s.src ((o - 0x1000) / 16)
    match o % 16 with
    | 0 => evgCfg x
    | 4 => x.total
    | 8 => x.served
    | _ => x.excess
  else 0

/-- Table 23-6. -/
def powerBlock (s : State) : List RegField :=
  let p := s.power
  [(0x00, 4, p.state % 8 + 8 * p.pll.toNat + 16 * p.pacing.toNat),
    (0x04, 4, p.step + 32 * p.thermal + 1024 * p.imbalance + 32768 * p.power + 2 ^ 20 * p.hard.toNat +
      2 ^ 21 * p.sampleLimit.toNat),
    (0x08, 4, capInForce s), (0x0C, 4, p.pllIdleUs), (0x10, 4, p.sampleMw), (0x14, 4, p.avgMw), (0x30, 8, p.throttleMs),
    (0x38, 8, p.hardEvents), (0x40, 8, p.imbalances), (0x48, 8, p.capMs), (0x50, 8, p.pacedMs), (0x58, 4, p.peakMw)] ++
  ((List.range 5).map fun i => (0x18 + 2 * i, 2, signedField 16 (p.temps.getD i 0))) ++
  (List.range 4).map fun i => (0x28 + 2 * i, 2, p.vdd.getD i 0)

/-- Table 25-4. -/
def securityBlock (s : State) : List RegField :=
  let c := s.sec
  [(0x00, 4, c.fwLocked.toNat + 2 * c.unlocked.toNat + 4 * c.chainValid.toNat + 8 * c.ownerValid.toNat +
      128 * c.required.toNat),
    (0x04, 4, c.securityVersion + 128 * c.fkRevoked.toNat + 2048 * c.jtagDisable.toNat), (0x08, 4, c.signer),
    (0x0C, 4, c.unlockFails)]

/-- A byte of a unit's block: its blocks begin at `base`, `pitch` bytes apart. -/
def unitByte (f : Nat → List RegField) (base pitch o : Nat) : Byte := blockByte (f ((o - base) / pitch)) ((o - base) % pitch)

/-- A byte of the control range, at an offset from 0x60_0000_0000. -/
def controlByte (s : State) (o : Nat) : Byte :=
  if 0x100000 ≤ o ∧ o < 0x180000 then unitByte (coreBlock s) 0x100000 0x1000 o
  else if 0x200000 ≤ o ∧ o < 0x240000 then unitByte (mcBlock s) 0x200000 0x10000 o
  else if 0x300000 ≤ o ∧ o < 0x340000 then unitByte (pilBlock s) 0x300000 0x10000 o
  else if 0x400000 ≤ o ∧ o < 0x401000 then (poolRegisters s ((o - 0x400000) / 64)).getD (o % 64) 0
  else if 0x500000 ≤ o ∧ o < 0x501000 then unitByte (engineBlock s) 0x500000 0x100 o
  else if 0x510000 ≤ o ∧ o < 0x510400 then unitByte (fun e => engineBlock s (16 + e)) 0x510000 0x100 o
  else if 0x520000 ≤ o ∧ o < 0x520800 then unitByte (scalerBlock s) 0x520000 0x100 o
  else if 0x600000 ≤ o ∧ o < 0x604000 then
    let k := o - 0x600000
    BitVec.ofNat 8 (evgWord s (k / 4 * 4) / 256 ^ (k % 4))
  else if 0x610000 ≤ o ∧ o < 0x610500 then unitByte (ccBlock s) 0x610000 0x100 o
  else if 0x700000 ≤ o ∧ o < 0x701000 then blockByte (powerBlock s) (o - 0x700000)
  else if 0x800000 ≤ o ∧ o < 0x801000 then blockByte (securityBlock s) (o - 0x800000)
  else 0

/-! ## BAR0 -/

/-- Table 18-7. -/
def hevBlock (s : State) : List RegField :=
  [(0x00, 4, s.host.state.code + 16 * pairCode s), (0x04, 4, s.host.cause.toNat), (0x08, 4, s.host.causeEnable.toNat),
    (0x0C, 4, s.host.vector), (0x10, 4, bitField ((List.range 32).map fun m => (s.mbox m).own)),
    (0x14, 4, (s.host.leaseLeft.getD 0) / 25000), (0x18, 4, s.host.discards), (0x1C, 4, s.host.faultCode),
    (0x20, 8, (heldRecords s).length + (heldEvents s).length)]

/-- Table 21-5: TIME.TXQ_POP as it stands, valid for the oldest entry. -/
def timeBlock (s : State) : List RegField :=
  let t := s.time
  [(0x00, 8, t.sec), (0x08, 4, t.latchNs), (0x0C, 4, t.latchFrac),
    (0x10, 4, t.sync + 4 * (servoActive s).toNat + 8 * (decide (t.gmId ≠ 0)).toNat), (0x14, 4, signedField 16 t.utcOffset),
    (0x1C, 4, t.ptpCfg.toNat), (0x20, 8, signedField 64 t.rate), (0x28, 8, t.tick),
    (0x30, 8, match servoActive s, t.txq with
      | false, e :: _ => txqWord e
      | _, _ => txqInvalid s),
    (0x38, 8, t.txqSec), (0x40, 4, t.txq.length), (0x48, 8, t.taken), (0x50, 8, t.read), (0x58, 8, t.dropped),
    (0x60, 8, t.gmId), (0x68, 8, signedField 64 t.offsetNs), (0x70, 8, t.steps)]

/-- Table 21-6. -/
def timeUnitBlock (s : State) (u : Nat) : List RegField :=
  let t := s.tu u
  [(0x00, 4, t.claimed.toNat + 2 * t.function + 16 * t.connector.toNat), (0x08, 8, t.capture.sec), (0x10, 4, t.latchNs),
    (0x14, 4, signedField 32 t.latchErr), (0x18, 8, t.events), (0x20, 8, t.next.sec), (0x28, 4, t.next.ns)]

/-- A mailbox's header and payload (Table 18-3). -/
def mboxByteRead (x : Mailbox) (o : Nat) : Byte :=
  if 0x40 ≤ o then SMap.get 0 x.payload (o - 0x40)
  else
    blockByte [(0, 1, x.own.toNat), (2, 2, x.seq), (4, 2, x.opcode), (6, 1, x.irq.toNat), (7, 1, x.vector),
      (8, 4, x.session.toNat), (0xC, 4, x.length), (0x10, 2, x.status), (0x14, 4, x.detail)] o

/-- A byte of the MSI-X table. -/
def msixByte (s : State) (o : Nat) : Byte :=
  let e := SMap.get {} s.host.msix (o / 16)
  blockByte [(0, 8, e.addr), (8, 4, e.data), (12, 4, e.masked.toNat)] (o % 16)

/-- A log entry's 32 bytes (Table 22-5). -/
def logBytes (e : LogEntry) : List Byte :=
  leBytes 8 e.tick ++ leBytes 1 e.core ++ leBytes 1 e.level ++ leBytes 2 e.code ++
    ((List.range 4).map fun i => leBytes 4 (e.args.getD i 0)).flatten ++ leBytes 4 e.seq

/-- A byte of the log ring window (R670): slot k holds the latest entry whose index is k modulo 131,072. -/
def logByte (s : State) (o : Nat) : Byte :=
  let back := (s.fw.logIndex + 131071 - o / 32) % 131072
  ((s.fw.log[back]?).map fun e => (logBytes e).getD (o % 32) 0).getD 0

/-- A byte of BAR0 (Table 18-1). -/
def bar0Byte (s : State) (o : Nat) : Byte :=
  if o < 0x1000 then (identityBytes s).getD o 0
  else if 0x80000 ≤ o ∧ o < 0x81000 then mboxByteRead (s.mbox 32) (o - 0x80000)
  else if 0x100000 ≤ o ∧ o < 0x120000 then mboxByteRead (s.mbox ((o - 0x100000) / 4096)) (o % 4096)
  else if 0x200000 ≤ o ∧ o < 0x201000 then msixByte s (o - 0x200000)
  else if 0x208000 ≤ o ∧ o < 0x208020 then
    BitVec.ofNat 8 (bitField ((List.range 8).map fun i => s.host.pba.contains (8 * (o - 0x208000) + i)))
  else if 0x300000 ≤ o ∧ o < 0x300100 then blockByte (timeBlock s) (o - 0x300000)
  else if 0x300100 ≤ o ∧ o < 0x300200 then unitByte (timeUnitBlock s) 0x300100 0x40 o
  else if 0x310000 ≤ o ∧ o < 0x311000 then blockByte (hevBlock s) (o - 0x310000)
  else if 0x320000 ≤ o ∧ o < 0x320008 then blockByte [(0, 8, if s.pcie.barSize = 14 then s.host.b2Base else 0)] (o - 0x320000)
  else if 0x400000 ≤ o ∧ o < 0x800000 then logByte s (o - 0x400000)
  else 0

/-- An offset lies in a register region of BAR0, where a request must be of 4 or 8 bytes and aligned (R606). -/
def bar0Strict (o : Nat) : Bool :=
  decide (o < 0x1000) || (decide (0x200000 ≤ o) && decide (o < 0x400000))

/-! ## Configuration space -/

/-- The capabilities and extended capabilities, each with its offset, its ID, its version and the next offset (Table 20-2). Versions
that the table does not give are those of the PCI Express Base Specification (PRESUMED, log entry 146). -/
def capabilities : List (Nat × Nat × Nat × Nat) :=
  [(0x100, 0x0001, 2, 0x148), (0x148, 0x0003, 1, 0x158), (0x158, 0x002E, 1, 0x170), (0x170, 0x0026, 1, 0x1A0),
    (0x1A0, 0x002A, 1, 0x1D0), (0x1D0, 0x0031, 1, 0x200), (0x200, 0x0027, 1, 0x250), (0x250, 0x0018, 1, 0x258),
    (0x258, 0x001E, 1, 0x268), (0x268, 0x0025, 1, 0x278), (0x278, 0x0015, 1, 0)]

/-- The 3-bit code of a payload or request size. -/
def codeOfSize (n : Nat) : Nat := (n / 128).log2

/-- The configuration registers whose values the tables give, or State (R599 to R602, R604, Tables 20-1 and 20-2); the bits of the
PCI Express Base Specification's own registers stand where it has them (log entry 146). -/
def cfgBlock (s : State) : List RegField :=
  let p := s.pcie
  let kept (o : Nat) : Nat := (p.kept o).toNat
  [(0x00, 2, 0x1F3D), (0x02, 2, 0x4800), (0x04, 1, kept 0x04 + 2 * p.mse.toNat + 4 * p.bme.toNat), (0x06, 2, 0x10 + p.status.toNat),
    (0x08, 1, Config.stepping.toNat), (0x09, 3, 0x120000), (0x0E, 1, 0), (0x10, 8, p.bar0 + 4), (0x18, 8, p.bar2 + 12),
    (0x20, 8, 0), (0x2C, 2, 0x1F3D), (0x2E, 2, 0x0001), (0x30, 4, 0), (0x34, 1, 0x40), (0x3D, 1, 0x00),
    (0x40, 4, 0xC8035001), (0x44, 2, (if p.d3hot then 3 else 0) + 8 + 256 * p.pmeEnable.toNat + 32768 * p.pmeStatus.toNat),
    (0x50, 4, 0x00FF6011 + 2 ^ 30 * p.msixMask.toNat + 2 ^ 31 * p.msixEnable.toNat), (0x54, 4, 0x200000), (0x58, 4, 0x208000),
    (0x60, 4, 0x00020010), (0x64, 4, 0x10008022),
    (0x68, 1, kept 0x68 + 16 * p.relaxed.toNat + 32 * codeOfSize p.maxPayload),
    (0x69, 1, kept 0x69 + 16 * codeOfSize p.maxRead),
    (0x6A, 2, p.devStatus.toNat + 16 * s.power.aux.toNat + 32 * (!p.reads.isEmpty).toNat),
    (0x6C, 4, 6 + 16 * 16 + 2 ^ 11), (0x70, 1, kept 0x70 + 2 * p.l1Enable.toNat), (0x72, 2, p.linkRate + 16 * p.linkWidth),
    (0x8C, 4, 0x7E), (0x94, 4, 6), (0x98, 4, 4 * p.tag14.toNat),
    (0x84, 4, 0x0003081F), (0x88, 1, p.cplTimeout + 16 * p.cplDisable.toNat), (0x89, 1, 4 * p.ltrEnable.toNat + 16 * p.tag10.toNat),
    (0x104, 4, p.uncorr.toNat), (0x108, 4, p.uncorrMask.toNat), (0x110, 4, p.corr.toNat), (0x114, 4, p.corrMask.toNat),
    (0x118, 1, p.firstError + kept 0x118), (0x11C, 16, leNat p.headerLog),
    (0x14C, 8, Config.serial.toNat),
    (0x164, 4, p.doeBusy.toNat + 4 * p.doeError.toNat + 2 ^ 31 * p.doeReady.isSome.toNat),
    (0x25C, 4, 0x1F), (0x260, 1, kept 0x260 + 4 * p.l12Enable.toNat), (0x26C, 4, 1 + 2 ^ 24 * kept 0x26F),
    (0x27C, 4, 2 ^ 18 + 2 ^ 23), (0x280, 4, 2 + 2 ^ 5 + 2 ^ 8 * p.barSize)] ++
  capabilities.map fun c => (c.1, 4, c.2.1 + 2 ^ 16 * c.2.2.1 + 2 ^ 20 * c.2.2.2)

/-- A byte of configuration space: a register of the tables, or what was written to a writable one, or zero. -/
def cfgByteRead (s : State) (o : Nat) : Byte :=
  if (cfgBlock s).any fun r => decide (r.1 ≤ o) && decide (o < r.1 + r.2.1) then blockByte (cfgBlock s) o
  else s.pcie.kept o

/-- What a read of `size` bytes of registers returns (R5, R606). -/
def registerRead (space : RegSpace) (offset size : Nat) (s : State) : List Byte :=
  match space with
  | .bar0 =>
    if bar0Strict offset && !((decide (size = 4) || decide (size = 8)) && decide (offset % size = 0)) then zeroBytes size
    else (List.range size).map fun i => bar0Byte s (offset + i)
  | .control => (List.range size).map fun i => controlByte s (offset - 0x6000000000 + i)
  | .config => (List.range size).map fun i => cfgByteRead s (offset + i)

end Sys2Proof.Machine
end

