-- ==== Sys2Proof/Machine/Security.lean ====
section
/-! DEFINITION. Data Object Exchange, SPDM and the debug unlock (R626 to R628, R763 to R768). -/

namespace Sys2Proof.Machine

/-! ## DOE (R626 to R628) -/

/-- DOE takes objects: firmware has started, no error is pending, JTAG is locked. It does so until PERST#, in SLEEP too (R628). -/
def doeOpen (s : State) : Bool := !s.pcie.doeBusy && !s.pcie.doeError && !s.sec.unlocked

/-- A DOE response leaves, and waits to be read. -/
def doeAnswer (bytes : List Byte) (s : State) : State :=
  (s.modPcie fun p => { p with doeReady := some bytes }).push (.doe bytes)

/-- The entries of DOE discovery: vendor, protocol, and the index of the next entry (Table 20-4). -/
def doeProtocols : List Byte := leBytes 2 0x0001 ++ [0x00, 0x01] ++ leBytes 2 0x0001 ++ [0x01, 0x00]

/-- A data object is written. One of another protocol, or of more than 1,024 doublewords, sets DOE Error and is discarded;
an SPDM message is answered at `SPDM_REQUEST`. -/
def doeWrite (vendor protocol dwords : Nat) (s : State) : State :=
  if doeOpen s = false then s
  else if vendor ≠ 1 ∨ 2 ≤ protocol ∨ 1024 < dwords then s.modPcie fun p => { p with doeError := true }
  else if protocol = 0 then doeAnswer doeProtocols s
  else s

/-- A data object reaches control core 3; while that does not run it waits for it (R628, R666). -/
def execDoeObjectWrite (vendor protocol dwords : Nat) (s : State) : Result :=
  cfgAccess (fun s =>
    .next (if doeOpen s then forCore3 (.doeObjectWrite vendor protocol dwords) (doeWrite vendor protocol dwords) s else s)) s

/-- DOE Abort clears the mailbox, with what waits in it. -/
def execDoeAbort (s : State) : Result :=
  cfgAccess (fun s =>
    .next ((s.modPcie fun p => { p with doeError := false, doeReady := none }).modFw fun w =>
      { w with
        waiting3 := w.waiting3.filter fun i => match i with
          | .doeObjectWrite .. => false
          | .spdmRequest .doe _ => false
          | _ => true })) s

/-! ## SPDM (R763 to R766) -/

/-- Position of a transport among the connection states. -/
def transportIndex : Transport → Nat
  | .smbus => 0
  | .vdm => 1
  | .doe => 2

/-- An SPDM message reaches the responder. -/
def spdmOpen (s : State) (t : Transport) : Bool :=
  match t with
  | .doe => doeOpen s && s.pcie.linkUp
  | t => mctpOpen s t

/-- Digests of the loaded prickings in load order, joined. -/
def prickingDigests (s : State) : List Byte := (s.obj.loaded.map (·.digest)).flatten

/-- The value of a measurement block (Table 25-3). -/
def measurementValue (s : State) (index : Nat) : Option (List Byte) :=
  match index with
  | 1 => some Config.bootRomDigest
  | 2 => some (s.sec.fwDigest ++ leBytes 4 s.sec.fwSecurity)
  | 3 => some (sm3 (prickingDigests s))
  | 4 =>
    some (leBytes 1 s.sec.securityVersion ++ leBytes 1 s.sec.fkRevoked.toNat ++ leBytes 1 s.sec.required.toNat ++
      ([0, 1, 2, 3].map Config.ownerKeyDigest).flatten)
  | 5 => some (leBytes 1 s.sec.unlocked.toNat)
  | _ => none

/-- A measurement block in the DMTF format. -/
def measurementBlock (index : Nat) (v : List Byte) : List Byte :=
  leBytes 1 index ++ leBytes 1 1 ++ leBytes 2 (v.length + 3) ++ leBytes 1 (if index = 2 ∨ 4 ≤ index then 0x80 else 0) ++
    leBytes 2 v.length ++ v

/-- An SPDM 1.2 message: version, code, two parameters, payload. -/
def spdmMsg (code p1 p2 : Nat) (payload : List Byte) : List Byte :=
  leBytes 1 0x12 ++ leBytes 1 code ++ leBytes 1 p1 ++ leBytes 1 p2 ++ payload

/-- Error codes of SPDM. -/
abbrev spdmInvalid : Nat := 0x01
abbrev spdmUnexpected : Nat := 0x04
abbrev spdmUnspecified : Nat := 0x05
abbrev spdmUnsupported : Nat := 0x07
/-- An ERROR response. -/
def spdmError (code : Nat) : List Byte := spdmMsg 0x7F code 0 []

/-- Bits CERT_CAP, CHAL_CAP and MEAS_CAP with signatures (R764). -/
abbrev spdmCaps : Nat := 0x2 + 0x4 + 0x10
/-- TPM_ALG_SM2_ECC_SM2_P256 and TPM_ALG_SM3_256 in the algorithm masks. -/
abbrev spdmSm2 : Nat := 0x200
abbrev spdmSm3 : Nat := 0x40

/-- The response to a request, by the connection state of its transport, and the state that follows (R764, R765). A
certificate chain that does not verify makes certificate retrieval fail (R757). -/
def spdmReply (s : State) (conn : Nat) (r : SpdmReq) : List Byte × Nat :=
  let ready (m : List Byte) : List Byte × Nat := (if conn = 3 then m else spdmError spdmUnexpected, conn)
  let chain (m : List Byte) : List Byte := if s.sec.chainValid then m else spdmError spdmUnspecified
  match r with
  | .getVersion => (spdmMsg 0x04 0 0 (leBytes 2 0x0100 ++ leBytes 2 0x1200), 1)
  | .getCapabilities =>
    if conn = 0 then (spdmError spdmUnexpected, conn) else (spdmMsg 0x61 0 0 (zeroBytes 4 ++ leBytes 4 spdmCaps), 2)
  | .negotiate =>
    if conn < 2 then (spdmError spdmUnexpected, conn)
    else (spdmMsg 0x63 0 0 (leBytes 4 spdmSm2 ++ leBytes 4 spdmSm3 ++ leBytes 4 spdmSm3), 3)
  | .getDigests => ready (chain (spdmMsg 0x01 0 1 (sm3 Config.certificateChain)))
  | .getCertificate slot =>
    ready (if slot = 0 then chain (spdmMsg 0x02 0 0 Config.certificateChain) else spdmError spdmInvalid)
  | .challenge slot =>
    ready (if slot = 0 then
        spdmMsg 0x03 0 1 (sm3 Config.certificateChain ++ freeBytes 32 s ++
          Config.identitySign (sm3 (sm3 Config.certificateChain ++ freeBytes 32 s)))
      else spdmError spdmInvalid)
  | .getMeasurements index =>
    ready (match measurementValue s index with
      | none => spdmError spdmInvalid
      | some v =>
        let b := measurementBlock index v
        spdmMsg 0x60 0 0 (leBytes 1 1 ++ leBytes 3 b.length ++ b ++ freeBytes 32 s ++
          Config.identitySign (sm3 (b ++ freeBytes 32 s))))
  | .other => (spdmError spdmUnsupported, conn)

/-- An SPDM request is answered over its transport. -/
def spdmServe (transport : Transport) (r : SpdmReq) (s : State) : State :=
  let i := transportIndex transport
  let reply := spdmReply s (s.sec.spdm.getD i 0) r
  let s := (s.modSec fun x => { x with spdm := listSet x.spdm i reply.2 }).useFreshN 32
  match transport with
  | .doe => doeAnswer reply.1 s
  | t => s.push (.spdm t reply.1)

/-- An SPDM request reaches control core 3, or waits for it (R666). -/
def execSpdmRequest (transport : Transport) (r : SpdmReq) (s : State) : Result :=
  .next (if spdmOpen s transport then forCore3 (.spdmRequest transport r) (spdmServe transport r) s else s)

/-! ## Debug unlock (R767, R768) -/

/-- The boot core serves the JTAG challenge: the hub is powered and out of PERST#. -/
def jtagOpen (s : State) : Bool := s.power.main && !s.pcie.perst && decide (s.power.state < 6) && !s.sec.unlocked

/-- A read of the challenge register presents a fresh nonce and ID.SERIAL. -/
def execJtagChallengeRead (s : State) : Result :=
  if jtagOpen s = false then .next s
  else
    let n := freeBytes 32 s
    .next (((s.modSec fun x => { x with nonce := some n }).useFreshN 32).push (.jtagChallenge n Config.serial.toNat))

/-- The response unlocks: the key is unrevoked, unlocking is not disabled, and the signature verifies over SM3 of the nonce
and ID.SERIAL (R767 step 2). -/
def unlockOk (s : State) (key : Nat) (signature : List Byte) : Bool :=
  match s.sec.nonce with
  | none => false
  | some n =>
    if h : key < 4 then
      !s.sec.jtagDisable && !s.sec.fkRevoked.getLsbD key &&
        Config.fkVerify ⟨key, h⟩ (sm3 (n ++ leBytes 8 Config.serial.toNat)) signature
    else false

/-- Control cores halt, every line of pillow, hub SRAM and DDR is zeroed, HEV.STATE is FAULT with code 0, and JTAG opens (R767
steps 4 to 6). -/
def openJtag (s : State) : State :=
  let s := (List.range 4).foldl (fun s c => s.modCc c fun k => { k with run := 2 }) s
  let s := zeroRange hubBase (hubEnd - hubBase) (zeroRange pillowBase (4 * pillowBytes) (ddrZero s))
  let s := (List.range 4).foldl (fun s k => s.modPil k fun p => { p with poison := [] }) s
  let s := s.modMem fun m => { m with hubPoison := [] }
  let s := s.modHost fun h => { h with state := .fault, faultCode := 0, faultWait := none }
  s.modSec fun x => { x with unlocked := true, unlocking := false }

/-- An accepted unlock goes on once the card's work has ended; work that evacuation left here is ended (R767 step 3). -/
def unlockIfIdle (s : State) : State :=
  if s.sec.unlocking = false ∨ s.pair.evacuating = true then s
  else if s.obj.sessions ≠ [] ∧ s.host.ending = false then beginEnding s
  else if s.obj.sessions ≠ [] ∨ s.obj.stitches ≠ [] then s
  else openJtag s

/-- The debugger's response. A failed unlock changes nothing and consumes the nonce. -/
def execJtagUnlockResponse (key : Nat) (signature : List Byte) (s : State) : Result :=
  if jtagOpen s = false ∨ s.sec.unlocking = true then .next s
  else if unlockOk s key signature = false then
    .next (s.modSec fun x => { x with nonce := none, unlockFails := satAdd32 x.unlockFails 1 })
  else
    let s := s.modSec fun x => { x with nonce := none, unlocking := true }
    let s := if healthy s then startEvacuation s else endIfIdle (beginEnding s)
    .next (unlockIfIdle s)

end Sys2Proof.Machine
end

