-- ==== Sys2Proof/Machine/Resume.lean ====
section
/-! DEFINITION. Control cores that run again, after a restart or SLEEP: what waited for them is done (R628, R655, R663 to R666,
R706). -/

namespace Sys2Proof.Machine

/-- What waited for core 3, as it is then done: frames that carry their ingress stamps, data objects, SPDM and management messages
(R628, R666). -/
def runWaiting (i : Instr) (s : State) : State :=
  match i with
  | .frameReceive f => receive f s
  | .doeObjectWrite v p n => doeWrite v p n s
  | .spdmRequest t r => spdmServe t r s
  | .mctpPldmRequest t r => pldmServe t r s
  | .locateEffecterWrite v => s.modBoard fun b => { b with locate := v }
  | _ => s

/-- Core 3 runs: what waited for it is done in order. -/
def drainCore3 (s : State) : State := s.fw.waiting3.foldl (fun s i => runWaiting i s) (s.modFw fun w => { w with waiting3 := [] })

/-- Core 1 or 2 runs: what left the jitter buffers of its streams is depacketised (R665). -/
def drainFlows (core : Nat) (s : State) : State :=
  (s.obj.flows.filter fun f => decide (1 + f.req.stream.index % 2 = core)).foldl
    (fun s f =>
      let (f, s) := emptyOutbox f s
      setFlow f s) s

/-- Core 0 runs: it carries out the completion steps, takes the dispatch decisions and takes the commands that waited for it (R663,
R664). -/
def drainCore0 (s : State) : State :=
  let done := s.fw.heldComplete
  let s := done.foldl (fun s id => completionSteps id s) (s.modFw fun w => { w with heldComplete := [] })
  let parts := s.fw.heldDispatch
  takeHeld (parts.foldl (fun s h => decide_ h s) (s.modFw fun w => { w with heldDispatch := [] }))

/-- A restarted control core runs again. -/
def execControlCoreResume (core : Nat) (s : State) : Result :=
  if 4 ≤ core ∨ (s.cc core).run ≠ 3 then .next s
  else
    let s := s.modCc core fun k => { k with run := 1, wdogLeft := 250000 }
    .next (if core = 0 then drainCore0 s else if core = 3 then drainCore3 s else drainFlows core s)

/-- The wake steps of Table 23-4 have ended: READY, and the commands that waited are taken (R619, R706, R779); a partner's work that
waits for this card is taken (R620). -/
def execSleepWakeComplete (advertisedW : Nat) (s : State) : Result :=
  if s.power.state ≠ 5 ∨ s.host.state ≠ .starting then .next s
  else
    let s := restorePillows (selfRefreshAll false (restoreGatherer s))
    let s := (List.range 4).foldl (fun s c => s.modDdr c fun d => { d with zqRuns := d.zqRuns + 1 }) s
    let s := s.modPower fun p =>
      { p with state := 1, pll := true, vdd := [600, 600, 600, 600], advertised := advertisedW }
    let s := drainCore3 (startFirmware s)
    let s := s.modHost fun h => { h with state := .ready }
    let s := match s.pair.wakeFor with
      | none => s
      | some (kind, cause) => takeOver kind cause (s.modPair fun p => { p with wakeFor := none })
    .next (sleepIfPending (takeHeld s))

end Sys2Proof.Machine
end

