-- ==== Sys2Proof/Machine/Tick.lean ====
section
/-! DEFINITION. One tick of 40 ns with no command: what the card's clocks and countdowns do (R629 to R632, R560 to R562,
R656, Table 11-8, Table 15-3, Table 22-4). -/

namespace Sys2Proof.Machine

/-- Some tick source runs: auxiliary or main power is present. -/
def ticking (s : State) : Bool := s.power.aux || s.power.main

/-- The card clock and TIME.TICK; TIME.TICK counts from PERST# deassertion. -/
def tickClock (s : State) : State :=
  s.modTime fun t =>
    let t := clockTick (decide (s.power.state < 6)) t
    { t with tick := if s.pcie.perst then t.tick else t.tick + 1 }

/-- A control core's watchdog counts down. The boot core, as core 4, reloads its own, at times that are open, before it runs
out; that it runs out is an event of its own (R656, R660). -/
def tickWatchdog (reload : Bool) (n : Nat) (c : ControlCore) : ControlCore :=
  if c.run ≠ 1 then c
  else if n = 4 ∧ (reload = true ∨ c.wdogLeft ≤ 1) then { c with wdogLeft := 250000 }
  else { c with wdogLeft := c.wdogLeft - 1 }

/-- Watchdogs of the running cores count down. -/
def tickWatchdogs (s : State) : State :=
  (s.modFw fun w => { w with cores := SMap.mapVals {} (tickWatchdog (Config.freeBool s.fresh)) w.cores }).useFresh

/-- CC.BUSY_CYCLES of the running control cores: how many of a tick's 40 cycles are busy is open. -/
def tickBusy (s : State) : State :=
  (s.modFw fun w =>
    { w with
      cores := SMap.mapVals {}
        (fun n c => if c.run = 1 then { c with busy := c.busy + Config.freeNat (s.fresh + n) % 41 } else c) w.cores }).useFreshN 5

/-- The lease counts down while a session is open and no command that names one is in execution (R560, R562). -/
def tickLease (s : State) : State :=
  if sessionCommand s then s
  else s.modHost fun h => { h with leaseLeft := h.leaseLeft.map (· - 1) }

/-- CORE.CYCLES of the cores that count: the compute clock makes 60 cycles a tick, stretched by sixteenths (R33, R208). -/
def tickCores (s : State) : State :=
  let n := 16 + s.power.step
  let total := s.power.corePhase + 960
  (s.modPower fun p => { p with corePhase := total % n }).modCores
    (SMap.mapVals {} fun _ c => if c.counting then { c with cycles := c.cycles + total / n } else c)

/-- MC.PANIC_TICKS of channels in panic. -/
def tickPanic (s : State) : State :=
  s.modMem fun m =>
    { m with ddr := SMap.mapVals {} (fun _ d => if d.panic then { d with panicTicks := d.panicTicks + 1 } else d) m.ddr }

/-- Saves and restores of the decode engines end (R431, R450). -/
def tickEngines (s : State) : State :=
  s.modVideo fun v => { v with engines := SMap.mapVals {} (fun _ e => engineTick s.time.tick e) v.engines }

/-- Pictures that a commit could still have given eyelet jobs in the tick of their forwarding release their output buffers
(R469, R471). -/
def releaseCut (s : State) : State :=
  (s.obj.streams.filter (·.hasEyelets)).foldl (fun s x => releasePictures x.handle s) s

/-- One tick passes: the picots of the tick that ends are released (R522), and then the clocks move; work that is being ended
has ended once no stitch is left (R569). -/
def idleTick (s : State) : State :=
  if ticking s then
    reportLtr <| mirrorFlush <| unlockIfIdle <| endIfIdle <| shadowed releaseCut <| shadowed starveTick <| tickEngines <|
      settleLinks <| tickPanic <| tickLease <| tickCores <| tickBusy <| tickWatchdogs <| tickClock <| drainStamps <| releaseHeld s
  else s

end Sys2Proof.Machine
end

