-- ==== Sys2Proof/Machine/Vector.lean ====
section
/-! DEFINITION. The vector unit (R172 to R177, R131, R274 to R280, R795, R796). -/

namespace Sys2Proof

/-! ## Lanes -/

/-- Format code of a lane. -/
def LaneFmt.code : LaneFmt → Nat
  | .fp32 => 0x32 | .bf16 => 0x30 | .int8 => 0x01
/-- Bytes of a lane. -/
def LaneFmt.size : LaneFmt → Nat
  | .fp32 => 4 | .bf16 => 2 | .int8 => 1
/-- Lanes of a register. -/
def LaneFmt.lanes (f : LaneFmt) : Nat := 256 / f.size

/-- Encoding of lane `i` of a register's bytes. -/
def LaneFmt.raw (f : LaneFmt) (bs : List Byte) (i : Nat) : Nat := elemRaw f.code bs i
/-- Value of lane `i`. -/
def LaneFmt.val (f : LaneFmt) (bs : List Byte) (i : Nat) : Val := elemVal f.code (f.raw bs i)
/-- A register's bytes from its lanes' encodings. -/
def LaneFmt.pack (f : LaneFmt) (xs : List Nat) : List Byte := packElems f.code xs
/-- A value rounded once to the lane format; INT8 saturates (R60, R174). -/
def LaneFmt.round (f : LaneFmt) (v : Val) : Nat := convertRne f.code v
/-- FP32 bits of a lane's value; BF16 widens exactly. -/
def LaneFmt.toFp32 (f : LaneFmt) (raw : Nat) : W32 :=
  match f with
  | .fp32 => BitVec.ofNat 32 raw
  | _ => rne32 (elemVal f.code raw)
/-- An FP32 result rounded once to the lane format. -/
def LaneFmt.ofFp32 (f : LaneFmt) (w : W32) : Nat :=
  match f with
  | .fp32 => w.toNat
  | _ => f.round (Sys2Proof.fp32 w)

/-- Canonical NaN of a lane format (Table 2-5); INT8 has none. -/
def LaneFmt.nan (f : LaneFmt) : Nat := f.round .nan

/-- The value is −0. -/
def Val.negZero : Val → Bool
  | .num true 0 _ => true
  | _ => false

/-- The lesser or the greater of two lanes: canonical NaN when either is NaN, +0 above −0 (R174). -/
def LaneFmt.pick (f : LaneFmt) (greater : Bool) (a b : Nat) : Nat :=
  let x := elemVal f.code a
  let y := elemVal f.code b
  if x.isNan || y.isNan then f.nan
  else if x.lt y then (if greater then b else a)
  else if y.lt x then (if greater then a else b)
  else if x.negZero = greater then b else a

/-! ## Function units (Table 6-7, R796) -/

/-- The significand of `2^k` for a fraction of `k` units of 2^-149, in units of 2^-23: the function unit's where it is within the
bound, else the nearest. -/
def exp2Significand (k : Nat) : Nat :=
  let unit := fixOne / 2 ^ 23
  let exact := (fixExp2Frac k).toNat
  let n := Config.exp2Frac k
  if n * unit ≤ exact + unit ∧ exact ≤ n * unit + unit ∧ 2 ^ 23 ≤ n then n else (exact + unit / 2) / unit

/-- `2^a` for a number `a = n + k 2^-149`: the significand of the fraction is the function unit's and the same for every
integer `n` (R274); at `k = 0` it is exact, as R275 needs. Past 400 either way every power rounds alike, to infinity or to 0. -/
def exp2Val (neg : Bool) (m : Nat) (e : Int) : Val :=
  let v : Int := (if neg then -1 else 1) * ((m * 2 ^ (e + 149).toNat : Nat) : Int)
  let n := max (-400) (min 400 (v / ((2 ^ 149 : Nat) : Int)))
  let k := (v % ((2 ^ 149 : Nat) : Int)).toNat
  .num false (if k = 0 then 2 ^ 23 else exp2Significand k) (n - 23)

/-- `VEXP2`. -/
def vexp2Fp32 (w : W32) : W32 :=
  match fp32 w with
  | .nan => 0x7FC00000
  | .inf n => if n then 0 else 0x7F800000
  | .num n m e => rne32 (exp2Val n m e)

/-- `VLOG2`. -/
def vlog2Fp32 (w : W32) : W32 :=
  match fp32 w with
  | .nan => 0x7FC00000
  | .inf n => if n then 0x7FC00000 else 0x7F800000
  | .num n m e =>
    if m = 0 then 0xFF800000
    else if n then 0x7FC00000
    else unitResult 1 (ofFix (fixLog2 m e)) (Config.log2Bits w)

/-- `VRCP`. -/
def vrcpFp32 (w : W32) : W32 :=
  let exact := fdivVal (.num false 1 0) (fp32 w)
  if (fp32 w).isFin then unitResult 1 exact (Config.rcpBits w) else rne32 exact

/-- `VRSQRT`. -/
def vrsqrtFp32 (w : W32) : W32 :=
  match fp32 w with
  | .nan => 0x7FC00000
  | .inf n => if n then 0x7FC00000 else 0
  | .num n m e =>
    if m = 0 then (if n then 0xFF800000 else 0x7F800000)
    else if n then 0x7FC00000
    else unitResult 1 (rsqrtVal m e) (Config.rsqrtBits w)

/-- A function unit of two units in the last place, with its values at −∞ and +∞; it keeps a zero when `zero` is set (R174). -/
def unitFp32 (lo hi : W32) (zero : Bool) (f : Bool → Nat → Int → Val) (bits : W32 → W32) (w : W32) : W32 :=
  match fp32 w with
  | .nan => 0x7FC00000
  | .inf n => if n then lo else hi
  | .num n m e => if m = 0 ∧ zero = true then w else unitResult 2 (f n m e) (bits w)

/-- `VTANH`. -/
def vtanhFp32 : W32 → W32 := unitFp32 0xBF800000 0x3F800000 true tanhVal Config.tanhBits
/-- `VSIGM`. -/
def vsigmFp32 : W32 → W32 := unitFp32 0 0x3F800000 false sigmVal Config.sigmBits
/-- `VGELU`. -/
def vgeluFp32 : W32 → W32 := unitFp32 0x80000000 0x7F800000 true geluVal Config.geluBits
/-- `VSILU`. -/
def vsiluFp32 : W32 → W32 := unitFp32 0x80000000 0x7F800000 true siluVal Config.siluBits

/-! ## Reductions (R131, R174) -/

/-- `merge` of R131. -/
def mergePair (a b : W32 × W32) : W32 × W32 :=
  if finite32 a.1 = false ∨ finite32 b.1 = false then (fadd a.1 b.1, 0)
  else
    let (s, d) := twoSum a.1 b.1
    twoSum s (fadd (fadd a.2 b.2) d)

/-- One level of the tree of R131: neighbours are merged, an odd last one is carried up. -/
def mergeLevel : List (W32 × W32) → List (W32 × W32)
  | a :: b :: l => mergePair a b :: mergeLevel l
  | l => l

/-- `reduce` of R131 over at most `2 ^ levels` pairs. -/
def reducePairs : Nat → List (W32 × W32) → W32 × W32
  | 0, l => l.headD (0, 0)
  | n + 1, l => reducePairs n (mergeLevel l)

/-- Sum of a group of 32 lanes. -/
def groupSum32 (xs : List W32) : W32 :=
  let (s, e) := reducePairs 5 (xs.map fun x => (x, 0))
  fadd s e

/-- A key goes before another in `VSORT32`: greater, or not NaN before NaN. -/
def sortsBefore (a b : W32) : Bool := (fp32 b).lt (fp32 a) || (!(fp32 a).isNan && (fp32 b).isNan)

/-- A key with its lane put into a sorted list, after its equals. -/
def sortInsert (x : W32 × Nat) : List (W32 × Nat) → List (W32 × Nat)
  | [] => [x]
  | y :: l => if sortsBefore x.1 y.1 then x :: y :: l else y :: sortInsert x l

/-- Keys sorted descending, NaN last, equal keys in lane order (R174). -/
def sortLanes (l : List (W32 × Nat)) : List (W32 × Nat) := l.foldl (fun acc x => sortInsert x acc) []

/-! ## Register operations -/

/-- Each lane from two sources. -/
def ComputeCore.lane2 (c : ComputeCore) (f : LaneFmt) (vd va vb : Nat) (op : Nat → Nat → Nat) : ComputeCore :=
  let a := c.vreg va
  let b := c.vreg vb
  c.setVreg vd (f.pack ((List.range f.lanes).map fun i => op (f.raw a i) (f.raw b i)))

/-- Each lane from one source, computed in FP32 and rounded once. -/
def ComputeCore.lane1 (c : ComputeCore) (f : LaneFmt) (vd va : Nat) (op : W32 → W32) : ComputeCore :=
  let a := c.vreg va
  c.setVreg vd (f.pack ((List.range f.lanes).map fun i => f.ofFp32 (op (f.toFp32 (f.raw a i)))))

/-- A value of each 32-lane group to lane g, +0 to every other lane. -/
def ComputeCore.groups (c : ComputeCore) (f : LaneFmt) (vd va : Nat) (op : List Nat → Nat) : ComputeCore :=
  let a := c.vreg va
  c.setVreg vd (f.pack ((List.range f.lanes).map fun i =>
    if i < f.lanes / 32 then op ((List.range 32).map fun j => f.raw a (32 * i + j)) else 0))

/-- FP32 bits of lane `i` of a register. -/
def ComputeCore.lane32 (c : ComputeCore) (v i : Nat) : W32 := BitVec.ofNat 32 (LaneFmt.raw .fp32 (c.vreg v) i)

/-- An FP32 lane of each of two destination registers. -/
def ComputeCore.setPair (c : ComputeCore) (vd : Nat) (xs ys : List Nat) : ComputeCore :=
  (c.setVreg vd (LaneFmt.pack .fp32 xs)).setVreg (vd + 1) (LaneFmt.pack .fp32 ys)

/-- `VCVT` of `n` lanes from lane `part * n` on (R795). -/
def ComputeCore.convert (c : ComputeCore) (f : LaneFmt) (vd va target part : Nat) : ComputeCore :=
  let n := min f.lanes (2048 / elemBits target)
  let a := c.vreg va
  let bs := packElems target ((List.range n).map fun i => convertRne target (f.val a (part * n + i)))
  c.setVreg vd (bs ++ zeroBytes (256 - bs.length))

/-- A per-row register field as FP32 bits (R175). -/
def Hoop.getField (h : Hoop) (f : RowField) (r : Nat) : W32 :=
  match f with
  | .max => SMap.get 0 h.max r
  | .sum => SMap.get 0 h.sum r
  | .scale => SMap.get 0 h.scale r
  | .maxValid => if SMap.get false h.valid r then 0x3F800000 else 0

/-- A per-row register field written (R175). -/
def Hoop.setField (h : Hoop) (f : RowField) (r : Nat) (w : W32) : Hoop :=
  match f with
  | .max => { h with max := SMap.set 0 h.max r (cleanFp32 w) }
  | .sum => { h with sum := SMap.set 0 h.sum r (cleanFp32 w) }
  | .scale => { h with scale := SMap.set 0 h.scale r (cleanFp32 w) }
  | .maxValid => { h with valid := SMap.set false h.valid r (!(fp32 w).isZero) }

/-- A hoop row multiplied by a rescale factor: SUM and ERR, each rounded once (R276). -/
def Hoop.rescaleRow (h : Hoop) (r : Nat) (w : W32) : Hoop :=
  (List.range 32).foldl
    (fun h j => h.setEntry r j (mkEntry (fmul (entrySum (h.entry r j)) w) (fmul (entryErr (h.entry r j)) w))) h

/-- The entries of a hoop stand in the integer layout: its latest operation since `CLEAR` accumulates in INT32. -/
def Array4.holdsIntegers (x : Array4) (b : Bool) : Bool :=
  let rows := (x.window b).filterMap fun w => match w with
    | .rows o => some o
    | .load _ => none
  match rows.getLast? with
  | some o => o.mode.integer
  | none => false

/-- Lanes 0 to 31 written to a field; SCALE also multiplies the rows of a float-layout hoop (R175, R276). -/
def Array4.setRows (x : Array4) (b : Bool) (f : RowField) (ws : List W32) : Array4 :=
  let float := !x.holdsIntegers b
  x.modHoop b fun h => (List.range 32).foldl
    (fun h r =>
      let w := ws.getD r 0
      let h := h.setField f r w
      if f = .scale ∧ float = true then h.rescaleRow r w else h) h

namespace Machine

/-- A two-source lane operation on values. -/
def laneArith (c : Slot) (f : LaneFmt) (vd va vb : Nat) (op : Val → Val → Val) (s : State) : State :=
  coreOp c (fun k => k.lane2 f vd va vb fun a b => f.round (op (elemVal f.code a) (elemVal f.code b))) s

/-- `VADD` (Table 6-7, R174). -/
def execVadd (c : Slot) (fmt : LaneFmt) (vd va vb : Nat) (s : State) : Result := .next (laneArith c fmt vd va vb Val.add s)

/-- `VSUB`. -/
def execVsub (c : Slot) (fmt : LaneFmt) (vd va vb : Nat) (s : State) : Result :=
  .next (laneArith c fmt vd va vb (fun a b => a.add b.neg) s)

/-- `VMUL`. -/
def execVmul (c : Slot) (fmt : LaneFmt) (vd va vb : Nat) (s : State) : Result := .next (laneArith c fmt vd va vb Val.mul s)

/-- `VFMA`: rounded once. -/
def execVfma (c : Slot) (fmt : LaneFmt) (vd va vb vc : Nat) (s : State) : Result :=
  .next (coreOp c (fun k =>
    let z := k.vreg vc
    let x := k.vreg va
    let y := k.vreg vb
    k.setVreg vd (fmt.pack ((List.range fmt.lanes).map fun i =>
      fmt.round (((fmt.val x i).mul (fmt.val y i)).add (fmt.val z i))))) s)

/-- `VMIN`. -/
def execVmin (c : Slot) (fmt : LaneFmt) (vd va vb : Nat) (s : State) : Result :=
  .next (coreOp c (fun k => k.lane2 fmt vd va vb (fmt.pick false)) s)

/-- `VMAX`. -/
def execVmax (c : Slot) (fmt : LaneFmt) (vd va vb : Nat) (s : State) : Result :=
  .next (coreOp c (fun k => k.lane2 fmt vd va vb (fmt.pick true)) s)

/-- `VCMP`: all-ones or zero per lane, by value. -/
def execVcmp (c : Slot) (fmt : LaneFmt) (vd va vb cond : Nat) (s : State) : Result :=
  .next (coreOp c (fun k => k.lane2 fmt vd va vb fun a b =>
    laneFlag (8 * fmt.size) (compareLane cond (elemVal fmt.code a) (elemVal fmt.code b))) s)

/-- Encoding of a lane as an operation writes it: a NaN in its canonical encoding (R61). -/
def LaneFmt.clean (f : LaneFmt) (raw : Nat) : Nat := if (elemVal f.code raw).isNan then f.nan else raw

/-- `VSEL`: VC is judged on its bits. -/
def execVsel (c : Slot) (fmt : LaneFmt) (vd va vb vc : Nat) (s : State) : Result :=
  .next (coreOp c (fun k =>
    let z := k.vreg vc
    let x := k.vreg va
    let y := k.vreg vb
    k.setVreg vd (fmt.pack ((List.range fmt.lanes).map fun i =>
      LaneFmt.clean fmt (if fmt.raw z i ≠ 0 then fmt.raw x i else fmt.raw y i)))) s)

/-- Encoding of an immediate in a lane format (R174 `VBCAST`). -/
def LaneFmt.imm (f : LaneFmt) (imm : W32) : Nat :=
  match f with
  | .int8 => f.round (.ofInt imm.toInt)
  | _ => f.ofFp32 (cleanFp32 imm)

/-- `VBCAST`. -/
def execVbcast (c : Slot) (fmt : LaneFmt) (vd : Nat) (imm : W32) (s : State) : Result :=
  .next (coreOp c (fun k => k.setVreg vd (fmt.pack (List.replicate fmt.lanes (LaneFmt.imm fmt imm)))) s)

/-- `VCVT` (R795). -/
def execVcvt (c : Slot) (fmt : LaneFmt) (vd va target part : Nat) (s : State) : Result :=
  .next (coreOp c (fun k => k.convert fmt vd va target part) s)

/-- `VEXP2`. -/
def execVexp2 (c : Slot) (fmt : LaneFmt) (vd va : Nat) (s : State) : Result :=
  .next (coreOp c (fun k => k.lane1 fmt vd va vexp2Fp32) s)
/-- `VLOG2`. -/
def execVlog2 (c : Slot) (fmt : LaneFmt) (vd va : Nat) (s : State) : Result :=
  .next (coreOp c (fun k => k.lane1 fmt vd va vlog2Fp32) s)
/-- `VRCP`. -/
def execVrcp (c : Slot) (fmt : LaneFmt) (vd va : Nat) (s : State) : Result :=
  .next (coreOp c (fun k => k.lane1 fmt vd va vrcpFp32) s)
/-- `VRSQRT`. -/
def execVrsqrt (c : Slot) (fmt : LaneFmt) (vd va : Nat) (s : State) : Result :=
  .next (coreOp c (fun k => k.lane1 fmt vd va vrsqrtFp32) s)
/-- `VTANH`. -/
def execVtanh (c : Slot) (fmt : LaneFmt) (vd va : Nat) (s : State) : Result :=
  .next (coreOp c (fun k => k.lane1 fmt vd va vtanhFp32) s)
/-- `VSIGM`. -/
def execVsigm (c : Slot) (fmt : LaneFmt) (vd va : Nat) (s : State) : Result :=
  .next (coreOp c (fun k => k.lane1 fmt vd va vsigmFp32) s)
/-- `VGELU`. -/
def execVgelu (c : Slot) (fmt : LaneFmt) (vd va : Nat) (s : State) : Result :=
  .next (coreOp c (fun k => k.lane1 fmt vd va vgeluFp32) s)
/-- `VSILU`. -/
def execVsilu (c : Slot) (fmt : LaneFmt) (vd va : Nat) (s : State) : Result :=
  .next (coreOp c (fun k => k.lane1 fmt vd va vsiluFp32) s)

/-- `VTWOSUM`: x to VD, y to VD + 1 (R110). -/
def execVtwosum (c : Slot) (vd va vb : Nat) (s : State) : Result :=
  .next (coreOp c (fun k =>
    let r := (List.range 64).map fun i => twoSum (k.lane32 va i) (k.lane32 vb i)
    k.setPair vd (r.map (·.1.toNat)) (r.map (·.2.toNat))) s)

/-- `VRSUM`. -/
def execVrsum (c : Slot) (fmt : LaneFmt) (vd va : Nat) (s : State) : Result :=
  .next (coreOp c (fun k => k.groups fmt vd va fun xs => fmt.ofFp32 (groupSum32 (xs.map fmt.toFp32))) s)

/-- `VRMAX`. -/
def execVrmax (c : Slot) (fmt : LaneFmt) (vd va : Nat) (s : State) : Result :=
  .next (coreOp c (fun k => k.groups fmt vd va fun xs => xs.foldl (fmt.pick true) (xs.headD 0)) s)

/-- `VSORT32`: keys to VD, source lanes within the group to VD + 1. -/
def execVsort32 (c : Slot) (vd va : Nat) (s : State) : Result :=
  .next (coreOp c (fun k =>
    let group (g : Nat) := sortLanes ((List.range 32).map fun i => (k.lane32 va (32 * g + i), i))
    let r := group 0 ++ group 1
    k.setPair vd (r.map fun x => (cleanFp32 x.1).toNat) (r.map (·.2))) s)

/-- `VLD`: 256 bytes from scratch. -/
def execVld (c : Slot) (vd areg : Nat) (s : State) : Result :=
  .next (slotOp c (fun _ _ _ s =>
    let bs := scratchRead s c.core ((s.core c.core).addr areg) 256
    some (s.modCore c.core fun k => k.setVreg vd bs)) s)

/-- `VST`: 256 bytes to scratch. -/
def execVst (c : Slot) (va areg : Nat) (s : State) : Result :=
  .next (slotOp c (fun _ _ _ s =>
    let k := s.core c.core
    some (scratchWrite c.core (k.addr areg) (k.vreg va) s)) s)

/-- `VGATHER`: lane `i` reads bank `i mod 32` (R176). It moves bits as a load does: a NaN keeps its encoding (R61; DEDUCED, log
entry 16). -/
def execVgather (c : Slot) (fmt : LaneFmt) (vd vb areg : Nat) (s : State) : Result :=
  .next (slotOp c (fun _ _ _ s =>
    let k := s.core c.core
    let idx := k.vreg vb
    let bs := ((List.range fmt.lanes).map fun i =>
      scratchRead s c.core (k.addr areg + 2048 * fmt.raw idx i + 64 * (i % 32) + fmt.size * (i / 32)) fmt.size).flatten
    some (s.modCore c.core fun k => k.setVreg vd bs)) s)

/-- `HROWGET`: a field of the 32 rows to lanes 0 to 31; the other lanes keep their contents. -/
def execHrowget (c : Slot) (array : Nat) (hoop : Bool) (f : RowField) (vd : Nat) (s : State) : Result :=
  .next (coreOp c (fun k =>
    let h := (k.array array).hoopOf hoop
    k.setVreg vd (LaneFmt.pack .fp32 ((List.range 32).map fun r => (h.getField f r).toNat) ++ (k.vreg vd).drop 128)) s)

/-- `HROWSET`: held for SCALE while rows of earlier bundles are still to be added (R279). -/
def execHrowset (c : Slot) (array : Nat) (hoop : Bool) (f : RowField) (va : Nat) (s : State) : Result :=
  .next (slotOp c (fun _ _ _ s =>
    let k := s.core c.core
    let x := k.array array
    let due := match x.flight with
      | some g => decide (g.issue < k.issue) && x.rowsDue hoop
      | none => false
    if f = .scale ∧ due = true then none
    else
      some (s.modCore c.core fun k => k.modArray array fun x =>
        x.setRows hoop f ((List.range 32).map fun i => k.lane32 va i))) s)

end Machine
end Sys2Proof
end

