-- ==== Sys2Proof/Machine/Dispatch.lean ====
section
/-! DEFINITION. One arm per command: the one direct call of its meaning. -/

namespace Sys2Proof.Machine

/-- The effect of a command on everything but the queue. -/
def exec (i : Instr) (s : State) : Host.Outcome State Fault Refusal :=
  match i with
  | .openSession h flags leaseMs versions => Sys2Proof.Machine.execOpenSession h flags leaseMs versions s
  | .closeSession h => Sys2Proof.Machine.execCloseSession h s
  | .leaseRenew h leaseMs => Sys2Proof.Machine.execLeaseRenew h leaseMs s
  | .resync h buffer size => Sys2Proof.Machine.execResync h buffer size s
  | .adopt h snapshot leaseMs versions => Sys2Proof.Machine.execAdopt h snapshot leaseMs versions s
  | .resetWork h => Sys2Proof.Machine.execResetWork h s
  | .audit h => Sys2Proof.Machine.execAudit h s
  | .streamOpen h d outs => Sys2Proof.Machine.execStreamOpen h d outs s
  | .streamClose h stream => Sys2Proof.Machine.execStreamClose h stream s
  | .streamFeed h f data units => Sys2Proof.Machine.execStreamFeed h f data units s
  | .streamFeedTimeout stream => Sys2Proof.Machine.execStreamFeedTimeout stream s
  | .flowSetAdd h f => Sys2Proof.Machine.execFlowSetAdd h f s
  | .flowSetModify h f => Sys2Proof.Machine.execFlowSetModify h f s
  | .flowSetRemove h f => Sys2Proof.Machine.execFlowSetRemove h f s
  | .flowSetAddrAdd h f => Sys2Proof.Machine.execFlowSetAddrAdd h f s
  | .flowSetAddrRemove h f => Sys2Proof.Machine.execFlowSetAddrRemove h f s
  | .keyPicture h stream => Sys2Proof.Machine.execKeyPicture h stream s
  | .encodeOpen h d => Sys2Proof.Machine.execEncodeOpen h d s
  | .streamQuery h stream => Sys2Proof.Machine.execStreamQuery h stream s
  | .eyeletPolicy h stream output fit maxAge marginPct => Sys2Proof.Machine.execEyeletPolicy h stream output fit maxAge marginPct s
  | .modelLoad h entries total image => Sys2Proof.Machine.execModelLoad h entries total image s
  | .modelUnload h model => Sys2Proof.Machine.execModelUnload h model s
  | .modelPinSet h model partition => Sys2Proof.Machine.execModelPinSet h model partition s
  | .modelPinClear h model partition => Sys2Proof.Machine.execModelPinClear h model partition s
  | .modelPinApply partition => Sys2Proof.Machine.execModelPinApply partition s
  | .pillowPlanSet h kind stackMask g0 count => Sys2Proof.Machine.execPillowPlanSet h kind stackMask g0 count s
  | .pillowPlanClear h kind stackMask g0 count => Sys2Proof.Machine.execPillowPlanClear h kind stackMask g0 count s
  | .stitchPost h r => Sys2Proof.Machine.execStitchPost h r s
  | .stitchCancel h id => Sys2Proof.Machine.execStitchCancel h id s
  | .clientSetCreate h classes weight => Sys2Proof.Machine.execClientSetCreate h classes weight s
  | .clientSetModify h client classes weight => Sys2Proof.Machine.execClientSetModify h client classes weight s
  | .clientSetRemove h client => Sys2Proof.Machine.execClientSetRemove h client s
  | .clientStats h client => Sys2Proof.Machine.execClientStats h client s
  | .partitionSetCreate h p => Sys2Proof.Machine.execPartitionSetCreate h p s
  | .partitionSetModify h p => Sys2Proof.Machine.execPartitionSetModify h p s
  | .partitionSetRemove h p => Sys2Proof.Machine.execPartitionSetRemove h p s
  | .bobbinCreate h layout model arena maxPos pfx => Sys2Proof.Machine.execBobbinCreate h layout model arena maxPos pfx s
  | .bobbinRelease h bobbin => Sys2Proof.Machine.execBobbinRelease h bobbin s
  | .prefixCreate h bobbin => Sys2Proof.Machine.execPrefixCreate h bobbin s
  | .prefixFork h bobbin p => Sys2Proof.Machine.execPrefixFork h bobbin p s
  | .poolCreate h space bufLog2 flags count stackMask regionOffset => Sys2Proof.Machine.execPoolCreate h space bufLog2 flags count stackMask regionOffset s
  | .poolAlloc h pool => Sys2Proof.Machine.execPoolAlloc h pool s
  | .poolFreeUnref h b => Sys2Proof.Machine.execPoolFreeUnref h b s
  | .poolFreeRef h b => Sys2Proof.Machine.execPoolFreeRef h b s
  | .poolFreeDestroy h pool => Sys2Proof.Machine.execPoolFreeDestroy h pool s
  | .poolStats h pool => Sys2Proof.Machine.execPoolStats h pool s
  | .pagesPostCreate h kind vector addrs => Sys2Proof.Machine.execPagesPostCreate h kind vector addrs s
  | .pagesPostAdd h pageSet addrs => Sys2Proof.Machine.execPagesPostAdd h pageSet addrs s
  | .picotRouteDestSet h r => Sys2Proof.Machine.execPicotRouteDestSet h r s
  | .picotRouteDestRemove h dest => Sys2Proof.Machine.execPicotRouteDestRemove h dest s
  | .picotRouteStreamSet h r => Sys2Proof.Machine.execPicotRouteStreamSet h r s
  | .picotRouteStats h dest => Sys2Proof.Machine.execPicotRouteStats h dest s
  | .timeStep h sec ns => Sys2Proof.Machine.execTimeStep h sec ns s
  | .timeRate h rate => Sys2Proof.Machine.execTimeRate h rate s
  | .timeUnitClaim h unit function connector periodNs start => Sys2Proof.Machine.execTimeUnitClaim h unit function connector periodNs start s
  | .timeUnitRelease h unit => Sys2Proof.Machine.execTimeUnitRelease h unit s
  | .pairJoin h mode role => Sys2Proof.Machine.execPairJoin h mode role s
  | .pairJoinTimeout => Sys2Proof.Machine.execPairJoinTimeout s
  | .pairEvacuate h => Sys2Proof.Machine.execPairEvacuate h s
  | .pairStatus h => Sys2Proof.Machine.execPairStatus h s
  | .powerCap h capW => Sys2Proof.Machine.execPowerCap h capW s
  | .powerStateNap h pllIdleUs => Sys2Proof.Machine.execPowerStateNap h pllIdleUs s
  | .powerStateReady h pllIdleUs => Sys2Proof.Machine.execPowerStateReady h pllIdleUs s
  | .logConfig h levels => Sys2Proof.Machine.execLogConfig h levels s
  | .traceSetEnable h mask => Sys2Proof.Machine.execTraceSetEnable h mask s
  | .traceSetDisable h mask => Sys2Proof.Machine.execTraceSetDisable h mask s
  | .traceSetReplace h mask => Sys2Proof.Machine.execTraceSetReplace h mask s
  | .measurements h first count => Sys2Proof.Machine.execMeasurements h first count s
  | .unknownOpcode h opcode => Sys2Proof.Machine.execUnknownOpcode h opcode s
  | .bootLoad h entries imageBytes image => Sys2Proof.Machine.execBootLoad h entries imageBytes image s
  | .bootLoadTimeout => Sys2Proof.Machine.execBootLoadTimeout s
  | .bootQuery h => Sys2Proof.Machine.execBootQuery h s
  | .leaseExpiry => Sys2Proof.Machine.execLeaseExpiry s
  | .loadw c array mode fmt areg sreg late => Sys2Proof.Machine.execLoadw c array mode fmt areg sreg late s
  | .pass c array hoop mode fmt areg sreg => Sys2Proof.Machine.execPass c array hoop mode fmt areg sreg s
  | .stream c array hoop mode fmt areg sreg n => Sys2Proof.Machine.execStream c array hoop mode fmt areg sreg n s
  | .clear c array hoop => Sys2Proof.Machine.execClear c array hoop s
  | .rowEntry core array group late waited corrected => Sys2Proof.Machine.execRowEntry core array group late waited corrected s
  | .drainPlain c d => Sys2Proof.Machine.execDrainPlain c d s
  | .drainAdd c d => Sys2Proof.Machine.execDrainAdd c d s
  | .drainPair c d => Sys2Proof.Machine.execDrainPair c d s
  | .drainStart core array early held replayCycles waits late waited withheld corrected => Sys2Proof.Machine.execDrainStart core array early held replayCycles waits late waited withheld corrected s
  | .vadd c fmt vd va vb => Sys2Proof.Machine.execVadd c fmt vd va vb s
  | .vsub c fmt vd va vb => Sys2Proof.Machine.execVsub c fmt vd va vb s
  | .vmul c fmt vd va vb => Sys2Proof.Machine.execVmul c fmt vd va vb s
  | .vfma c fmt vd va vb vc => Sys2Proof.Machine.execVfma c fmt vd va vb vc s
  | .vmin c fmt vd va vb => Sys2Proof.Machine.execVmin c fmt vd va vb s
  | .vmax c fmt vd va vb => Sys2Proof.Machine.execVmax c fmt vd va vb s
  | .vcmp c fmt vd va vb cond => Sys2Proof.Machine.execVcmp c fmt vd va vb cond s
  | .vsel c fmt vd va vb vc => Sys2Proof.Machine.execVsel c fmt vd va vb vc s
  | .vbcast c fmt vd imm => Sys2Proof.Machine.execVbcast c fmt vd imm s
  | .vcvt c fmt vd va target part => Sys2Proof.Machine.execVcvt c fmt vd va target part s
  | .vexp2 c fmt vd va => Sys2Proof.Machine.execVexp2 c fmt vd va s
  | .vlog2 c fmt vd va => Sys2Proof.Machine.execVlog2 c fmt vd va s
  | .vrcp c fmt vd va => Sys2Proof.Machine.execVrcp c fmt vd va s
  | .vrsqrt c fmt vd va => Sys2Proof.Machine.execVrsqrt c fmt vd va s
  | .vtanh c fmt vd va => Sys2Proof.Machine.execVtanh c fmt vd va s
  | .vsigm c fmt vd va => Sys2Proof.Machine.execVsigm c fmt vd va s
  | .vgelu c fmt vd va => Sys2Proof.Machine.execVgelu c fmt vd va s
  | .vsilu c fmt vd va => Sys2Proof.Machine.execVsilu c fmt vd va s
  | .vtwosum c vd va vb => Sys2Proof.Machine.execVtwosum c vd va vb s
  | .vrsum c fmt vd va => Sys2Proof.Machine.execVrsum c fmt vd va s
  | .vrmax c fmt vd va => Sys2Proof.Machine.execVrmax c fmt vd va s
  | .vsort32 c vd va => Sys2Proof.Machine.execVsort32 c vd va s
  | .vld c vd areg => Sys2Proof.Machine.execVld c vd areg s
  | .vst c va areg => Sys2Proof.Machine.execVst c va areg s
  | .vgather c fmt vd vb areg => Sys2Proof.Machine.execVgather c fmt vd vb areg s
  | .hrowget c array hoop field vd => Sys2Proof.Machine.execHrowget c array hoop field vd s
  | .hrowset c array hoop field va => Sys2Proof.Machine.execHrowset c array hoop field va s
  | .loop c level lsrc count endBundle => Sys2Proof.Machine.execLoop c level lsrc count endBundle s
  | .jump c target => Sys2Proof.Machine.execJump c target s
  | .knot c k => Sys2Proof.Machine.execKnot c k s
  | .knotRelease partition k late => Sys2Proof.Machine.execKnotRelease partition k late s
  | .ltest c lreg target imm => Sys2Proof.Machine.execLtest c lreg target imm s
  | .tskip c entry => Sys2Proof.Machine.execTskip c entry s
  | .rowmask c array lreg base enable => Sys2Proof.Machine.execRowmask c array lreg base enable s
  | .arset c ar addr => Sys2Proof.Machine.execArset c ar addr s
  | .arstride c ar stride => Sys2Proof.Machine.execArstride c ar stride s
  | .aradd c ar imm => Sys2Proof.Machine.execAradd c ar imm s
  | .arlen c ar lreg mul => Sys2Proof.Machine.execArlen c ar lreg mul s
  | .end_ c => Sys2Proof.Machine.execEnd c s
  | .coreFinish core cycles => Sys2Proof.Machine.execCoreFinish core cycles s
  | .shStart c sh desc => Sys2Proof.Machine.execShStart c sh desc s
  | .shWait c sh q => Sys2Proof.Machine.execShWait c sh q s
  | .shuttleDescriptorBegin core sh => Sys2Proof.Machine.execShuttleDescriptorBegin core sh s
  | .shuttleRunMove core sh ecc => Sys2Proof.Machine.execShuttleRunMove core sh ecc s
  | .shuttleDescriptorComplete core sh held gated => Sys2Proof.Machine.execShuttleDescriptorComplete core sh held gated s
  | .ppuBoxdec stack ecc => Sys2Proof.Machine.execPpuBoxdec stack ecc s
  | .ppuNms stack ecc => Sys2Proof.Machine.execPpuNms stack ecc s
  | .ppuTopk stack ecc => Sys2Proof.Machine.execPpuTopk stack ecc s
  | .ppuIou stack ecc => Sys2Proof.Machine.execPpuIou stack ecc s
  | .ppuAssign stack ecc => Sys2Proof.Machine.execPpuAssign stack ecc s
  | .ppuJobEnd stack => Sys2Proof.Machine.execPpuJobEnd stack s
  | .computeUncorrectableError core place => Sys2Proof.Machine.execComputeUncorrectableError core place s
  | .dispatchDecision partition => Sys2Proof.Machine.execDispatchDecision partition s
  | .stitchSlotBind partition => Sys2Proof.Machine.execStitchSlotBind partition s
  | .modelResidencyCopyDone partition => Sys2Proof.Machine.execModelResidencyCopyDone partition s
  | .stitchCycleZero partition => Sys2Proof.Machine.execStitchCycleZero partition s
  | .stitchTimeout partition cause => Sys2Proof.Machine.execStitchTimeout partition cause s
  | .frameReceive f => Sys2Proof.Machine.execFrameReceive f s
  | .jitterGapDeadline flow => Sys2Proof.Machine.execJitterGapDeadline flow s
  | .sliceHeaderParse stream p => Sys2Proof.Machine.execSliceHeaderParse stream p s
  | .decodeEngineTakeJob engine => Sys2Proof.Machine.execDecodeEngineTakeJob engine s
  | .decodeSliceEnd engine cycles samples missing => Sys2Proof.Machine.execDecodeSliceEnd engine cycles samples missing s
  | .decodePictureEnd engine cycles samples missing => Sys2Proof.Machine.execDecodePictureEnd engine cycles samples missing s
  | .pictureAbandon stream => Sys2Proof.Machine.execPictureAbandon stream s
  | .scalerStripStart unit => Sys2Proof.Machine.execScalerStripStart unit s
  | .scalerStripEnd unit => Sys2Proof.Machine.execScalerStripEnd unit s
  | .encodeEngineTakePicture engine => Sys2Proof.Machine.execEncodeEngineTakePicture engine s
  | .encodePictureEnd engine => Sys2Proof.Machine.execEncodePictureEnd engine s
  | .picotPageFlush dest => Sys2Proof.Machine.execPicotPageFlush dest s
  | .completionPageFlush pageSet => Sys2Proof.Machine.execCompletionPageFlush pageSet s
  | .healthPicotTimer => Sys2Proof.Machine.execHealthPicotTimer s
  | .collectorAddressRefresh dest mac => Sys2Proof.Machine.execCollectorAddressRefresh dest mac s
  | .tagRewriteComplete pool buffer => Sys2Proof.Machine.execTagRewriteComplete pool buffer s
  | .ddrRefreshDue channel rowHitOldest => Sys2Proof.Machine.execDdrRefreshDue channel rowHitOldest s
  | .refreshManagementDue channel bank => Sys2Proof.Machine.execRefreshManagementDue channel bank s
  | .ddrPanicEnter channel level => Sys2Proof.Machine.execDdrPanicEnter channel level s
  | .ddrPanicExit channel level rowHitOldest => Sys2Proof.Machine.execDdrPanicExit channel level rowHitOldest s
  | .ddrAlert channel writeCrc within => Sys2Proof.Machine.execDdrAlert channel writeCrc within s
  | .dqsOscillatorTracking channel => Sys2Proof.Machine.execDqsOscillatorTracking channel s
  | .zqCalibration channel => Sys2Proof.Machine.execZqCalibration channel s
  | .patrolScrubRead pillow unit finding => Sys2Proof.Machine.execPatrolScrubRead pillow unit finding s
  | .dieLinkCrcError link resent => Sys2Proof.Machine.execDieLinkCrcError link resent s
  | .bar2Read offset size ecc => Sys2Proof.Machine.execBar2Read offset size ecc s
  | .bar2Write offset data poison ecc => Sys2Proof.Machine.execBar2Write offset data poison ecc s
  | .unsupportedRequest kind posted header => Sys2Proof.Machine.execUnsupportedRequest kind posted header s
  | .registerWrite space offset size value poison => Sys2Proof.Machine.execRegisterWrite space offset size value poison s
  | .b2BaseWrite offset size value => Sys2Proof.Machine.execB2BaseWrite offset size value s
  | .resizableBarSizeWrite value => Sys2Proof.Machine.execResizableBarSizeWrite value s
  | .mcRtCfgWrite channel value => Sys2Proof.Machine.execMcRtCfgWrite channel value s
  | .timeCtrlRelease value => Sys2Proof.Machine.execTimeCtrlRelease value s
  | .timePtpCfgWrite value => Sys2Proof.Machine.execTimePtpCfgWrite value s
  | .timeUtcOffsetWrite value => Sys2Proof.Machine.execTimeUtcOffsetWrite value s
  | .timeNowSecRead size => Sys2Proof.Machine.execTimeNowSecRead size s
  | .timeTxqPopRead size => Sys2Proof.Machine.execTimeTxqPopRead size s
  | .tuCaptureSecRead unit size => Sys2Proof.Machine.execTuCaptureSecRead unit size s
  | .ptpDelayReqSend sequenceId stamp => Sys2Proof.Machine.execPtpDelayReqSend sequenceId stamp s
  | .holdoverTimeout => Sys2Proof.Machine.execHoldoverTimeout s
  | .timeUnitOutputEdge unit => Sys2Proof.Machine.execTimeUnitOutputEdge unit s
  | .timeConnectorEdge => Sys2Proof.Machine.execTimeConnectorEdge s
  | .ccWdogKick core => Sys2Proof.Machine.execCcWdogKick core s
  | .watchdogExpiry core => Sys2Proof.Machine.execWatchdogExpiry core s
  | .controlCoreException core cause image => Sys2Proof.Machine.execControlCoreException core cause image s
  | .bootCoreWatchdogExpiry => Sys2Proof.Machine.execBootCoreWatchdogExpiry s
  | .edgeSourceArrival source => Sys2Proof.Machine.execEdgeSourceArrival source s
  | .levelSourceAssert source => Sys2Proof.Machine.execLevelSourceAssert source s
  | .evgEnter core source => Sys2Proof.Machine.execEvgEnter core source s
  | .evgDone core source asserted => Sys2Proof.Machine.execEvgDone core source asserted s
  | .evgRaise source => Sys2Proof.Machine.execEvgRaise source s
  | .powerSample mw avgMw => Sys2Proof.Machine.execPowerSample mw avgMw s
  | .powerControlTick => Sys2Proof.Machine.execPowerControlTick s
  | .thermalSample temps => Sys2Proof.Machine.execThermalSample temps s
  | .voltageLoopAdjust stack mv failing => Sys2Proof.Machine.execVoltageLoopAdjust stack mv failing s
  | .pllIdleStop => Sys2Proof.Machine.execPllIdleStop s
  | .d3hotWrite => Sys2Proof.Machine.execD3hotWrite s
  | .sleepEntry => Sys2Proof.Machine.execSleepEntry s
  | .d0Write => Sys2Proof.Machine.execD0Write s
  | .sleepWakeComplete advertisedW => Sys2Proof.Machine.execSleepWakeComplete advertisedW s
  | .busMasterEnableClear => Sys2Proof.Machine.execBusMasterEnableClear s
  | .busMasterEnableSet => Sys2Proof.Machine.execBusMasterEnableSet s
  | .pcieReadCompletion tag status data header => Sys2Proof.Machine.execPcieReadCompletion tag status data header s
  | .pcieCompletionTimeout tag => Sys2Proof.Machine.execPcieCompletionTimeout tag s
  | .linkIdleL1Entry => Sys2Proof.Machine.execLinkIdleL1Entry s
  | .functionLevelReset => Sys2Proof.Machine.execFunctionLevelReset s
  | .perstAssert => Sys2Proof.Machine.execPerstAssert s
  | .perstDeassert => Sys2Proof.Machine.execPerstDeassert s
  | .bringUpStepComplete r => Sys2Proof.Machine.execBringUpStepComplete r s
  | .pcieLinkDown => Sys2Proof.Machine.execPcieLinkDown s
  | .hostLinkLossTimeout => Sys2Proof.Machine.execHostLinkLossTimeout s
  | .auxPowerApply => Sys2Proof.Machine.execAuxPowerApply s
  | .mainPowerLoss => Sys2Proof.Machine.execMainPowerLoss s
  | .input12v2x6Rise mv => Sys2Proof.Machine.execInput12v2x6Rise mv s
  | .serviceShortPress => Sys2Proof.Machine.execServiceShortPress s
  | .serviceLongPress partnerEvacuating => Sys2Proof.Machine.execServiceLongPress partnerEvacuating s
  | .qsfpPresenceChange cage m => Sys2Proof.Machine.execQsfpPresenceChange cage m s
  | .ethernetLinkChange port up => Sys2Proof.Machine.execEthernetLinkChange port up s
  | .doeObjectWrite vendor protocol dwords => Sys2Proof.Machine.execDoeObjectWrite vendor protocol dwords s
  | .doeAbort => Sys2Proof.Machine.execDoeAbort s
  | .spdmRequest transport r => Sys2Proof.Machine.execSpdmRequest transport r s
  | .mctpPldmRequest transport r => Sys2Proof.Machine.execMctpPldmRequest transport r s
  | .locateEffecterWrite value => Sys2Proof.Machine.execLocateEffecterWrite value s
  | .smbusArp op => Sys2Proof.Machine.execSmbusArp op s
  | .jtagChallengeRead => Sys2Proof.Machine.execJtagChallengeRead s
  | .jtagUnlockResponse key signature => Sys2Proof.Machine.execJtagUnlockResponse key signature s
  | .brideHeartbeatSend => Sys2Proof.Machine.execBrideHeartbeatSend s
  | .networkHeartbeatSend => Sys2Proof.Machine.execNetworkHeartbeatSend s
  | .brideHeartbeatTimeout networkStopped => Sys2Proof.Machine.execBrideHeartbeatTimeout networkStopped s
  | .mirrorItemReceive seq m => Sys2Proof.Machine.execMirrorItemReceive seq m s
  | .mirrorAckReceive seq status => Sys2Proof.Machine.execMirrorAckReceive seq status s
  | .mirrorAckTimeout networkStopped => Sys2Proof.Machine.execMirrorAckTimeout networkStopped s
  | .partnerFaultReport kind => Sys2Proof.Machine.execPartnerFaultReport kind s
  | .partnerTakeoverDetected => Sys2Proof.Machine.execPartnerTakeoverDetected s
  | .brideLaneLoss lane => Sys2Proof.Machine.execBrideLaneLoss lane s
  | .brideCableReconnect lanes => Sys2Proof.Machine.execBrideCableReconnect lanes s
  | .pairSyncComplete => Sys2Proof.Machine.execPairSyncComplete s
  | .evacuationHandover => Sys2Proof.Machine.execEvacuationHandover s
  | .auditPeriodic => Sys2Proof.Machine.execAuditPeriodic s
  | .pcieLinkUp => Sys2Proof.Machine.execPcieLinkUp s
  | .brideHeartbeatReceive => Sys2Proof.Machine.execBrideHeartbeatReceive s
  | .partnerPairJoin mode role serial => Sys2Proof.Machine.execPartnerPairJoin mode role serial s
  | .napWakeComplete => Sys2Proof.Machine.execNapWakeComplete s
  | .ddrAlertClear channel => Sys2Proof.Machine.execDdrAlertClear channel s
  | .prefixCopyComplete bobbin => Sys2Proof.Machine.execPrefixCopyComplete bobbin s
  | .auxPowerLoss => Sys2Proof.Machine.execAuxPowerLoss s
  | .controlCoreResume core => Sys2Proof.Machine.execControlCoreResume core s
  | .outputPulseEnd => Sys2Proof.Machine.execOutputPulseEnd s

end Sys2Proof.Machine
end

