-- ==== Sys2Proof/Safety.lean ====
section
/-! DEFINITION. What claims call a safe run, and what no step of the card undoes. -/

namespace Sys2Proof

/-! ## The canonical form of the state's maps -/

/-- Device memory's maps are in canonical form. -/
def MemUnit.canonical (m : MemUnit) : Bool :=
  Machine.Memory.wf m.cells && SMap.wf {} m.ddr && SMap.wf {} m.pil

/-- The mailboxes with their payloads and the MSI-X table are. -/
def HostUnit.canonical (h : HostUnit) : Bool :=
  SMap.wf {} h.mboxes && h.mboxes.all (fun m => SMap.wf 0 m.2.payload) && SMap.wf {} h.msix

/-- The time units are. -/
def TimeUnitBlock.canonical (t : TimeUnitBlock) : Bool := SMap.wf {} t.units

/-- The control cores are. -/
def FwUnit.canonical (w : FwUnit) : Bool := SMap.wf {} w.cores

/-- The event sources are, the saved ones too. -/
def EvgUnit.canonical (e : EvgUnit) : Bool := SMap.wf {} e.sources && e.saved.all (SMap.wf {})

/-- The video engines and scaler units are. -/
def VideoUnit.canonical (v : VideoUnit) : Bool := SMap.wf {} v.engines && SMap.wf {} v.scalers

/-- A compute core's address registers, vector registers, row masks and arrays are. -/
def ComputeCore.canonical (c : ComputeCore) : Bool :=
  SMap.wf (0, 0) c.ars && SMap.wf [] c.vregs && SMap.wf none c.masks && SMap.wf {} c.arrays

namespace Machine

/-- Every map of the state that a unit of its kind is read from is in canonical form, so that equal contents are equal
data. -/
def State.canonical (s : State) : Bool :=
  s.mem.canonical && s.host.canonical && s.time.canonical && s.fw.canonical && s.evg.canonical && s.video.canonical &&
    SMap.wf {} s.cores && s.cores.all (fun c => c.2.canonical) && SMap.wf {} s.ppu && SMap.wf 0 s.gens

/-! ## What no step undoes -/

/-- The fuses that only manufacture writes: FK_REVOKED, PRICKING_POLICY, JTAG_DISABLE (Table 25-1). -/
def fuses (s : State) : BitVec 4 × Bool × Bool := (s.sec.fkRevoked, s.sec.required, s.sec.jtagDisable)

/-- `t` is a later state than `z` in what nothing undoes: a meaning leaves the queue of commands alone, what has left the
card stays out, a free value is used once, the fused SECURITY_VERSION never falls (R754), the other fuses are not rewritten,
and the maps keep their canonical form. -/
structure Evolves (z t : State) : Prop where
  queue : t.pending = z.pending
  out : ∃ l, t.out = z.out ++ l
  fresh : z.fresh ≤ t.fresh
  version : z.sec.securityVersion ≤ t.sec.securityVersion
  fuse : fuses t = fuses z
  canonical : z.canonical = true → t.canonical = true

/-- An outcome whose next state, if there is one, is a later state in that sense. -/
structure Evolves.outcome (z : State) (r : Result) : Prop where
  next_evolves : ∀ t, r = .next t → Evolves z t

end Machine
end Sys2Proof
end

