-- ==== Sys2Proof/Certificates/Slice0/Obligations.lean ====
section
/-! DEFINITION. The statements for the provers, and the words they share. A statement speaks of `exec`, `step` and the
state's fields; `linkUp`, `mse` and `d3hot` are the conditions of R616 and R617 under which a host request reaches a
register. -/

namespace Sys2Proof.Claims

open Sys2Proof.Machine

/-! ## Words of the statements -/

/-- A memory request of the host reaches BAR0 and BAR2: the link is up, Memory Space Enable is set, the function is in D0. -/
structure Reached (s : State) : Prop where
  link : s.pcie.linkUp = true
  mse : s.pcie.mse = true
  d0 : s.pcie.d3hot = false

/-- The state after a request of the host that changes nothing else: the link is in L0 (R621). -/
def active (s : State) : State := { s with pcie := { s.pcie with linkState := 0 } }

/-- The header of a mailbox command. The boot mailbox is mailbox 32. -/
def headerOf : Instr → Option Hdr
  | .openSession h _ _ _ | .closeSession h | .leaseRenew h _ | .resync h _ _ | .adopt h _ _ _ | .resetWork h | .audit h => some h
  | .streamOpen h _ _ | .streamClose h _ | .streamFeed h _ _ _ | .keyPicture h _ | .encodeOpen h _ | .streamQuery h _ => some h
  | .flowSetAdd h _ | .flowSetModify h _ | .flowSetRemove h _ | .flowSetAddrAdd h _ | .flowSetAddrRemove h _ => some h
  | .eyeletPolicy h _ _ _ _ _ | .modelLoad h _ _ _ | .modelUnload h _ | .modelPinSet h _ _ | .modelPinClear h _ _ => some h
  | .pillowPlanSet h _ _ _ _ | .pillowPlanClear h _ _ _ _ | .stitchPost h _ | .stitchCancel h _ => some h
  | .clientSetCreate h _ _ | .clientSetModify h _ _ _ | .clientSetRemove h _ | .clientStats h _ => some h
  | .partitionSetCreate h _ | .partitionSetModify h _ | .partitionSetRemove h _ => some h
  | .bobbinCreate h _ _ _ _ _ | .bobbinRelease h _ | .prefixCreate h _ | .prefixFork h _ _ => some h
  | .poolCreate h _ _ _ _ _ _ | .poolAlloc h _ | .poolFreeUnref h _ | .poolFreeRef h _ | .poolFreeDestroy h _ => some h
  | .poolStats h _ | .pagesPostCreate h _ _ _ | .pagesPostAdd h _ _ | .picotRouteDestSet h _ => some h
  | .picotRouteDestRemove h _ | .picotRouteStreamSet h _ | .picotRouteStats h _ | .timeStep h _ _ | .timeRate h _ => some h
  | .timeUnitClaim h _ _ _ _ _ | .timeUnitRelease h _ | .pairJoin h _ _ | .pairEvacuate h | .pairStatus h => some h
  | .powerCap h _ | .powerStateNap h _ | .powerStateReady h _ | .logConfig h _ | .traceSetEnable h _ => some h
  | .traceSetDisable h _ | .traceSetReplace h _ | .measurements h _ _ | .unknownOpcode h _ => some h
  | .bootLoad h _ _ _ | .bootQuery h => some { h with mbox := 32 }
  | _ => none

/-- Commands that are served in FAULT (R694). -/
def servedInFault : Instr → Bool
  | .resync _ _ _ | .audit _ => true
  | _ => false

/-- Commands that R563 and R569 permit in the orphaned state, and the opcodes that Table 19-1 does not list. -/
def servedOrphaned : Instr → Bool
  | .resync _ _ _ | .audit _ | .adopt _ _ _ _ | .resetWork _ | .unknownOpcode _ _ => true
  | _ => false

/-- Commands that a mirrored standby serves (R733), and the opcodes that Table 19-1 does not list. -/
def opcodeUnknown : Instr → Bool
  | .unknownOpcode _ _ => true
  | _ => false

/-- Mailbox `h.mbox` holds the answer to `h` (R541): OWN clear, SEQ as it was, STATUS, DETAIL, LENGTH, and the response in
the payload; the other mailboxes are as before; nothing has left the card but, with IRQ, the command's vector. -/
structure Answered (h : Hdr) (status detail : Nat) (resp : List Byte) (s t : State) : Prop where
  own : (t.mbox h.mbox).own = false
  seq : (t.mbox h.mbox).seq = h.seq
  status : (t.mbox h.mbox).status = status
  detail : (t.mbox h.mbox).detail = detail
  length : (t.mbox h.mbox).length = resp.length
  payload : ∀ i, i < resp.length → SMap.get 0 (t.mbox h.mbox).payload i = resp.getD i 0
  others : ∀ m, m ≠ h.mbox → t.mbox m = s.mbox m
  out : t.out = s.out ∨ (h.irq = true ∧ t.out = s.out ++ [.msix h.vector])

/-- Of the host interface only mailboxes, the list of long commands, MSI-X pending bits and the lease have changed, and of
the endpoint only the link's power state. -/
def HostFrame (s t : State) : Prop :=
  t.host = { s.host with mboxes := t.host.mboxes, long := t.host.long, pba := t.host.pba, leaseLeft := t.host.leaseLeft } ∧
    t.pcie = { s.pcie with linkState := 0 }

/-- The command in mailbox `h.mbox` reaches the card, is taken, and passes every check of R574 that comes before its own: the
card is READY or ACTIVE with core 0 running, in no pair, ending no work; the header is in order; `len` is the size of the
request; and the session is open where the command names one. -/
structure Taken (sessionless : Bool) (h : Hdr) (len : Nat) (s : State) : Prop where
  canonical : s.canonical = true
  reached : Reached s
  free : (s.mbox h.mbox).own = false
  locked : s.sec.unlocked = false
  awake : s.power.state = 1 ∨ s.power.state = 2
  core0 : (s.cc 0).run = 1
  ready : s.host.state = .ready
  ending : s.host.ending = false
  alone : s.pair.mode = 0
  header : h.headerReserved = false ∧ h.bodyReserved = false ∧ h.length = len ∧ h.length ≤ 4032
  session : if sessionless then h.version = 1 ∧ h.session = 0 ∧ findSession s 0 = none
    else ∃ x, findSession s h.session = some x ∧ x.held = false ∧ h.version = x.proto

/-- No line of memory is poisoned, in none does an error lie, and no DDR channel is in FAULT. -/
structure CleanMemory (s : State) : Prop where
  latent : s.mem.latent = []
  ddr : s.mem.poison = []
  hub : s.mem.hubPoison = []
  scratch : s.mem.scratchPoison = []
  pillow : ∀ k, (s.pil k).poison = []
  channels : ∀ c, (s.ddr c).state ≠ 3

/-- What the endpoint sends of a write that waited for Bus Master Enable, in a state that is not orphaned. -/
def waitingOut (p : PcieUnit) : HostWait → List OutMsg
  | .msg m | .page _ m => linkMessages p m
  | .done _ | .resync .. | .read _ => []

/-- An uncorrectable error `bit` of AER has been logged (R614): its status, and the header of its TLP unless the bit is masked or the
log holds an earlier error that still stands; error messages may go out. Nothing else has changed. -/
structure ErrorLogged (bit : Nat) (header : List Byte) (s t : State) : Prop where
  rest : t = { s with pcie := t.pcie, out := t.out, fresh := t.fresh }
  pcie : t.pcie = { s.pcie with
    uncorr := s.pcie.uncorr ||| BitVec.ofNat 32 (2 ^ bit), corr := t.pcie.corr, status := t.pcie.status
    devStatus := t.pcie.devStatus, firstError := t.pcie.firstError, headerLog := t.pcie.headerLog }
  log : (t.pcie.firstError, t.pcie.headerLog) =
    if s.pcie.uncorrMask.getLsbD bit || s.pcie.uncorr.getLsbD s.pcie.firstError then (s.pcie.firstError, s.pcie.headerLog)
    else (bit, header)
  out : ∃ l : List Nat, t.out = s.out ++ l.map .errorMessage

/-- A request that the endpoint does not complete has been handled (R614, R616): the link is in L0, AER has Unsupported Request (bit
20) with the request's header, unless that bit is masked or the log holds an earlier error that still stands; error messages may
go out; a non-posted request gets its completion. Nothing else has changed. -/
structure UrLogged (posted : Bool) (header : List Byte) (s t : State) : Prop where
  rest : t = { s with pcie := t.pcie, out := t.out, fresh := t.fresh }
  pcie : t.pcie = { s.pcie with
    linkState := 0, uncorr := s.pcie.uncorr ||| 0x100000#32, corr := t.pcie.corr, status := t.pcie.status
    devStatus := t.pcie.devStatus, firstError := t.pcie.firstError, headerLog := t.pcie.headerLog }
  log : (t.pcie.firstError, t.pcie.headerLog) =
    if s.pcie.uncorrMask.getLsbD 20 || s.pcie.uncorr.getLsbD s.pcie.firstError then (s.pcie.firstError, s.pcie.headerLog)
    else (20, header)
  out : ∃ l : List Nat, t.out = s.out ++ l.map .errorMessage ++ (if posted then [] else [.unsupported])

end Sys2Proof.Claims

open Sys2Proof Sys2Proof.Machine Sys2Proof.Claims

/-! ## The block as a whole -/

/-- For every command c and state s, a step of s with c at the front of its queue is exec c on s with the queue's rest. The
queue is the model's own form of "one command after another" (assumption 4). -/
def Obligations.StepRunsFront : Prop :=
  ∀ (c : Instr) (rest : List Instr) (s : State),
    step { s with pending := c :: rest } = exec c { s with pending := rest }

/-- With no command waiting, a step is one tick (DESIGN CHOICE, assumption 1). A deadline before which an arrival still
waits is deferred to the end of the tick (`precedes`, R653 and assumption 132); those deferred run once no command
waits, oldest first. On a powered card that ends no work, waits for no unlock, is in no pair, has no stream with eyelets and no
picot to release, the clock advances by one tick (12 and 13 time-clock cycles in turn in NAP and above, exactly 40 ns in SLEEP and OFF),
TIME.TICK counts unless PERST# is asserted, CORE.CYCLES of a core that runs a pricking counts the 60 cycles of the compute
clock, stretched by the power step, and objects, memory, what else a core holds and mailboxes stay as they are; what leaves the
card is at most the latency it tolerates, when another was reported last (R621). Without power nothing changes. -/
def Obligations.IdleStepIsOneTick : Prop :=
  (∀ (s : State) (d : Instr), s.pending.any (precedes d) = true → exec d s = .next { s with due := s.due ++ [d] }) ∧
  (∀ (s : State) (d : Instr) (l : List Instr), s.pending = [] → s.due = d :: l → step s = exec d { s with due := l }) ∧
  ∀ s : State, s.pending = [] → s.due = [] → s.canonical = true →
    (ticking s = false → step s = .next s) ∧
    (ticking s = true → s.host.ending = false → s.sec.unlocking = false → s.pair.mode = 0 →
      s.obj.heldPicots = [] → (s.obj.streams.all fun x => !x.hasEyelets) = true →
      let report := s.pcie.linkUp && s.pcie.ltrEnable && !s.pcie.d3hot && decide (s.pcie.ltr ≠ some (ltrNs s))
      ∃ t, step s = .next t ∧
        t.time.tick = (if s.pcie.perst then s.time.tick else s.time.tick + 1) ∧
        (t.time.sec, t.time.ns, t.time.frac) =
          (let n := if s.power.state < 6 then (12 + s.time.halfCycle.toNat) * clockIncrement s.time.rate else 40 * 2 ^ 48
           let f := s.time.frac + n
           let ns := s.time.ns + f / 2 ^ 48
           ((s.time.sec + ns / 1000000000) % 2 ^ 48, ns % 1000000000, f % 2 ^ 48)) ∧
        (s.power.state < 6 → t.time.halfCycle = !s.time.halfCycle) ∧
        (∀ n, t.core n = if (s.core n).counting then
            { s.core n with cycles := (s.core n).cycles + (s.power.corePhase + 960) / (16 + s.power.step) }
          else s.core n) ∧
        t.power = { s.power with corePhase := (s.power.corePhase + 960) % (16 + s.power.step) } ∧
        t.obj = s.obj ∧ t.ppu = s.ppu ∧ t.mem.cells = s.mem.cells ∧ t.mem.lost = s.mem.lost ∧
        t.host.mboxes = s.host.mboxes ∧ t.pair = s.pair ∧ t.sec = s.sec ∧
        t.pcie = (if report then { s.pcie with ltr := some (ltrNs s), linkState := 0 } else s.pcie) ∧
        t.out = (if report then s.out ++ [.ltr (ltrNs s)] else s.out))

/-- The machine after power-on: no command waits, and the registers have the reset values of Tables 11-8, 11-10, 18-7, 20-1,
21-5, 22-4, 22-9 and 23-6. -/
def Obligations.ResetRegisters : Prop :=
  State.reset.pending = [] ∧ State.reset.host.state = .rom ∧ State.reset.host.cause = 0 ∧ State.reset.host.causeEnable = 0 ∧
    State.reset.host.vector = 0 ∧ State.reset.host.discards = 0 ∧ State.reset.host.faultCode = 0 ∧
    State.reset.host.fwVersion = 0 ∧ State.reset.pcie.barSize = 19 ∧ State.reset.pcie.bme = false ∧
    State.reset.pcie.mse = false ∧ State.reset.time.rate = 0 ∧ State.reset.time.utcOffset = 37 ∧
    State.reset.power.capSet = 600 ∧ State.reset.power.pllIdleUs = 1000 ∧
    (∀ c, (State.reset.cc c).wdogLeft = 250000) ∧ (∀ n, (State.reset.src n).mask = true) ∧
    (∀ c, (State.reset.ddr c).panicPct = 25 ∧ (State.reset.ddr c).ageCap = 50 ∧ (State.reset.ddr c).scrubHours = 24) ∧
    (∀ k, (State.reset.pil k).scrubHours = 1)

/-- Every map of the state after reset (memory, mailboxes and their payloads, cores and their registers, channels, units) is
in canonical form. -/
def Obligations.ResetIsCanonical : Prop := State.reset.canonical = true

/-- Whatever command runs, and from every state, a step that answers a next state keeps the canonical form of device memory,
line and channel maps, mailboxes with their payloads, the MSI-X table, time units, control cores, event sources, video
units, compute cores with their registers, post-processing units and generations: keys rise strictly and no default value
is listed, so that equal contents are equal data. -/
def Obligations.StepKeepsCanonical : Prop :=
  ∀ s t : State, s.canonical = true → step s = .next t → t.canonical = true

/-- In no step, from any state and whatever command runs, does a fuse bit go away: FK_REVOKED, PRICKING_POLICY and
JTAG_DISABLE are as before, and the fused SECURITY_VERSION never falls; only the boot mailbox's `BOOT_LOAD`, when its image
is read at once or its last read completes, can raise it, being the boot ROM's write of R760. -/
def Obligations.FusesStand : Prop :=
  ∀ s t : State, step s = .next t →
    t.sec.fkRevoked = s.sec.fkRevoked ∧ t.sec.required = s.sec.required ∧ t.sec.jtagDisable = s.sec.jtagDisable ∧
      s.sec.securityVersion ≤ t.sec.securityVersion ∧
      (t.sec.securityVersion ≠ s.sec.securityVersion →
        ∃ c rest, (s.pending = c :: rest ∨ s.pending = [] ∧ s.due = c :: rest) ∧
          ((∃ h es n img, c = .bootLoad h es n img) ∨ (∃ tag st d hd, c = .pcieReadCompletion tag st d hd)))

/-- In every step the queue loses exactly its first command (and nothing else; an empty queue stays empty), what has left the card stays as it is with
messages added behind it only, and free values are used once: their counter never falls. -/
def Obligations.StepOnlyAppends : Prop :=
  ∀ s t : State, step s = .next t →
    t.pending = s.pending.tail ∧ (∃ l, t.out = s.out ++ l) ∧ s.fresh ≤ t.fresh

/-- For every command of every mailbox, the boot mailbox too, and for every write of a mailbox's registers: while OWN is 1
the write changes nothing but HEV.MBOX_DISCARDS, which rises by 1 and saturates. When OWN is 0, an OWNER write of a command
that is not served at once (JTAG unlocked) leaves the mailbox with OWN 1 and its header. -/
def Obligations.OwnedMailboxDiscards : Prop :=
  ∀ s : State, Reached s →
    (∀ (c : Instr) (h : Hdr), headerOf c = some h → (s.mbox h.mbox).own = true →
      exec c s = .next { active s with host := { s.host with discards := min (s.host.discards + 1) (2 ^ 32 - 1) } }) ∧
    (∀ m off size value, m < 32 → off < 4096 → (s.mbox m).own = true →
      exec (.registerWrite .bar0 (0x100000 + 4096 * m + off) size value none) s =
        .next { active s with host := { s.host with discards := min (s.host.discards + 1) (2 ^ 32 - 1) } }) ∧
    (∀ (c : Instr) (h : Hdr), headerOf c = some h → (s.mbox h.mbox).own = false → s.sec.unlocked = true →
      ∃ t, exec c s = .next t ∧ t = { active s with host := t.host } ∧
        t.host = { s.host with mboxes := t.host.mboxes } ∧ (t.mbox h.mbox).own = true ∧ (t.mbox h.mbox).seq = h.seq)

/-- Before READY (HEV.STATE ROM or STARTING), for every command of mailboxes 0 to 31 whose OWN is 0: the mailbox has OWN 1,
the command waits last among the held ones, and nothing else changes but the mailbox's header. -/
def Obligations.HeldBeforeReady : Prop :=
  ∀ (c : Instr) (h : Hdr) (s : State), headerOf c = some h → h.mbox < 32 → Reached s → (s.mbox h.mbox).own = false →
    s.sec.unlocked = false → (s.host.state = .rom ∨ s.host.state = .starting) → s.power.state ≠ 3 →
    ∃ t, exec c s = .next t ∧ t = { active s with host := t.host } ∧
      t.host = { s.host with mboxes := t.host.mboxes, held := s.host.held ++ [c] } ∧
      (t.mbox h.mbox).own = true ∧ (t.mbox h.mbox).seq = h.seq

/-- For every mailbox command, BAR2 access and register access of the host: with the link down nothing reaches the card; with
Memory Space Enable clear or in D3hot the request gets Unsupported Request, which AER logs in its bit 20, and nothing else
changes; a read is answered with it. The header logged there is free, as the model does not hold it. A request outside the BARs,
of a type the card does not complete, or to another function, gets it too, and its header is logged. -/
def Obligations.UnsupportedRequests : Prop :=
  (∀ (c : Instr) (posted : Bool) (s : State),
    (posted = true ∧ ((headerOf c).isSome = true ∨ (∃ o d p e, c = .bar2Write o d p e) ∨
        (∃ o n v p, c = .registerWrite .bar0 o n v p) ∨ (∃ o n v, c = .b2BaseWrite o n v) ∨ (∃ v, c = .timeCtrlRelease v) ∨
        (∃ v, c = .timePtpCfgWrite v) ∨ ∃ v, c = .timeUtcOffsetWrite v) ∨
      posted = false ∧ ((∃ o n e, c = .bar2Read o n e) ∨ (∃ n, c = .timeNowSecRead n) ∨ (∃ n, c = .timeTxqPopRead n) ∨
        ∃ u n, c = .tuCaptureSecRead u n)) →
    (s.pcie.linkUp = false → exec c s = .next s) ∧
    (s.pcie.linkUp = true → (s.pcie.mse = false ∨ s.pcie.d3hot = true) →
      ∃ t, exec c s = .next t ∧ UrLogged posted (freeBytes 16 s) s t)) ∧
  (∀ (kind : UrKind) (posted : Bool) (header : List Byte) (s : State),
    (s.pcie.linkUp = false → exec (.unsupportedRequest kind posted header) s = .next s) ∧
    (s.pcie.linkUp = true →
      ∃ t, exec (.unsupportedRequest kind posted header) s = .next t ∧ UrLogged posted header s t))

/-- In FAULT every command of mailboxes 0 to 31 but `RESYNC` and `AUDIT` is answered at once with ST_WRONG_STATE (status 12)
and an empty response; objects, memory and every unit but the host interface and the endpoint's link state are as before.
The claim is for a card in no pair whose JTAG is locked. -/
def Obligations.FaultAnswersWrongState : Prop :=
  ∀ (c : Instr) (h : Hdr) (s : State), headerOf c = some h → h.mbox < 32 → servedInFault c = false → s.canonical = true →
    Reached s → (s.mbox h.mbox).own = false → s.sec.unlocked = false → s.host.state = .fault → s.pair.mode = 0 →
    ∃ t, exec c s = .next t ∧ Answered h 12 0 [] s t ∧ HostFrame s t ∧
      t = { s with host := t.host, pcie := t.pcie, out := t.out }

/-- In the orphaned state every command of mailboxes 0 to 31, but `RESYNC`, `AUDIT`, `ADOPT` and `RESET_WORK`, whose header is
in order is answered with ST_ORPHANED (status 13), renews no lease and sends no message, whatever IRQ says; a header with a
reserved bit set answers ST_BAD_VALUE (status 2), for those four commands too. The claim is for an awake card in no pair that
ends no work. -/
def Obligations.OrphanedAnswers : Prop :=
  ∀ (c : Instr) (h : Hdr) (s : State), headerOf c = some h → h.mbox < 32 → opcodeUnknown c = false → s.canonical = true →
    Reached s → (s.mbox h.mbox).own = false → s.sec.unlocked = false → s.host.state = .orphaned → s.host.ending = false →
    s.power.state < 3 → (s.cc 0).run = 1 → s.pair.mode = 0 → (h.headerReserved = true ∨ servedOrphaned c = false) →
    ∃ t, exec c s = .next t ∧
      Answered h (if h.headerReserved ∨ 4032 < h.length then 2 else 13) 0 [] s t ∧ HostFrame s t ∧
      t.host.leaseLeft = s.host.leaseLeft ∧ t = { s with host := t.host, pcie := t.pcie } ∧ t.out = s.out

/-! ## The event gatherer and the control cores -/

namespace Sys2Proof.Claims

/-- The gatherer counts source `n` now: it is no reserved number (Table 22-7), and it is always on (R685) or the gatherer is
powered. -/
structure Gathered (s : State) (n : Nat) : Prop where
  named : n ≤ 240 ∨ (248 ≤ n ∧ n ≤ 253) ∨ (256 ≤ n ∧ n ≤ 383)
  powered : (248 ≤ n ∧ n ≤ 253) ∨ s.power.state < 6
  supply : s.power.aux = true ∨ s.power.main = true

/-- Only source `n` of the gatherer has changed. -/
def OnlySource (n : Nat) (s t : State) : Prop :=
  t = { s with evg := t.evg } ∧ t.evg = { s.evg with sources := t.evg.sources } ∧ ∀ m, m ≠ n → t.src m = s.src m

/-- Only control core `c` has changed. -/
def OnlyControlCore (c : Nat) (s t : State) : Prop :=
  t = { s with fw := t.fw } ∧ t.fw = { s.fw with cores := t.fw.cores } ∧ ∀ d, d ≠ c → t.cc d = s.cc d

/-- Only DDR channel `c` has changed. -/
def OnlyChannel (c : Nat) (s t : State) : Prop :=
  t = { s with mem := t.mem } ∧ t.mem = { s.mem with ddr := t.mem.ddr } ∧ ∀ d, d ≠ c → t.ddr d = s.ddr d

/-- The stack entries of control core `c`, the top first: source, priority, k. -/
def stackOf (s : State) (c : Nat) : List (Nat × Nat × Nat) := SMap.get [] s.evg.prio c

end Sys2Proof.Claims

/-- An arrival at an edge source that the gatherer counts adds 1 to TOTAL modulo 2^32, and 1 to COUNT below 255 or else to
EXCESS; PEND is then 1 exactly when COUNT is not 0, and nothing else of the card changes. A write of EVG.RAISE for source
256 to 383 is such an arrival; for any other source it changes nothing. -/
def Obligations.EdgeArrival : Prop :=
  ∀ (n : Nat) (s : State), s.canonical = true → Gathered s n → (s.src n).level = false →
    (∃ t, exec (.edgeSourceArrival n) s = .next t ∧ OnlySource n s t ∧
      t.src n = { s.src n with
        total := ((s.src n).total + 1) % 2 ^ 32
        count := if (s.src n).count < 255 then (s.src n).count + 1 else (s.src n).count
        excess := if (s.src n).count < 255 then (s.src n).excess else ((s.src n).excess + 1) % 2 ^ 32 } ∧
      ((t.src n).pend = true ↔ (t.src n).count ≠ 0)) ∧
    exec (.evgRaise n) s = if 256 ≤ n ∧ n ≤ 383 then exec (.edgeSourceArrival n) s else .next s

/-- A level source that the gatherer counts and whose condition is sampled asserted has PEND set; a change of PEND from 0 to
1 adds 1 to TOTAL. EXCESS and SERVED stay as they are, and nothing else changes. -/
def Obligations.LevelAssert : Prop :=
  ∀ (n : Nat) (s : State), s.canonical = true → Gathered s n → (s.src n).level = true →
    ∃ t, exec (.levelSourceAssert n) s = .next t ∧ OnlySource n s t ∧
      t.src n = { s.src n with
        pendLevel := true
        total := if (s.src n).pendLevel then (s.src n).total else ((s.src n).total + 1) % 2 ^ 32 }

/-- On a running control core: a write of EVG.ENTER of a pending source of no lower priority than the top, with the core as
TARGET and fewer than 8 entries on the stack, pushes the source, its PRIORITY and k (COUNT of an edge source, 0 of a level
source) and changes nothing else. A write of EVG.DONE of the source at the top pops it; an edge source gives k from COUNT to
SERVED, a level source re-samples its condition. -/
def Obligations.EnterAndDone : Prop :=
  ∀ (c n : Nat) (s : State), s.canonical = true → c < 4 → (s.cc c).run = 1 → Gathered s n →
    ((s.src n).target = c → (s.src n).pend = true → (stackOf s c).length < 8 →
      (∀ e, (stackOf s c).head? = some e → e.2.1 ≤ (s.src n).priority) →
      ∃ t, exec (.evgEnter c n) s = .next t ∧ t = { s with evg := t.evg } ∧
        t.evg = { s.evg with prio := t.evg.prio } ∧
        t.evg.prio = SMap.set [] s.evg.prio c
          ((n, (s.src n).priority, if (s.src n).level then 0 else (s.src n).count) :: stackOf s c)) ∧
    (∀ (p k : Nat) (rest : List (Nat × Nat × Nat)) (asserted : Bool), stackOf s c = (n, p, k) :: rest →
      ∃ t, exec (.evgDone c n asserted) s = .next t ∧ t = { s with evg := t.evg } ∧
        t.evg.prio = SMap.set [] s.evg.prio c rest ∧ t.evg.saved = s.evg.saved ∧ (∀ m, m ≠ n → t.src m = s.src m) ∧
        ((s.src n).level = false →
          t.src n = { s.src n with
            count := (s.src n).count - k, served := ((s.src n).served + min k (s.src n).count) % 2 ^ 32 }) ∧
        ((s.src n).level = true → asserted = false → (s.src n).pendLevel = true →
          t.src n = { s.src n with pendLevel := false, served := ((s.src n).served + 1) % 2 ^ 32 }) ∧
        ((s.src n).level = true → asserted = true → (s.src n).pendLevel = true → t.src n = s.src n))

/-- A write of CC.WDOG_KICK reloads the watchdog with 250,000 ticks. A running core 0 or 3 is restarted when its watchdog
expires with no kick waiting (cause 1), when EVG.DONE names another source than the top (cause 2), when EVG.ENTER breaks a rule of the stack
(cause 3; here a reserved source), and on a trap (causes 4 to 6): it then reads RUN 3, watchdog 250,000, its cause and the
tick, RESTARTS one higher, its priority stack is empty, and the other control cores are as before. -/
def Obligations.ControlCoreRestart : Prop :=
  ∀ (c : Nat) (s : State), s.canonical = true → c < 4 →
    (∃ t, exec (.ccWdogKick c) s = .next t ∧ OnlyControlCore c s t ∧ t.cc c = { s.cc c with wdogLeft := 250000 }) ∧
    ((c = 0 ∨ c = 3) → (s.cc c).run = 1 →
      ∀ (i : Instr) (cause : Nat),
        ((i = .watchdogExpiry c ∧ cause = 1 ∧ s.pending = [] ∧ s.due = []) ∨
          (∃ n b, i = .evgDone c n b ∧ cause = 2 ∧ ∀ e, (stackOf s c).head? = some e → e.1 ≠ n) ∨
          (∃ n, i = .evgEnter c n ∧ cause = 3 ∧ 384 ≤ n) ∨
          (i = .controlCoreException c cause false ∧ 4 ≤ cause ∧ cause ≤ 6)) →
        ∃ t, exec i s = .next t ∧ (t.cc c).run = 3 ∧ (t.cc c).wdogLeft = 250000 ∧ (t.cc c).lastCause = cause ∧
          (t.cc c).restarts = (s.cc c).restarts + 1 ∧ (t.cc c).lastTick = s.time.tick ∧
          t.evg.prio = SMap.set [] s.evg.prio c [] ∧
          (∀ d, d ≠ c → t.cc d = s.cc d))

/-- In no pair and with no event session, an error in the control cores' image (kind 16) and the boot core's own watchdog (kind
15, while it runs) put the card into FAULT with that kind and its unit in HEV.FAULT_CODE. A restarted core resumes
with RUN 1 and a full watchdog, and nothing else changes when nothing waited for it: no completion step, dispatch decision or
command for core 0, no frame or message for core 3, no flow's packets for cores 1 and 2. -/
def Obligations.ControlCoreFaultAndResume : Prop :=
  ∀ (c : Nat) (s : State), s.canonical = true → c < 4 →
    (s.host.state = .ready → s.pair.mode = 0 → s.obj.sessions = [] →
      ((s.cc c).run = 1 → ∀ cause, 4 ≤ cause → cause ≤ 6 →
        ∃ t, exec (.controlCoreException c cause true) s = .next t ∧ t.host.state = .fault ∧
          t.host.faultCode = 16 + 256 * c ∧ (t.cc c).run = 2 ∧ (t.cc c).lastCause = cause) ∧
      ((s.cc 4).run = 1 → s.power.state < 6 → s.pending = [] → s.due = [] →
        ∃ t, exec .bootCoreWatchdogExpiry s = .next t ∧ t.host.state = .fault ∧ t.host.faultCode = 15)) ∧
    ((s.cc c).run = 3 → (c = 0 → s.fw.heldComplete = [] ∧ s.fw.heldDispatch = [] ∧ s.host.held = []) →
      (c = 3 → s.fw.waiting3 = []) → (c = 1 ∨ c = 2 → s.obj.flows = []) →
      ∃ t, exec (.controlCoreResume c) s = .next t ∧ OnlyControlCore c s t ∧
        t.cc c = { s.cc c with run := 1, wdogLeft := 250000 })

/-! ## Device memory -/

/-- On a trained channel out of self-refresh: a refresh due in panic or behind a row hit is postponed while fewer than 8 are
outstanding, and issued as mandatory at 8; otherwise it is issued after every postponed one. Panic starts when the level is
below PANIC_PCT and ends at PANIC_PCT + 12, at most 100, when postponed refreshes go unless a row hit is oldest. Refresh
management of a bank is counted, as urgent too from a rolling count of `Config.rfmUrgent` on, and takes `Config.rfmCredit` from
the count (the devices' settings, assumption 137); DQS tracking and ZQ calibration are counted. While ALERT_n is asserted what
would be issued waits in the channel instead, in order; a postponement, and entering and leaving panic, do not wait. Nothing but
the channel changes. -/
def Obligations.DdrRefreshAndPanic : Prop :=
  (∀ (c : Nat) (s : State), s.canonical = true → c < 4 → (s.ddr c).state = 2 → (s.ddr c).selfRefresh = false →
    (s.ddr c).alert = true →
    ∀ (i : Instr) (w : DdrWork),
      ((i = .ddrRefreshDue c false ∧ w = .refresh ∧ (s.ddr c).panic = false) ∨
        (∃ hit, i = .ddrRefreshDue c hit ∧ w = .mandatory ∧ (hit = true ∨ (s.ddr c).panic = true) ∧
          8 ≤ (s.ddr c).refOutstanding) ∨
        (∃ b, b < 64 ∧ i = .refreshManagementDue c b ∧ w = .manage b) ∨
        (i = .dqsOscillatorTracking c ∧ w = .dqs) ∨ (i = .zqCalibration c ∧ w = .zq)) →
      ∃ t, exec i s = .next t ∧ OnlyChannel c s t ∧ t.ddr c = { s.ddr c with waiting := (s.ddr c).waiting ++ [w] }) ∧
  (∀ (c level : Nat) (s : State), s.canonical = true → c < 4 → (s.ddr c).state = 2 → (s.ddr c).selfRefresh = false →
    level < (s.ddr c).panicPct →
    ∃ t, exec (.ddrPanicEnter c level) s = .next t ∧ OnlyChannel c s t ∧ t.ddr c = { s.ddr c with panic := true }) ∧
  ∀ (c : Nat) (s : State), s.canonical = true → c < 4 → (s.ddr c).state = 2 → (s.ddr c).selfRefresh = false →
    (s.ddr c).alert = false →
    (∀ hit : Bool, ∃ t, exec (.ddrRefreshDue c hit) s = .next t ∧ OnlyChannel c s t ∧
      t.ddr c =
        if (s.ddr c).panic = false ∧ hit = false then
          { s.ddr c with refreshes := (s.ddr c).refreshes + (s.ddr c).refOutstanding + 1, refOutstanding := 0 }
        else if (s.ddr c).refOutstanding < 8 then
          { s.ddr c with
            refOutstanding := (s.ddr c).refOutstanding + 1, refPeak := max (s.ddr c).refPeak ((s.ddr c).refOutstanding + 1) }
        else { s.ddr c with refreshes := (s.ddr c).refreshes + 1 }) ∧
    (∀ level hit, (s.ddr c).panic = true → min 100 ((s.ddr c).panicPct + 12) ≤ level →
      ∃ t, exec (.ddrPanicExit c level hit) s = .next t ∧ OnlyChannel c s t ∧
        t.ddr c = { s.ddr c with
          panic := false
          refreshes := (s.ddr c).refreshes + (if hit then 0 else (s.ddr c).refOutstanding)
          refOutstanding := if hit then (s.ddr c).refOutstanding else 0 }) ∧
    (∀ b, b < 64 → ∃ t, exec (.refreshManagementDue c b) s = .next t ∧ OnlyChannel c s t ∧
      let n := SMap.get 0 (s.ddr c).activations b
      t.ddr c = { s.ddr c with
        rfm := (s.ddr c).rfm + 1
        rfmUrgent := (s.ddr c).rfmUrgent + (if Config.rfmUrgent ≤ n then 1 else 0)
        activations := SMap.set 0 (s.ddr c).activations b (n - Config.rfmCredit) }) ∧
    (∃ t, exec (.dqsOscillatorTracking c) s = .next t ∧ OnlyChannel c s t ∧
      t.ddr c = { s.ddr c with dqsRuns := (s.ddr c).dqsRuns + 1 }) ∧
    (∃ t, exec (.zqCalibration c) s = .next t ∧ OnlyChannel c s t ∧ t.ddr c = { s.ddr c with zqRuns := (s.ddr c).zqRuns + 1 })

/-- ALERT_n stops a trained channel's issue until it clears. When it clears, what waited is issued in order and the replay is
counted (CRC or parity) as a corrected fault. An alert before the window of the latest replay has completed makes that replay consecutive; after the fourth
consecutive one the channel is in FAULT with its sticky cause (3 for write CRC, 2 for parity) and, in no pair and with no
session, the card in FAULT with kind 11. -/
def Obligations.DdrAlertReplays : Prop :=
  ∀ (c : Nat) (s : State), s.canonical = true → c < 4 →
    ((s.ddr c).state = 2 → (s.ddr c).selfRefresh = false → (s.ddr c).alert = false → ∀ crc within : Bool,
      let n := if within then (s.ddr c).consecutive + 1 else 0
      (n < 4 → ∃ t, exec (.ddrAlert c crc within) s = .next t ∧ OnlyChannel c s t ∧
        t.ddr c = { s.ddr c with alert := true, alertCrc := crc, consecutive := n }) ∧
      (4 ≤ n → s.host.state = .ready → s.pair.mode = 0 → s.obj.sessions = [] →
        ∃ t, exec (.ddrAlert c crc within) s = .next t ∧ (t.ddr c).state = 3 ∧ (t.ddr c).sticky = true ∧
          (t.ddr c).alert = false ∧ (t.ddr c).faultCause = (if crc then 3 else 2) ∧ t.host.state = .fault ∧
          t.host.faultCode = 11 + 256 * c)) ∧
    ((s.ddr c).alert = true →
      ∃ t, exec (.ddrAlertClear c) s = .next t ∧ t = { s with mem := t.mem, ctr := t.ctr } ∧
        t.mem = { s.mem with ddr := t.mem.ddr } ∧ t.ctr = { s.ctr with corrected := s.ctr.corrected + 1 } ∧
        (∀ d, d ≠ c → t.ddr d = s.ddr d) ∧
        t.ddr c = { (s.ddr c).waiting.foldl DdrChannel.carryOut { s.ddr c with alert := false, waiting := [] } with
          crcReplays := (s.ddr c).crcReplays + (if (s.ddr c).alertCrc then 1 else 0)
          parityReplays := (s.ddr c).parityReplays + (if (s.ddr c).alertCrc then 0 else 1) })

/-- A patrol read advances the scrub address by a line, round its channel or pillow. A single-bit error is corrected and
counted; a double-bit error is counted and its line reports poison from then on, as does a line whose tag word is lost,
which then matches no pointer. A read of DDR is a command of the line's bank, which opens the line's row and adds to the
bank's activation count, and to the retry buffer; while ALERT_n is asserted it waits to issue. The line holds no other error than
the one found. Bytes of memory are unchanged. The pillow's double-bit case is for a poison
list with room. The scrub address is within its channel or pillow, as every patrol read leaves it. -/
def Obligations.PatrolScrub : Prop :=
  ∀ (u : Nat) (s : State), s.canonical = true → u < 4 →
    ((s.ddr u).state = 2 → (s.ddr u).selfRefresh = false → (s.ddr u).scrubAddr < 0x800000000 →
      (∀ x ∈ s.mem.latent, x.1 ≠ channelGlobal u (s.ddr u).scrubAddr / 64) → ∀ f : EccFinding,
      ∃ t, exec (.patrolScrubRead false u f) s = .next t ∧ t = { s with mem := t.mem, ctr := t.ctr, fresh := t.fresh } ∧
        (∀ a, memByte t a = memByte s a) ∧ (∀ d, d ≠ u → t.ddr d = s.ddr d) ∧
        (t.ddr u).scrubAddr = ((s.ddr u).scrubAddr + 64) % 0x800000000 ∧
        (t.ddr u).ce = (s.ddr u).ce + (if f = .single then 1 else 0) ∧
        (t.ddr u).ue = (s.ddr u).ue + (if f = .double then 1 else 0) ∧
        (t.ddr u).tagCe = (s.ddr u).tagCe + (if f = .tagSingle then 1 else 0) ∧
        t.ctr = { s.ctr with corrected := s.ctr.corrected + (if f = .single ∨ f = .tagSingle then 1 else 0) } ∧
        (f = .clean → t.ddr u =
          (let d := { s.ddr u with scrubAddr := ((s.ddr u).scrubAddr + 64) % 0x800000000 }
           if (s.ddr u).alert then { d with waiting := d.waiting ++ [.line (s.ddr u).scrubAddr] }
           else d.issue (s.ddr u).scrubAddr)) ∧
        ((f = .double ∨ f = .tagDouble) → poisoned t (channelGlobal u (s.ddr u).scrubAddr) = true) ∧
        (f = .tagDouble → tagOf t.mem.tags (channelGlobal u (s.ddr u).scrubAddr / 64) = (0, 0))) ∧
    ((s.pil u).scrubAddr < 0x30000000 → (∀ x ∈ s.mem.latent, x.1 ≠ pillowAt u (s.pil u).scrubAddr / 64) →
      ∀ f : EccFinding, (f = .double → (s.pil u).poison.length < 64) →
      ∃ t, exec (.patrolScrubRead true u f) s = .next t ∧ t = { s with mem := t.mem, ctr := t.ctr } ∧
        (∀ a, memByte t a = memByte s a) ∧ (t.pil u).scrubAddr = ((s.pil u).scrubAddr + 64) % 0x30000000 ∧
        (t.pil u).ce = (s.pil u).ce + (if f = .single then 1 else 0) ∧
        (t.pil u).ue = (s.pil u).ue + (if f = .double then 1 else 0) ∧ (∀ k, k ≠ u → t.pil k = s.pil k) ∧
        (f = .double → poisoned t (pillowAt u (s.pil u).scrubAddr) = true))

/-- A flit of a working die link that fails its CRC is resent, a corrected fault; the fourth consecutive resend of one flit
puts the link among those that are down. The end of a tag rewrite, on which no command, stream, item or bobbin waits, is that of
the oldest one for its buffer: it is no longer pending, its lines have their tag and no POISON but what was written since, and
no byte changes. -/
def Obligations.DieLinksAndTags : Prop :=
  ∀ (s : State), s.canonical = true →
    (∀ l resent, l < 8 → s.ctr.linksDown.contains l = false →
      (resent = false ∨ SMap.get 0 s.ctr.linkRetries l < 3) →
      ∃ t, exec (.dieLinkCrcError l resent) s = .next t ∧ t = { s with ctr := t.ctr } ∧
        t.ctr = { s.ctr with
          corrected := s.ctr.corrected + 1
          linkRetries := SMap.set 0 s.ctr.linkRetries l (if resent then SMap.get 0 s.ctr.linkRetries l + 1 else 0) }) ∧
    (∀ l, l < 8 → s.ctr.linksDown.contains l = false → 3 ≤ SMap.get 0 s.ctr.linkRetries l →
      s.host.state = .ready → s.pair.mode = 0 → s.obj.sessions = [] → s.obj.partitions = [] →
      ∃ t, exec (.dieLinkCrcError l true) s = .next t ∧ t.ctr.linksDown = s.ctr.linksDown ++ [l] ∧
        t.host.state = .fault ∧ t.host.faultCode = 13 + 256 * l) ∧
    (∀ (h : Handle) (b : Nat) (e : TagExtent) (newer older : List TagExtent), s.mem.tags = newer ++ e :: older →
      e.owner = h → e.buffer = b → e.pending = true → e.waiter = none →
      (∀ x ∈ older, x.owner ≠ h ∨ x.buffer ≠ b ∨ x.pending = false) →
      s.obj.streams = [] → s.obj.items = [] → s.obj.bobbins = [] →
      ∃ t, exec (.tagRewriteComplete h b) s = .next t ∧ t = { s with mem := t.mem } ∧
        t.mem = { s.mem with tags := t.mem.tags, poison := t.mem.poison } ∧
        t.mem.tags = newer ++ { e with pending := false, done := [] } :: older ∧
        (∀ l, l ∈ t.mem.poison ↔ l ∈ s.mem.poison ∧ (l < e.first ∨ e.first + e.count ≤ l ∨ l ∈ e.done)) ∧
        ∀ a, memByte t a = memByte s a)

/-! ## The registers of BAR0, BAR2 and the configuration space -/

/-- A 4-byte write of HEV.CAUSE clears the bits written as 1, of HEV.CAUSE_ENABLE and HEV.VECTOR sets them; a one in a reserved
bit has no defined effect (R6) and stops with that fault. B2.BASE takes a multiple of 16 GiB up to 0x7C_0000_0000 while BAR2
has 16 GiB, written whole or one half at a time, and ignores every other write. A poisoned write is discarded, and logged as
Poisoned TLP Received with its header. BAR Size takes 14 or 19 and zeroes B2.BASE on a change; with Memory Space Enable
set a change has no defined effect (R605) and stops with that fault. MC.RT_CFG takes both fields in range and ignores the
write otherwise. A read (`registerRead`) gives the value last written to HEV.CAUSE_ENABLE, HEV.VECTOR and MC.RT_CFG, the count
kept in HEV.MBOX_DISCARDS, zero for TIME.CTRL, which is write-only, and for a reserved offset, 0 for the Interrupt Pin register
(no INTx) and the BAR size in its field. -/
def Obligations.HostRegisterWrites : Prop :=
  ∀ (s : State) (v : Nat), v < 2 ^ 32 →
    (Reached s →
      exec (.registerWrite .bar0 0x310004 4 v none) s =
        (if 32 ≤ v then .fault (.undefinedEffect 6)
         else .next { active s with host := { s.host with cause := s.host.cause &&& ~~~(BitVec.ofNat 32 v) } }) ∧
      exec (.registerWrite .bar0 0x310008 4 v none) s =
        (if 32 ≤ v then .fault (.undefinedEffect 6)
         else .next { active s with host := { s.host with causeEnable := BitVec.ofNat 32 v } }) ∧
      exec (.registerWrite .bar0 0x31000C 4 v none) s =
        (if 256 ≤ v then .fault (.undefinedEffect 6) else .next { active s with host := { s.host with vector := v } }) ∧
      (∀ b, exec (.b2BaseWrite 0 8 b) s =
        (if s.pcie.barSize = 14 ∧ b % 2 ^ 34 = 0 ∧ b ≤ 0x7C00000000 then
          .next { active s with host := { s.host with b2Base := b } } else .next (active s))) ∧
      exec (.b2BaseWrite 0 4 v) s = exec (.b2BaseWrite 0 8 (s.host.b2Base / 2 ^ 32 * 2 ^ 32 + v)) s ∧
      exec (.b2BaseWrite 4 4 v) s = exec (.b2BaseWrite 0 8 (s.host.b2Base % 2 ^ 32 + v * 2 ^ 32)) s ∧
      ∀ off size header, ∃ t, exec (.registerWrite .bar0 off size v (some header)) s = .next t ∧
        t = { s with pcie := t.pcie, out := t.out } ∧ t.pcie.uncorr = s.pcie.uncorr ||| 0x1000#32 ∧
        t.pcie.status.getLsbD 15 = true ∧
        (t.pcie.firstError, t.pcie.headerLog) =
          if s.pcie.uncorrMask.getLsbD 12 || s.pcie.uncorr.getLsbD s.pcie.firstError then
            (s.pcie.firstError, s.pcie.headerLog)
          else (12, header)) ∧
    (s.pcie.linkUp = true →
      exec (.resizableBarSizeWrite v) s =
        (if (v ≠ 14 ∧ v ≠ 19) ∨ v = s.pcie.barSize then .next (active s)
         else if s.pcie.mse then .fault (.undefinedEffect 605)
         else .next { s with
           pcie := { s.pcie with linkState := 0, barSize := v }, host := { s.host with b2Base := 0 } })) ∧
    (∀ c, c < 4 → s.canonical = true → v / 128 % 2 = 0 → v < 2 ^ 20 →
      ∃ t, exec (.mcRtCfgWrite c v) s = .next t ∧ OnlyChannel c s t ∧
        t.ddr c =
          if 1 ≤ v % 128 ∧ v % 128 ≤ 100 ∧ 10 ≤ v / 256 ∧ v / 256 ≤ 400 then
            { s.ddr c with panicPct := v % 128, ageCap := v / 256 }
          else s.ddr c) ∧
    (v < 32 → registerRead .bar0 0x310008 4 { s with host := { s.host with causeEnable := BitVec.ofNat 32 v } } = leBytes 4 v) ∧
    registerRead .bar0 0x31000C 4 { s with host := { s.host with vector := v } } = leBytes 4 v ∧
    registerRead .bar0 0x310018 4 { s with host := { s.host with discards := v } } = leBytes 4 v ∧
    (∀ c, c < 4 → (s.ddr c).panicPct < 128 → (s.ddr c).ageCap < 4096 →
      registerRead .control (0x6000200000 + 0x10000 * c + 8) 4 s = leBytes 4 ((s.ddr c).panicPct + 256 * (s.ddr c).ageCap)) ∧
    registerRead .bar0 0x300018 4 s = zeroBytes 4 ∧ registerRead .bar0 0x30001C 4 s = leBytes 4 s.time.ptpCfg.toNat ∧
    registerRead .bar0 0x310028 4 s = zeroBytes 4 ∧ registerRead .config 0x3D 1 s = [0] ∧
    ((s.pcie.barSize = 14 ∨ s.pcie.barSize = 19) → (registerRead .config 0x281 1 s) = leBytes 1 s.pcie.barSize)

/-- At 512 GiB, with the request inside BAR2, and no line holding an error that is not yet found: a read gives the bytes of shared memory, and
0 at card-private and reserved addresses; its completion is poisoned when one of its shared lines reports poison or lies in a
channel in FAULT (DEDUCED, assumption 138); no byte changes. A write of up to 64 bytes within one line, which no queued or
running stitch's scratch is touched by, stores its bytes in shared memory and leaves every byte outside them as it was; a whole
line clears its poison. A DDR channel in FAULT takes none, and a poisoned DDR line only a whole one: what is not written is an
uncorrectable error, which the model escalates (DESIGN CHOICE, log entry 138), so that a card in no pair with nothing running
enters FAULT with kind 10. At card-private and reserved
addresses it changes no byte. Of the rest only lines, channels and link credits change. A poisoned write is logged with its
header, and its lines report poison. A read within a DDR line whose code
finds a single-bit error counts it as corrected; a double-bit error poisons the line, and the completion. A write into the
scratch of a partition with a stitch queued or running has no defined effect (R329) and stops with that fault. A request that
leaves BAR2 gets Unsupported Request. -/
def Obligations.DeviceMemoryThroughBar2 : Prop :=
  ∀ (s : State) (o : Nat), Reached s → s.canonical = true → s.pcie.barSize = 19 →
    (∀ n, o + n ≤ 2 ^ 39 → s.mem.latent = [] →
      ∃ t, exec (.bar2Read o n []) s = .next t ∧
        t = { active s with mem := t.mem, ctr := { s.ctr with links := t.ctr.links }, fresh := t.fresh, out := t.out } ∧
        (∀ a, memByte t a = memByte s a) ∧
        let data := (List.range n).map fun i => if (areaOf (o + i)).shared then memByte s (o + i) else 0
        t.out = s.out ++ [if (pieces o n).any fun p => (areaOf p.1).shared && poisoned t p.1 then .readPoisoned data
          else .readData data]) ∧
    (∀ n, o % 64 + n ≤ 64 → 1 ≤ n → areaOf o = .ddr → (s.ddr (channelOf o)).state ≠ 3 →
      ∃ t1 t2, exec (.bar2Read o n [(o / 64, .single)]) s = .next t1 ∧ t1.ctr.corrected = s.ctr.corrected + 1 ∧
        (t1.ddr (channelOf o)).ce = (s.ddr (channelOf o)).ce + 1 ∧
        exec (.bar2Read o n [(o / 64, .double)]) s = .next t2 ∧ (t2.ddr (channelOf o)).ue = (s.ddr (channelOf o)).ue + 1 ∧
        poisoned t2 o = true ∧ t2.out = s.out ++ [.readPoisoned (memRead s o n)]) ∧
    (∀ n e, 2 ^ 39 < o + n →
      ∃ t, exec (.bar2Read o n e) s = .next t ∧ UrLogged false (freeBytes 16 s) s t) ∧
    (∀ (data : List Byte) p e, 2 ^ 39 < o + data.length →
      ∃ t, exec (.bar2Write o data p e) s = .next t ∧ UrLogged true (freeBytes 16 s) s t) ∧
    (∀ data : List Byte, o + data.length ≤ 2 ^ 39 → 1 ≤ data.length → o % 64 + data.length ≤ 64 → s.obj.stitches = [] →
      s.mem.latent = [] →
      ((areaOf o = .ddr → (s.ddr (channelOf o)).state ≠ 3 ∧ (data.length = 64 ∨ poisoned s o = false)) →
        ∃ t, exec (.bar2Write o data none []) s = .next t ∧
          t = { active s with mem := t.mem, ctr := { s.ctr with links := t.ctr.links }, fresh := t.fresh } ∧
          (∀ a, memByte t a =
            if (areaOf o).shared = true ∧ o ≤ a ∧ a < o + data.length then data.getD (a - o) 0 else memByte s a) ∧
          ((areaOf o).shared = true → data.length = 64 → poisoned t o = false)) ∧
      (areaOf o = .ddr → (s.ddr (channelOf o)).state = 3 ∨
          (data.length < 64 ∧ poisoned s o = true ∧ ∀ x ∈ s.mem.tags, x.pending = false) →
        s.host.state = .ready → s.pair.mode = 0 → s.obj.sessions = [] → s.obj.partitions = [] →
        ∃ t, exec (.bar2Write o data none []) s = .next t ∧ (∀ a, memByte t a = memByte s a) ∧ t.host.state = .fault ∧
          t.host.faultCode = 10) ∧
      (∀ header, areaOf o = .ddr → (s.ddr (channelOf o)).state ≠ 3 → poisoned s o = false →
        ∃ t, exec (.bar2Write o data (some header) []) s = .next t ∧ poisoned t o = true ∧
          (∀ a, memByte t a = if o ≤ a ∧ a < o + data.length then data.getD (a - o) 0 else memByte s a) ∧
          t.pcie.uncorr = s.pcie.uncorr ||| 0x1000#32)) ∧
    (∀ (data : List Byte) e, o + data.length ≤ 2 ^ 39 → 1 ≤ data.length → scratchBusy s o = true →
      ∀ p, exec (.bar2Write o data p e) s = .fault (.undefinedEffect 329))

/-! ## Time -/

/-- An 8-byte read of TIME.TXQ_POP under the host servo removes the oldest entry of a queue that is not empty, latches its
seconds, counts it as read and returns the entry with VALID (bit 23) set; on an empty queue, or under the card servo, a read
of 4 or 8 bytes removes nothing and returns a word whose bit 23 is 0, its other fields being open. A read of TIME.NOW_SEC
gives the seconds and latches nanoseconds and fraction; one of TU.CAPTURE_SEC gives the capture's seconds and latches its
nanoseconds and the offset from the second; both of 4 or 8 bytes, and one of any other size reads zero and latches nothing. -/
def Obligations.TimeReads : Prop :=
  ∀ s : State, Reached s → s.canonical = true →
    (∀ n, (n = 4 ∨ n = 8) → exec (.timeNowSecRead n) s = .next { active s with
      time := { s.time with latchNs := s.time.ns, latchFrac := s.time.frac / 2 ^ 32 }
      out := s.out ++ [.readData (leBytes n s.time.sec)] }) ∧
    (∀ n u, n ≠ 4 → n ≠ 8 → ∀ i, (i = .timeNowSecRead n ∨ i = .tuCaptureSecRead u n ∨ i = .timeTxqPopRead n) →
      exec i s = .next { active s with out := s.out ++ [.readData (zeroBytes n)] }) ∧
    (∀ e rest, servoActive s = false → s.time.txq = e :: rest →
      exec (.timeTxqPopRead 8) s = .next { active s with
        time := { s.time with txq := rest, read := s.time.read + 1, txqSec := e.time.sec }
        out := s.out ++ [.readData (leBytes 8
          (e.id + 65536 * e.msg + 2 ^ 20 * e.port + 2 ^ 23 + 2 ^ 32 * e.time.ns))] }) ∧
    ((servoActive s = true ∨ s.time.txq = []) → ∀ n, (n = 4 ∨ n = 8) →
      ∃ w, exec (.timeTxqPopRead n) s = .next { active s with
          fresh := s.fresh + 1, out := s.out ++ [.readData (leBytes n w)] } ∧ w / 2 ^ 23 % 2 = 0) ∧
    (∀ u n, (n = 4 ∨ n = 8) → ∃ t, exec (.tuCaptureSecRead u n) s = .next t ∧ t = { active s with time := t.time, out := t.out } ∧
      t.time = { s.time with units := t.time.units } ∧ (∀ v, v ≠ u → t.tu v = s.tu v) ∧
      t.tu u = { s.tu u with latchNs := (s.tu u).capture.ns, latchErr := (s.tu u).ppsErr } ∧
      t.out = s.out ++ [.readData (leBytes n (s.tu u).capture.sec)])

/-- RELEASE of TIME.CTRL returns the clock to FREE_RUN under the host servo and does nothing under the card servo. A changed,
valid TIME.PTP_CFG is stored and releases the clock, and a change of more than LOG_DREQ leaves no master selected; a value with a
field out of range is ignored. TIME.UTC_OFFSET takes the
signed 16-bit value under the host servo and discards it under the card servo. A one in a reserved bit has no defined effect
(R6) and stops with that fault. A 4-byte write of the register region at their offsets is the same write. The announce timeout,
with nothing waiting that comes before it, turns LOCKED into HOLDOVER, and under the card servo the master that fell silent is no
longer selected; nothing else changes. -/
def Obligations.TimeRegisterWrites : Prop :=
  ∀ (s : State) (v : Nat),
    (Reached s →
      exec (.timeCtrlRelease v) s =
        (if 2 ≤ v then .fault (.undefinedEffect 6)
         else if v = 1 ∧ servoActive s = false then .next { active s with time := { s.time with sync := 0 } }
         else .next (active s)) ∧
      (v < 2 ^ 24 → v / 128 % 2 = 0 →
        exec (.timePtpCfgWrite v) s =
          (if ptpCfgOk (BitVec.ofNat 32 v) = true ∧ BitVec.ofNat 32 v ≠ s.time.ptpCfg then
            .next { active s with time :=
              if (BitVec.ofNat 32 v ^^^ s.time.ptpCfg) &&& 0xFFFF#32 = 0#32 then
                { s.time with ptpCfg := BitVec.ofNat 32 v, sync := 0 }
              else
                { s.time with
                  ptpCfg := BitVec.ofNat 32 v, sync := 0, gmId := 0, gmLast := 0, master := none, masters := [] } }
           else .next (active s))) ∧
      ((v / 128 % 2 = 1 ∨ 2 ^ 24 ≤ v) → v < 2 ^ 32 → exec (.timePtpCfgWrite v) s = .fault (.undefinedEffect 6)) ∧
      exec (.timeUtcOffsetWrite v) s =
        (if 2 ^ 16 ≤ v then .fault (.undefinedEffect 6)
         else if servoActive s = true then .next (active s)
         else .next { active s with
           time := { s.time with utcOffset := if v < 2 ^ 15 then (v : Int) else (v : Int) - 2 ^ 16 } }) ∧
      (v < 2 ^ 32 →
        exec (.registerWrite .bar0 0x300014 4 v none) s = exec (.timeUtcOffsetWrite v) s ∧
        exec (.registerWrite .bar0 0x300018 4 v none) s = exec (.timeCtrlRelease v) s ∧
        exec (.registerWrite .bar0 0x30001C 4 v none) s = exec (.timePtpCfgWrite v) s)) ∧
    (s.pending = [] → s.due = [] → exec .holdoverTimeout s = .next { s with
      time :=
        let t := { s.time with sync := if s.time.sync = 1 then 2 else s.time.sync }
        if servoActive s then
          { t with gmId := 0, master := none, masters := t.masters.filter fun m => decide (some m.sender ≠ t.master) }
        else t })

/-- With PTP enabled and control core 3 running, a Delay_Req, or a Pdelay_Req in the peer-to-peer profile, is sent on PORT from the
port's first card address, and takes a stamp, corrected for the port's rate (R644; whole nanoseconds, DEDUCED, assumption 133): it
enters the queue of 16, or is counted as dropped; else nothing is sent. An output edge of a claimed output unit is counted and its
next edge lies one period later; it drives the TIME connector when the unit holds that, and is an alarm that wakes the host
otherwise (PME_Status with WAKE# or a PME message, R620); a unit that drives no edge, or whose claim is not answered yet, does
nothing. The pulse's end drives the connector low. A rising edge at the connector is captured and counted by the input unit that
claims it, with the offset from the nearest second for a PPS input, unless it follows a counted edge by less than 25 ticks or no
unit claims it: then nothing changes. -/
def Obligations.TimeEdges : Prop :=
  ∀ s : State, s.canonical = true →
    (∀ id st, s.time.ptpCfg.getLsbD 0 = true → (s.cc 3).run = 1 →
      let port := s.time.ptpCfg.toNat / 16 % 8
      let type := if s.time.ptpCfg.toNat / 4 % 4 = 1 then 2 else 1
      exec (.ptpDelayReqSend id st) s = .next { s with
        out := s.out ++ [.frame port 0xFFFF
          (.ptpRequest type (id % 65536) ((s.obj.addrs.find? fun a => decide (a.port = port)).map (·.addr)))]
        time :=
          if 16 ≤ s.time.txq.length then { s.time with taken := s.time.taken + 1, dropped := s.time.dropped + 1 }
          else { s.time with
            taken := s.time.taken + 1
            txq := s.time.txq ++ [⟨id % 65536, type, port,
              (if 6 ≤ s.power.state then s.now else st).add (if breakoutPort s port then 64 else 33)⟩] } }) ∧
    (∀ id st, (s.time.ptpCfg.getLsbD 0 = false ∨ (s.cc 3).run ≠ 1) → exec (.ptpDelayReqSend id st) s = .next s) ∧
    (∀ u, (s.tu u).isOutput = true → claimWaits u s = false →
      ∃ t, exec (.timeUnitOutputEdge u) s = .next t ∧
        t = { s with time := t.time, board := t.board, pcie := t.pcie, out := t.out } ∧
        t.time = { s.time with units := t.time.units } ∧ (∀ v, v ≠ u → t.tu v = s.tu v) ∧
        t.tu u = { s.tu u with events := (s.tu u).events + 1, next := (s.tu u).next.add (s.tu u).step } ∧
        ((s.tu u).connector = true → t.board = { s.board with pulseHigh := true } ∧ t.pcie = s.pcie ∧
          t.out = s.out ++ [.connectorEdge true]) ∧
        ((s.tu u).connector = false → t.board = s.board ∧ t.pcie = { s.pcie with pmeStatus := true } ∧
          t.out = s.out ++
            (if s.power.state = 7 then (if s.power.aux then [.wake] else []) else if s.pcie.pmeEnable then [.pme] else []))) ∧
    (∀ u, ((s.tu u).isOutput = false ∨ claimWaits u s = true) → exec (.timeUnitOutputEdge u) s = .next s) ∧
    exec .outputPulseEnd s =
      (if s.board.pulseHigh then
        .next { s with board := { s.board with pulseHigh := false }, out := s.out ++ [.connectorEdge false] }
       else .next s) ∧
    (∀ u, connectorInput s = some u → (∀ k, s.board.lastEdge = some k → k + 25 ≤ s.time.tick) →
      ∃ t, exec .timeConnectorEdge s = .next t ∧
        t = { s with time := t.time, board := { s.board with lastEdge := some s.time.tick }, fresh := s.fresh + 1 } ∧
        t.time = { s.time with units := t.time.units } ∧ (∀ v, v ≠ u → t.tu v = s.tu v) ∧ (t.tu u).capture = s.now ∧
        (t.tu u).events = (s.tu u).events + 1 ∧
        ((s.tu u).function ≠ 2 → (t.tu u).ppsErr = 0) ∧
        ((s.tu u).function = 2 → s.time.ns ≠ 500000000 →
          (t.tu u).ppsErr = if s.time.ns < 500000000 then (s.time.ns : Int) else (s.time.ns : Int) - 1000000000) ∧
        ((s.tu u).function = 2 → s.time.ns = 500000000 →
          (t.tu u).ppsErr = 500000000 ∨ (t.tu u).ppsErr = -500000000)) ∧
    ((connectorInput s = none ∨ ∃ k, s.board.lastEdge = some k ∧ s.time.tick < k + 25) →
      exec .timeConnectorEdge s = .next s)

/-! ## Power, bring-up, the endpoint -/

namespace Sys2Proof.Claims

/-- Nothing has changed but the power controllers' registers, and the largest step of the running stitches. -/
def OnlyPower (s t : State) : Prop := t = { s with power := t.power, obj := { s.obj with stitches := t.obj.stitches } }

/-- The step in force is at least every request, and never falls without the voltages. -/
def stepRises (s t : State) : Prop := t.power.step = max s.power.step (stepTarget t.power)

end Sys2Proof.Claims

/-- A power sample is stored with its average and the peak. A sample above the cap in force by more than 10 % sets the sample
limit, which ends when the average has been at or below the cap for ten samples. The step in force rises at once to the
largest request (16 under HARD or the sample limit); it falls to it only when a lower step has waited for the voltages. -/
def Obligations.PowerSampleLimit : Prop :=
  ∀ (s : State) (mw avg : Nat), ∃ t, exec (.powerSample mw avg) s = .next t ∧ OnlyPower s t ∧
    t.power = { s.power with
      sampleMw := mw, avgMw := avg, peakMw := max s.power.peakMw mw, sampleLimit := t.power.sampleLimit
      underSamples := t.power.underSamples, step := t.power.step, stepPending := t.power.stepPending } ∧
    t.power.sampleLimit =
      (if s.power.capInForce * 11000 < mw * 10 then true
       else s.power.sampleLimit && !(decide (avg ≤ s.power.capInForce * 1000) && decide (9 ≤ s.power.underSamples))) ∧
    t.power.step =
      (if s.power.step < stepTarget t.power ∨ s.power.stepPending = true then stepTarget t.power else s.power.step)

/-- The controller takes the cap in force (the lesser of the cap set and the available power rounded down to 25 W). Its request
rises by 1, to 16 at most, when the average is above the cap, and falls by 1 after 10 ms more than 25 W below it. Pacing starts
after 10 ms at request 16 above the cap and ends after 100 ms more than 25 W below it. The step rises to the largest request.
When neither pacing starts nor the request and the step both rise, nothing else happens. -/
def Obligations.PowerControlMillisecond : Prop :=
  ∀ s : State, s.obj.sessions = [] →
    ∃ t, exec .powerControlTick s = .next t ∧
      t = { s with
        power := t.power, obj := { s.obj with stitches := t.obj.stitches }, host := t.host, pcie := t.pcie, out := t.out } ∧
      t.power.capInForce = min s.power.capSet ((s.power.advertised + 75) / 25 * 25) ∧
      t.power.power =
        (if t.power.capInForce * 1000 < s.power.avgMw then min 16 (s.power.power + 1)
         else if s.power.avgMw + 25000 < t.power.capInForce * 1000 ∧ 9 ≤ s.power.belowMs then s.power.power - 1
         else s.power.power) ∧
      t.power.pacing =
        (if s.power.pacing then
          !(decide (s.power.avgMw + 25000 < t.power.capInForce * 1000) && decide (99 ≤ s.power.overMs))
         else
          decide (s.power.power = 16) && decide (t.power.capInForce * 1000 < s.power.avgMw) && decide (9 ≤ s.power.overMs)) ∧
      t.power.thermal = s.power.thermal ∧ t.power.imbalance = s.power.imbalance ∧ stepRises s t ∧
      ((s.power.pacing = true ∨ t.power.pacing = false) → (t.power.power ≤ s.power.power ∨ t.power.step ≤ s.power.step) →
        t.host = s.host ∧ t.pcie = s.pcie ∧ t.out = s.out)

/-- A sample of the five regions on a powered card, no difference of regions being beyond its limit: at 95 degrees or more (in
sixteenths 1520) the thermal request becomes the step plus 1, then rises by 1 each ten samples, to 16; below 92 degrees for
more than 100 samples it falls by 1. HARD is set at 100 degrees and clears below 95, leaving the request 16. The step rises to
the largest request. At 110 degrees the trip latches and main power goes. -/
def Obligations.ThermalRequests : Prop :=
  ∀ (s : State) (temps : List Int), s.power.main = true → s.power.state < 6 →
    (hottest temps < 1760 → beyondLimit { s.power with temps := temps } = false →
      ∃ t, exec (.thermalSample temps) s = .next t ∧ OnlyPower s t ∧ t.power.temps = temps ∧
        t.power.hard = (decide (1600 ≤ hottest temps) || (s.power.hard && !decide (hottest temps < 1520))) ∧
        t.power.thermal =
          (if 1520 ≤ hottest temps then
            (if s.power.hot = false then min 16 (s.power.step + 1)
             else if 9 ≤ s.power.hotSamples then min 16 (s.power.thermal + 1) else s.power.thermal)
           else if s.power.hard then 16
           else if hottest temps < 1472 ∧ 100 ≤ s.power.coolSamples then s.power.thermal - 1
           else s.power.thermal) ∧
        t.power.power = s.power.power ∧ stepRises s t) ∧
    (1760 ≤ hottest temps → s.power.aux = true →
      ∃ t, exec (.thermalSample temps) s = .next t ∧ t.power.trip = true ∧ t.power.main = false ∧ t.power.state = 7 ∧
        t.power.temps = temps ∧ t.obj = {} ∧ t.pcie.linkUp = false ∧ t.out = s.out)

/-- A voltage of 600 to 850 mV in steps of 5 mV, within 150 mV of both powered neighbours, is set and any other is not. A
slower step than the one in force follows the requests at once, a faster one once the monitors pass. A difference that goes
beyond its limit (monitors that still fail at the bound of 150 mV are such) makes the imbalance request the step plus 2, at most
16, and the step follows. With no stitch queued or running and no command waiting, the compute PLLs stop and the stacks fall to
600 mV; with a stitch they run on. -/
def Obligations.VoltageAndPll : Prop :=
  ∀ (s : State) (k mv : Nat) (failing : Bool), k < 4 → s.power.vdd.length = 4 → s.obj.sessions = [] →
    (∀ (v : List Nat) (p : PowerUnit), v = (if voltageOk s.power.vdd k mv then listSet s.power.vdd k mv else s.power.vdd) →
      p = { s.power with vdd := v, vBeyond := failing && atBound v k } →
      (beyondLimit p = false ∨ s.power.unbalanced = true →
        ∃ t, exec (.voltageLoopAdjust k mv failing) s = .next t ∧ OnlyPower s t ∧
          t.power = { p with step := t.power.step, stepPending := t.power.stepPending } ∧
          t.power.step =
            (if s.power.step < stepTarget s.power ∨ (failing = false ∧ s.power.stepPending = true) then stepTarget s.power
             else s.power.step) ∧
          t.power.stepPending = decide (stepTarget s.power < t.power.step)) ∧
      (beyondLimit p = true → s.power.unbalanced = false →
        ∃ t, exec (.voltageLoopAdjust k mv failing) s = .next t ∧
          t = { s with
            power := t.power, obj := { s.obj with stitches := t.obj.stitches }, host := t.host, pcie := t.pcie, out := t.out } ∧
          t.power = { p with
            unbalanced := true, imbalance := min 16 (s.power.step + 2), unbalSamples := 0, evenSamples := 0
            imbalances := s.power.imbalances + 1, step := t.power.step, stepPending := t.power.stepPending } ∧
          (s.power.step ≤ 16 → t.power.step = stepTarget t.power))) ∧
    (s.pending = [] → s.due = [] →
      (s.obj.stitches = [] → exec .pllIdleStop s = .next { s with
        power := { s.power with pll := false, vdd := [600, 600, 600, 600] } }) ∧
      (s.obj.stitches ≠ [] → exec .pllIdleStop s = .next s))

/-- D3hot in READY or ACTIVE with no session open starts sleep entry, waits during bring-up and a wake, and wakes a card in NAP.
Entry without stitches or pushed events, no memory error lying latent, copies the pillows to their save area, puts DDR into self-refresh, halts the control
cores and reaches SLEEP, or the wake when D0 was written meanwhile. D0 wakes the card from SLEEP. The wake restores the pillows
and reaches READY with the control cores running; a NAP wake reaches READY and keeps memory. -/
def Obligations.SleepAndNap : Prop :=
  ∀ s : State, s.canonical = true →
    (s.pcie.linkUp = true →
      (s.host.state ≠ .fault → s.obj.sessions = [] →
        exec .d3hotWrite s = .next { s with
          pcie := { s.pcie with linkState := 0, d3hot := true }
          power :=
            if s.power.state = 1 ∨ s.power.state = 2 then { s.power with state := 4, d3Pending := false, d0Pending := false }
            else if s.power.state = 0 ∨ s.power.state = 5 then { s.power with d3Pending := true }
            else if s.power.state = 3 then { s.power with d3Pending := true, state := 5 }
            else if s.power.state = 4 then { s.power with d0Pending := false }
            else s.power }) ∧
      exec .d0Write s = .next { s with
        pcie := { s.pcie with linkState := 0, d3hot := false }
        power :=
          if s.power.state = 6 then { s.power with state := 5 }
          else if s.power.state = 4 then { s.power with d0Pending := true }
          else { s.power with d3Pending := false } }) ∧
    (s.power.state = 4 → s.host.ending = false → s.obj.stitches = [] → stacksEmpty s = true → s.mem.latent = [] →
      ∃ t, exec .sleepEntry s = .next t ∧
        t.power = { s.power with
          state := if s.power.d0Pending then 5 else 6, d0Pending := false, pll := false, vdd := [0, 0, 0, 0] } ∧
        t.host = { s.host with state := .starting } ∧ t.obj = s.obj ∧ t.out = s.out ∧
        t.time = { s.time with sync := if s.time.sync = 1 then 2 else s.time.sync } ∧
        (∀ c, c < 4 → (t.cc c).run = 0 ∧ (t.ddr c).selfRefresh = true) ∧
        (∀ n, 248 ≤ n → n ≤ 253 → t.src n = s.src n) ∧
        ∀ x, x < 4 * pillowBytes → memByte t (saveArea + x) = memByte s (pillowBase + x)) ∧
    (s.power.state = 5 → s.host.state = .starting → s.host.held = [] → s.power.d3Pending = false → s.mem.latent = [] →
      s.fw.waiting3 = [] → s.pair.wakeFor = none →
      ∀ w, ∃ t, exec (.sleepWakeComplete w) s = .next t ∧
        t.power = { s.power with state := 1, pll := true, vdd := [600, 600, 600, 600], advertised := w } ∧
        t.host = { s.host with state := .ready } ∧ t.obj = s.obj ∧ t.out = s.out ∧
        (∀ c, c < 4 → (t.cc c).run = 1 ∧ (t.cc c).wdogLeft = 250000 ∧ (t.ddr c).selfRefresh = false) ∧
        ∀ x, x < 4 * pillowBytes → memByte t (pillowBase + x) = memByte s (saveArea + x)) ∧
    (s.power.state = 5 → s.host.state = .ready → s.host.held = [] → s.power.d3Pending = false →
      ∃ t, exec .napWakeComplete s = .next t ∧ t = { s with power := { s.power with state := 1 }, mem := t.mem } ∧
        (∀ a, memByte t a = memByte s a) ∧ ∀ c, c < 4 → t.ddr c = { s.ddr c with selfRefresh := false })

/-- PERST# with some power present ends every object, session and register but the always-on island's: its event sources, the
clock, the LOCATE LED, the SMBus address, the trip latch, and the fuses. Deasserted, it starts bring-up at step 0 with the boot
core running; the clock keeps its value when auxiliary power was there throughout. Main power lost with auxiliary power
present leaves the card OFF, its output time units going on. The loss of both loses the clock. -/
def Obligations.PowerAndPerst : Prop :=
  ∀ s : State, s.canonical = true →
    ((s.power.aux = true ∨ s.power.main = true) →
      ∃ t, exec .perstAssert s = .next t ∧ t.obj = {} ∧ t.host = HostUnit.init ∧ t.cores = [] ∧ t.ppu = [] ∧
        t.pcie.perst = true ∧ t.pcie.linkUp = false ∧ t.pcie.bme = false ∧ t.pcie.reads = [] ∧ t.pair = PairUnit.init ∧
        t.time.sec = s.time.sec ∧ t.time.ns = s.time.ns ∧ t.time.frac = s.time.frac ∧ t.power.trip = s.power.trip ∧
        t.board.locate = s.board.locate ∧ t.board.smbusAddr = s.board.smbusAddr ∧ t.out = s.out ∧
        t.sec = { SecUnit.init with
          securityVersion := s.sec.securityVersion, fkRevoked := s.sec.fkRevoked, required := s.sec.required
          jtagDisable := s.sec.jtagDisable } ∧
        ∀ n, t.src n = if 248 ≤ n ∧ n ≤ 253 then s.src n else {}) ∧
    (s.pcie.perst = true →
      ∃ t, exec .perstDeassert s = .next t ∧ t.pcie = { s.pcie with perst := false } ∧ t.power.main = true ∧
        t.power.state = 0 ∧ t.power.bringUp = 0 ∧ (t.cc 4).run = 1 ∧ t.time.tick = 0 ∧ t.time.sync = 0 ∧
        t.time.sec = (if s.power.auxKept then s.time.sec else 0) ∧ t.obj = s.obj ∧ t.mem = s.mem ∧ t.out = s.out) ∧
    exec .auxPowerApply s = .next { s with
      power := { s.power with aux := true, auxKept := s.power.auxKept || !s.power.main } } ∧
    (s.power.main = true → exec .auxPowerLoss s = .next { s with
      power := { s.power with aux := false, auxKept := false }
      board := { s.board with smbusAddr := none, smbusPrepared := false } }) ∧
    (s.power.main = false → ∃ t, exec .auxPowerLoss s = .next t ∧ t.time = TimeUnitBlock.init ∧ t.evg = EvgUnit.init ∧
      t.obj = {} ∧ t.power.aux = false ∧ t.power.trip = false) ∧
    (s.power.main = true → s.power.aux = true →
      ∃ t, exec .mainPowerLoss s = .next t ∧ t.power.main = false ∧ t.power.state = 7 ∧ t.obj = {} ∧
        t.pcie.linkUp = false ∧ t.time.sec = s.time.sec ∧ t.time.units = s.time.units.filter (fun u => u.2.isOutput) ∧
        t.out = s.out)

/-- With PERST# deasserted and main power present: step 0 trains the link at the port's rate and width;
step 3 makes the channels that did the seven stages of
training ready, takes the advertised power, and a channel that failed at a stage puts a card with no held command into FAULT
(kind 20); with the input below 10 V nothing is trained and it waits; step 4 leaves every byte
of DDR zero; step 5 leaves the pillows zero and their self-test passed; step 6 finds the modules; step 7 reaches READY with
READY_REACHED set. A rise of the 12V-2x6 input lets a waiting bring-up go on to step 3, in which the channels train from the first stage
on. -/
def Obligations.BringUp : Prop :=
  ∀ (s : State) (r : StepResult), s.canonical = true → s.pcie.perst = false → s.power.main = true → s.power.trip = false →
    (s.power.bringUp = 0 → exec (.bringUpStepComplete r) s = .next { s with
      power := { s.power with bringUp := 1 }
      pcie := { s.pcie with
        linkUp := true
        flit := r.flit && decide (6 ≤ r.portRate) && decide (16 ≤ r.portLanes)
        linkRate := if r.flit ∧ 6 ≤ r.portRate ∧ 16 ≤ r.portLanes then 6 else max 1 (min 5 r.portRate)
        linkWidth :=
          if 16 ≤ r.portLanes then 16 else if 8 ≤ r.portLanes then 8 else if 4 ≤ r.portLanes then 4
          else if 2 ≤ r.portLanes then 2 else 1 } }) ∧
    (s.power.bringUp = 3 → r.failed = [] → 10000 ≤ r.inputMv →
      ∃ t, exec (.bringUpStepComplete r) s = .next t ∧ t.power = { s.power with advertised := r.advertisedW, bringUp := 4 } ∧
        t.host = s.host ∧ t.board = { s.board with inputMv := r.inputMv } ∧ ∀ c, c < 4 → t.ddr c = { s.ddr c with state := 2, trained :=
          [.chipSelect, .commandAddress, .writeLevelling, .readCentring, .writeCentring, .dfe, .vref] }) ∧
    (s.power.bringUp = 3 → r.inputMv < 10000 →
      ∃ t, exec (.bringUpStepComplete r) s = .next t ∧ t = { s with
          mem := t.mem, board := { s.board with inputMv := r.inputMv }, power := { s.power with bringUp := 2 } } ∧
        ∀ c, c < 4 → t.ddr c = { s.ddr c with state := 0, trained := [] }) ∧
    (s.power.bringUp = 3 → 10000 ≤ r.inputMv → s.host.held = [] → s.obj.sessions = [] → ∀ c, c < 4 → r.failed = [c] →
      ∃ t, exec (.bringUpStepComplete r) s = .next t ∧ t.host.state = .fault ∧ t.host.faultCode = 20 + 256 * c ∧
        t.host.cause.getLsbD 2 = true ∧ (t.ddr c).state = 3 ∧ (t.ddr c).faultCause = 1 ∧ (t.ddr c).sticky = true ∧
        (t.ddr c).trained = [.chipSelect, .commandAddress, .writeLevelling, .readCentring, .writeCentring, .dfe, .vref].take
          (min r.stage 6)) ∧
    (s.power.bringUp = 4 →
      ∃ t, exec (.bringUpStepComplete r) s = .next t ∧ t = { s with mem := t.mem, power := { s.power with bringUp := 5 } } ∧
        ∀ a, memByte t a = if a < ddrEnd then 0 else memByte s a) ∧
    (s.power.bringUp = 5 → r.failed = [] →
      ∃ t, exec (.bringUpStepComplete r) s = .next t ∧ t = { s with mem := t.mem, power := { s.power with bringUp := 6 } } ∧
        (∀ k, k < 4 → t.pil k = { s.pil k with pass := true, retained := true, poison := [] }) ∧
        ∀ a, memByte t a = if pillowBase ≤ a ∧ a < pillowBase + 4 * pillowBytes then 0 else memByte s a) ∧
    (s.power.bringUp = 6 → exec (.bringUpStepComplete r) s = .next { s with
      board := { s.board with modules := r.modules }, power := { s.power with bringUp := 7 } }) ∧
    (s.power.bringUp = 7 → s.host.held = [] → s.power.d3Pending = false → 300 ≤ s.power.advertised + 75 →
      ∃ t, exec (.bringUpStepComplete r) s = .next t ∧ t.host.state = .ready ∧ t.host.cause.getLsbD 1 = true ∧
        t.power = { s.power with bringUp := 8, state := 1, pll := true, vdd := [600, 600, 600, 600] } ∧ t.obj = s.obj ∧
        t.pair.lanes = min r.lanes 8 ∧ t.pair.authenticated = (r.authenticated && s.sec.chainValid)) ∧
    ∀ mv, (mv ≤ 11040 → exec (.input12v2x6Rise mv) s = .next s) ∧
      (11040 < mv → s.power.bringUp ≠ 2 →
        exec (.input12v2x6Rise mv) s = .next { s with board := { s.board with inputMv := mv } }) ∧
      (11040 < mv → s.power.bringUp = 2 →
        ∃ t, exec (.input12v2x6Rise mv) s = .next t ∧ t = { s with
            mem := t.mem, board := { s.board with inputMv := mv }, power := { s.power with bringUp := 3 } } ∧
          ∀ c, c < 4 → t.ddr c = { s.ddr c with state := 1, trained := [] })

/-- In ROM: a `BOOT_LOAD` request in order, its image not yet read, leaves the load in flight and the mailbox's OWN set;
`BOOT_QUERY` answers the identity registers and 24 zero bytes; an opcode of neither answers ST_BAD_OPCODE. When the image is
not complete in time, and no completion of its reads waits, the answer is ST_TIMEOUT and no load is in flight. Once firmware runs, `BOOT_QUERY` answers
ST_WRONG_STATE. -/
def Obligations.BootMailbox : Prop :=
  ∀ (h : Hdr) (s : State), s.canonical = true → s.pair.mode = 0 → h.mbox = 32 →
    (Reached s → (s.mbox 32).own = false → s.sec.unlocked = false → s.host.state = .rom →
      (∀ entries bytes, bootRequestOk h entries bytes = true →
        ∃ t, exec (.bootLoad h entries bytes none) s = .next t ∧ (t.mbox 32).own = true ∧ (t.mbox 32).seq = h.seq ∧
          t.host.boot = some ⟨h, entries, bytes, List.replicate (requestsOf s entries).length none⟩ ∧
          t = { s with host := t.host, pcie := t.pcie, out := t.out }) ∧
      (h.headerReserved = false → h.bodyReserved = false → h.session = 0 → h.version = 1 → h.length = 8 →
        ∃ t, exec (.bootQuery h) s = .next t ∧ Answered h 0 0 (identityBytes s ++ zeroBytes 24) s t ∧ HostFrame s t) ∧
      ∀ op, op ≠ 1 → op ≠ 2 → ∃ t, exec (.unknownOpcode h op) s = .next t ∧ Answered h 1 0 [] s t ∧ HostFrame s t) ∧
    (Reached s → (s.mbox 32).own = false → s.sec.unlocked = false → s.host.state ≠ .rom → s.host.state ≠ .orphaned →
      ∃ t, exec (.bootQuery h) s = .next t ∧ Answered h 12 0 [] s t ∧ HostFrame s t) ∧
    (∀ j, s.pending = [] → s.due = [] → s.host.boot = some j → j.hdr = h → (s.mbox 32).seq = h.seq → s.host.state ≠ .orphaned →
      ∃ t, exec .bootLoadTimeout s = .next t ∧ Answered h 14 0 [] s t ∧ t.host.boot = none ∧
        ∀ r, r ∈ t.pcie.reads → r.owner ≠ .boot) ∧
    (s.pending = [] → s.due = [] → s.host.boot = none → exec .bootLoadTimeout s = .next s)

/-- Clearing Bus Master Enable changes nothing else. Setting it sends the messages and page writes that waited, in order (no
MSI-X message and no read being pending); in the orphaned state a page write waits on. A completion with the last data of an
outstanding read of the boot image, further ones being due, counts its tag as completed, ends the read and stores the data; one
with a part of the data leaves the read outstanding; one that answers no read, or brings nothing or more than is asked, is logged as
Unexpected Completion. A completion timeout of such a read, no command waiting, logs the error, ends the read and answers the
load with ST_TIMEOUT, DETAIL 4; with Completion Timeout Disable set nothing happens. -/
def Obligations.BusMasterAndReads : Prop :=
  ∀ s : State, s.canonical = true →
    (s.pcie.linkUp = true →
      exec .busMasterEnableClear s = .next { s with pcie := { s.pcie with linkState := 0, bme := false } } ∧
      (s.host.pba = [] → s.pcie.queued = [] →
        (s.host.state ≠ .orphaned → (∀ w, w ∈ s.pcie.waiting → (∃ m, w = .msg m) ∨ ∃ h m, w = .page h m) →
          exec .busMasterEnableSet s = .next { s with
            pcie := { s.pcie with linkState := 0, bme := true, waiting := [] }
            out := s.out ++ (s.pcie.waiting.map (waitingOut s.pcie)).flatten }) ∧
        (s.host.state = .orphaned → (∀ w, w ∈ s.pcie.waiting → ∃ h m, w = .page h m) →
          exec .busMasterEnableSet s = .next { s with pcie := { s.pcie with linkState := 0, bme := true } })) ∧
      (∀ tag st d header,
        (∀ r, r ∈ s.pcie.reads → r.tag = tag → st = .ok ∧ (d = [] ∨ r.length < r.got.length + d.length)) →
        ∃ t, exec (.pcieReadCompletion tag st d header) s = .next t ∧ ErrorLogged 16 header (active s) t) ∧
      (∀ r j d rest header, s.pcie.reads = r :: rest → r.owner = .boot → s.host.boot = some j → d ≠ [] →
        s.pcie.queued = [] → (∀ x, x ∈ rest → x.tag ≠ r.tag) →
        (r.got.length + d.length = r.length → gotAll (gotPiece j.got r.piece (r.got ++ d)) = none →
          exec (.pcieReadCompletion r.tag .ok d header) s = .next { s with
            pcie := { s.pcie with linkState := 0, completed := s.pcie.completed + 1, reads := rest }
            host := { s.host with boot := some { j with got := gotPiece j.got r.piece (r.got ++ d) } } }) ∧
        (r.got.length + d.length < r.length →
          exec (.pcieReadCompletion r.tag .ok d header) s = .next { s with
            pcie := { s.pcie with linkState := 0, reads := { r with got := r.got ++ d } :: rest } }))) ∧
    ∀ r j rest, s.pcie.reads = r :: rest → r.owner = .boot → s.host.boot = some j → s.pending = [] → s.due = [] →
      s.pcie.queued = [] → (s.mbox j.hdr.mbox).seq = j.hdr.seq →
      (s.pcie.cplDisable = false →
        ∃ u t, exec (.pcieCompletionTimeout r.tag) s = .next t ∧ ErrorLogged 14 (freeBytes 16 s) s u ∧
          Answered j.hdr 14 4 [] u t ∧ t.host.boot = none ∧ t.pcie.uncorr = u.pcie.uncorr ∧
          ∀ x, x ∈ t.pcie.reads → x.owner ≠ .boot ∧ x.tag ≠ r.tag) ∧
      (s.pcie.cplDisable = true → exec (.pcieCompletionTimeout r.tag) s = .next s)

/-- An idle link with ASPM L1 enters L1, or L1.2 where the latency last reported permits it. A link that goes down with no read outstanding orphans a READY card,
sets LEASE_EXPIRED and sends no message; after 100 ms in a pair the card reports that to its partner, and with no healthy one
enters FAULT (kind 19).
The link's return clears that. A Function Level Reset of a card without sessions in no pair clears the endpoint's and the
event words' registers and keeps the link and AER. The end of the lease's time, no command waiting, orphans the card. -/
def Obligations.LinkAndLease : Prop :=
  ∀ s : State, s.canonical = true →
    (s.pcie.linkUp = true → s.pcie.l1Enable = true →
      exec .linkIdleL1Entry s = .next { s with pcie := { s.pcie with
        linkState := if s.pcie.l12Enable ∧ s.pcie.ltrEnable ∧ (∃ n, s.pcie.ltr = some n ∧ l12ThresholdNs s ≤ n) then 2 else 1 } }) ∧
    (s.pcie.linkUp = true → s.pcie.reads = [] → s.host.state = .ready →
      exec .pcieLinkDown s = .next { s with
        pcie := { s.pcie with linkUp := false, linkState := 0 }
        host := { s.host with state := .orphaned, leaseLeft := none, cause := s.host.cause ||| 1#32 } }) ∧
    (s.pcie.perst = false → s.power.main = true → s.power.trip = false → s.power.bringUp ≠ 0 → s.pcie.queued = [] →
      exec .pcieLinkUp s = .next { s with
        pcie := { s.pcie with linkUp := true, linkState := 0, ltr := none }, pair := { s.pair with hostLost := false } }) ∧
    (s.pcie.linkUp = false → s.pcie.perst = false → s.pair.mode ≠ 0 → s.pair.inSync = false → s.pair.hostLost = false →
      s.host.state ≠ .fault → s.obj.sessions = [] → s.pending = [] → s.due = [] →
      ∃ t, exec .hostLinkLossTimeout s = .next t ∧ t.host.state = .fault ∧ t.host.faultCode = 19 ∧ t.pair.hostLost = true ∧
        .bride (.fault 19) ∈ t.out) ∧
    (s.pcie.linkUp = true → s.obj.sessions = [] → s.obj.stitches = [] → s.pair.mode = 0 →
      ∃ t, exec .functionLevelReset s = .next t ∧ t.obj.sessions = [] ∧ t.obj.stitches = [] ∧ t.host.held = [] ∧
        t.host.long = [] ∧ t.host.events = [] ∧ t.host.cause = 0 ∧ t.host.causeEnable = 0 ∧ t.host.b2Base = 0 ∧ t.host.msix = [] ∧
        t.host.leaseLeft = none ∧ t.host.state = (if s.host.state = .orphaned then .ready else s.host.state) ∧
        t.pcie.bme = false ∧ t.pcie.mse = false ∧ t.pcie.barSize = 19 ∧ t.pcie.reads = [] ∧ t.pcie.linkUp = true ∧
        t.pcie.uncorr = s.pcie.uncorr ∧ t.pcie.headerLog = s.pcie.headerLog ∧ (∀ m, (t.mbox m).own = false) ∧ t.out = s.out) ∧
    (s.host.state = .ready → s.host.leaseLeft = some 0 → sessionCommand s = false → s.pending = [] → s.due = [] →
      exec .leaseExpiry s = .next { s with
        host := { s.host with state := .orphaned, leaseLeft := none, cause := s.host.cause ||| 1#32 } })

/-! ## The board, management and security -/

namespace Sys2Proof.Claims

/-- The state after a wake cause (R620): PME_Status is set, and PME goes out where PME_En is set, or in OFF WAKE# with auxiliary
power. -/
def woken (s : State) : State :=
  { s with
    pcie := { s.pcie with pmeStatus := true }
    out := s.out ++
      if s.power.state = 7 then (if s.power.aux then [.wake] else []) else if s.pcie.pmeEnable then [.pme] else [] }

/-- What DOE Abort takes from the requests that wait for control core 3. -/
def doeWaits : Instr → Bool
  | .doeObjectWrite .. | .spdmRequest .doe _ => true
  | _ => false

end Sys2Proof.Claims

/-- A press of the SERVICE button is a wake cause. A short press on a powered card toggles LOCATE, as a long one does in SLEEP and
OFF. A long press elsewhere starts evacuation in a healthy pair whose partner does not evacuate, and flashes STATE for 37,500,000
ticks otherwise; in a card that evacuates it does nothing more. A change of presence sets the cage's module and takes down the ports without a usable module. A link that comes up on a usable
port, or goes down, is recorded. Nothing else changes. -/
def Obligations.ButtonAndCages : Prop :=
  ∀ s : State, (s.power.aux = true ∨ s.power.main = true) →
    exec .serviceShortPress s = .next { woken s with board := { s.board with locate := !s.board.locate } } ∧
    (∀ b : Bool, exec (.serviceLongPress b) s = .next (
      if 6 ≤ s.power.state then { woken s with board := { s.board with locate := !s.board.locate } }
      else if s.pair.evacuating = true then woken s
      else if s.pair.mode ≠ 0 ∧ s.pair.inSync = true ∧ b = false then
        { woken s with pair := { s.pair with evacuating := true } }
      else { woken s with board := { s.board with flashUntil := s.time.tick + 37500000 } })) ∧
    (∀ cage m, cage < 2 →
      ∃ t, exec (.qsfpPresenceChange cage m) s = .next t ∧ t = { s with board := t.board } ∧
        t.board = { s.board with modules := listSet s.board.modules cage m, portsUp := t.board.portsUp } ∧
        t.board.portsUp.length = 8 ∧
        ∀ p, p < 8 → t.board.portsUp.getD p false = (s.board.portsUp.getD p false && portUsable t p)) ∧
    (∀ p up, p < 8 → 7 ≤ s.power.bringUp → s.power.state < 6 → s.power.main = true → (up = true → portUsable s p = true) →
      exec (.ethernetLinkChange p up) s = .next { s with
        board := { s.board with portsUp := listSet s.board.portsUp p up } })

/-- Control core 3 running where it is concerned. ARP: prepare and device reset acknowledge; an assignment of this card's UDID sets the address; Get UDID answers when no
address is resolved or it was prepared again. PLDM over SMBus at an assigned address in READY: the power sensor reads the
average in watts, effecter 100 sets LOCATE. DOE discovery answers its protocols, another vendor sets DOE Error, Abort clears
it. SPDM GET_VERSION over DOE answers 1.2; GET_MEASUREMENTS of block 5 in a negotiated connection answers the debug state. What comes while core 3 restarts or sleeps waits for
it. -/
def Obligations.Management : Prop :=
  ∀ s : State,
    ((s.power.aux = true ∨ s.power.main = true) →
      exec (.smbusArp .prepare) s = .next { s with
        board := { s.board with smbusPrepared := true }, out := s.out ++ [.smbusAck []] } ∧
      exec (.smbusArp .resetDevice) s = .next { s with
        board := { s.board with smbusAddr := none, smbusPrepared := false }, out := s.out ++ [.smbusAck []] } ∧
      (∀ a, exec (.smbusArp (.assign udid a)) s = .next { s with
        board := { s.board with smbusAddr := some a, smbusPrepared := false }, out := s.out ++ [.smbusAck []] }) ∧
      exec (.smbusArp .getUdid) s =
        if s.board.smbusAddr.isNone ∨ s.board.smbusPrepared = true then
          .next { s with out := s.out ++ [.smbusAck (udidBytes s)] }
        else .next s) ∧
    (1 ≤ s.power.state → s.power.state ≤ 3 → s.power.main = true → s.sec.unlocked = false →
      (∀ v, exec (.locateEffecterWrite v) s = .next (
        if (s.cc 3).run = 1 then { s with board := { s.board with locate := v } }
        else if (s.cc 3).run = 2 then s
        else { s with fw := { s.fw with waiting3 := s.fw.waiting3 ++ [.locateEffecterWrite v] } })) ∧
      (s.board.smbusAddr.isSome = true → (s.cc 3).run ≠ 1 → (s.cc 3).run ≠ 2 → ∀ r,
        exec (.mctpPldmRequest .smbus r) s = .next { s with
          fw := { s.fw with waiting3 := s.fw.waiting3 ++ [.mctpPldmRequest .smbus r] } }) ∧
      (s.board.smbusAddr.isSome = true → (s.cc 3).run = 1 →
        exec (.mctpPldmRequest .smbus (.readSensor 8)) s = .next { s with
          fresh := s.fresh + 1, out := s.out ++ [.pldm .smbus (0x00 :: 0x00 :: leBytes 4 (s.power.avgMw / 1000))] } ∧
        ∀ v, exec (.mctpPldmRequest .smbus (.setEffecter 100 v)) s = .next { s with
          board := { s.board with locate := v }, out := s.out ++ [.pldm .smbus [0x00]] })) ∧
    (s.pcie.linkUp = true →
      exec .doeAbort s = .next { s with
        pcie := { s.pcie with linkState := 0, doeError := false, doeReady := none }
        fw := { s.fw with waiting3 := s.fw.waiting3.filter fun i => !doeWaits i } } ∧
      (s.pcie.doeBusy = false → s.pcie.doeError = false → s.sec.unlocked = false → (s.cc 3).run ≠ 1 → (s.cc 3).run ≠ 2 →
        (∀ v p n, exec (.doeObjectWrite v p n) s = .next { s with
          pcie := { s.pcie with linkState := 0 }
          fw := { s.fw with waiting3 := s.fw.waiting3 ++ [.doeObjectWrite v p n] } }) ∧
        ∀ r, exec (.spdmRequest .doe r) s = .next { s with
          fw := { s.fw with waiting3 := s.fw.waiting3 ++ [.spdmRequest .doe r] } }) ∧
      (s.pcie.doeBusy = false → s.pcie.doeError = false → s.sec.unlocked = false → (s.cc 3).run = 1 →
        (∀ n, n ≤ 1024 → exec (.doeObjectWrite 1 0 n) s = .next { s with
          pcie := { s.pcie with linkState := 0, doeReady := some doeProtocols }, out := s.out ++ [.doe doeProtocols] }) ∧
        (∀ v p n, v ≠ 1 → exec (.doeObjectWrite v p n) s = .next { s with
          pcie := { s.pcie with linkState := 0, doeError := true } }) ∧
        (let m := leBytes 1 0x12 ++ leBytes 1 0x04 ++ leBytes 1 0 ++ leBytes 1 0 ++ (leBytes 2 0x0100 ++ leBytes 2 0x1200)
         exec (.spdmRequest .doe .getVersion) s = .next { s with
          sec := { s.sec with spdm := listSet s.sec.spdm 2 1 }, fresh := s.fresh + 32
          pcie := { s.pcie with doeReady := some m }, out := s.out ++ [.doe m] }) ∧
        (s.sec.spdm.getD 2 0 = 3 →
          ∃ t sig, exec (.spdmRequest .doe (.getMeasurements 5)) s = .next t ∧ t.fresh = s.fresh + 32 ∧
            t.obj = s.obj ∧ t.mem = s.mem ∧
            t.out = s.out ++ [.doe (spdmMsg 0x60 0 0
              (leBytes 1 1 ++ leBytes 3 (measurementBlock 5 [0]).length ++ measurementBlock 5 [0] ++ freeBytes 32 s ++
                sig))])))

/-- With the hub powered and out of PERST#, a read of the challenge presents a fresh nonce with ID.SERIAL. A response that does not
verify consumes the nonce and is counted, saturating. One that verifies, on a card in no pair with no session and no stitch,
halts the control cores, zeroes DDR, pillows and hub SRAM, puts HEV.STATE to FAULT with code 0, and opens JTAG. -/
def Obligations.DebugUnlock : Prop :=
  ∀ s : State, s.canonical = true → s.power.main = true → s.pcie.perst = false → s.power.state < 6 → s.sec.unlocked = false →
    exec .jtagChallengeRead s = .next { s with
      sec := { s.sec with nonce := some (freeBytes 32 s) }, fresh := s.fresh + 32
      out := s.out ++ [.jtagChallenge (freeBytes 32 s) Config.serial.toNat] } ∧
    (s.sec.unlocking = false → s.pair.mode = 0 → s.pair.evacuating = false → s.obj.sessions = [] → s.obj.stitches = [] →
      s.host.long = [] → ∀ key sig,
      ∃ t, exec (.jtagUnlockResponse key sig) s = .next t ∧
        (unlockOk s key sig = false →
          t = { s with sec := { s.sec with nonce := none, unlockFails := min (s.sec.unlockFails + 1) (2 ^ 32 - 1) } }) ∧
        (unlockOk s key sig = true →
          t.sec = { s.sec with nonce := none, unlocked := true, unlocking := false } ∧ t.host.state = .fault ∧
          t.host.faultCode = 0 ∧ (∀ c, c < 4 → (t.cc c).run = 2) ∧
          (∀ a, (a < ddrEnd ∨ (pillowBase ≤ a ∧ a < pillowBase + 4 * pillowBytes) ∨ (hubBase ≤ a ∧ a < hubEnd)) →
            memByte t a = 0)))

/-! ## The pair -/

/-- In a pair over at least four lanes a bride heartbeat goes out; one that arrives is remembered; a network heartbeat goes from
the card's address of a port to the partner's there. A mirrored session joins the replica, its GEN being kept (R11), and is acknowledged. An
acknowledgement releases the answer that waited for it. A lost lane is counted, a cable's lanes are retrained. The partner's
join is remembered, a join that waited in vain answers ST_PARTNER_ABSENT, and the copy's end puts the pair in sync. -/
def Obligations.PairTraffic : Prop :=
  ∀ s : State, s.canonical = true →
    (s.pair.mode ≠ 0 → (s.cc 3).run = 1 → s.host.state ≠ .fault → s.power.state < 6 →
      (4 ≤ s.pair.lanes → exec .brideHeartbeatSend s = .next { s with out := s.out ++ [.bride .heartbeat] }) ∧
      ∀ a b, s.obj.addrs = [a] → s.pair.replica.addrs = [b] → a.port = b.port → a.port < 8 →
        exec .networkHeartbeatSend s = .next { s with out := s.out ++ [.frame a.port a.vlan (.heartbeat a.addr b.addr)] }) ∧
    exec .brideHeartbeatReceive s = .next { s with pair := { s.pair with lastBeat := s.time.tick } } ∧
    (s.pair.mode ≠ 0 → s.host.state ≠ .fault → s.power.state ≠ 3 → ∀ seq x,
      exec (.mirrorItemReceive seq (.object (.session x))) s = .next { s with
        pair := { s.pair with replica := { s.pair.replica with
          sessions := upsert (fun (y : Session) => y.handle) x s.pair.replica.sessions } }
        gens := (issued x.handle s).gens
        out := s.out ++ [.bride (.ack seq 0)] }) ∧
    (s.pair.mode ≠ 0 → ∀ seq n h st d resp undo, s.pair.waiting = [(n, .answer h st d resp undo)] →
      (s.mbox h.mbox).seq = h.seq →
      (n ≤ seq → ∃ t, exec (.mirrorAckReceive seq 0) s = .next t ∧ Answered h st d resp s t ∧ t.pair.waiting = [] ∧
        t.pair.ackSeq = max s.pair.ackSeq seq ∧ t.obj = s.obj) ∧
      (seq < n → ∃ t, exec (.mirrorAckReceive seq 0) s = .next t ∧ t = { s with pair := t.pair } ∧
        t.pair.waiting = s.pair.waiting ∧ t.pair.ackSeq = max s.pair.ackSeq seq)) ∧
    (∀ l, l < 8 → exec (.brideLaneLoss l) s = .next { s with pair := { s.pair with lanes := s.pair.lanes - 1 } }) ∧
    (s.pair.mode = 0 → ∀ n,
      exec (.brideCableReconnect n) s = .next { s with pair := { s.pair with lanes := min n 8 } }) ∧
    (s.pair.mode = 0 → 4 ≤ s.pair.lanes → s.host.state ≠ .fault → s.pair.ownJoin = none → ∀ m r serial,
      exec (.partnerPairJoin m r serial) s = .next { s with
        pair := { s.pair with partnerSerial := serial, partnerJoin := some (m, r, s.time.tick) } }) ∧
    (s.pair.mode = 0 → ∀ h m r, s.host.long = [.pairJoin h m r] → (s.mbox h.mbox).seq = h.seq →
      s.pending = [] → s.due = [] →
      ∃ t, exec .pairJoinTimeout s = .next t ∧ Answered h 16 0 [] s t ∧ t.pair = { s.pair with ownJoin := none } ∧
        t.host.long = []) ∧
    (s.pair.mode ≠ 0 → s.pair.inSync = false → s.obj.sessions = [] →
      ∃ t, exec .pairSyncComplete s = .next t ∧ t.pair.inSync = true ∧ t.pair.mode = s.pair.mode ∧ t.obj = s.obj ∧
        ∃ e, t.host.events.getLast? = some e ∧ e.1.code = 5 ∧ e.1.args.getD 2 0 = 2)

/-- No command waiting: a partner gone silent on the bride alone ends the pair, each card keeping its own work. A partner silent on both paths, or
reporting an escalated fault, is taken over in a healthy pair: its session becomes this card's, held, and the card leaves the
pair with one more failover (here with no session of its own and a replica of one session). A card whose work was taken
enters FAULT. An evacuating card with nothing running hands over. The audit changes nothing when every ledger balances, and
its first imbalance is a card fault of kind 17. -/
def Obligations.PairLoss : Prop :=
  ∀ s : State, s.obj.sessions = [] → s.pair.waiting = [] → s.host.long = [] → s.pending = [] → s.due = [] →
    (s.pair.mode ≠ 0 → s.host.state = .ready →
      (∃ t, exec (.brideHeartbeatTimeout false) s = .next t ∧ t.pair.mode = 0 ∧ t.pair.inSync = false ∧
        t.pair.replica = {} ∧ t.obj = s.obj ∧ t.pair.failovers = s.pair.failovers) ∧
      (s.pair.inSync = true → s.pair.ackSeq < s.pair.sendSeq →
        ∃ t, exec (.mirrorAckTimeout false) s = .next t ∧ t.pair.mode = 0 ∧ t.pair.replica = {} ∧ t.obj = s.obj) ∧
      (s.pair.inSync = true → s.power.state < 6 → ∀ x, s.pair.replica = { sessions := [x] } →
        ∀ i, (i = .brideHeartbeatTimeout true ∨ (∃ k, i = .partnerFaultReport k)) →
        ∃ t, exec i s = .next t ∧ t.pair.mode = 0 ∧ t.pair.failovers = s.pair.failovers + 1 ∧ t.pair.replica = {} ∧
          t.obj.sessions = [{ x with held := true }] ∧ t.host.state = .ready)) ∧
    (s.host.state = .ready →
      ∃ t, exec .partnerTakeoverDetected s = .next t ∧ t.host.state = .fault ∧ t.host.faultCode = 17 + 256 * 255 ∧
        t.pair.mode = 0 ∧ t.obj.streams = s.obj.streams) ∧
    (s.pair.evacuating = true → s.obj.stitches = [] → (∀ p, p ∈ s.obj.partitions → p.running = none) →
      (s.pair.inSync = true → s.pair.sendSeq ≤ s.pair.ackSeq) → s.host.state = .ready →
      ∃ t l, exec .evacuationHandover s = .next t ∧ t.pair.mode = 0 ∧ t.pair.evacuating = false ∧ t.pair.evacuated = true ∧
        t.out = s.out ++ .bride .evacuated :: l ∧ t.obj.sessions = []) ∧
    ((s.cc 0).run = 1 →
      (imbalanced s = [] → exec .auditPeriodic s = .next s) ∧
      ∀ l ls, imbalanced s = l :: ls → s.host.state = .ready → s.pair.mode = 0 →
        ∃ t, exec .auditPeriodic s = .next t ∧ t.host.state = .fault ∧ t.host.faultCode = 17 + 256 * l.code ∧
          t.host.cause.getLsbD 2 = true)

/-! ## Mailbox commands -/

namespace Sys2Proof.Claims

/-- The command runs, answers ST_OK with a response, changes no more of the host interface than an answer does, and leaves a
state of which `f` holds. -/
def Serves (c : Instr) (h : Hdr) (resp : List Byte) (s : State) (f : State → Prop) : Prop :=
  ∃ t, exec c s = .next t ∧ Answered h 0 0 resp s t ∧ HostFrame s t ∧ f t

/-- Beside the mailbox, the lease and the link, only objects have changed, to `o`. -/
def ObjectsBecome (o : Objects) (s t : State) : Prop :=
  t = { s with host := t.host, pcie := t.pcie, out := t.out, obj := o }

/-- The same, a handle having been issued. -/
def ObjectsIssued (o : Objects) (hd : Handle) (s t : State) : Prop :=
  t = { s with host := t.host, pcie := t.pcie, out := t.out, obj := o, gens := (issued hd s).gens }

/-- The host servo is active. -/
def servedByHost (s : State) : Prop := servoActive s = false

/-- Beside the mailbox, the lease and the link, nothing has changed. -/
def Unchanged (s t : State) : Prop := t = { s with host := t.host, pcie := t.pcie, out := t.out }

/-- The command has been taken and waits: its mailbox keeps OWN and its SEQ. -/
def Waits (h : Hdr) (t : State) : Prop := (t.mbox h.mbox).own = true ∧ (t.mbox h.mbox).seq = h.seq

end Sys2Proof.Claims

/-- A taken `OPEN_SESSION` in order adds a session with the handle it answers, the highest common version and the EVENTS flag,
sets the lease period unless LEASE_MS is 0, and a lease runs. `LEASE_RENEW` sets the period and restarts the lease in full.
`CLOSE_SESSION` of a card's only session, which owns nothing and has no long command, leaves no object and stops the lease.
An opcode outside Table 19-1 answers ST_BAD_OPCODE and changes nothing else. -/
def Obligations.SessionCommands : Prop :=
  ∀ (h : Hdr) (s : State), h.mbox < 32 →
    (∀ flags leaseMs vs v, Taken true h 16 s → flags < 2 → leaseOk leaseMs = true → versionsOk vs = true →
      commonVersion s vs = some v → s.obj.sessions.length < 16 →
      ∃ t, exec (.openSession h flags leaseMs vs) s = .next t ∧
        (let ms := if leaseMs = 0 then s.host.leaseMs else leaseMs
         Answered h 0 0 (leBytes 4 (newHandle s 1).toNat ++ leBytes 1 v ++ zeroBytes 3 ++ leBytes 4 ms ++
          leBytes 4 s.host.fwVersion) s t ∧ t.host.leaseMs = ms) ∧
        ObjectsIssued { s.obj with sessions := s.obj.sessions ++ [⟨newHandle s 1, v, decide (flags = 1), false⟩] }
          (newHandle s 1) s t ∧
        t.host.leaseLeft.isSome = true) ∧
    (∀ leaseMs, Taken false h 8 s → leaseOk leaseMs = true →
      ∃ t, exec (.leaseRenew h leaseMs) s = .next t ∧
        (let ms := if leaseMs = 0 then s.host.leaseMs else leaseMs
         Answered h 0 0 (leBytes 4 ms) s t ∧ t.host.leaseMs = ms ∧ t.host.leaseLeft = some (ms * 25000)) ∧ Unchanged s t) ∧
    (∀ x, Taken false h 8 s → s.obj = { sessions := [x] } → s.host.long = [] →
      Serves (.closeSession h) h [] s fun t => t.obj = {} ∧ t.host.leaseLeft = none ∧ t.mem = s.mem ∧ t.power = s.power) ∧
    (∀ op n, Taken false h n s →
      ∃ t, exec (.unknownOpcode h op) s = .next t ∧ Answered h 1 0 [] s t ∧ HostFrame s t ∧ Unchanged s t)

/-- A taken `RESYNC` whose summary fits, none being in flight, writes it to the buffer in requests as large as the endpoint sends,
raises SNAPSHOT by one, and answers snapshot and size; with Bus Master Enable clear both wait for it. `ADOPT` of
the latest snapshot with every version offered takes the card's one session, held in READY or orphaned, back: the card is
READY, its lease runs. `RESET_WORK` with no stitch and one session that owns nothing leaves no object and no lease.
`AUDIT` of a balanced card, none being in flight, answers the number of its ledgers and 0 imbalances, and changes nothing. -/
def Obligations.RecoveryCommands : Prop :=
  ∀ (h : Hdr) (s : State), h.mbox < 32 →
    (∀ buffer size bs resp, Taken true h 24 s → 1 ≤ size → size ≤ 2 ^ 26 → size % 4096 = 0 → s.host.long = [] →
      bs = summary (s.host.snapshot + 1) s → bs.length ≤ size →
      resp = leBytes 8 (s.host.snapshot + 1) ++ leBytes 4 bs.length ++ leBytes 4 bs.length →
      ∃ t, exec (.resync h buffer size) s = .next t ∧ t.host.snapshot = s.host.snapshot + 1 ∧ Unchanged s t ∧
        (s.pcie.bme = true →
          Answered h 0 0 resp { s with out := s.out ++ linkMessages s.pcie (.hostWrite buffer bs true) } t) ∧
        (s.pcie.bme = false → Waits h t ∧ t.out = s.out ∧
          t.pcie.waiting = s.pcie.waiting ++ [.resync h (.hostWrite buffer bs true) resp])) ∧
    (∀ snapshot vs x, Taken true h 24 { s with host := { s.host with state := .ready } } →
      ((s.host.state = .ready ∧ x.held = true) ∨ s.host.state = .orphaned) → s.obj = { sessions := [x] } →
      snapshot = s.host.snapshot → snapshot ≠ 0 → versionsOk vs = true → vs.contains x.proto = true →
      s.host.causeEnable = 0 →
      ∃ t, exec (.adopt h snapshot 0 vs) s = .next t ∧ Answered h 0 0 [] s t ∧ t.host.state = .ready ∧
        t.host.leaseLeft.isSome = true ∧ ObjectsBecome { sessions := [{ x with held := false }] } s t) ∧
    (∀ x, Taken true h 8 s → s.obj = { sessions := [x] } → s.host.long = [] →
      ∃ t, exec (.resetWork h) s = .next t ∧ Answered h 0 0 [] s t ∧ t.obj = {} ∧ t.host.leaseLeft = none ∧
        t.host.ending = false ∧ t.host.state = .ready ∧ t.sec = s.sec ∧ t.time = s.time) ∧
    (Taken true h 8 s → imbalanced s = [] → s.host.long = [] →
      Serves (.audit h) h (leBytes 4 (ledgers s).length ++ leBytes 4 0) s (Unchanged s))

/-- A taken `POOL_CREATE` in range outside the pillows, with an INDEX below 64 free, adds a pool at the extent that placing finds and answers its handle and base.
`POOL_ALLOC` takes the lowest free buffer: in hub SRAM it answers reference and pointer at once, and only that buffer's bytes
become open; in DDR it waits for the tag rewrite it begins. `POOL_FREE` adds to or takes from a buffer's count, and
removes a pool with no buffer allocated. `POOL_STATS` answers the pool's register block. -/
def Obligations.PoolCommands : Prop :=
  ∀ (h : Hdr) (s : State), h.mbox < 32 →
    (∀ space lg flags count base, Taken false h 24 s → space ≠ 1 → poolFieldsOk space lg flags count 0 0 = true →
      s.obj.pools.length < 64 → (newHandle s 6).index < 64 → placeExtent s space (2 ^ lg) (count * 2 ^ lg) = some base →
      Serves (.poolCreate h space lg flags count 0 0) h (leBytes 4 (newHandle s 6).toNat ++ zeroBytes 4 ++ leBytes 8 base) s
        (ObjectsIssued
          { s.obj with pools := s.obj.pools ++ [
            { handle := newHandle s 6, session := h.session, space := space, bufLog2 := lg, arena := decide (flags = 1),
              count := count, stackMask := 0, base := base, regionOffset := 0, lowFree := count }] }
          (newHandle s 6) s)) ∧
    (∀ p, s.obj.pools = [p] → p.handle.type = 6 → p.session = h.session → p.arena = false →
      (Taken false h 8 s → firstFree p.bufs 0 < p.count →
        (p.space ≠ 2 →
          (let j := firstFree p.bufs 0
           Serves (.poolAlloc h p.handle) h (allocResponse p.handle 0 (p.buf j).gen (p.addrOf j)) s fun t =>
            t.obj = { s.obj with pools := [p.take j] } ∧ t.cores = s.cores ∧ t.ctr = s.ctr ∧
              ∀ a, (a < p.addrOf j ∨ p.addrOf j + p.bufBytes ≤ a) → memByte t a = memByte s a)) ∧
        (p.space = 2 → p.bufLog2 ≤ 22 →
          (let j := firstFree p.bufs 0
           ∃ t, exec (.poolAlloc h p.handle) s = .next t ∧ Waits h t ∧ HostFrame s t ∧ t.out = s.out ∧
            t.obj = { s.obj with pools := [p.take j] } ∧
            t.mem.tags =
              { first := p.addrOf j / 64, count := p.bufBytes / 64, pool := p.id, gen := (p.buf j).gen, pending := true
                owner := p.handle, buffer := j, waiter := some h } :: s.mem.tags))) ∧
      (∀ b j, Taken false h 24 s → b.pool = p.handle →
        (checkBuf p b true = .ok j →
          (let q := p.modBuf j fun x => { x with count := x.count + 1 }
           Serves (.poolFreeRef h b) h (leBytes 2 (q.buf j).count ++ leBytes 2 (q.buf j).gen) s
            (ObjectsBecome { s.obj with pools := [q] } s))) ∧
        (checkBuf p b false = .ok j →
          Serves (.poolFreeUnref h b) h (leBytes 2 ((p.unref j).buf j).count ++ leBytes 2 ((p.unref j).buf j).gen) s
            (ObjectsBecome { s.obj with pools := [p.unref j] } s))) ∧
      (Taken false h 24 s → p.inUse = false →
        ∃ resp, resp.length = 4 ∧ Serves (.poolFreeDestroy h p.handle) h resp s fun t => t.obj = { s.obj with pools := [] } ∧
          t.mem = s.mem) ∧
      (Taken false h 8 s → Serves (.poolStats h p.handle) h (poolBlock s p) s (Unchanged s)))

/-- A taken `PILLOW_PLAN` SET in range that meets no region, nor granules that one in flight names, adds it; CLEAR of a region that nothing uses removes it and leaves its
granules zero, all other memory as it was. `PARTITION_SET` CREATE that passes the checks of R480 adds the partition, MODIFY
changes its limits, REMOVE of an idle one without imbalance removes it. `CLIENT_SET` CREATE, MODIFY and REMOVE do so with a client,
`CLIENT_STATS` answers its block. -/
def Obligations.PlanPartitionsClients : Prop :=
  ∀ (h : Hdr) (s : State), h.mbox < 32 →
    (∀ kind mask g0 count, Taken false h 8 s → planFieldsOk kind mask g0 count = true → planInFlight s mask g0 count = false →
      ((s.obj.regions.any fun r => regionMeets r mask g0 count) = false →
        Serves (.pillowPlanSet h kind mask g0 count) h [] s
          (ObjectsBecome { s.obj with regions := s.obj.regions ++ [⟨kind, mask, g0, count, h.session⟩] } s)) ∧
      ∀ r, s.obj.regions = [r] → r.kind = kind → r.stackMask = mask → r.g0 = g0 → r.count = count → s.obj.partitions = [] →
        s.obj.pools = [] →
        Serves (.pillowPlanClear h kind mask g0 count) h [] s fun t => t.obj = { s.obj with regions := [] } ∧
          ∀ a, memByte t a =
            if (maskStacks mask).any (fun k => decide (pillowAt k (g0 * granuleBytes) ≤ a) &&
                decide (a < pillowAt k (g0 * granuleBytes) + count * granuleBytes)) then 0
            else memByte s a) ∧
    (∀ r, Taken false h 48 s → r.partition = 0 → partLimitsOk r = true → quadsOk r.quads = true →
      regionsOk s (partOf (newHandle s 11) h.session r) = true → partTaken s (partOf (newHandle s 11) h.session r) = false →
      Serves (.partitionSetCreate h r) h (leBytes 4 (newHandle s 11).toNat) s
        (ObjectsIssued { s.obj with partitions := s.obj.partitions ++ [partOf (newHandle s 11) h.session r] }
          (newHandle s 11) s)) ∧
    (∀ r p, Taken false h 48 s → s.obj.partitions = [p] → p.handle.type = 11 → p.session = h.session →
      r.partition = p.handle → s.host.long = [] →
      (partLimitsOk r = true → r.quads = p.quads → r.modelG0 = p.modelG0 → r.workG0 = p.workG0 →
        Serves (.partitionSetModify h r) h (leBytes 4 p.handle.toNat) s
          (ObjectsBecome { s.obj with partitions := [{ p with
            sliceMs := if r.sliceMs = 0 then 10 else r.sliceMs, beBoundMs := if r.beBoundMs = 0 then 5 else r.beBoundMs
            lcCapMs := if r.lcCapMs = 0 then 25 else r.lcCapMs
            timeoutMs := if r.timeoutMs = 0 then 1000 else r.timeoutMs }] } s)) ∧
      (s.obj.stitches = [] → p.posted = p.completed + p.cancelled →
        Serves (.partitionSetRemove h r) h (leBytes 4 p.handle.toNat) s
          (ObjectsBecome { s.obj with partitions := [] } s))) ∧
    (∀ classes weight, 1 ≤ classes → classes ≤ 3 → 1 ≤ weight → weight ≤ 16 →
      (Taken false h 16 s → s.obj.clients.length < 256 →
        Serves (.clientSetCreate h classes weight) h (leBytes 4 (newHandle s 7).toNat) s
          (ObjectsIssued { s.obj with clients := s.obj.clients ++ [
            { handle := newHandle s 7, session := h.session, classes := classes, weight := weight }] } (newHandle s 7) s)) ∧
      ∀ c, s.obj.clients = [c] → c.handle.type = 7 → c.session = h.session →
        (Taken false h 16 s →
          Serves (.clientSetModify h c.handle classes weight) h (leBytes 4 c.handle.toNat) s
            (ObjectsBecome { s.obj with clients := [{ c with classes := classes, weight := weight }] } s) ∧
          (s.obj.stitches = [] → s.obj.partitions = [] →
            Serves (.clientSetRemove h c.handle) h (leBytes 4 c.handle.toNat) s
              (ObjectsBecome { s.obj with clients := [] } s))) ∧
        (Taken false h 8 s → Serves (.clientStats h c.handle) h (clientBlock c (debtSum s c.handle)) s (Unchanged s)))

/-- A taken `MODEL_LOAD` in order whose image has not come waits with its reads begun. `MODEL_UNLOAD` of a model that no partition pins and no
stitch names removes it. `MODEL_PIN` joins its partition's queue and waits; a pin that clears the mark takes effect on an
idle partition and is answered. `STITCH_POST` that passes every check of R486 without joins queues one stitch with the
identity it answers, and `STITCH_CANCEL` of a queued stitch takes it away. -/
def Obligations.ModelsAndPosts : Prop :=
  ∀ (h : Hdr) (s : State), h.mbox < 32 →
    (∀ entries total, Taken false h (0x10 + 16 * entries.length) s → 1 ≤ entries.length → entries.length ≤ 250 →
      (∀ e, e ∈ entries → 1 ≤ e.2 ∧ e.2 ≤ 2 ^ 31) → s.obj.models.length < 256 →
      ∃ t, exec (.modelLoad h entries total none) s = .next t ∧ Waits h t ∧ Unchanged s t ∧
        t.host.long = s.host.long ++ [.modelLoad h entries total (List.replicate (requestsOf s entries).length none)]) ∧
    (∀ m, s.obj.models = [m] → m.handle.type = 3 → m.session = h.session → s.host.long = [] →
      (Taken false h 8 s → s.obj.partitions = [] → s.obj.stitches = [] →
        Serves (.modelUnload h m.handle) h [] s (ObjectsBecome { s.obj with models := [] } s)) ∧
      ∀ p (set : Bool), Taken false h 16 s → s.obj.partitions = [p] → p.handle.type = 11 → p.session = h.session →
        ∃ t, exec (if set then .modelPinSet h m.handle p.handle else .modelPinClear h m.handle p.handle) s = .next t ∧
          Waits h t ∧ t.host.long = [.modelPin h m.handle p.handle set] ∧
          ObjectsBecome { s.obj with partitions := [{ p with pins := p.pins ++ [(h, m.handle)] }] } s t) ∧
    (∀ p m rest, s.canonical = true → s.pair.mode = 0 → s.obj.partitions = [p] → p.running = none →
      p.pins = (h, m) :: rest → s.host.long = [.modelPin h m p.handle false] → (s.mbox h.mbox).seq = h.seq →
      ∃ t, exec (.modelPinApply p.handle) s = .next t ∧ Answered h 0 0 [] s t ∧ t.host.long = [] ∧
        ObjectsBecome { s.obj with partitions := [markPin { p with pins := rest } m false] } s t) ∧
    (∀ r p q m c, Taken false h r.size s → r.joins = [] → postHandles s h.session r = none →
      findPart s r.partition = some p → findModel s r.model = some m → findClient s r.client = some c →
      p.suspended = false → postFieldsOk s p m r = true → postLimits s p m c r = (none, none) → bobbinChecks s r = none →
      withPlaces s p m = some q →
      Serves (.stitchPost h r) h (leBytes 8 s.ctr.stitchId) s fun t =>
        t = { s with
          host := t.host, pcie := t.pcie, out := t.out
          ctr := { s.ctr with stitchId := s.ctr.stitchId + 1, posted := s.ctr.posted + 1 }
          obj := { s.obj with
            partitions := upsert (fun (y : Partition) => y.handle) { q with posted := q.posted + 1 } s.obj.partitions
            stitches := s.obj.stitches ++ [
              { id := s.ctr.stitchId, session := h.session, req := r, joinHandles := [], postTick := s.time.tick }] } }) ∧
    (∀ x p, Taken false h 16 s → s.obj.stitches = [x] → x.phase = .queued → x.session = h.session → x.joinHandles = [] →
      s.obj.partitions = [p] → p.handle = x.req.partition → s.obj.pageSets = [] → s.host.causeEnable = 0 →
      x.req.flags % 2 = 0 → s.pair.failover = none →
      ∃ t, exec (.stitchCancel h x.wire) s = .next t ∧ Answered h 0 0 [] s t ∧ t.obj.stitches = [] ∧ t.mem = s.mem ∧
        t.cores = s.cores)

/-- With clean memory: a taken `BOBBIN_CREATE` without a prefix takes the lowest run that fits and answers the handle, a DDR run
being under its tag rewrite. `BOBBIN_RELEASE` of
a bobbin that nothing names returns its run. `PREFIX_CREATE` of a committed, unlinked bobbin retires its handle and answers
a prefix handle with one reference. `PREFIX_FORK` begins a copy, and a link's copy ends with the bobbin out of preparation. -/
def Obligations.BobbinCommands : Prop :=
  ∀ (h : Hdr) (s : State), h.mbox < 32 → CleanMemory s →
    (∀ layout model maxPos p b g, Taken false h 24 s → s.obj.bobbins = [] → s.obj.pools = [p] →
      checkCreate s h.session layout model p.handle maxPos 0 (newHandle s 4) = .ok b →
      firstRun p.bufs (b.layout.run b.maxPos) p.count 0 = some g →
      Serves (.bobbinCreate h layout model p.handle maxPos 0) h (leBytes 4 (newHandle s 4).toNat) s fun t =>
        (let n := b.layout.run b.maxPos
         t.obj = { s.obj with
          pools := [p.takeRun g n]
          bobbins := [{ b with
            g0 := g, granules := n, gen := p.maxGen g n, rewriting := decide (p.space = 2), copying := 0, posted := false }] }) ∧
        t.cores = s.cores ∧ t.time = s.time ∧ t.ctr = { s.ctr with links := t.ctr.links }) ∧
    (∀ b p, s.obj.bobbins = [b] → b.isPrefix = false → b.handle.type = 4 → b.session = h.session →
      s.obj.pools = [p] → p.handle = b.arena → s.obj.stitches = [] →
      (Taken false h 8 s → b.preparing = false →
        Serves (.bobbinRelease h b.handle) h [] s
          (ObjectsBecome { s.obj with bobbins := [], pools := [p.releaseRun b.g0 b.granules] } s)) ∧
      (Taken false h 8 s → b.link = none → b.pos ≠ 0 →
        Serves (.prefixCreate h b.handle) h (leBytes 4 (newHandle s 5).toNat) s fun t =>
          t.obj = { s.obj with
            bobbins := [{ b with handle := newHandle s 5, isPrefix := true, hostRef := true }]
            pools := [p.modBuf b.g0 fun x => { x with count := 1 }] } ∧ t.cores = s.cores ∧
            t.ctr = { s.ctr with links := t.ctr.links }) ∧
      ∀ q, Taken false h 16 s → b.link.isSome = true → q ≤ b.linkLen → b.preparing = false →
        Serves (.prefixFork h b.handle q) h [] s
          (ObjectsBecome { s.obj with bobbins := [{ b with copying := 2, forkPos := q }] } s)) ∧
    (∀ b q, s.obj.bobbins = [b, q] → b.handle ≠ q.handle → b.link = some q.handle → b.rewriting = false → b.copying = 1 →
      ∃ t, exec (.prefixCopyComplete b.handle) s = .next t ∧
        t = { s with obj := t.obj, mem := t.mem, fresh := t.fresh, ctr := { s.ctr with links := t.ctr.links } } ∧
        t.obj = { s.obj with bobbins := [{ b with copying := 0 }, q] })

/-- A taken `PAGES_POST` creates the first completion set with the addresses given, or adds to a set the addresses it does not hold, and answers
handle and pages held. `PICOT_ROUTE` DEST_SET adds a page destination, DEST_REMOVE drops one without routes and counts what it
buffered as dropped, STREAM_SET routes HEALTH, STATS answers the destination's block. -/
def Obligations.PagesAndRoutes : Prop :=
  ∀ (h : Hdr) (s : State), h.mbox < 32 → s.obj.heldRecs = [] → s.host.events = [] →
    (∀ vector addrs, Taken false h (roundUp 8 (16 + 8 * addrs.length)) s → s.obj.pageSets = [] → s.obj.dests = [] →
      vector < 256 → pageAddrsOk addrs = true → dedup addrs = addrs →
      Serves (.pagesPostCreate h 1 vector addrs) h (leBytes 4 (newHandle s 8).toNat ++ leBytes 4 addrs.length) s
        (ObjectsIssued { s.obj with pageSets := [
          { handle := newHandle s 8, session := h.session, kind := 1, vector := vector, posted := addrs
            postedCount := addrs.length }] } (newHandle s 8) s)) ∧
    (∀ p addrs new, Taken false h (roundUp 8 (16 + 8 * addrs.length)) s → s.obj.pageSets = [p] → s.obj.dests = [] →
      p.handle.type = 8 → p.session = h.session → p.kind ≠ 2 → pageAddrsOk addrs = true →
      new = (dedup addrs).filter (fun a => !p.posted.contains a && !p.undone.contains a) →
      p.posted.length + p.undone.length + new.length ≤ 4096 →
      Serves (.pagesPostAdd h p.handle addrs) h
        (leBytes 4 p.handle.toNat ++ leBytes 4 (p.posted.length + new.length + p.undone.length)) s
        (ObjectsBecome { s.obj with pageSets := [{ p with
          posted := p.posted ++ new, postedCount := p.postedCount + new.length
          sent := p.sent.filter fun x => !new.contains x.addr }] } s)) ∧
    (Taken false h 80 s →
      (∀ r ps, s.obj.pageSets = [ps] → ps.kind = 2 → ps.handle.type = 8 → ps.session = h.session → s.obj.dests = [] →
        r.kind = 1 → r.pageSet = ps.handle → r.dest < 32 → (r.flushUs = 0 ∨ (10 ≤ r.flushUs ∧ r.flushUs ≤ 10000)) →
        Serves (.picotRouteDestSet h r) h [] s
          (ObjectsBecome { s.obj with dests := [{ id := r.dest, session := h.session, req := r }] } s)) ∧
      ∀ d, s.obj.dests = [d] → d.session = h.session → d.id < 32 →
        (s.obj.routes = [] → d.fill = 0 → d.sent = [] → (destLedger d).balanced = true →
          Serves (.picotRouteDestRemove h d.id) h [] s fun t =>
            t = { s with
              host := t.host, pcie := t.pcie, out := t.out, obj := { s.obj with dests := [] }
              ctr := { s.ctr with dropped := listAdd s.ctr.dropped 4 d.buffered } }) ∧
        (∀ r, r.stream = 0 → r.dest = d.id → r.orderMask < 256 → 100 ≤ r.healthMs → r.healthMs ≤ 60000 →
          s.obj.routes = [] → s.obj.heldPicots = [] →
          Serves (.picotRouteStreamSet h r) h [] s
            (ObjectsBecome { s.obj with routes := [⟨0, d.id, r.orderMask, r.healthMs⟩] } s)) ∧
        Serves (.picotRouteStats h d.id) h (destBlock d) s (Unchanged s))

/-- A taken `TIME_STEP` in FREE_RUN under the host servo moves the clock by its offset, counts the step and leaves LOCKED. `TIME_RATE` sets the
rate and returns HOLDOVER to LOCKED. `TIME_UNIT_CLAIM` of a free unit, or of the lowest free one, gives it its function and start, an output its first edge at least one tick
ahead, and answers its handle; `TIME_UNIT_RELEASE` frees it. Nothing else of the clock changes. -/
def Obligations.TimeCommands : Prop :=
  ∀ (h : Hdr) (s : State), h.mbox < 32 → servedByHost s →
    (∀ sec ns : Int, Taken false h 24 s → s.time.sync = 0 → s.obj.flows = [] → -(2 ^ 47) ≤ sec → sec ≤ 2 ^ 47 →
      -999999999 ≤ ns → ns ≤ 999999999 → (0 < sec → 0 ≤ ns) → (sec < 0 → ns ≤ 0) →
      stepFits s (sec * 1000000000 + ns) = true →
      Serves (.timeStep h sec ns) h [] s fun t =>
        t = { s with host := t.host, pcie := t.pcie, out := t.out, time := t.time } ∧
          (t.now.toNs : Int) = s.now.toNs + sec * 1000000000 + ns ∧ t.time.ns < 1000000000 ∧
          t.time = { s.time with
            sec := t.time.sec, ns := t.time.ns, sync := 1, steps := s.time.steps + 1, units := t.time.units }) ∧
    (∀ rate : Int, Taken false h 16 s → -65536000000 ≤ rate → rate ≤ 65536000000 →
      Serves (.timeRate h rate) h [] s fun t => t = { s with
        host := t.host, pcie := t.pcie, out := t.out
        time := { s.time with rate := rate, sync := if s.time.sync = 2 then 1 else s.time.sync } }) ∧
    (∀ unit function connector period start u, Taken false h 24 s → claimFieldsOk unit function connector period start = true →
      claimUnit s unit = some u → (connector = 1 → connectorClaimed s = false) →
      Serves (.timeUnitClaim h unit function connector period start) h (leBytes 4 (fixedHandle s 9 u).toNat) s fun t =>
        t = { s with host := t.host, pcie := t.pcie, out := t.out, time := t.time, obj := t.obj, gens := t.gens } ∧
          t.time = { s.time with units := t.time.units } ∧ (∀ v, v ≠ u → t.tu v = s.tu v) ∧
          t.tu u = { claimed := true, function := function, connector := decide (connector = 1), period := period, start := start
                     next := if function = 1 ∨ function = 4 then
                         edgeFrom start.toNs (if function = 1 then 1000000000 else period)
                           (s.now.toNs + 40 + if s.time.frac = 0 then 0 else 1)
                       else {} } ∧
          t.obj = { s.obj with units := s.obj.units ++ [
            ⟨fixedHandle s 9 u, h.session, u, function, decide (connector = 1), period, start⟩] }) ∧
    (∀ x, Taken false h 8 s → s.obj.units = [x] → x.handle.type = 9 → x.session = h.session →
      Serves (.timeUnitRelease h x.handle) h [] s fun t =>
        t = { s with host := t.host, pcie := t.pcie, out := t.out, time := t.time, board := t.board, obj := t.obj } ∧
          (t.tu x.unit).claimed = false ∧ (∀ v, v ≠ x.unit → t.tu v = s.tu v) ∧ t.obj = { s.obj with units := [] } ∧
          (t.tu x.unit).events = (s.tu x.unit).events)

/-- A taken `POWER_CAP` in range sets the cap and answers the cap in force and the step. `POWER_STATE` NAP of a READY card without stream or
stitch stops the PLLs and puts DDR into self-refresh; READY sets PLL_IDLE_US. `LOG_CONFIG` sets the levels and answers the write
index; `TRACE_SET` sets, clears or replaces mask bits and answers the mask. `MEASUREMENTS` answers its records. `PAIR_JOIN` over
a usable, authenticated bride waits for the partner; `PAIR_EVACUATE` of a healthy pair with nothing to mirror starts evacuation; `PAIR_STATUS` answers. -/
def Obligations.ControlCommands : Prop :=
  ∀ (h : Hdr) (s : State), h.mbox < 32 →
    (Taken false h 8 s →
      (∀ w, 300 ≤ w → w ≤ 600 → w % 25 = 0 →
        Serves (.powerCap h w) h (leBytes 2 (min w ((s.power.advertised + 75) / 25 * 25)) ++ leBytes 2 s.power.step) s fun t =>
          t = { s with host := t.host, pcie := t.pcie, out := t.out, power := { s.power with capSet := w } }) ∧
      (∀ us, (us = 0 ∨ (10 ≤ us ∧ us ≤ 1000000)) →
        (s.power.state = 1 → s.obj.streams = [] → s.obj.stitches = [] →
          Serves (.powerStateNap h us) h [] s fun t =>
            t = { s with host := t.host, pcie := t.pcie, out := t.out, power := t.power, mem := t.mem } ∧
              t.power = { s.power with
                pllIdleUs := if us = 0 then s.power.pllIdleUs else us, state := 3, pll := false
                vdd := [600, 600, 600, 600] } ∧
              ∀ c, c < 4 → t.ddr c = { s.ddr c with selfRefresh := true }) ∧
        Serves (.powerStateReady h us) h [] s fun t => t = { s with
          host := t.host, pcie := t.pcie, out := t.out
          power := { s.power with pllIdleUs := if us = 0 then s.power.pllIdleUs else us } }) ∧
      (∀ a b c d, a ≤ 7 → b ≤ 7 → c ≤ 7 → d ≤ 7 →
        Serves (.logConfig h [a, b, c, d]) h (leBytes 8 s.fw.logIndex) s fun t => t = { s with
          host := t.host, pcie := t.pcie, out := t.out, fw := { s.fw with levels := [a, b, c, d] } }) ∧
      (∀ first count, 1 ≤ count → count ≤ 80 →
        (let part := (((List.range (measurementList s).length).zip (measurementList s)).drop first).take count
         Serves (.measurements h first count) h
          (leBytes 2 (measurementList s).length ++ leBytes 2 part.length ++ zeroBytes 4 ++
            (part.map fun x => measurementRecord x.1 x.2).flatten) s (Unchanged s))) ∧
      Serves (.pairStatus h) h (pairStatus s) s (Unchanged s) ∧
      (∀ mode role, 1 ≤ mode → mode ≤ 2 → role ≤ 2 → 4 ≤ s.pair.lanes → s.pair.authenticated = true →
        s.pair.partnerJoin = none → s.host.long = [] →
        ∃ t, exec (.pairJoin h mode role) s = .next t ∧ Waits h t ∧ t.host.long = [.pairJoin h mode role] ∧
          t.pair = { s.pair with ownJoin := some (mode, role, s.time.tick) } ∧ t.obj = s.obj ∧
          t.out = s.out ++ [.bride (.join mode role Config.serial.toNat)])) ∧
    (∀ m, Taken false h 40 s →
      (∀ i v, ((i = .traceSetEnable h m ∧ v = s.fw.trace ||| m) ∨ (i = .traceSetDisable h m ∧ v = s.fw.trace &&& ~~~m) ∨
          (i = .traceSetReplace h m ∧ v = m)) →
        Serves i h (leBytes 32 v.toNat) s fun t => t = { s with
          host := t.host, pcie := t.pcie, out := t.out, fw := { s.fw with trace := v } })) ∧
    (Taken false h 8 { s with pair := { s.pair with mode := 0 } } → s.pair.mode ≠ 0 → s.pair.inSync = true →
      s.host.long = [] → Objects.diff s.pair.mirrored s.obj = [] →
      ∃ t, exec (.pairEvacuate h) s = .next t ∧ Waits h t ∧ t.host.long = [.pairEvacuate h] ∧
        t.pair = { s.pair with evacuating := true } ∧ t.obj = s.obj ∧ t.out = s.out)
namespace Sys2Proof.Claims

/-- The membership of a flow whose entry sets JOIN. -/
def groupsOf (q : FlowReq) (h : Handle) : List Group :=
  if q.flags.testBit 1 then [⟨q.port, q.vlan, q.dstAddr, q.srcAddr, h⟩] else []

/-- The report of a group that is joined or left (R392). -/
def reportOf (q : FlowReq) (leave : Bool) : OutMsg := .frame q.port q.vlan (.groupReport q.dstAddr q.srcAddr leave)

/-- The command runs, sends messages, answers ST_OK with a response, and leaves a state of which `f` holds. -/
def Sends (c : Instr) (h : Hdr) (resp : List Byte) (ms : List OutMsg) (s : State) (f : State → Prop) : Prop :=
  ∃ t, exec c s = .next t ∧ Answered h 0 0 resp { s with out := s.out ++ ms } t ∧ HostFrame s t ∧ f t

/-- Beside the mailbox, the lease and the link, objects have changed, buffers have been taken from their pools (whose bytes
and tags are then open), and a handle has been issued. -/
def Opened (hd : Handle) (s t : State) : Prop :=
  t = { s with
    host := t.host, pcie := t.pcie, out := t.out, obj := t.obj, mem := t.mem, fresh := t.fresh, gens := (issued hd s).gens } ∧
    t.obj = { s.obj with streams := t.obj.streams, pools := t.obj.pools } ∧
    t.mem = { s.mem with cells := t.mem.cells, lost := t.mem.lost, tags := t.mem.tags, latent := t.mem.latent }

/-- A stream that no picture, item, job, held picot, flow, route or stitch uses, and whose ledgers balance. -/
structure Quiet (x : Stream) (s : State) : Prop where
  only : s.obj.streams = [x]
  none_ : s.obj.flows = [] ∧ s.obj.items = [] ∧ s.obj.jobs = [] ∧ s.obj.heldPicots = [] ∧ s.obj.routes = [] ∧
    s.obj.stitches = []
  ready : x.preparing = 0 ∧ x.pics = [] ∧ x.enc = none
  ledgers : (streamLedgers x).all (·.balanced) = true

end Sys2Proof.Claims

/-- A taken `STREAM_OPEN` in order adds a stream with its declaration, its outputs, DPB_DEPTH + 1 reference slots and OUT_BUFS output
buffers from its pool, and answers its handle; `ENCODE_OPEN` adds an encode stream with four raw buffers (two for JPEG).
`STREAM_CLOSE` of a stream that nothing uses leaves no stream; `STREAM_QUERY` answers its block; `KEY_PICTURE` requests a key
picture of an encode stream that began none in this tick (nothing more where the picture begun is a key picture), or one more
thumbnail of a JPEG stream without a step; `EYELET_POLICY` sets the policy of an EYELETS output. Nothing else changes. -/
def Obligations.StreamCommands : Prop :=
  ∀ (h : Hdr) (s : State), h.mbox < 32 → s.host.long = [] →
    (∀ d outs p, Taken false h (64 + 64 * outs.length) s → d.fieldsOk = true → findPool s d.pool = some p → p.space = 2 →
      firstStatus (checkPool s d.pool h.session :: outs.map fun o => checkPool s o.pool h.session) = none →
      p.arena = false → max d.outBytes d.refBytes ≤ p.bufBytes → s.obj.streams.length < 1024 →
      d.dpbDepth + 1 + d.outBufs ≤ p.free → outs.length ≤ 8 →
      privateFits s (262144 + if d.source = 2 then max 4194304 (d.bitRate / 4) else 0) = true →
      (outs.all fun o => o.fieldsOk && outputFits s o (outs.any fun q => decide (q.kind = 3))) = true →
      Serves (.streamOpen h d outs) h (leBytes 4 (newHandle s 2).toNat) s fun t => Opened (newHandle s 2) s t ∧
        ∃ x : Stream, t.obj.streams = s.obj.streams ++ [x] ∧ x.handle = newHandle s 2 ∧ x.session = h.session ∧ x.decl = d ∧
          x.outputs = outs.map (fun o => { desc := o }) ∧ x.refSlots.length = d.dpbDepth + 1 ∧
          x.outBufs.length = d.outBufs ∧ x.preparing = d.dpbDepth + 1 + d.outBufs ∧ x.parse = .waitRap ∧ x.pics = []) ∧
    (∀ d x p, Taken false h 40 s → findStream s d.source = some x → findPool s d.pool = some p →
      d.source.type = 2 → x.session = h.session → checkPool s d.pool h.session = none → d.fieldsOk x.decl.bitDepth = true →
      p.space = 2 → p.arena = false → x.enc = none → s.obj.streams.length < 1024 →
      (if d.codec = 5 then 2 else 4) ≤ p.free → d.rawBytes ≤ p.bufBytes →
      Serves (.encodeOpen h d) h (leBytes 4 (newHandle s 2).toNat) s fun t => Opened (newHandle s 2) s t ∧
        ∃ (y : Stream) (e : EncodeState), t.obj.streams = s.obj.streams ++ [y] ∧ y.handle = newHandle s 2 ∧
          y.session = h.session ∧ y.enc = some e ∧ e.decl = d ∧ e.bufs.length = (if d.codec = 5 then 2 else 4) ∧
          e.pics = [] ∧ e.working = []) ∧
    ∀ x, s.obj.streams = [x] → x.handle.type = 2 → x.session = h.session →
      (Taken false h 8 s →
        (Quiet x s → Serves (.streamClose h x.handle) h [] s fun t =>
          ObjectsBecome { s.obj with streams := [], pools := t.obj.pools } s t) ∧
        Serves (.streamQuery h x.handle) h (queryBlock x) s (Unchanged s) ∧
        ∀ e, x.enc = some e →
          ((e.decl.codec ≠ 5 ∨ e.decl.pictureStep ≠ 0) → (∀ w, w ∈ e.working → w.tick ≠ s.time.tick) →
            Serves (.keyPicture h x.handle) h [] s fun t => t = { s with
              host := t.host, pcie := t.pcie, out := t.out, video := { s.video with encodePeak := t.video.encodePeak }
              obj := { s.obj with streams := [{ x with enc := some { e with keyRequested := true } }] } }) ∧
          (∀ w l, (e.decl.codec ≠ 5 ∨ e.decl.pictureStep ≠ 0) → e.working = w :: l → w.tick = s.time.tick → w.key = true →
            Serves (.keyPicture h x.handle) h [] s fun t => t = { s with
              host := t.host, pcie := t.pcie, out := t.out
              video := { s.video with encodePeak := t.video.encodePeak } }) ∧
          (e.decl.codec = 5 → e.decl.pictureStep = 0 → e.thumbs < 16 →
            Serves (.keyPicture h x.handle) h [] s
              (ObjectsBecome { s.obj with streams := [{ x with enc := some { e with thumbs := e.thumbs + 1 } }] } s))) ∧
      ∀ n o fit maxAge marginPct, Taken false h 16 s → x.outputs[n]? = some o → o.desc.kind = 3 → fit ≤ 1 → maxAge ≤ 255 →
        marginPct ≤ 100 →
        Serves (.eyeletPolicy h x.handle n fit maxAge marginPct) h [] s
          (ObjectsBecome { s.obj with streams := [{ x with
            outputs := x.outputs.set n { o with marginPct := marginPct, fit := fit, maxAge := maxAge } }] } s)

/-- A taken `FLOW_SET` ADD puts an entry with its jitter buffer into an empty table; MODIFY changes PT, FLAGS, JITTER_MS and TS_PROGRAM
alone; REMOVE of an entry that holds nothing frees it, and answers ST_BAD_VALUE for a field out of range (the fields that it does
not use are 0 or in range: DEDUCED, assumption 131). An entry with JOIN is a member of its group, which is reported as it joins or
leaves (at once by a MODIFY too: DESIGN CHOICE, assumption 172). ADDR_ADD and ADDR_REMOVE add and remove a card address. A taken `STREAM_FEED` that finds
no room waits, and after 1,000 ms answers ST_TIMEOUT; one that finds room with no data yet starts its host reads. -/
def Obligations.FlowCommands : Prop :=
  ∀ (h : Hdr) (s : State), h.mbox < 32 → s.host.long = [] →
    (∀ q : FlowReq, Taken false h 80 s →
      (∀ x, flowFieldsOk q = true → findStream s q.stream = some x → x.session = h.session → q.stream.type = 2 → q.flow = 0 →
        x.enc = none → x.decl.source = 1 → (q.encap = 1 → q.payload = x.decl.codec) → s.obj.flows = [] →
        privateFits s (jitterBytes x.decl.bitRate q.jitterMs) = true →
        Sends (.flowSetAdd h q) h (leBytes 4 (newHandle s 10).toNat) (if q.flags.testBit 1 then [reportOf q false] else []) s
          (ObjectsIssued { s.obj with
            groups := s.obj.groups ++ groupsOf q (newHandle s 10)
            flows := [
              { handle := newHandle s 10, session := h.session, req := q
                bufBytes := jitterBytes x.decl.bitRate q.jitterMs }] } (newHandle s 10) s)) ∧
      (∀ f, s.obj.flows = [f] → f.handle = q.flow → q.flow.type = 10 → f.session = h.session → q.stream = 0 →
        s.obj.groups = groupsOf f.req f.handle →
        (let new := { f.req with pt := q.pt, flags := q.flags, jitterMs := q.jitterMs, tsProgram := q.tsProgram }
         flowFieldsOk q = true → { q with stream := f.req.stream, flow := f.req.flow } = new →
          Sends (.flowSetModify h q) h []
            (if f.req.flags.testBit 1 = q.flags.testBit 1 then [] else [reportOf new (f.req.flags.testBit 1)]) s
            (ObjectsBecome { s.obj with flows := [{ f with req := new }], groups := groupsOf new f.handle } s)) ∧
        (unusedFieldsOk ((findStream s f.req.stream).map (·.decl.codec)) q = true → f.held = [] → f.outbox = [] → f.open_ = none →
          Sends (.flowSetRemove h q) h [] (if f.req.flags.testBit 1 then [reportOf f.req true] else []) s
            (ObjectsBecome { s.obj with flows := [], groups := [] } s)) ∧
        (unusedFieldsOk ((findStream s f.req.stream).map (·.decl.codec)) q = false →
          ∃ t, exec (.flowSetRemove h q) s = .next t ∧ Answered h 2 0 [] s t ∧ HostFrame s t ∧ Unchanged s t)) ∧
      (addrFieldsOk q = true →
        (s.obj.addrs = [] →
          Serves (.flowSetAddrAdd h q) h [] s (ObjectsBecome { s.obj with addrs := [⟨q.port, q.vlan, q.dstAddr⟩] } s)) ∧
        (s.obj.addrs = [⟨q.port, q.vlan, q.dstAddr⟩] → s.obj.dests = [] → ptpEnabled s = false →
          Serves (.flowSetAddrRemove h q) h [] s (ObjectsBecome { s.obj with addrs := [] } s)))) ∧
    ∀ f x data units, s.obj.streams = [x] → x.handle = f.stream → f.stream.type = 2 → x.session = h.session →
      feedFieldsOk f = true → (x.container = none ∨ x.container = some f.container) → x.enc = none → x.decl.source = 2 →
      f.total ≤ x.feedBytes → Taken false h (roundUp 8 (48 + 16 * f.entries.length)) s →
      (x.feedBytes < x.feedUsed + f.total → s.pending = [] → s.due = [] →
        ∃ t, exec (.streamFeed h f data units) s = .next t ∧ Waits h t ∧ t.obj = s.obj ∧ t.out = s.out ∧
          t.host.long = [.streamFeed h f data units false [] []] ∧
          ∃ u, exec (.streamFeedTimeout f.stream) t = .next u ∧ Answered h 14 0 [] t u ∧
            u.host.long = [] ∧ u.obj = s.obj) ∧
      (x.feedUsed + f.total ≤ x.feedBytes → s.pcie.bme = true → s.pcie.reads = [] → s.pcie.queued = [] →
        (requestsOf s f.entries).length ≤ (tagSpace s.pcie).2 →
        ∃ t, exec (.streamFeed h f none units) s = .next t ∧ Waits h t ∧ t.obj = s.obj ∧
          t.host.long = [.streamFeed h f none units true (List.replicate (requestsOf s f.entries).length none)
            (List.replicate (requestsOf s f.entries).length {})] ∧
          t.pcie.reads.map (fun r => (r.addr, r.length)) = requestsOf s f.entries ∧
          t.pcie.issued = s.pcie.issued + (requestsOf s f.entries).length)
namespace Sys2Proof.Claims

/-- Partition `p` alone, on a card in no pair with clean memory, with one stitch `t` of model `m` that names no slot and no bobbin. -/
structure Sole (p : Partition) (t : Stitch) (m : Model) (s : State) : Prop where
  canonical : s.canonical = true
  clean : CleanMemory s
  part : s.obj.partitions = [p] ∧ p.running = some t.id
  stitch : s.obj.stitches = [t] ∧ t.req.partition = p.handle ∧ t.replayed = false
  model : s.obj.models = [m] ∧ m.handle = t.req.model ∧ m.lens = []
  names : t.req.slots = [] ∧ t.req.leaves = [] ∧ t.joinHandles = [] ∧ s.obj.bobbins = [] ∧ t.items = []
  alone : s.pair.mode = 0 ∧ s.pair.failover = none

/-- The start steps of R239 are done: stitch `t` waits for cycle 0 with its length registers 0, and each core of `p` stands at
the first bundle of its role with the generator state and stores of its start. No other core has changed. -/
def Started (p : Partition) (t : Stitch) (m : Model) (s u : State) : Prop :=
  u = { s with obj := u.obj, ctr := u.ctr, cores := u.cores, mem := u.mem, fresh := u.fresh } ∧
    u.obj.stitches = [{ t with lens := List.replicate 16 0, phase := .starting }] ∧
    (∀ i n, p.cores[i]? = some n → u.core n = (s.core n).fresh (entryBundle m t.req.entry (roleOf m i))
      (rngSeed t.req.seed i) (m.handle, roleOf m i)) ∧
    ∀ n, n ∉ p.cores → u.core n = s.core n

end Sys2Proof.Claims

/-- With no arrival waiting, a dispatch decision selects the one eligible stitch of an idle partition. Slot binding of a stitch without slots starts it
at once when its model is resident, and begins a residency copy otherwise; the end of the copy starts it. The implicit knot
takes the stitch to cycle 0 with every core of the partition running, its cycles being counted, and the PLLs on, no other core changing. A stitch
timeout stops the cores, writes a record of status ST_TIMEOUT with the cause, and is a contained fault. -/
def Obligations.StitchLife : Prop :=
  ∀ (p : Partition) (t : Stitch) (m : Model) (s : State),
    (s.pending = [] → s.due = [] → s.obj.partitions = [p] → s.obj.stitches = [t] → t.req.partition = p.handle → p.running = none → p.pins = [] →
      p.suspended = false → p.holder = none → dispatchStopped s = false → (s.cc 0).run = 1 → t.phase = .queued →
      t.req.cls = 0 → isEligible s t = true → t.req.leaves = [] → t.joinHandles = [] →
      ∃ u, exec (.dispatchDecision p.handle) s = .next u ∧ u = { s with
        obj := { s.obj with
          partitions := [{ p with running := some t.id }], stitches := [{ t with phase := .joining, selTick := s.time.tick }] }
        power := { s.power with state := if s.power.state = 1 then 2 else s.power.state } }) ∧
    (Sole p t m s →
      (t.phase = .joining → t.pinned = [] → t.frames = [] →
        ((p.residents.any fun r => decide (r.model = m.handle)) = true →
          ∃ u, exec (.stitchSlotBind p.handle) s = .next u ∧ Started p t m s u ∧
            u.ctr = { s.ctr with order := s.ctr.order + 1, links := u.ctr.links } ∧
            u.obj.partitions = [{ p with residents := p.residents.map fun r =>
              if r.model = m.handle then { r with lastStart := some s.ctr.order } else r }]) ∧
        (∀ q, (p.residents.all fun r => !decide (r.model = m.handle)) = true → m.granules ≠ 0 →
          makeResident p m false s = some q →
          ∃ u, exec (.stitchSlotBind p.handle) s = .next u ∧
            u = { s with obj := u.obj, ctr := { s.ctr with order := s.ctr.order + 2 } } ∧
            u.obj = { s.obj with
              stitches := [{ t with phase := .copying, copyTick := s.time.tick }]
              partitions := [{ q with residents := q.residents.map fun r =>
                if r.model = m.handle then { r with lastStart := some (s.ctr.order + 1) } else r }] })) ∧
      (t.phase = .copying →
        ∃ u, exec (.modelResidencyCopyDone p.handle) s = .next u ∧
          Started p { t with residencyNs := (s.time.tick - t.copyTick) * 40 } m s u ∧
          u.ctr = { s.ctr with links := u.ctr.links } ∧ u.obj.partitions = s.obj.partitions) ∧
      (t.phase = .starting →
        ∃ u, exec (.stitchCycleZero p.handle) s = .next u ∧
          u = { s with obj := u.obj, cores := u.cores, power := { s.power with pll := true } } ∧
          u.obj = { s.obj with stitches := [{ t with
            phase := .running, zeroTick := s.time.tick, cycle0 := s.now
            waitUs := (s.time.tick - t.postTick) * 40 / 1000, stepMax := max t.stepMax s.power.step }] } ∧
          (∀ n, n ∈ p.cores → u.core n = { s.core n with run := 1, counting := true }) ∧ ∀ n, n ∉ p.cores → u.core n = s.core n) ∧
      (s.pending = [] → s.due = [] → t.phase = .running → t.stop = none → (s.cc 0).run = 1 → s.fw.heldComplete = [] → s.host.faultWait = none →
        s.host.ending = false → t.req.flags % 2 = 0 → s.obj.pageSets = [] → p.holder = none → s.obj.heldPicots = [] →
        ∀ cause, ∃ u r, exec (.stitchTimeout p.handle cause) s = .next u ∧ u.obj.stitches = [] ∧
          u.obj.partitions = [{ p with
            running := none, completed := p.completed + 1, lastUs := (s.time.tick - t.zeroTick) * 40 / 1000 }] ∧
          (∀ n, n ∈ p.cores → (u.core n).run = 0) ∧ (∀ n, n ∉ p.cores → u.core n = s.core n) ∧
          u.obj.heldRecs = s.obj.heldRecs ++ [(t.session, .stitch r)] ∧ r.status = 14 ∧ r.detail = cause ∧ r.id = t.wire ∧
          r.outcome = 0 ∧ u.ctr.contained = s.ctr.contained + 1 ∧ u.ctr.completed = s.ctr.completed + 1 ∧
          u.mem = s.mem ∧ u.time = s.time))
/-- The next RTP packet in order of a flow that holds none passes through the jitter buffer: it is counted as received and
used and, while its stream's control core runs, opens an access unit with its capture time. At a gap deadline, when the oldest held
packet has reached its release time, the missing packets are counted as lost, that packet leaves, and its access unit carries the
loss. The first slice header of a random access point, of a stream that
waits for one, starts decoding: the picture, with the next frame number in output order, enters the decode queue. -/
def Obligations.IngestEvents : Prop :=
  ∀ (s : State) (x : Stream) (f : Flow), s.obj.streams = [x] →
    (∀ (fr : Frame) (p : RtpPacket) (n : Nat), s.obj.flows = [f] → x.handle = f.req.stream → fr.body = .rtp p →
      s.board.portsUp.getD fr.port false = true → s.host.state ≠ .fault → unparsed fr = false →
      matchFlow s fr (some p.ssrc) = some f → f.req.encap = 1 → f.req.key = 1 → (f.req.pt = 255 ∨ p.pt = f.req.pt) →
      p.malformed = false → p.marker = false → f.held = [] → f.outbox = [] → f.open_ = none → f.lastOut = some n →
      f.highest = some n → extendSeq (some n) p.seq = n + 1 → p.bytes ≤ f.bufBytes → coreServes s f.req.stream = true →
      ∃ u, exec (.frameReceive fr) s = .next u ∧ u = { s with obj := u.obj } ∧
        (let t := ingressStamp s fr.port fr.ingress
         let pkt : HeldPacket := ⟨n + 1, t, t.add (f.req.jitterMs * 1000000), p.bytes, p.timestamp, false, p.ts⟩
         u.obj = { s.obj with
          streams := [{ x with ingest := { x.ingest with
            received := x.ingest.received + 1, used := x.ingest.used + 1
            heldPeak := max x.ingest.heldPeak p.bytes } }]
          flows := [{ f with
            ssrc := some p.ssrc, highest := some (n + 1), lastOut := some (n + 1), lossPending := false
            open_ := some (p.timestamp, ⟨(captureOf f pkt none).1, (captureOf f pkt none).2, f.lossPending, p.bytes⟩) }] })) ∧
    (∀ (q : HeldPacket) (n : Nat), s.pending = [] → s.due = [] → s.obj.flows = [f] → x.handle = f.req.stream →
      f.req.encap = 1 → f.held = [q] → f.open_ = none → q.marker = false → f.lastOut = some n → n + 1 < q.seq →
      coreServes s f.req.stream = true → reachedNow s q.release = true →
      ∃ u, exec (.jitterGapDeadline f.handle) s = .next u ∧ u = { s with obj := { s.obj with
        streams := [{ x with ingest := { x.ingest with lost := x.ingest.lost + (q.seq - 1 - n) } }]
        flows := [{ f with
          held := [], lastOut := some q.seq, lossPending := false
          open_ := some (q.rtpTime, ⟨(captureOf f q none).1, (captureOf f q none).2, true, q.bytes⟩) }] } }) ∧
    ∀ (p : SliceParse) (a : AccessUnit) (rest : List AccessUnit), shadowing s = false → x.aus = a :: rest → x.enc = none →
      x.parsing = 0 → x.parse = .waitRap → x.pics = [] → (s.cc (parseCore x.handle)).run = 1 → p.first = true →
      p.last = false → limitFault x.decl p = none → p.rap ≠ .none → p.showExisting = none →
      (p.codec ≠ 4 ∨ p.features.contains .filmGrain = false ∨ x.grainSent = true) →
      ∃ u, exec (.sliceHeaderParse x.handle p) s = .next u ∧
        u = { s with
          obj := { s.obj with streams := [{ x with
            parse := .decoding, skipReason := none, statusCount := 0, cra := decide (p.rap = .cra), parsing := 1
            parsed := x.parsed + 1
            pics := [{ newPicture x.handle a p (frameNumber x p) with
              slices := [⟨p.rows, p.damaged, p.filterAcross⟩], phase := .queued s.time.tick }] }] }
          video := { s.video with decodePeak := max s.video.decodePeak 1 } }

/-- An idle decode engine takes the queued picture, which takes a free output buffer and a reference slot. A slice end within
the budget adds the slice's rows and cycles; a picture end idles the engine and counts the picture, dropping one that is not for
output; 250 ms after its start a picture is abandoned and its stream skips. An idle encode engine takes the eligible source
picture, and its picture end counts the access unit, whose bytes the declaration, the source pictures and the key marks fix. A
scaler unit starts the one ready strip, and its end leaves the job's other strips. In MIRRORED mode the inactive card does the
same of its replicas. -/
def Obligations.VideoEvents : Prop :=
  (∀ (s w : State) (i : Instr), shadowing s = true → exec i (enterShadow s) = .next w →
    (∃ h p e cycles samples missing k, i = .sliceHeaderParse h p ∨ i = .decodeEngineTakeJob e ∨
      i = .decodeSliceEnd e cycles samples missing ∨ i = .decodePictureEnd e cycles samples missing ∨
      (i = .pictureAbandon h ∧ s.pending = [] ∧ s.due = []) ∨ i = .scalerStripStart k ∨ i = .scalerStripEnd k) →
    exec i s = .next (leaveShadow s w)) ∧
  ∀ (s : State) (x : Stream), s.canonical = true → shadowing s = false →
    (s.obj.streams = [x] → x.enc = none → ∀ (p : Picture) (e : Nat), x.pics = [p] →
      (∀ b since, e < 16 → (s.eng e).run = 0 → s.host.state ≠ .fault → x.preparing = 0 → p.phase = .queued since →
        (∀ d, d < 16 → (s.eng d).run = 2 → (s.eng d).stream ≠ x.handle) → p.started = false → p.outputFlag = true →
        p.reorder ≠ 0 → p.place = 0 → x.outBufs = [(b, none)] →
        ∃ u, exec (.decodeEngineTakeJob e) s = .next u ∧
          u = { s with obj := u.obj, video := u.video, mem := u.mem, fresh := u.fresh } ∧
          u.obj = { s.obj with streams := [{ x with
            refPics := (takeSlot x p).1, outBufs := [(b, some p.frame)]
            pics := [{ p with
              phase := .onEngine e, periodCycles := 0, started := true, outBuf := some 0, slot := (takeSlot x p).2
              startTick := s.time.tick, quality := startMarks x p }] }] } ∧
          (∀ a, (∀ i r, (takeSlot x p).2 = some i → x.refSlots[i]? = some r → a < r.addr ∨ r.addr + x.decl.refBytes ≤ a) →
            memByte u a = memByte s a) ∧
          (u.eng e).run = 1 ∧ (u.eng e).stream = x.handle ∧ ∀ d, d ≠ e → u.eng d = s.eng d) ∧
      (p.phase = .onEngine e →
        (∀ cycles samples missing sl, p.decoded + 1 < p.slices.length → p.slices[p.decoded]? = some sl →
          p.periodCycles + cycles ≤ x.decl.budget → s.mem.latent = [] → CleanMemory s ∨ (p.outBuf = none ∧ p.forwarded = false) →
          (let r := readRefs x p s
           let poison := refsPoisoned x p r
           let n := min sl.rows (p.height - p.luma.length)
           let new := sliceRows x p (if sl.damaged || poison then concealRef x p else none) n samples missing
           ∃ u q, exec (.decodeSliceEnd e cycles samples missing) s = .next u ∧
            (poison = false → u = { s with
                obj := u.obj, video := u.video, mem := u.mem, fresh := u.fresh, ctr := { s.ctr with links := u.ctr.links } } ∧
              u.obj = { s.obj with streams := u.obj.streams, items := u.obj.items }) ∧
            (poison = true → u.ctr.contained = s.ctr.contained + 1) ∧
            (p.forwarded = false →
              u.obj.items = s.obj.items ∧ u.mem = (openSlot x p.slot (putRows x p new.1 new.2 r)).mem) ∧
            u.obj.streams = [{ x with
              pics := [q], dec := { x.dec with videoCycles := x.dec.videoCycles + cycles } }] ∧
            q.luma = p.luma ++ new.1 ∧ q.chromaRows = p.chromaRows ++ new.2 ∧
            q.decoded = p.decoded + 1 ∧ q.rowsDone = p.rowsDone + n ∧ q.phase = p.phase ∧
            q.totalCycles = p.totalCycles + cycles ∧ p.progress ≤ q.progress ∧
            q.quality.concealed = (p.quality.concealed || sl.damaged || poison) ∧
            u.eng e = { s.eng e with run := 1, since := s.time.tick, busy := (s.eng e).busy + cycles } ∧
            ∀ d, d ≠ e → u.eng d = s.eng d)) ∧
        (p.outputFlag = false → p.forwarded = false →
          (∀ cycles samples missing, CleanMemory s → p.allParsed = true → p.slices.length = p.decoded + 1 →
            ∃ u y, exec (.decodePictureEnd e cycles samples missing) s = .next u ∧ u.obj.streams = [y] ∧ y.pics = [] ∧
              y.lastDecoded = some p.frame ∧ y.dec.decoded = x.dec.decoded + 1 ∧ y.dec.forwarded = x.dec.forwarded ∧
              y.dec.dropped = listAdd x.dec.dropped 0 1 ∧
              (u.eng e).run = 0 ∧ (u.eng e).pictures = (s.eng e).pictures + 1 ∧ ∀ d, d ≠ e → u.eng d = s.eng d) ∧
          (p.started = true → p.startTick + 6250000 ≤ s.time.tick → s.pending = [] → s.due = [] → CleanMemory s →
            ∃ u y, exec (.pictureAbandon x.handle) s = .next u ∧ u.obj.streams = [y] ∧ y.pics = [] ∧
              y.parse = .skipping 6 ∧ y.dec.abandoned = x.dec.abandoned + 1 ∧ (u.eng e).run = 0 ∧
              (u.eng e).abandons = (s.eng e).abandons + 1)))) ∧
    (s.obj.streams = [x] → ∀ (e : EncodeState) (g : Nat), x.enc = some e →
      (∀ i key b pp q, g < 4 → (s.eng (16 + g)).run = 0 → s.host.state ≠ .fault → eligible x = some (q, i, key, b, pp) →
        q.base = 0 ∨ CleanMemory s →
        ∃ u, exec (.encodeEngineTakePicture g) s = .next u ∧
          u = { s with
            obj := u.obj, video := u.video, mem := u.mem, fresh := u.fresh, ctr := { s.ctr with links := u.ctr.links } } ∧
          (let kind := if e.decl.codec = 5 then 0
             else if 0 < e.pPending then 2 else if 0 < e.bPending ∧ e.keyRequested = false then 1 else 0
           u.obj = { s.obj with streams := [{ x with enc := some { e with
            working := e.working ++ [⟨g, q, key, e.history.length, i, kind, s.time.tick⟩]
            history := e.history ++ [(q.luma, q.chromaRows, key)]
            pics := e.pics.eraseIdx i, bPending := b, pPending := pp, first := false
            keyRequested := !key && e.keyRequested
            gopPos := if key then (if 0 < e.bPending then 2 else 1) else if 0 < e.pPending then e.gopPos else e.gopPos + 1 } }] }) ∧
          (u.eng (16 + g)).run = 1 ∧ (u.eng (16 + g)).stream = x.handle ∧ ∀ d, d ≠ 16 + g → u.eng d = s.eng d) ∧
      ∀ w, e.working = [w] → w.engine = g →
        (let hist := e.history.take (w.place + 1)
         let rate := ((findStream s e.decl.source).map (·.decl.picRate)).getD 0
         let unit := encodeUnit e.decl rate hist
         ∃ u, exec (.encodePictureEnd g) s = .next u ∧
          u.obj.streams = [{ x with
            lastForwarded := some w.pic.frame
            enc := some { e with
              working := [], anchorEnd := if w.kind = 1 then e.anchorEnd else s.time.tick
              encoded := e.encoded + 1, keys := e.keys + w.key.toNat, bytes := e.bytes + unit.length
              vbv := (fillRate e.decl).map fun _ => (bufferAfter e.decl rate hist).level
              quantiser := fixedQuantiser e.decl w.key } }] ∧
          u.eng (16 + g) = { s.eng (16 + g) with
            run := 0, stream := 0, latest := x.handle, pictures := (s.eng (16 + g)).pictures + 1
            busy := (s.eng (16 + g)).busy + 40 * (s.time.tick - (s.eng (16 + g)).since) } ∧
          ∀ d, d ≠ 16 + g → u.eng d = s.eng d)) ∧
    ∀ (j : ScalerJob) (k : Nat), s.obj.jobs = [j] →
      (k < 8 → (s.scl k).job = none → j.unit = some k → j.running = false → stripReady s j = true →
        ∃ u, exec (.scalerStripStart k) s = .next u ∧
          u = { s with obj := { s.obj with jobs := [{ j with running := true }] }, video := u.video } ∧
          u.scl k = { s.scl k with job := some j.order, stream := j.stream } ∧ ∀ d, d ≠ k → u.scl d = s.scl d) ∧
      ∀ t left, (s.scl k).job = some j.order → j.running = true → j.ended = false → j.strips = t :: left → left ≠ [] →
        ∃ u, exec (.scalerStripEnd k) s = .next u ∧ u.obj.jobs = [{ j with strips := left, running := false }] ∧
          u.scl k = { s.scl k with
            job := none, stream := 0, busy := (s.scl k).busy + t.cycles, samples := (s.scl k).samples + t.samples } ∧
          (∀ d, d ≠ k → u.scl d = s.scl d) ∧ u.obj.items.map (·.id) = s.obj.items.map (·.id) ∧
          (CleanMemory s → u = { s with
            obj := u.obj, video := u.video, mem := u.mem, fresh := u.fresh, ctr := { s.ctr with links := u.ctr.links } })
/-- A flush of a destination that fills a page, begun in an earlier tick, writes the page's header, its picots, then DONE, and counts
page and picots. A flush of a completion page does the same for its records. The HEALTH timer forms a picot, which is held until the
tick ends; an unordered picot that is held takes the next SEQUENCE of its destination then and, where the destination cannot place it,
waits in its queue. An address refresh sends a resolution and records its outcome. -/
def Obligations.PicotEvents : Prop :=
  ∀ (s : State), s.pcie.bme = true → s.pair.mode = 0 → s.host.state ≠ .orphaned → s.pending = [] → s.due = [] →
    (∀ (d : Dest) (ps : PageSet) (p0 : Picot) (rest : List Picot), s.obj.dests = [d] → s.obj.pageSets = [ps] →
      ps.handle = d.req.pageSet → d.req.kind = 1 → mayPlace s d = true → d.since ≠ s.time.tick → d.queue = [] →
      d.filling = p0 :: rest →
      ∃ u l, exec (.picotPageFlush d.id) s = .next u ∧
        u = { s with obj := u.obj, host := u.host, pcie := { s.pcie with linkState := 0 }, ctr := u.ctr, out := u.out } ∧
        (l = [] ∨ l = [OutMsg.msix ps.vector]) ∧
        u.out = s.out ++ linkMessages s.pcie (.hostWrite d.pageAddr (picotPageHeader d (d.pageSeq + 1)) false) ++
          linkMessages s.pcie (.hostWrite (d.pageAddr + 64) (d.filling.map Picot.bytes).flatten true) ++
          linkMessages s.pcie (.hostWrite (d.pageAddr + 60) (leBytes 4 (d.pageSeq + 1)) false) ++ l ∧
        (let last := ((d.filling.getLast?).map (·.seq)).getD 0
         let all := d.awaiting ++ d.filling
         let count := (all.filter fun p => decide (p.seq ≤ last ∧ d.deliveredSeq < p.seq)).length
         u.obj = { s.obj with
          pageSets := [{ ps with
            filledCount := ps.filledCount + 1, undone := ps.undone.filter fun a => decide (a ≠ d.pageAddr) }]
          dests := [{ d with
            filling := [], fill := 0, pageAddr := 0, pageSeq := d.pageSeq + 1, pages := d.pages + 1, lastSent := last
            awaiting := all.filter fun p => decide (last < p.seq)
            sent := d.sent ++ [⟨d.pageAddr, d.pageSeq + 1, last, [], d.filling⟩]
            delivered := d.delivered + count, deliveredSeq := max d.deliveredSeq last }] } ∧
         u.ctr = { s.ctr with delivered := s.ctr.delivered + count })) ∧
    (∀ (p : PageSet) (a : Nat) (rest : List Nat), s.obj.pageSets = [p] → p.kind = 1 → p.posted = a :: rest → p.fill ≠ 0 →
      pagesStopped s p.session = false → p.since ≠ s.time.tick → s.obj.heldRecs = [] → s.host.events = [] →
      ∃ u l, exec (.completionPageFlush p.handle) s = .next u ∧
        u = { s with obj := u.obj, host := u.host, pcie := { s.pcie with linkState := 0 }, out := u.out } ∧
        (l = [] ∨ l = [OutMsg.msix p.vector]) ∧
        u.out = s.out ++
          linkMessages s.pcie (.hostWrite a (completionHeader p.filling.length p.fill (p.pageSeq + 1) p.session) false) ++
          linkMessages s.pcie (.hostWrite (a + 64) (p.filling.map CRec.bytes).flatten true) ++
          linkMessages s.pcie (.hostWrite (a + 60) (leBytes 4 (p.pageSeq + 1)) false) ++ l ∧
        u.obj = { s.obj with pageSets := [{ p with
          posted := rest, filledCount := p.filledCount + 1, pageSeq := p.pageSeq + 1, filling := [], fill := 0
          undone := p.undone.filter fun b => decide (b ≠ a), sent := p.sent ++ [⟨a, p.pageSeq + 1, 0, p.filling, []⟩] }] }) ∧
    ((s.cc 3).run = 1 → ((findRoute s 0).map (·.healthMs)).getD 1000 ≠ 0 → storeUsed s + 96 ≤ 2 ^ 28 →
      exec .healthPicotTimer s = .next { s with
        ctr := { s.ctr with produced := s.ctr.produced + 1 }
        obj := { s.obj with heldPicots := s.obj.heldPicots ++ [healthPicot s] } }) ∧
    ∀ (d : Dest), s.obj.dests = [d] →
      (∀ (r : Route) (p : Picot), s.obj.routes = [r] → r.stream = p.stream → r.dest = d.id → mayPlace s d = false →
        p.size ≤ d.largest → s.obj.heldPicots = [p] → p.unordered = true →
        releaseHeld s = { s with obj := { s.obj with
          heldPicots := []
          dests := [{ d with
            produced := d.produced + 1, nextSeq := d.nextSeq + 1, queue := d.queue ++ [{ p with seq := d.nextSeq }] }] } }) ∧
      (d.req.kind ≠ 1 → d.queue = [] → ∀ mac,
        ∃ u, exec (.collectorAddressRefresh d.id mac) s = .next u ∧ u = { s with
          out := s.out ++ [.frame d.req.port d.req.vlan (.resolve d.req.dstAddr)]
          obj := { s.obj with dests := [{ d with mac := mac }] } })
namespace Sys2Proof.Claims

/-- Operation `c` of a bundle can issue: its core runs stitch `t` of model `m` on partition `p`, waits at no knot, no drain and no
replay holds it, and stands at the bundle, some operation of which has issued or all of which can (R125, R161, R191, R207); the
stitch is not stopping. -/
structure Issues (c : Slot) (p : Partition) (t : Stitch) (m : Model) (s : State) : Prop where
  canonical : s.canonical = true
  stitch : coreStitch s c.core = some (p, t, m)
  run : (s.core c.core).run = 1 ∧ (s.core c.core).knot = none ∧ (s.core c.core).drainHolds = false ∧
    (s.core c.core).replaying = false
  bundle : (s.core c.core).bundle = c.bundle ∧ bundleEmpty (codeOf p m c.core) c.bundle = false
  ready : (s.core c.core).mid = true ∨ bundleReady (s.core c.core) (bundleAt (codeOf p m c.core) c.bundle) = true
  going : t.stop = none

/-- The core once an operation that gave `k` has issued: lateness counts, and the last operation of a bundle ends it. -/
def issuedOp (c : Slot) (k : ComputeCore) : ComputeCore :=
  if c.last then { k.goOn k.bundle with late := k.late + c.held, mid := false, issue := k.issue + 1 }
  else { k with late := k.late + c.held, mid := true }

/-- The core once a CONTROL operation that gave `k` has issued: it ends its bundle. -/
def issuedControl (c : Slot) (k : ComputeCore) : ComputeCore :=
  { k with late := k.late + c.held, mid := false, issue := k.issue + 1 }

/-- Core `n` has become `k`, and no other core has changed. -/
def CoreIs (n : Nat) (k : ComputeCore) (s u : State) : Prop := u.core n = k ∧ ∀ j, j ≠ n → u.core j = s.core j

/-- Operation `i` completes, and nothing but its core has changed, which is `k` with the operation issued; the errors that it
corrected are counted (R136, R160). -/
def Makes (i : Instr) (c : Slot) (k : ComputeCore) (s : State) : Prop :=
  ∃ u, exec i s = .next u ∧ u = { correctedBy c.corrected s with cores := u.cores } ∧ CoreIs c.core (issuedOp c k) s u

/-- CONTROL operation `i` completes in the same way. -/
def Controls (i : Instr) (c : Slot) (k : ComputeCore) (s : State) : Prop :=
  ∃ u, exec i s = .next u ∧ u = { s with cores := u.cores } ∧ CoreIs c.core (issuedControl c k) s u

/-- A core's event `i` completes, and nothing but core `n` has changed, to `k`; the errors that it corrected are counted. -/
def Turns (i : Instr) (corrected n : Nat) (k : ComputeCore) (s : State) : Prop :=
  ∃ u, exec i s = .next u ∧ u = { correctedBy corrected s with cores := u.cores } ∧ CoreIs n k s u

end Sys2Proof.Claims

/-- A vector operation that can issue writes the lanes that the manual gives to its destination register, and changes no other
register: arithmetic lane by lane, each value rounded once; selections and comparisons on lanes; the functions of one lane
computed in FP32; reductions of groups of 32 lanes; pairs of registers for VTWOSUM and VSORT32. VLD and VGATHER read scratch, VST
writes 256 bytes of it and no other byte of memory; HROWGET and HROWSET move fields of the 32 hoop rows. -/
def Obligations.VectorOperations : Prop :=
  ∀ (c : Slot) (p : Partition) (t : Stitch) (m : Model) (s : State), Issues c p t m s →
    (∀ (f : LaneFmt) (vd va vb vc : Nat),
      let k := s.core c.core
      let x (i : Nat) := f.val (k.vreg va) i
      let y (i : Nat) := f.val (k.vreg vb) i
      let z (i : Nat) := f.val (k.vreg vc) i
      let lanes (g : Nat → Nat) : ComputeCore := k.setVreg vd (f.pack ((List.range f.lanes).map g))
      let ones (b : Bool) : Nat := if b then 2 ^ (8 * f.size) - 1 else 0
      Makes (.vadd c f vd va vb) c (lanes fun i => f.round ((x i).add (y i))) s ∧
      Makes (.vsub c f vd va vb) c (lanes fun i => f.round ((x i).add (y i).neg)) s ∧
      Makes (.vmul c f vd va vb) c (lanes fun i => f.round ((x i).mul (y i))) s ∧
      Makes (.vfma c f vd va vb vc) c (lanes fun i => f.round (((x i).mul (y i)).add (z i))) s ∧
      Makes (.vmin c f vd va vb) c (lanes fun i => f.pick false (f.raw (k.vreg va) i) (f.raw (k.vreg vb) i)) s ∧
      Makes (.vmax c f vd va vb) c (lanes fun i => f.pick true (f.raw (k.vreg va) i) (f.raw (k.vreg vb) i)) s ∧
      Makes (.vcmp c f vd va vb 0) c (lanes fun i => ones ((x i).eqv (y i))) s ∧
      Makes (.vcmp c f vd va vb 1) c (lanes fun i => ones ((x i).lt (y i))) s ∧
      Makes (.vcmp c f vd va vb 2) c (lanes fun i => ones ((x i).lt (y i) || (x i).eqv (y i))) s ∧
      Makes (.vsel c f vd va vb vc) c
        (lanes fun i => LaneFmt.clean f (if f.raw (k.vreg vc) i ≠ 0 then f.raw (k.vreg va) i else f.raw (k.vreg vb) i)) s ∧
      (∀ imm, Makes (.vbcast c f vd imm) c (lanes fun _ => LaneFmt.imm f imm) s) ∧
      (∀ target part, Makes (.vcvt c f vd va target part) c (k.convert f vd va target part) s) ∧
      (∀ i g, (i, g) ∈ [(Instr.vexp2 c f vd va, vexp2Fp32), (.vlog2 c f vd va, vlog2Fp32), (.vrcp c f vd va, vrcpFp32),
          (.vrsqrt c f vd va, vrsqrtFp32), (.vtanh c f vd va, vtanhFp32), (.vsigm c f vd va, vsigmFp32),
          (.vgelu c f vd va, vgeluFp32), (.vsilu c f vd va, vsiluFp32)] →
        Makes i c (lanes fun n => f.ofFp32 (g (f.toFp32 (f.raw (k.vreg va) n)))) s) ∧
      (let group (n : Nat) : List Nat := (List.range 32).map fun j => f.raw (k.vreg va) (32 * n + j)
       Makes (.vrsum c f vd va) c
        (lanes fun n => if n < f.lanes / 32 then f.ofFp32 (groupSum32 ((group n).map f.toFp32)) else 0) s ∧
       Makes (.vrmax c f vd va) c
        (lanes fun n => if n < f.lanes / 32 then (group n).foldl (f.pick true) ((group n).headD 0) else 0) s)) ∧
    ∀ (vd va vb areg : Nat),
      let k := s.core c.core
      let a := k.addr areg
      (let r := (List.range 64).map fun i => twoSum (k.lane32 va i) (k.lane32 vb i)
       Makes (.vtwosum c vd va vb) c (k.setPair vd (r.map (·.1.toNat)) (r.map (·.2.toNat))) s) ∧
      (let r := ((List.range 2).map fun g => sortLanes ((List.range 32).map fun i => (k.lane32 va (32 * g + i), i))).flatten
       Makes (.vsort32 c vd va) c (k.setPair vd (r.map fun x => (cleanFp32 x.1).toNat) (r.map (·.2))) s) ∧
      Makes (.vld c vd areg) c
        (k.setVreg vd ((List.range 256).map fun i => memByte s (scratchAt c.core (a + i)))) s ∧
      (∀ f : LaneFmt, Makes (.vgather c f vd vb areg) c (k.setVreg vd (((List.range f.lanes).map fun i =>
        scratchRead s c.core (a + 2048 * f.raw (k.vreg vb) i + 64 * (i % 32) + f.size * (i / 32)) f.size).flatten)) s) ∧
      ((k.vreg va).length = 256 →
        ∃ u, exec (.vst c va areg) s = .next u ∧ u = { correctedBy c.corrected s with cores := u.cores, mem := u.mem } ∧
          u.mem = { s.mem with cells := u.mem.cells, lost := u.mem.lost } ∧ CoreIs c.core (issuedOp c k) s u ∧
          (∀ i, i < 256 → memByte u (scratchAt c.core (a + i)) = (k.vreg va).getD i 0) ∧
          ∀ b, (∀ i, i < 256 → b ≠ scratchAt c.core (a + i)) → memByte u b = memByte s b) ∧
      ∀ (array : Nat) (hoop : Bool) (f : RowField),
        Makes (.hrowget c array hoop f vd) c (k.setVreg vd (LaneFmt.pack .fp32 ((List.range 32).map fun r =>
          (((k.array array).hoopOf hoop).getField f r).toNat) ++ (k.vreg vd).drop 128)) s ∧
        ((f ≠ .scale ∨ (k.array array).flight = none) →
          Makes (.hrowset c array hoop f va) c (k.modArray array fun x =>
            x.setRows hoop f ((List.range 32).map fun i => k.lane32 va i)) s)

/-- An array operation that can issue on an array with no operation in flight: LOADW takes the weight rows that scratch holds,
PASS and STREAM start with their operands as they stand, CLEAR zeroes the hoop. A row group enters its next row into its feeder;
once all four have entered it, the four column groups take it and add it. A drain that can issue waits with its operands; a PAIR
drain that starts on a quiet hoop, no bank withheld from it, reads the hoop's rows and writes their parts to scratch, row by row
and column group by column group, zeroes them where it says so, and counts its lateness. -/
def Obligations.ArrayOperations : Prop :=
  ∀ (c : Slot) (p : Partition) (t : Stitch) (m : Model) (s : State),
    (Issues c p t m s → ∀ (a : Nat), ((s.core c.core).array a).flight = none →
      (let k := s.core c.core
       (∀ mode fmt areg sreg late,
        (let o : LoadOp := ⟨mode, fmt, k.addr areg, (k.ar areg).2, (scaleReg k fmt sreg).map (·.1)⟩
         Makes (.loadw c a mode fmt areg sreg late) c ((k.modArray a fun x =>
          { x with
            loaded := some (mode, fmt), weights := (weightRows s c.core o).1, wscales := (weightRows s c.core o).2
            windowA := x.windowA ++ [.load o], windowB := x.windowB ++ [.load o] }).slips 1 (late - c.held)) s)) ∧
       (∀ hoop mode fmt areg sreg n i,
        ((i = .pass c a hoop mode fmt areg sreg ∧ n = 32) ∨ i = .stream c a hoop mode fmt areg sreg n) →
        (let o : RowOp :=
          { isStream := decide (i = .stream c a hoop mode fmt areg sreg n), hoop := hoop, mode := mode, fmt := fmt, n := n
            addr := k.addr areg, stride := (k.ar areg).2, scales := scaleReg k fmt sreg, mask := SMap.get none k.masks a
            desc := if (k.ar areg).2 = -1 then scratchRead s c.core (k.addr areg) 64 else [] }
         Makes i c (k.modArray a fun x => x.start o k.issue c.held) s)) ∧
       ∀ hoop, Makes (.clear c a hoop) c (k.modArray a fun x =>
        if hoop then { x with hoopB := {}, windowB := [] } else { x with hoopA := {}, windowA := [] }) s)) ∧
    (s.canonical = true → ∀ (n a g late waited corrected : Nat) (f : InFlight), coreStitch s n = some (p, t, m) →
      ((s.core n).array a).flight = some f → g < 4 → f.next.length = 4 → f.issue < (s.core n).issue →
      (let k := s.core n
       let sat := !replays t m
       let i := f.next.getD g 0
       let entered : InFlight :=
        { f with
          next := f.next.set g (i + 1)
          slices := f.slices ++
            [(i, g, ((activationRows s n t.lens f.op i).map (groupSlice f.op g)).flatten,
              groupScales g (activationScales s n t.lens f.op i))]
          late := max f.late late, waited := max f.waited waited }
       let y : Array4 := { k.array a with flight := some entered }
       i < f.op.n → f.added ≤ i → i < f.added + 8 →
        ((∀ h, h < 4 → y.mayTake entered h = false) →
          Turns (.rowEntry n a g late waited corrected) corrected n (k.modArray a fun _ => y) s) ∧
        (f.cols = [i, i, i, i] → (∀ h, h < 4 → h ≠ g → i < f.next.getD h 0) →
          (∀ h, h < 4 → y.rowHeld entered i h = false) → y.draining = none →
          (let z := (List.range 4).foldl (fun (x : Array4) h => match x.flight with
            | some f => x.takePart sat h f
            | none => x) y
           Turns (.rowEntry n a g late waited corrected) corrected n
            (if i + 1 = f.op.n then
              (k.modArray a fun _ => { z with flight := none }).slips 1 (entered.late - (entered.inherited + entered.waited))
             else k.modArray a fun _ => z) s)))) ∧
    (Issues c p t m s → ∀ (d : DrainOp) (form : Nat) (i : Instr), ((s.core c.core).array d.array).drain = none →
      ((s.core c.core).array d.array).draining = none →
      (i, form) ∈ [(Instr.drainPlain c d, 0), (.drainAdd c d, 1), (.drainPair c d, 2)] →
      (let k := s.core c.core
       let draws := if form = 2 then 0 else 32 * ((qTable s c.core (k.addr d.qreg)).filter (·.stoch)).length
       let req : DrainReq :=
        { form := form, hoop := d.hoop, zero := d.zero, softmaxDiv := d.softmaxDiv, toVector := d.toVector
          daddr := k.addr d.dreg, dstride := (k.ar d.dreg).2, vbase := d.dreg, qaddr := k.addr d.qreg, issue := k.issue
          seed := k.rng }
       Makes i c { (k.modArray d.array fun x => { x with drain := some req }) with rng := rngSkip draws k.rng } s)) ∧
    (s.canonical = true → ∀ (n a early held cycles waits late waited corrected : Nat) (d : DrainReq), coreStitch s n = some (p, t, m) →
      ((s.core n).array a).drain = some d → ((s.core n).array a).draining = none →
      d.form = 2 → d.toVector = false → d.issue < (s.core n).issue → ((s.core n).array a).quiet d.hoop d.issue = true →
      replays t m = false →
      (let k := s.core n
       let h := (k.array a).hoopOf d.hoop
       let parts : List (Nat × Nat) := (List.range 32).flatMap fun r => (List.range 4).map fun g => (r, g)
       ∃ u, exec (.drainStart n a early held cycles waits late waited [] corrected) s = .next u ∧
        u = { correctedBy corrected s with cores := u.cores, mem := u.mem } ∧
        u.mem = (parts.foldl (fun z x => scratchWrite n (d.rowAddr x.1 + 64 * x.2) (h.pairPart x.1 x.2) z) s).mem ∧
        CoreIs n
          (let again := if (k.array a).replaying then cycles else 0
           let h' := parts.foldl (fun h x => h.afterRead d.zero (decide (x.2 = 3)) x.1 x.2) (h.startDrain d.zero)
           let x := { (k.array a).modHoop d.hoop fun _ => h' with drain := none, replaying := false }
           let k' := (((k.modArray a fun _ =>
            { x with flight := x.flight.map fun f => (f.behind late waited).drained d }).slips 0 early).slips 5 again).slips 1 0
           { k' with late := k.late + early + held + again, ovfTiles := k.ovfTiles + h.hovf.toNat }.takeRows true a) s u ∧
        (d.zero = true → ((k.array a).flight = none) → ∀ r j, r < 32 → j < 32 →
          (((u.core n).array a).hoopOf d.hoop).entry r j = 0)))

/-- A CONTROL operation that can issue ends its bundle and sets what runs next: a loop is entered or skipped, a jump or a passed
test is taken, a knot stops the core, END ends its part; address registers wrap at 8 MiB. A knot whose members have all arrived
releases them. A core that has ended finishes once it is quiet. A shuttle takes a descriptor, begins it, moves its run byte for
byte over the die links, and completes it. Nothing else changes. -/
def Obligations.SequencingAndShuttles : Prop :=
  ∀ (c : Slot) (p : Partition) (t : Stitch) (m : Model) (s : State),
    (Issues c p t m s →
      (let k := s.core c.core
       let len (r : Nat) : Nat := t.lens.getD r 0
       (∀ level count last, 0 < count → Controls (.loop c level false count last) c
        { k with bundle := k.bundle + 1, loops := ⟨level, k.bundle + 1, last, count⟩ :: k.loops } s) ∧
       (∀ level r last, len r = 0 → Controls (.loop c level true r last) c (k.goOn last) s) ∧
       (∀ target, Controls (.jump c target) c { k with bundle := target } s) ∧
       (∀ n, Controls (.knot c n) c { k.goOn k.bundle with knot := some n } s) ∧
       (∀ r target imm, Controls (.ltest c r target imm) c
        (if len r ≤ imm then { k with bundle := target } else k.goOn k.bundle) s) ∧
       (∀ e x, skipEntry s m c.core e = some x → Controls (.tskip c e) c
        (if len x.lreg ≤ x.base then { k with bundle := x.target }
         else if x.mask then { k.goOn k.bundle with masks := SMap.set none k.masks x.array (some (x.lreg, x.base)) }
         else k.goOn k.bundle) s) ∧
       (∀ array r base enable, Controls (.rowmask c array r base enable) c
        { k.goOn k.bundle with masks := SMap.set none k.masks array (if enable then some (r, base) else none) } s) ∧
       (∀ ar addr, Controls (.arset c ar addr) c ((k.setAr ar addr (k.ar ar).2).goOn k.bundle) s) ∧
       (∀ ar stride, Controls (.arstride c ar stride) c ((k.setAr ar (k.addr ar) stride).goOn k.bundle) s) ∧
       (∀ ar imm, Controls (.aradd c ar imm) c ((k.setAr ar (k.addr ar + imm) (k.ar ar).2).goOn k.bundle) s) ∧
       (∀ ar r mul, Controls (.arlen c ar r mul) c
        ((k.setAr ar (k.addr ar + (len r : Int) * mul) (k.ar ar).2).goOn k.bundle) s) ∧
       Controls (.end_ c) c { k with run := 3 } s ∧
       (∀ sh desc d, (k.queue sh).length < 16 → coreDesc p m c.core desc = some d →
        Makes (.shStart c sh desc) c (k.modQueue sh fun q => q ++ [{ index := desc, desc := d }]) s) ∧
       ∀ sh q, (k.queue sh).length ≤ q → Makes (.shWait c sh q) c k s)) ∧
    (s.canonical = true → t.phase = .running → findPart s p.handle = some p → p.running.bind (findStitch s) = some t →
      findModel s t.req.model = some m → ∀ k late, knotMembers p m k ≠ [] →
      ((knotMembers p m k).all fun n => knotReady s p t n k) = true →
      ∃ u, exec (.knotRelease p.handle k late) s = .next u ∧ u = { s with cores := u.cores } ∧
        (∀ i n, (knotMembers p m k)[i]? = some n → u.core n =
          { (s.core n).slips 4 (late.getD i (s.core n).late - (s.core n).late) with
            knot := none, late := late.getD i (s.core n).late }) ∧
        ∀ n, n ∉ knotMembers p m k → u.core n = s.core n) ∧
    (s.canonical = true → ∀ n, coreStitch s n = some (p, t, m) →
      (∀ cycles, (s.core n).run = 3 → (s.core n).quiet = true → t.finished.contains (p.coreIndex n) = false →
        (p.cores.any fun j => p.coreIndex j ≠ p.coreIndex n && !t.finished.contains (p.coreIndex j)) = true →
        ∃ u, exec (.coreFinish n cycles) s = .next u ∧ u = { s with cores := u.cores, obj := u.obj } ∧
          CoreIs n { s.core n with cycles := (s.core n).cycles + cycles, counting := false } s u ∧
          u.obj = { s.obj with stitches := s.obj.stitches.map fun x =>
            if x.id = t.id then { x with finished := t.finished ++ [p.coreIndex n] } else x }) ∧
      ∀ sh j rest, (s.core n).queue sh = j :: rest → t.stop = none →
        (j.begun = false → j.desc.form ≠ 5 → j.desc.lenDim = 0 → j.desc.count1 ≠ 0 → j.desc.count2 ≠ 0 →
          j.desc.srcSlot = false → j.desc.dstSlot = false →
          Turns (.shuttleDescriptorBegin n sh) 0 n ((s.core n).modQueue sh fun _ =>
            { j with begun := true, count1 := j.desc.count1, count2 := j.desc.count2 } :: rest) s) ∧
        (j.begun = true → j.desc.form = 1 → j.count1 = 1 → j.count2 = 1 → j.moved = 0 → j.desc.gate = false →
          j.desc.srcSlot = false → j.desc.dstSlot = false →
          ∀ ecc, (upset ecc s).mem.latent = [] →
          (let cnt := j.desc.count0
           let src := j.desc.src.toNat
           let dst := j.desc.dst.toNat
           let to_ := reachPieces p dst cnt
           let z := accessPieces true to_ (accessPieces false (reachPieces p src cnt) s)
           ptrOk p src cnt = true → ptrOk p dst cnt = true → tagged z src cnt = cnt → tagged z dst cnt = cnt →
            ((reachPieces p src cnt).all fun x => !poisoned z x.1) = true → dropsPiece [] z to_ = false →
            ∃ u, exec (.shuttleRunMove n sh ecc) s = .next u ∧
              u = { s with
                cores := u.cores, mem := u.mem, fresh := u.fresh
                ctr := (carry (coreStack n) true to_ (carry (coreStack n) false (reachPieces p src cnt) s)).ctr } ∧
              u.mem = (piecesWrite [] to_ (reachRead z p src cnt) z).mem ∧
              CoreIs n ((s.core n).modQueue sh fun _ => { j with moved := 1 } :: rest) s u)) ∧
        (j.ended = true → ∀ held gated,
          Turns (.shuttleDescriptorComplete n sh held gated) 0 n
            { ((((s.core n).modQueue sh fun _ => rest).slips 2 (min held gated)).slips 3 (held - min held gated)) with
              late := (s.core n).late + held } s))
/-- The running job of a stack's unit, of the operation that its descriptor gives, writes the operation's results at OUT and their
count at OUTN and is done, also when its stitch has ended or stopped since; its end frees the unit for the next job and marks its
descriptor. A double-bit error in a core that
runs a stitch is a contained fault, and the stitch is re-run from its start. -/
def Obligations.PostProcessing : Prop :=
  ∀ (p : Partition) (t : Stitch) (m : Model) (s : State), s.canonical = true →
    (∀ (k : Nat) (j : PpuJob), runningJob s k = some j →
      (∀ (op n : Nat) (ecc : List (Nat × EccFinding)) (i : Instr), (i, op) ∈ [(Instr.ppuBoxdec k ecc, 1), (.ppuNms k ecc, 2),
          (.ppuTopk k ecc, 3), (.ppuIou k ecc, 4), (.ppuAssign k ecc, 5)] → j.done = false → (upset ecc s).mem.latent = [] →
        tagged s j.addr 64 = 64 →
        (let q := jobReach j
         let o := PpuOp.parse (reachRead s q j.addr 64)
         let rs := PpuOp.results o n ((o.reads n).map fun x => reachRead s q x.1 x.2)
         let lines (l : List (Nat × Nat)) := (l.map fun x => reachPieces q x.1 x.2).flatten
         let ins := [(j.addr, 64)] ++ (if o.counted then [(o.in1, 4)] else []) ++ o.reads n
         let outs := [(o.out, rs.flatten.length), (o.outn, 4)]
         let z := accessPieces true (lines outs) (accessPieces false (lines ins) s)
         o.op = op → n = (if o.counted then min o.n (leNat (reachRead s q o.in1 4)) else o.n) →
          ((ins ++ outs).all fun x => (reachStop z q x).isNone) = true →
          (badPieces z (lines ins)).isEmpty = true → dropsPiece [] z (lines outs) = false →
          ∃ u, exec i s = .next u ∧
            u = { s with
              mem := u.mem, ppu := u.ppu, fresh := u.fresh
              ctr := (carry k true (lines outs) (carry k false (lines ins) s)).ctr } ∧
            u.mem = (piecesWrite [] (reachPieces q o.outn 4) (leBytes 4 rs.length)
              (piecesWrite [] (reachPieces q o.out rs.flatten.length) rs.flatten z)).mem ∧
            runningJob u k = some { j with done := true } ∧
            ∀ e, e ≠ k → SMap.get {} u.ppu e = SMap.get {} s.ppu e)) ∧
      (j.done = true →
        ∃ u, exec (.ppuJobEnd k) s = .next u ∧ u = { s with ppu := u.ppu, cores := u.cores } ∧
          SMap.get {} u.ppu k = PpuUnit.startNext
            { jobs := (PpuUnit.startNext (SMap.get {} s.ppu k)).jobs.filter fun x => !x.started } ∧
          (∀ e, e ≠ k → SMap.get {} u.ppu e = SMap.get {} s.ppu e) ∧
          (j.left = true → u.cores = s.cores) ∧
          (j.left = false → CoreIs j.core ((s.core j.core).modQueue j.shuttle fun l => match l with
            | [] => []
            | d :: l => { d with ppuDone := true } :: l) s u))) ∧
    (Sole p t m s → ∀ n place, coreStitch s n = some (p, t, m) → t.stop = none → s.fw.heldComplete = [] → t.rerun = false →
      ∃ u, exec (.computeUncorrectableError n place) s = .next u ∧ u.ctr.contained = s.ctr.contained + 1 ∧
        u.obj.stitches = [{ t with
          rerun := true, finished := [], stop := none, detail := 0, lens := List.replicate 16 0, phase := .starting }] ∧
        u.obj.partitions = [p] ∧
        (∀ i q, p.cores[i]? = some q → u.core q = (s.core q).fresh (entryBundle m t.req.entry (roleOf m i))
          (rngSeed t.req.seed i) (m.handle, roleOf m i)) ∧
        (∀ q, q ∉ p.cores → u.core q = s.core q) ∧ u.pcie.corr = s.pcie.corr ||| 0x4000#32)
end

