-- ==== Sys2Proof/Laws/SMap.lean ====
section
/-! SUPPORT. Sparse maps: reading after writing, and the canonical form, which every operation keeps. -/

namespace Sys2Proof

variable {α : Type} [DecidableEq α] {d : α}

/-- What `SMap.wfFrom` says of a list with a first entry. -/
theorem SMap.wfFrom_cons {lo k : Nat} {v : α} {m : SMap α} :
    SMap.wfFrom d lo ((k, v) :: m) = true ↔ lo ≤ k ∧ v ≠ d ∧ SMap.wfFrom d (k + 1) m = true := by
  simp [SMap.wfFrom, and_assoc]

theorem SMap.wfFrom_mono {lo lo' : Nat} (hl : lo' ≤ lo) {m : SMap α} (h : SMap.wfFrom d lo m = true) :
    SMap.wfFrom d lo' m = true := by
  cases m with
  | nil => rfl
  | cons c m =>
    obtain ⟨h1, h2⟩ := SMap.wfFrom_cons.1 h
    exact SMap.wfFrom_cons.2 ⟨Nat.le_trans hl h1, h2⟩

theorem SMap.wfFrom_set {m : SMap α} {lo n : Nat} {x : α} (hn : lo ≤ n) (h : SMap.wfFrom d lo m = true) :
    SMap.wfFrom d lo (SMap.set d m n x) = true := by
  induction m generalizing lo with
  | nil =>
    unfold SMap.set
    split
    · rfl
    · exact SMap.wfFrom_cons.2 ⟨hn, ‹_›, rfl⟩
  | cons c m ih =>
    obtain ⟨k, v⟩ := c
    obtain ⟨h1, h2, h3⟩ := SMap.wfFrom_cons.1 h
    unfold SMap.set
    split
    · split
      · exact h
      · exact SMap.wfFrom_cons.2 ⟨hn, ‹_›, SMap.wfFrom_cons.2 ⟨by omega, h2, h3⟩⟩
    · split
      · split
        · exact SMap.wfFrom_mono (by omega) h3
        · exact SMap.wfFrom_cons.2 ⟨hn, ‹_›, by subst_vars; exact h3⟩
      · exact SMap.wfFrom_cons.2 ⟨h1, h2, ih (by omega) h3⟩

/-- Writing an entry keeps the canonical form. -/
theorem SMap.wf_set {m : SMap α} (n : Nat) (x : α) (h : SMap.wf d m = true) : SMap.wf d (SMap.set d m n x) = true :=
  SMap.wfFrom_set (Nat.zero_le n) h

/-- Changing an entry keeps the canonical form. -/
theorem SMap.wf_modify {m : SMap α} (n : Nat) (f : α → α) (h : SMap.wf d m = true) :
    SMap.wf d (SMap.modify d m n f) = true := SMap.wf_set n _ h

theorem SMap.wfFrom_filter {m : SMap α} {lo : Nat} (p : Nat × α → Bool) (h : SMap.wfFrom d lo m = true) :
    SMap.wfFrom d lo (m.filter p) = true := by
  induction m generalizing lo with
  | nil => rfl
  | cons c m ih =>
    obtain ⟨k, v⟩ := c
    obtain ⟨h1, h2, h3⟩ := SMap.wfFrom_cons.1 h
    rw [List.filter_cons]
    split
    · exact SMap.wfFrom_cons.2 ⟨h1, h2, ih h3⟩
    · exact ih (SMap.wfFrom_mono (by omega) h3)

/-- Leaving entries out keeps the canonical form. -/
theorem SMap.wf_filter {m : SMap α} (p : Nat × α → Bool) (h : SMap.wf d m = true) : SMap.wf d (m.filter p) = true :=
  SMap.wfFrom_filter p h

theorem SMap.wfFrom_mapVals {m : SMap α} {lo : Nat} (f : Nat → α → α) (h : SMap.wfFrom d lo m = true) :
    SMap.wfFrom d lo (SMap.mapVals d f m) = true := by
  induction m generalizing lo with
  | nil => rfl
  | cons c m ih =>
    obtain ⟨k, v⟩ := c
    obtain ⟨h1, _, h3⟩ := SMap.wfFrom_cons.1 h
    have hm : SMap.mapVals d f ((k, v) :: m) =
        if f k v = d then SMap.mapVals d f m else (k, f k v) :: SMap.mapVals d f m := by
      unfold SMap.mapVals
      by_cases hd : f k v = d <;> simp [hd]
    rw [hm]
    split
    · exact SMap.wfFrom_mono (by omega) (ih h3)
    · exact SMap.wfFrom_cons.2 ⟨h1, ‹_›, ih h3⟩

/-- Changing every value keeps the canonical form. -/
theorem SMap.wf_mapVals {m : SMap α} (f : Nat → α → α) (h : SMap.wf d m = true) :
    SMap.wf d (SMap.mapVals d f m) = true := SMap.wfFrom_mapVals f h

/-- A property that a change of values keeps holds of every listed value after it. -/
theorem SMap.all_mapVals {m : SMap α} (p : α → Bool) (f : Nat → α → α) (h : m.all (fun c => p c.2) = true)
    (hf : ∀ n x, p x = true → p (f n x) = true) : (SMap.mapVals d f m).all (fun c => p c.2) = true := by
  rw [List.all_eq_true] at h ⊢
  intro c hc
  obtain ⟨e, he, rfl⟩ := List.mem_map.1 (List.mem_filter.1 hc).1
  exact hf _ _ (h e he)

omit [DecidableEq α] in
/-- A property of every listed value and of the default holds of every value that is read. -/
theorem SMap.get_of_all {m : SMap α} (p : α → Bool) (hd : p d = true) (h : m.all (fun c => p c.2) = true) (n : Nat) :
    p (SMap.get d m n) = true := by
  induction m with
  | nil => exact hd
  | cons c m ih =>
    obtain ⟨k, v⟩ := c
    simp only [List.all_cons, Bool.and_eq_true] at h
    unfold SMap.get
    split
    · exact h.1
    · split
      · exact hd
      · exact ih h.2

/-- A property of every listed value holds after a value that has it is written. -/
theorem SMap.all_set {m : SMap α} (p : α → Bool) (h : m.all (fun c => p c.2) = true) (n : Nat) {x : α} (hx : p x = true) :
    (SMap.set d m n x).all (fun c => p c.2) = true := by
  induction m with
  | nil =>
    unfold SMap.set
    split
    · rfl
    · simp [hx]
  | cons c m ih =>
    obtain ⟨k, v⟩ := c
    simp only [List.all_cons, Bool.and_eq_true] at h
    unfold SMap.set
    split
    · split
      · simpa using h
      · simpa [hx] using h
    · split
      · split
        · exact h.2
        · simpa [hx] using h.2
      · simpa [h.1] using ih h.2

/-- Every key of a list whose keys start at `lo` is at least `lo`. -/
theorem SMap.le_key {m : SMap α} {lo : Nat} (h : SMap.wfFrom d lo m = true) {c : Nat × α} (hc : c ∈ m) : lo ≤ c.1 := by
  induction m generalizing lo with
  | nil => cases hc
  | cons e m ih =>
    obtain ⟨k, v⟩ := e
    obtain ⟨h1, _, h3⟩ := SMap.wfFrom_cons.1 h
    rcases List.mem_cons.1 hc with rfl | hc
    · exact h1
    · have := ih h3 hc
      omega

/-- A list whose keys are below `hi`, before one whose keys start there. -/
theorem SMap.wfFrom_append {a b : SMap α} {lo hi : Nat} (ha : SMap.wfFrom d lo a = true) (hlo : lo ≤ hi)
    (hk : ∀ c ∈ a, c.1 < hi) (hb : SMap.wfFrom d hi b = true) : SMap.wfFrom d lo (a ++ b) = true := by
  induction a generalizing lo with
  | nil => exact SMap.wfFrom_mono hlo hb
  | cons c a ih =>
    obtain ⟨k, v⟩ := c
    obtain ⟨h1, h2, h3⟩ := SMap.wfFrom_cons.1 ha
    have hkk : k < hi := hk (k, v) (by simp)
    refine SMap.wfFrom_cons.2 ⟨h1, h2, ih h3 (by omega) fun c hc => hk c (by simp [hc])⟩

/-- Keys that all move by the same distance keep their order. -/
theorem SMap.wfFrom_shift {m : SMap α} {lo src dst : Nat} (hs : src ≤ lo) (h : SMap.wfFrom d lo m = true) :
    SMap.wfFrom d (lo - src + dst) (m.map fun c => (c.1 - src + dst, c.2)) = true := by
  induction m generalizing lo with
  | nil => rfl
  | cons c m ih =>
    obtain ⟨k, v⟩ := c
    obtain ⟨h1, h2, h3⟩ := SMap.wfFrom_cons.1 h
    refine SMap.wfFrom_cons.2 ⟨by simp only; omega, h2, ?_⟩
    exact SMap.wfFrom_mono (by simp only; omega) (ih (by omega) h3)

/-- A list that starts at `lo` starts at any `lo'` that none of its keys is below. -/
theorem SMap.wfFrom_raise {m : SMap α} {lo lo' : Nat} (h : SMap.wfFrom d lo m = true) (hk : ∀ c ∈ m, lo' ≤ c.1) :
    SMap.wfFrom d lo' m = true := by
  cases m with
  | nil => rfl
  | cons c m =>
    obtain ⟨_, h2⟩ := SMap.wfFrom_cons.1 h
    exact SMap.wfFrom_cons.2 ⟨hk _ (by simp), h2⟩

theorem SMap.get_below {m : SMap α} {lo n : Nat} (h : SMap.wfFrom d lo m = true) (hn : n < lo) : SMap.get d m n = d := by
  cases m with
  | nil => rfl
  | cons c m =>
    obtain ⟨k, v⟩ := c
    obtain ⟨h1, _⟩ := SMap.wfFrom_cons.1 h
    unfold SMap.get
    rw [if_neg (by omega), if_pos (by omega)]

theorem SMap.get_set_from {m : SMap α} {lo : Nat} (h : SMap.wfFrom d lo m = true) (n k : Nat) (x : α) :
    SMap.get d (SMap.set d m n x) k = if k = n then x else SMap.get d m k := by
  induction m generalizing lo with
  | nil =>
    by_cases hx : x = d <;> by_cases hk : k = n <;> simp [SMap.set, SMap.get, hx, hk, eq_comm]
    intro hnk
    exact absurd hnk.symm (by simpa [eq_comm] using hk)
  | cons c m ih =>
    obtain ⟨j, v⟩ := c
    obtain ⟨h1, h2, h3⟩ := SMap.wfFrom_cons.1 h
    have hlow : ∀ i, i ≤ j → i ≠ j → SMap.get d ((j, v) :: m) i = d := by
      intro i hi hne
      unfold SMap.get
      rw [if_neg (by omega), if_pos (by omega)]
    unfold SMap.set
    split
    · split
      · split
        · subst_vars; exact hlow _ (by omega) (by omega)
        · rfl
      · split
        · subst_vars; simp [SMap.get]
        · conv => lhs; unfold SMap.get
          rw [if_neg (by omega)]
          split
          · exact (hlow _ (by omega) (by omega)).symm
          · rfl
    · split
      · split
        · split
          · subst_vars
            exact SMap.get_below h3 (by omega)
          · subst_vars
            conv => rhs; unfold SMap.get
            rw [if_neg (by omega)]
            split
            · exact SMap.get_below h3 (by omega)
            · rfl
        · split
          · subst_vars; simp [SMap.get]
          · conv => lhs; unfold SMap.get
            conv => rhs; unfold SMap.get
            subst_vars
            rw [if_neg (show ¬j = k by omega), if_neg (show ¬j = k by omega)]
      · conv => lhs; unfold SMap.get
        by_cases hk : j = k
        · rw [if_pos hk, if_neg (by omega)]
          subst_vars
          simp [SMap.get]
        · rw [if_neg hk, ih h3]
          conv => rhs; rhs; unfold SMap.get
          rw [if_neg hk]
          split
          · rw [if_neg (by omega)]
          · rfl

/-- A map in canonical form reads as its last write at every key. -/
theorem SMap.get_set {m : SMap α} (h : SMap.wf d m = true) (n k : Nat) (x : α) :
    SMap.get d (SMap.set d m n x) k = if k = n then x else SMap.get d m k := SMap.get_set_from h n k x

theorem SMap.get_set_same {m : SMap α} (h : SMap.wf d m = true) (n : Nat) (x : α) :
    SMap.get d (SMap.set d m n x) n = x := by rw [SMap.get_set h, if_pos rfl]

theorem SMap.get_set_other {m : SMap α} (h : SMap.wf d m = true) {n k : Nat} (hk : k ≠ n) (x : α) :
    SMap.get d (SMap.set d m n x) k = SMap.get d m k := by rw [SMap.get_set h, if_neg hk]

/-- Entries that a filter on keys leaves in read as before; the others read as the default. -/
theorem SMap.get_filter {m : SMap α} {lo : Nat} (h : SMap.wfFrom d lo m = true) (p : Nat → Bool) (k : Nat) :
    SMap.get d (m.filter fun c => p c.1) k = if p k then SMap.get d m k else d := by
  induction m generalizing lo with
  | nil => simp [SMap.get]
  | cons c m ih =>
    obtain ⟨j, v⟩ := c
    obtain ⟨_, _, h3⟩ := SMap.wfFrom_cons.1 h
    rw [List.filter_cons]
    by_cases hj : p j = true
    · rw [if_pos hj]
      conv => lhs; unfold SMap.get
      conv => rhs; arg 2; unfold SMap.get
      by_cases hk : j = k
      · subst hk; simp [hj]
      · rw [if_neg hk, if_neg hk]
        split
        · simp
        · exact ih h3
    · rw [if_neg hj, ih h3]
      by_cases hk : j = k
      · subst hk; simp [hj]
      · conv => rhs; arg 2; unfold SMap.get
        rw [if_neg hk]
        split
        · split
          · exact SMap.get_below h3 (by omega)
          · rfl
        · rfl

end Sys2Proof
end

