-- ==== Sys2Proof/Laws/Memory.lean ====
section
/-! SUPPORT. Device memory: every operation keeps the canonical form of the byte list, a byte reads as what was last
written to it, and a write changes no other byte. -/

namespace Sys2Proof.Machine

/-! ## The canonical form -/

theorem cellsWrite_wf {cells : SMap Byte} (a : Nat) (bs : List Byte) (h : Memory.wf cells = true) :
    Memory.wf (cellsWrite cells a bs) = true := by
  induction bs generalizing a cells with
  | nil => exact h
  | cons b bs ih => exact ih (a + 1) (SMap.wf_set a b h)

theorem cellsClear_wf {cells : SMap Byte} (a n : Nat) (h : Memory.wf cells = true) :
    Memory.wf (cellsClear a n cells) = true := SMap.wf_filter _ h

theorem cellsCopy_wf {cells : SMap Byte} (src dst n : Nat) (h : Memory.wf cells = true) :
    Memory.wf (cellsCopy src dst n cells) = true := by
  have hmid : SMap.wfFrom memDefault dst
      ((cells.filter fun c => decide (src ≤ c.1) && decide (c.1 < src + n)).map fun c => (c.1 - src + dst, c.2)) = true := by
    have hf : SMap.wfFrom memDefault src (cells.filter fun c => decide (src ≤ c.1) && decide (c.1 < src + n)) = true :=
      SMap.wfFrom_raise (SMap.wfFrom_filter _ h) (by simp; omega)
    simpa using SMap.wfFrom_shift (dst := dst) (Nat.le_refl src) hf
  have hhi : SMap.wfFrom memDefault (dst + n) (cells.filter fun c => decide (dst + n ≤ c.1)) = true :=
    SMap.wfFrom_raise (SMap.wfFrom_filter _ h) (by simp)
  unfold cellsCopy
  rw [List.append_assoc]
  refine SMap.wfFrom_append (SMap.wf_filter _ h) (Nat.zero_le dst) (by simp) ?_
  refine SMap.wfFrom_append hmid (Nat.le_add_right _ _) ?_ hhi
  intro c hc
  simp only [List.mem_map, List.mem_filter, Bool.and_eq_true, decide_eq_true_eq] at hc
  obtain ⟨e, ⟨_, h1, h2⟩, rfl⟩ := hc
  simp only
  omega

theorem rawWrite_wf (a : Nat) (bs : List Byte) {s : State} (h : Memory.wf s.mem.cells = true) :
    Memory.wf (rawWrite a bs s).mem.cells = true := cellsWrite_wf a bs h

theorem zeroRange_wf (a n : Nat) {s : State} (h : Memory.wf s.mem.cells = true) :
    Memory.wf (zeroRange a n s).mem.cells = true := cellsClear_wf a n h

theorem copyRange_wf (src dst n : Nat) {s : State} (h : Memory.wf s.mem.cells = true) :
    Memory.wf (copyRange src dst n s).mem.cells = true := cellsCopy_wf src dst n h

theorem ddrZero_wf {s : State} (h : Memory.wf s.mem.cells = true) : Memory.wf (ddrZero s).mem.cells = true :=
  cellsClear_wf _ _ h

theorem clearAll_wf (l : List LostExtent) {cells : SMap Byte} (h : Memory.wf cells = true) :
    Memory.wf (l.foldl (fun c e => cellsClear e.first e.count c) cells) = true := by
  induction l generalizing cells with
  | nil => exact h
  | cons e l ih => exact ih (cellsClear_wf _ _ h)

theorem loseAreas_wf (areas keep : List (Nat × Nat)) {s : State} (h : Memory.wf s.mem.cells = true) :
    Memory.wf (loseAreas areas keep s).mem.cells = true := clearAll_wf _ h

theorem unpoisonLine_cells (a : Nat) (s : State) : (unpoisonLine a s).mem.cells = s.mem.cells := by
  unfold unpoisonLine
  split <;> rfl

theorem poisonLine_cells (a : Nat) (s : State) : (poisonLine a s).mem.cells = s.mem.cells := by
  unfold poisonLine
  split
  · rfl
  · split <;> rfl

theorem pieceWrite_wf (a : Nat) (bs : List Byte) {s : State} (h : Memory.wf s.mem.cells = true) :
    Memory.wf (pieceWrite a bs s).mem.cells = true := by
  unfold pieceWrite
  split
  · exact h
  · split
    · rw [unpoisonLine_cells]
      exact rawWrite_wf a bs h
    · split
      · exact h
      · exact rawWrite_wf a bs h

theorem piecesWrite_wf (bad : List Nat) (ps : List (Nat × Nat)) (bs : List Byte) {s : State}
    (h : Memory.wf s.mem.cells = true) : Memory.wf (piecesWrite bad ps bs s).mem.cells = true := by
  induction ps generalizing bs s with
  | nil => exact h
  | cons p ps ih =>
    unfold piecesWrite
    split
    · exact ih _ h
    · exact ih _ (pieceWrite_wf _ _ h)

theorem memWrite_wf (a : Nat) (bs : List Byte) {s : State} (h : Memory.wf s.mem.cells = true) :
    Memory.wf (memWrite a bs s).mem.cells = true := piecesWrite_wf _ _ _ h

theorem scratchWrite_wf (core o : Nat) (bs : List Byte) {s : State} (h : Memory.wf s.mem.cells = true) :
    Memory.wf (scratchWrite core o bs s).mem.cells = true := by
  induction bs generalizing o s with
  | nil => exact h
  | cons b bs ih => exact ih _ (rawWrite_wf _ _ h)

/-- Memory right after reset has the canonical form. -/
theorem reset_memory_wf : Memory.wf State.reset.mem.cells = true := rfl

/-! ## Reading after writing -/

theorem get_cellsWrite {cells : SMap Byte} (h : Memory.wf cells = true) (a : Nat) (bs : List Byte) (x : Nat) :
    SMap.get memDefault (cellsWrite cells a bs) x =
      if a ≤ x ∧ x < a + bs.length then bs.getD (x - a) 0 else SMap.get memDefault cells x := by
  induction bs generalizing a cells with
  | nil =>
    rw [cellsWrite, if_neg (by simp only [List.length_nil]; omega)]
  | cons b bs ih =>
    rw [cellsWrite, ih (SMap.wf_set a b h), SMap.get_set h]
    by_cases hx : x = a
    · subst hx
      rw [if_neg (by omega), if_pos rfl, if_pos (by simp)]
      simp
    · by_cases hin : a + 1 ≤ x ∧ x < a + 1 + bs.length
      · rw [if_pos hin, if_pos (by simp; omega)]
        obtain ⟨k, rfl⟩ : ∃ k, x = a + 1 + k := ⟨x - (a + 1), by omega⟩
        rw [show a + 1 + k - (a + 1) = k by omega, show a + 1 + k - a = k + 1 by omega]
        simp
      · rw [if_neg hin, if_neg hx, if_neg (by simp; omega)]

theorem lostAt_append (l m : List LostExtent) (x : Nat) : lostAt (l ++ m) x = (lostAt l x).or (lostAt m x) := by
  induction l with
  | nil => simp [lostAt]
  | cons e l ih =>
    simp only [List.cons_append, lostAt]
    split <;> simp [ih]

theorem lostAt_cutLost (a n : Nat) (e : LostExtent) (x : Nat) :
    lostAt (cutLost a n e) x = if a ≤ x ∧ x < a + n then none else lostAt [e] x := by
  unfold cutLost
  rw [lostAt_append]
  by_cases h1 : e.first < a <;> by_cases h2 : a + n < e.first + e.count <;> simp only [h1, h2, if_true, if_false, lostAt] <;>
    (repeat' split) <;> simp <;> (try omega)
  all_goals (congr 1; omega)

/-- What is cut out of the open extents is open no more, and nothing else changes. -/
theorem lostAt_forgetLost (a n : Nat) (l : List LostExtent) (x : Nat) :
    lostAt (forgetLost a n l) x = if a ≤ x ∧ x < a + n then none else lostAt l x := by
  induction l with
  | nil => simp [forgetLost, lostAt]
  | cons e l ih =>
    have hc : forgetLost a n (e :: l) = cutLost a n e ++ forgetLost a n l := rfl
    rw [hc, lostAt_append, lostAt_cutLost, ih]
    by_cases hx : a ≤ x ∧ x < a + n
    · simp [hx]
    · rw [if_neg hx, if_neg hx, if_neg hx, ← lostAt_append]
      rfl

/-- A byte written reads as written; every other byte reads as before. -/
theorem memByte_rawWrite {s : State} (h : Memory.wf s.mem.cells = true) (a : Nat) (bs : List Byte) (x : Nat) :
    memByte (rawWrite a bs s) x = if a ≤ x ∧ x < a + bs.length then bs.getD (x - a) 0 else memByte s x := by
  have hc : (rawWrite a bs s).mem.cells = cellsWrite s.mem.cells a bs := rfl
  have hl : (rawWrite a bs s).mem.lost = forgetLost a bs.length s.mem.lost := rfl
  unfold memByte
  rw [hc, hl, lostAt_forgetLost, get_cellsWrite h]
  by_cases hx : a ≤ x ∧ x < a + bs.length
  · simp [hx]
  · simp [hx]

/-- A zeroed range reads as zero; every other byte reads as before. -/
theorem memByte_zeroRange {s : State} (h : Memory.wf s.mem.cells = true) (a n x : Nat) :
    memByte (zeroRange a n s) x = if a ≤ x ∧ x < a + n then 0 else memByte s x := by
  have hc : (zeroRange a n s).mem.cells = s.mem.cells.filter fun c => decide (c.1 < a) || decide (a + n ≤ c.1) := rfl
  have hl : (zeroRange a n s).mem.lost = forgetLost a n s.mem.lost := rfl
  unfold memByte
  rw [hc, hl, lostAt_forgetLost, SMap.get_filter h fun k => decide (k < a) || decide (a + n ≤ k)]
  by_cases hx : a ≤ x ∧ x < a + n
  · have : ¬(x < a) ∧ ¬(a + n ≤ x) := by omega
    simp [hx, this]
  · have : x < a ∨ a + n ≤ x := by omega
    simp [hx, this]

end Sys2Proof.Machine
end

