-- ==== Sys2Proof/Laws/EvolveBase.lean ====
section
/-! SUPPORT. `Evolves` is a preorder that the updates of the state's units keep. -/

namespace Sys2Proof.Machine

theorem Evolves.refl (s : State) : Evolves s s :=
  ⟨rfl, ⟨[], by simp⟩, Nat.le_refl _, Nat.le_refl _, rfl, fun h => h⟩

theorem Evolves.trans {a b c : State} (h : Evolves a b) (k : Evolves b c) : Evolves a c :=
  ⟨k.queue.trans h.queue,
    let ⟨l, hl⟩ := h.out
    let ⟨m, hm⟩ := k.out
    ⟨l ++ m, by rw [hm, hl, List.append_assoc]⟩,
    Nat.le_trans h.fresh k.fresh, Nat.le_trans h.version k.version, k.fuse.trans h.fuse,
    fun w => k.canonical (h.canonical w)⟩

/-- What the canonical form of a state says of its units. -/
theorem State.canonical_iff (s : State) : s.canonical = true ↔
    s.mem.canonical = true ∧ s.host.canonical = true ∧ s.time.canonical = true ∧ s.fw.canonical = true ∧
      s.evg.canonical = true ∧ s.video.canonical = true ∧ SMap.wf {} s.cores = true ∧
      s.cores.all (fun c => c.2.canonical) = true ∧ SMap.wf {} s.ppu = true ∧ SMap.wf 0 s.gens = true := by
  simp [State.canonical, and_assoc]

/-- Right after reset every map is in canonical form. -/
theorem reset_canonical : State.reset.canonical = true := by decide

/-- A fact about an intermediate state, for what follows from it. -/
theorem Evolves.cut {z : State} {p : Prop} (x : State) (h : Evolves z x) (k : Evolves z x → p) : p := k h

/-- A state that differs in units of which `Evolves` reads the canonical form only. -/
theorem Evolves.same {z s t : State} (h : Evolves z s) (h1 : t.pending = s.pending) (h2 : t.out = s.out)
    (h3 : t.fresh = s.fresh) (h4 : t.sec = s.sec) (h5 : s.canonical = true → t.canonical = true) : Evolves z t :=
  ⟨h1.trans h.queue, h2 ▸ h.out, h3 ▸ h.fresh, h4 ▸ h.version, by unfold fuses at *; rw [h4]; exact h.fuse,
    fun w => h5 (h.canonical w)⟩

theorem Evolves.foldl {α : Type} {z : State} (f : State → α → State) (l : List α) (s : State) (h : Evolves z s)
    (hf : ∀ s x, Evolves z s → Evolves z (f s x)) : Evolves z (l.foldl f s) := by
  induction l generalizing s with
  | nil => exact h
  | cons x l ih => exact ih _ (hf _ _ h)

theorem Evolves.next {z s : State} (h : Evolves z s) : Evolves.outcome z (.next s) :=
  ⟨fun t e => by cases e; exact h⟩

theorem Evolves.fault (z : State) (r : Fault) : Evolves.outcome z (.fault r) :=
  ⟨fun t e => by cases e⟩

/-- What the own part of a command comes to is a later state. -/
def Evolves.reply (z : State) : Reply → Prop
  | .ok t _ => Evolves z t
  | .fail _ _ _ => True
  | .counted t _ _ _ => Evolves z t
  | .wait t => Evolves z t

theorem Evolves.replyOk {z s : State} {r : List Byte} (h : Evolves z s) : Evolves.reply z (.ok s r) := h

theorem Evolves.replyFail (z : State) (st d : Nat) (r : List Byte) : Evolves.reply z (.fail st d r) := True.intro

theorem Evolves.replyCounted {z s : State} {st d : Nat} {r : List Byte} (h : Evolves z s) :
    Evolves.reply z (.counted s st d r) := h

theorem Evolves.replyWait {z s : State} (h : Evolves z s) : Evolves.reply z (.wait s) := h

theorem Evolves.memSame {z s : State} (f : MemUnit → MemUnit) (h : Evolves z s)
    (hf : s.mem.canonical = true → (f s.mem).canonical = true) : Evolves z (s.modMem f) := by
  refine ⟨h.1, h.2, h.3, h.4, h.5, fun w => ?_⟩
  obtain ⟨h0, h1, h2, h3, h4, h5, hr⟩ := (State.canonical_iff s).1 (h.6 w)
  exact (State.canonical_iff _).2 ⟨hf h0, h1, h2, h3, h4, h5, hr⟩

theorem Evolves.hostSame {z s : State} (f : HostUnit → HostUnit) (h : Evolves z s)
    (hf : s.host.canonical = true → (f s.host).canonical = true) : Evolves z (s.modHost f) := by
  refine ⟨h.1, h.2, h.3, h.4, h.5, fun w => ?_⟩
  obtain ⟨h0, h1, h2, h3, h4, h5, hr⟩ := (State.canonical_iff s).1 (h.6 w)
  exact (State.canonical_iff _).2 ⟨h0, hf h1, h2, h3, h4, h5, hr⟩

theorem Evolves.timeSame {z s : State} (f : TimeUnitBlock → TimeUnitBlock) (h : Evolves z s)
    (hf : s.time.canonical = true → (f s.time).canonical = true) : Evolves z (s.modTime f) := by
  refine ⟨h.1, h.2, h.3, h.4, h.5, fun w => ?_⟩
  obtain ⟨h0, h1, h2, h3, h4, h5, hr⟩ := (State.canonical_iff s).1 (h.6 w)
  exact (State.canonical_iff _).2 ⟨h0, h1, hf h2, h3, h4, h5, hr⟩

theorem Evolves.fwSame {z s : State} (f : FwUnit → FwUnit) (h : Evolves z s)
    (hf : s.fw.canonical = true → (f s.fw).canonical = true) : Evolves z (s.modFw f) := by
  refine ⟨h.1, h.2, h.3, h.4, h.5, fun w => ?_⟩
  obtain ⟨h0, h1, h2, h3, h4, h5, hr⟩ := (State.canonical_iff s).1 (h.6 w)
  exact (State.canonical_iff _).2 ⟨h0, h1, h2, hf h3, h4, h5, hr⟩

theorem Evolves.evgSame {z s : State} (f : EvgUnit → EvgUnit) (h : Evolves z s)
    (hf : s.evg.canonical = true → (f s.evg).canonical = true) : Evolves z (s.modEvg f) := by
  refine ⟨h.1, h.2, h.3, h.4, h.5, fun w => ?_⟩
  obtain ⟨h0, h1, h2, h3, h4, h5, hr⟩ := (State.canonical_iff s).1 (h.6 w)
  exact (State.canonical_iff _).2 ⟨h0, h1, h2, h3, hf h4, h5, hr⟩

theorem Evolves.videoSame {z s : State} (f : VideoUnit → VideoUnit) (h : Evolves z s)
    (hf : s.video.canonical = true → (f s.video).canonical = true) : Evolves z (s.modVideo f) := by
  refine ⟨h.1, h.2, h.3, h.4, h.5, fun w => ?_⟩
  obtain ⟨h0, h1, h2, h3, h4, h5, hr⟩ := (State.canonical_iff s).1 (h.6 w)
  exact (State.canonical_iff _).2 ⟨h0, h1, h2, h3, h4, hf h5, hr⟩

theorem Evolves.coresSame {z s : State} (f : SMap ComputeCore → SMap ComputeCore) (h : Evolves z s)
    (hf : SMap.wf {} s.cores = true ∧ s.cores.all (fun c => c.2.canonical) = true →
      SMap.wf {} (f s.cores) = true ∧ (f s.cores).all (fun c => c.2.canonical) = true) :
    Evolves z (s.modCores f) := by
  refine ⟨h.1, h.2, h.3, h.4, h.5, fun w => ?_⟩
  obtain ⟨h0, h1, h2, h3, h4, h5, h6, h7, hr⟩ := (State.canonical_iff s).1 (h.6 w)
  exact (State.canonical_iff _).2 ⟨h0, h1, h2, h3, h4, h5, (hf ⟨h6, h7⟩).1, (hf ⟨h6, h7⟩).2, hr⟩

theorem Evolves.ppuSame {z s : State} (f : SMap PpuUnit → SMap PpuUnit) (h : Evolves z s)
    (hf : SMap.wf {} s.ppu = true → SMap.wf {} (f s.ppu) = true) : Evolves z (s.modPpu f) := by
  refine ⟨h.1, h.2, h.3, h.4, h.5, fun w => ?_⟩
  obtain ⟨h0, h1, h2, h3, h4, h5, h6, h7, h8, h9⟩ := (State.canonical_iff s).1 (h.6 w)
  exact (State.canonical_iff _).2 ⟨h0, h1, h2, h3, h4, h5, h6, h7, hf h8, h9⟩

theorem Evolves.gensSame {z s : State} (f : SMap Nat → SMap Nat) (h : Evolves z s)
    (hf : SMap.wf 0 s.gens = true → SMap.wf 0 (f s.gens) = true) : Evolves z (s.modGens f) := by
  refine ⟨h.1, h.2, h.3, h.4, h.5, fun w => ?_⟩
  obtain ⟨h0, h1, h2, h3, h4, h5, h6, h7, h8, h9⟩ := (State.canonical_iff s).1 (h.6 w)
  exact (State.canonical_iff _).2 ⟨h0, h1, h2, h3, h4, h5, h6, h7, h8, hf h9⟩

/-! ## What the canonical form of one unit says of its maps -/

theorem MemUnit.canonical_iff (m : MemUnit) :
    m.canonical = true ↔ Memory.wf m.cells = true ∧ SMap.wf {} m.ddr = true ∧ SMap.wf {} m.pil = true := by
  simp [MemUnit.canonical, and_assoc]

theorem HostUnit.canonical_iff (h : HostUnit) :
    h.canonical = true ↔ SMap.wf {} h.mboxes = true ∧ h.mboxes.all (fun m => SMap.wf 0 m.2.payload) = true ∧
      SMap.wf {} h.msix = true := by
  simp [HostUnit.canonical, and_assoc]

theorem VideoUnit.canonical_iff (v : VideoUnit) :
    v.canonical = true ↔ SMap.wf {} v.engines = true ∧ SMap.wf {} v.scalers = true := by
  simp [VideoUnit.canonical]

theorem ComputeCore.canonical_iff (c : ComputeCore) : c.canonical = true ↔
    SMap.wf (0, 0) c.ars = true ∧ SMap.wf [] c.vregs = true ∧ SMap.wf none c.masks = true ∧ SMap.wf {} c.arrays = true := by
  simp [ComputeCore.canonical, and_assoc]

/-- A core that stops stays canonical. -/
theorem ComputeCore.halt_canonical {c : ComputeCore} (h : c.canonical = true) : c.halt.canonical = true := by
  obtain ⟨h1, h2, h3, _⟩ := (ComputeCore.canonical_iff c).1 h
  exact (ComputeCore.canonical_iff _).2 ⟨h1, h2, h3, rfl⟩

/-- A core of a canonical state is canonical. -/
theorem State.core_canonical {s : State} (h : s.canonical = true) (n : Nat) : (s.core n).canonical = true :=
  SMap.get_of_all _ rfl ((State.canonical_iff s).1 h).2.2.2.2.2.2.2.1 n

theorem EvgUnit.canonical_iff (e : EvgUnit) :
    e.canonical = true ↔ SMap.wf {} e.sources = true ∧ e.saved.all (SMap.wf {}) = true := by
  simp [EvgUnit.canonical]

/-- A change of the byte list and of what has no map. -/
theorem Evolves.cellsSame {z s : State} (f : MemUnit → MemUnit) (h : Evolves z s)
    (h1 : Memory.wf s.mem.cells = true → Memory.wf (f s.mem).cells = true) (h2 : (f s.mem).ddr = s.mem.ddr)
    (h3 : (f s.mem).pil = s.mem.pil) : Evolves z (s.modMem f) :=
  Evolves.memSame f h fun w =>
    have ⟨a, b, c⟩ := (MemUnit.canonical_iff _).1 w
    (MemUnit.canonical_iff _).2 ⟨h1 a, h2 ▸ b, h3 ▸ c⟩

theorem Evolves.secSame {z s : State} (f : SecUnit → SecUnit) (h : Evolves z s)
    (h1 : s.sec.securityVersion ≤ (f s.sec).securityVersion)
    (h2 : ((f s.sec).fkRevoked, (f s.sec).required, (f s.sec).jtagDisable) =
      (s.sec.fkRevoked, s.sec.required, s.sec.jtagDisable)) : Evolves z (s.modSec f) :=
  ⟨h.1, h.2, h.3, Nat.le_trans h.4 h1, h2.trans h.5, h.6⟩

theorem Evolves.ite {z a b : State} {c : Prop} [Decidable c] (ha : Evolves z a) (hb : Evolves z b) :
    Evolves z (if c then a else b) := by
  split
  · exact ha
  · exact hb

/-- The state that an operation may answer is a later one. -/
def Evolves.option (z : State) : Option State → Prop
  | none => True
  | some t => Evolves z t

theorem Evolves.none (z : State) : Evolves.option z none := True.intro

theorem Evolves.some {z s : State} (h : Evolves z s) : Evolves.option z (some s) := h

/-- The state of a pair is a later one. -/
def Evolves.snd {α : Type} (z : State) (x : α × State) : Prop := Evolves z x.2

theorem Evolves.mkSnd {α : Type} {z s : State} {a : α} (h : Evolves z s) : Evolves.snd z (a, s) := h

theorem Evolves.projSnd {α : Type} {z : State} {x : α × State} (h : Evolves.snd z x) : Evolves z x.2 := h

theorem Evolves.ofSnd {α : Type} {z t : State} {x : α × State} {a : α} (h : Evolves.snd z x) (e : x = (a, t)) :
    Evolves z t := by
  subst e
  exact h

/-- The state of a pair that may be there is a later one. -/
def Evolves.optSnd {α : Type} (z : State) : Option (α × State) → Prop
  | Option.none => True
  | Option.some x => Evolves z x.2

theorem Evolves.optNone {α : Type} (z : State) : Evolves.optSnd z (Option.none : Option (α × State)) := True.intro

theorem Evolves.optSome {α : Type} {z s : State} {a : α} (h : Evolves z s) : Evolves.optSnd z (Option.some (a, s)) := h

theorem Evolves.ofOptSnd {α : Type} {z t : State} {x : Option (α × State)} {a : α} (h : Evolves.optSnd z x)
    (e : x = Option.some (a, t)) : Evolves z t := by
  subst e
  exact h

theorem Evolves.ofOption {z t : State} {x : Option State} (h : Evolves.option z x) (e : x = Option.some t) :
    Evolves z t := by
  subst e
  exact h

theorem Evolves.optionMap {α : Type} {z : State} (f : α → State) (x : Option α) (h : ∀ a, Evolves z (f a)) :
    Evolves.option z (x.map f) := by
  cases x with
  | none => exact True.intro
  | some a => exact h a

end Sys2Proof.Machine
end

