-- ==== Sys2Proof/Laws/CoreUnit.lean ====
section
/-! SUPPORT. What the operations of a compute core leave as it was, and the canonical form of its maps, which all keep. -/

namespace Sys2Proof

open Machine

variable {c : ComputeCore}

/-- The canonical form reads four maps of the core. -/
theorem ComputeCore.canonical_like {k : ComputeCore} (h : c.canonical = true) (h1 : k.ars = c.ars) (h2 : k.vregs = c.vregs)
    (h3 : k.masks = c.masks) (h4 : k.arrays = c.arrays) : k.canonical = true := by
  unfold ComputeCore.canonical at *
  rw [h1, h2, h3, h4]
  exact h

theorem ComputeCore.setAr_canonical (n : Nat) (a st : Int) (h : c.canonical = true) : (c.setAr n a st).canonical = true := by
  obtain ⟨h1, h2, h3, h4⟩ := (Machine.ComputeCore.canonical_iff c).1 h
  exact (Machine.ComputeCore.canonical_iff _).2 ⟨SMap.wf_set _ _ h1, h2, h3, h4⟩

theorem ComputeCore.setVreg_canonical (n : Nat) (bs : List Byte) (h : c.canonical = true) :
    (c.setVreg n bs).canonical = true := by
  obtain ⟨h1, h2, h3, h4⟩ := (Machine.ComputeCore.canonical_iff c).1 h
  exact (Machine.ComputeCore.canonical_iff _).2 ⟨h1, SMap.wf_set _ _ h2, h3, h4⟩

theorem ComputeCore.modArray_canonical (n : Nat) (f : Array4 → Array4) (h : c.canonical = true) :
    (c.modArray n f).canonical = true := by
  obtain ⟨h1, h2, h3, h4⟩ := (Machine.ComputeCore.canonical_iff c).1 h
  exact (Machine.ComputeCore.canonical_iff _).2 ⟨h1, h2, h3, SMap.wf_modify _ _ h4⟩

theorem ComputeCore.setMask_canonical (a l b : Nat) (e : Bool) (h : c.canonical = true) :
    (c.setMask a l b e).canonical = true := by
  obtain ⟨h1, h2, h3, h4⟩ := (Machine.ComputeCore.canonical_iff c).1 h
  exact (Machine.ComputeCore.canonical_iff _).2 ⟨h1, h2, SMap.wf_set _ _ h3, h4⟩

theorem ComputeCore.lane2_canonical (f : LaneFmt) (vd va vb : Nat) (op : Nat → Nat → Nat) (h : c.canonical = true) :
    (c.lane2 f vd va vb op).canonical = true := setVreg_canonical _ _ h

theorem ComputeCore.lane1_canonical (f : LaneFmt) (vd va : Nat) (op : W32 → W32) (h : c.canonical = true) :
    (c.lane1 f vd va op).canonical = true := setVreg_canonical _ _ h

theorem ComputeCore.groups_canonical (f : LaneFmt) (vd va : Nat) (op : List Nat → Nat) (h : c.canonical = true) :
    (c.groups f vd va op).canonical = true := setVreg_canonical _ _ h

theorem ComputeCore.setPair_canonical (vd : Nat) (xs ys : List Nat) (h : c.canonical = true) :
    (c.setPair vd xs ys).canonical = true := setVreg_canonical _ _ (setVreg_canonical _ _ h)

theorem ComputeCore.convert_canonical (f : LaneFmt) (vd va t p : Nat) (h : c.canonical = true) :
    (c.convert f vd va t p).canonical = true := setVreg_canonical _ _ h

theorem ComputeCore.modQueue_canonical (sh : Nat) (f : List ShuttleJob → List ShuttleJob) (h : c.canonical = true) :
    (c.modQueue sh f).canonical = true := by
  unfold ComputeCore.modQueue
  split <;> exact h

theorem ComputeCore.slips_canonical (k n : Nat) (h : c.canonical = true) : (c.slips k n).canonical = true := h

theorem ComputeCore.goOn_canonical (b : Nat) (h : c.canonical = true) : (c.goOn b).canonical = true := h

theorem ComputeCore.jumpTo_canonical (b : Nat) (h : c.canonical = true) : (c.jumpTo b).canonical = true := h

theorem ComputeCore.fall_canonical (h : c.canonical = true) : c.fall.canonical = true := h

theorem ComputeCore.skipEmpty_canonical (code : List Byte) (n : Nat) (h : c.canonical = true) :
    (c.skipEmpty code n).canonical = true := by
  induction n generalizing c with
  | zero => exact h
  | succ n ih =>
    unfold ComputeCore.skipEmpty
    split
    · exact ih (goOn_canonical _ h)
    · exact h

theorem ComputeCore.enterLoop_canonical (l n b : Nat) (h : c.canonical = true) : (c.enterLoop l n b).canonical = true := by
  unfold ComputeCore.enterLoop
  split <;> exact h

theorem ComputeCore.applySkip_canonical (l : List Nat) (e : TileSkip) (h : c.canonical = true) :
    (c.applySkip l e).canonical = true := by
  unfold ComputeCore.applySkip
  split
  · exact h
  · split
    · exact setMask_canonical _ _ _ _ h
    · exact h

theorem ComputeCore.releaseKnot_canonical (n : Nat) (h : c.canonical = true) : (c.releaseKnot n).canonical = true := h

theorem ComputeCore.fresh_canonical (b : Nat) (r : W64) (st : Handle × Nat) : (c.fresh b r st).canonical = true := rfl

theorem ComputeCore.takeRows_canonical (sat : Bool) (a : Nat) (h : c.canonical = true) :
    (c.takeRows sat a).canonical = true := by
  unfold ComputeCore.takeRows
  dsimp only
  split
  · exact h
  · split
    · exact slips_canonical _ _ (modArray_canonical _ _ h)
    · exact modArray_canonical _ _ h

end Sys2Proof
end

