-- ==== Sys2Proof/Laws/EvolveOps.lean ====
section
/-! SUPPORT. What the operations of Sys2Proof.Machine.Ops never undo. -/

namespace Sys2Proof.Machine

theorem State.modObj_evolves {z : State} (f : Objects → Objects) (s : State) (h : Evolves z s) : Evolves z
    (s.modObj f) :=
  ⟨h.1, h.2, h.3, h.4, h.5, h.6⟩

theorem State.modPcie_evolves {z : State} (f : PcieUnit → PcieUnit) (s : State) (h : Evolves z s) : Evolves z
    (s.modPcie f) :=
  ⟨h.1, h.2, h.3, h.4, h.5, h.6⟩

theorem State.modPower_evolves {z : State} (f : PowerUnit → PowerUnit) (s : State) (h : Evolves z s) : Evolves z
    (s.modPower f) :=
  ⟨h.1, h.2, h.3, h.4, h.5, h.6⟩

theorem State.modPair_evolves {z : State} (f : PairUnit → PairUnit) (s : State) (h : Evolves z s) : Evolves z
    (s.modPair f) :=
  ⟨h.1, h.2, h.3, h.4, h.5, h.6⟩

theorem State.modBoard_evolves {z : State} (f : BoardUnit → BoardUnit) (s : State) (h : Evolves z s) : Evolves z
    (s.modBoard f) :=
  ⟨h.1, h.2, h.3, h.4, h.5, h.6⟩

theorem State.modCtr_evolves {z : State} (f : CardCounters → CardCounters) (s : State) (h : Evolves z s) : Evolves z
    (s.modCtr f) :=
  ⟨h.1, h.2, h.3, h.4, h.5, h.6⟩

theorem State.useFresh_evolves {z s : State} (h : Evolves z s) : Evolves z s.useFresh :=
  ⟨h.1, h.2, Nat.le_succ_of_le h.3, h.4, h.5, h.6⟩

theorem State.useFreshN_evolves {z : State} (n : Nat) (s : State) (h : Evolves z s) : Evolves z (s.useFreshN n) :=
  ⟨h.1, h.2, Nat.le_trans h.3 (Nat.le_add_right _ _), h.4, h.5, h.6⟩

theorem State.push_evolves {z : State} (m : OutMsg) (s : State) (h : Evolves z s) : Evolves z (s.push m) :=
  h.trans ⟨rfl, ⟨[m], rfl⟩, Nat.le_refl _, Nat.le_refl _, rfl, fun h => h⟩

theorem State.pushLink_evolves {z : State} (m : OutMsg) (s : State) (h_ : Evolves z s) :
    Evolves z (State.pushLink m s) := by
  unfold State.pushLink
  repeat' (first
    | intro _ | with_reducible assumption
    | with_reducible apply State.push_evolves
    | with_reducible apply State.modPcie_evolves
    | with_reducible refine Evolves.ofSnd ?_ (by with_reducible assumption)
    | with_reducible refine Evolves.ofOptSnd ?_ (by with_reducible assumption)
    | with_reducible refine Evolves.ofOption ?_ (by with_reducible assumption)
    | with_reducible apply Evolves.some
    | with_reducible apply Evolves.none
    | with_reducible apply Evolves.mkSnd
    | with_reducible apply Evolves.projSnd
    | with_reducible apply Evolves.optSome
    | with_reducible apply Evolves.optNone
    | with_reducible apply Evolves.foldl
    | with_reducible apply Evolves.replyOk
    | with_reducible apply Evolves.replyFail
    | with_reducible apply Evolves.replyCounted
    | with_reducible apply Evolves.replyWait
    | with_reducible apply Evolves.next
    | with_reducible apply Evolves.fault
    | with_reducible apply Evolves.ite
    | (with_reducible exact Evolves.same ‹_› rfl rfl rfl rfl rfl) | split)

theorem State.modCore_evolves {z : State} (n : Nat) (f : ComputeCore → ComputeCore) (s : State)
    (hf : (s.core n).canonical = true → (f (s.core n)).canonical = true) (h_ : Evolves z s) :
    Evolves z (s.modCore n f) :=
  Evolves.coresSame _ h_ fun h =>
    ⟨SMap.wf_modify _ _ h.1, SMap.all_set _ h.2 _ (hf (SMap.get_of_all _ rfl h.2 n))⟩

theorem State.modMbox_evolves {z : State} (m : Nat) (f : Mailbox → Mailbox) (s : State)
    (hf : SMap.wf 0 (s.mbox m).payload = true → SMap.wf 0 (f (s.mbox m)).payload = true) (h_ : Evolves z s) :
    Evolves z (s.modMbox m f) := by
  refine Evolves.hostSame _ h_ fun h => ?_
  obtain ⟨h1, h2, h3⟩ := (HostUnit.canonical_iff _).1 h
  refine (HostUnit.canonical_iff _).2 ⟨SMap.wf_modify _ _ h1, ?_, h3⟩
  exact SMap.all_set (fun x : Mailbox => SMap.wf 0 x.payload) h2 _
    (hf (SMap.get_of_all (fun x : Mailbox => SMap.wf 0 x.payload) rfl h2 m))

theorem State.modCc_evolves {z : State} (c : Nat) (f : ControlCore → ControlCore) (s : State) (h_ : Evolves z s) :
    Evolves z (s.modCc c f) := Evolves.fwSame _ h_ fun h => SMap.wf_modify _ _ h

theorem State.modSrc_evolves {z : State} (n : Nat) (f : EvgSource → EvgSource) (s : State) (h_ : Evolves z s) :
    Evolves z (s.modSrc n f) :=
  Evolves.evgSame _ h_ fun h =>
    (EvgUnit.canonical_iff _).2 ⟨SMap.wf_modify _ _ ((EvgUnit.canonical_iff _).1 h).1, ((EvgUnit.canonical_iff _).1 h).2⟩

theorem State.modDdr_evolves {z : State} (c : Nat) (f : DdrChannel → DdrChannel) (s : State) (h_ : Evolves z s) :
    Evolves z (s.modDdr c f) :=
  Evolves.memSame _ h_ fun h =>
    have ⟨h1, h2, h3⟩ := (MemUnit.canonical_iff _).1 h
    (MemUnit.canonical_iff _).2 ⟨h1, SMap.wf_modify _ _ h2, h3⟩

theorem State.modEng_evolves {z : State} (e : Nat) (f : VideoEngine → VideoEngine) (s : State) (h_ : Evolves z s) :
    Evolves z (s.modEng e f) :=
  Evolves.videoSame _ h_ fun h =>
    have ⟨h1, h2⟩ := (VideoUnit.canonical_iff _).1 h
    (VideoUnit.canonical_iff _).2 ⟨SMap.wf_modify _ _ h1, h2⟩

theorem State.modScl_evolves {z : State} (u : Nat) (f : ScalerUnit → ScalerUnit) (s : State) (h_ : Evolves z s) :
    Evolves z (s.modScl u f) :=
  Evolves.videoSame _ h_ fun h =>
    have ⟨h1, h2⟩ := (VideoUnit.canonical_iff _).1 h
    (VideoUnit.canonical_iff _).2 ⟨h1, SMap.wf_modify _ _ h2⟩

theorem State.modPil_evolves {z : State} (k : Nat) (f : Pillow → Pillow) (s : State) (h_ : Evolves z s) :
    Evolves z (s.modPil k f) :=
  Evolves.memSame _ h_ fun h =>
    have ⟨h1, h2, h3⟩ := (MemUnit.canonical_iff _).1 h
    (MemUnit.canonical_iff _).2 ⟨h1, h2, SMap.wf_modify _ _ h3⟩

theorem State.modTu_evolves {z : State} (u : Nat) (f : TimeUnit → TimeUnit) (s : State) (h_ : Evolves z s) :
    Evolves z (s.modTu u f) := Evolves.timeSame _ h_ fun h => SMap.wf_modify _ _ h

theorem sendAs_evolves {z : State} (w : HostWait) (m : OutMsg) (s : State) (h_ : Evolves z s) :
    Evolves z (sendAs w m s) := by
  unfold sendAs
  repeat' (first
    | intro _ | with_reducible assumption
    | with_reducible apply State.pushLink_evolves
    | with_reducible apply State.modPcie_evolves
    | with_reducible refine Evolves.ofSnd ?_ (by with_reducible assumption)
    | with_reducible refine Evolves.ofOptSnd ?_ (by with_reducible assumption)
    | with_reducible refine Evolves.ofOption ?_ (by with_reducible assumption)
    | with_reducible apply Evolves.some
    | with_reducible apply Evolves.none
    | with_reducible apply Evolves.mkSnd
    | with_reducible apply Evolves.projSnd
    | with_reducible apply Evolves.optSome
    | with_reducible apply Evolves.optNone
    | with_reducible apply Evolves.foldl
    | with_reducible apply Evolves.replyOk
    | with_reducible apply Evolves.replyFail
    | with_reducible apply Evolves.replyCounted
    | with_reducible apply Evolves.replyWait
    | with_reducible apply Evolves.next
    | with_reducible apply Evolves.fault
    | with_reducible apply Evolves.ite
    | (with_reducible exact Evolves.same ‹_› rfl rfl rfl rfl rfl) | split)

theorem send_evolves {z : State} (m : OutMsg) (s : State) (h_ : Evolves z s) :
    Evolves z (send m s) := by
  unfold send
  repeat' (first
    | intro _ | with_reducible assumption
    | with_reducible apply sendAs_evolves
    | with_reducible refine Evolves.ofSnd ?_ (by with_reducible assumption)
    | with_reducible refine Evolves.ofOptSnd ?_ (by with_reducible assumption)
    | with_reducible refine Evolves.ofOption ?_ (by with_reducible assumption)
    | with_reducible apply Evolves.some
    | with_reducible apply Evolves.none
    | with_reducible apply Evolves.mkSnd
    | with_reducible apply Evolves.projSnd
    | with_reducible apply Evolves.optSome
    | with_reducible apply Evolves.optNone
    | with_reducible apply Evolves.foldl
    | with_reducible apply Evolves.replyOk
    | with_reducible apply Evolves.replyFail
    | with_reducible apply Evolves.replyCounted
    | with_reducible apply Evolves.replyWait
    | with_reducible apply Evolves.next
    | with_reducible apply Evolves.fault
    | with_reducible apply Evolves.ite
    | (with_reducible exact Evolves.same ‹_› rfl rfl rfl rfl rfl) | split)

theorem sendPage_evolves {z : State} (set : Handle) (addr : Nat) (bytes : List Byte) (contents : Bool) (s : State) (h_ : Evolves z s) :
    Evolves z (sendPage set addr bytes contents s) := by
  unfold sendPage
  repeat' (first
    | intro _ | with_reducible assumption
    | with_reducible apply sendAs_evolves
    | with_reducible refine Evolves.ofSnd ?_ (by with_reducible assumption)
    | with_reducible refine Evolves.ofOptSnd ?_ (by with_reducible assumption)
    | with_reducible refine Evolves.ofOption ?_ (by with_reducible assumption)
    | with_reducible apply Evolves.some
    | with_reducible apply Evolves.none
    | with_reducible apply Evolves.mkSnd
    | with_reducible apply Evolves.projSnd
    | with_reducible apply Evolves.optSome
    | with_reducible apply Evolves.optNone
    | with_reducible apply Evolves.foldl
    | with_reducible apply Evolves.replyOk
    | with_reducible apply Evolves.replyFail
    | with_reducible apply Evolves.replyCounted
    | with_reducible apply Evolves.replyWait
    | with_reducible apply Evolves.next
    | with_reducible apply Evolves.fault
    | with_reducible apply Evolves.ite
    | (with_reducible exact Evolves.same ‹_› rfl rfl rfl rfl rfl) | split)

theorem sendMsix_evolves {z : State} (v : Nat) (s : State) (h_ : Evolves z s) : Evolves z (sendMsix v s) := by
  unfold sendMsix
  repeat' (first
    | intro _ | with_reducible assumption | with_reducible apply State.pushLink_evolves
    | (refine Evolves.hostSame _ ?_ (fun h => h)) | (with_reducible exact Evolves.same ‹_› rfl rfl rfl rfl rfl)
    | split)

theorem sendPendingMsix_evolves {z : State} (s : State) (h_ : Evolves z s) : Evolves z (sendPendingMsix s) := by
  unfold sendPendingMsix
  repeat' (first
    | intro _ | with_reducible assumption
    | (extract_lets +onlyGivenNames x
       first
       | (refine Evolves.cut (z := z) x ?_ ?_
          rotate_left
          intro _
          clear_value x
          rotate_left
          unfold x
          clear x)
       | clear_value x)
    | (refine Evolves.hostSame _ ?_ (fun h => h)) | with_reducible apply State.pushLink_evolves
    | with_reducible apply Evolves.foldl | (with_reducible exact Evolves.same ‹_› rfl rfl rfl rfl rfl) | split)

theorem setCause_evolves {z : State} (bit : Nat) (s : State) (h_ : Evolves z s) : Evolves z (setCause bit s) := by
  unfold setCause
  repeat' (first
    | intro _ | with_reducible assumption
    | (extract_lets +onlyGivenNames x
       first
       | (refine Evolves.cut (z := z) x ?_ ?_
          rotate_left
          intro _
          clear_value x
          rotate_left
          unfold x
          clear x)
       | clear_value x)
    | (refine Evolves.hostSame _ ?_ (fun h => h)) | with_reducible apply sendMsix_evolves
    | (with_reducible exact Evolves.same ‹_› rfl rfl rfl rfl rfl) | split)

theorem logWrite_evolves {z : State} (core level : Nat) (args : List Nat) (s : State) (h_ : Evolves z s) : Evolves z
    (logWrite core level args s) := by
  unfold logWrite
  repeat' (first
    | intro _ | with_reducible assumption | (refine Evolves.fwSame _ ?_ (fun h => h))
    | (with_reducible exact Evolves.same ‹_› rfl rfl rfl rfl rfl))

theorem traceHit_evolves {z : State} (core t : Nat) (args : List Nat) (s : State) (h_ : Evolves z s) : Evolves z
    (traceHit core t args s) := by
  unfold traceHit
  repeat' (first
    | intro _ | with_reducible assumption | (refine Evolves.fwSame _ ?_ (fun h => h))
    | (with_reducible exact Evolves.same ‹_› rfl rfl rfl rfl rfl) | split)

theorem issued_evolves {z : State} (h : Handle) (s : State) (h_ : Evolves z s) : Evolves z (issued h s) :=
  Evolves.gensSame _ h_ fun w => SMap.wf_set _ _ w

theorem atDeadline_evolves {z : State} (d : Instr) (run : State → Result) (s : State)
    (hf : ∀ x0, Evolves z x0 → Evolves.outcome z (run x0)) (h_ : Evolves z s) :
    Evolves.outcome z (atDeadline d run s) := by
  unfold atDeadline
  split
  · exact Evolves.next ⟨h_.1, h_.2, h_.3, h_.4, h_.5, h_.6⟩
  · exact hf s h_

end Sys2Proof.Machine
end

