-- ==== Sys2Proof/Laws/EvolveAer.lean ====
section
/-! SUPPORT. What the operations of Sys2Proof.Machine.Aer never undo. -/

namespace Sys2Proof.Machine

theorem statusBit_evolves {z : State} (bit : Nat) (s : State) (h_ : Evolves z s) :
    Evolves z (statusBit bit s) := by
  unfold statusBit
  repeat' (first
    | intro _ | with_reducible assumption
    | with_reducible apply State.modPcie_evolves
    | with_reducible refine Evolves.ofSnd ?_ (by with_reducible assumption)
    | with_reducible refine Evolves.ofOptSnd ?_ (by with_reducible assumption)
    | with_reducible refine Evolves.ofOption ?_ (by with_reducible assumption)
    | with_reducible apply Evolves.some
    | with_reducible apply Evolves.none
    | with_reducible apply Evolves.mkSnd
    | with_reducible apply Evolves.projSnd
    | with_reducible apply Evolves.optSome
    | with_reducible apply Evolves.optNone
    | with_reducible apply Evolves.foldl
    | with_reducible apply Evolves.replyOk
    | with_reducible apply Evolves.replyFail
    | with_reducible apply Evolves.replyCounted
    | with_reducible apply Evolves.replyWait
    | with_reducible apply Evolves.next
    | with_reducible apply Evolves.fault
    | with_reducible apply Evolves.ite
    | (with_reducible exact Evolves.same ‹_› rfl rfl rfl rfl rfl) | split)

theorem errorMessage_evolves {z : State} (level : Nat) (s : State) (h_ : Evolves z s) :
    Evolves z (errorMessage level s) := by
  unfold errorMessage
  repeat' (first
    | intro _ | with_reducible assumption
    | (extract_lets +onlyGivenNames x
       first
       | (refine Evolves.cut (z := z) x ?_ ?_
          rotate_left
          intro _
          clear_value x
          rotate_left
          unfold x
          clear x)
       | clear_value x)
    | with_reducible apply statusBit_evolves
    | with_reducible apply State.push_evolves
    | with_reducible refine Evolves.ofSnd ?_ (by with_reducible assumption)
    | with_reducible refine Evolves.ofOptSnd ?_ (by with_reducible assumption)
    | with_reducible refine Evolves.ofOption ?_ (by with_reducible assumption)
    | with_reducible apply Evolves.some
    | with_reducible apply Evolves.none
    | with_reducible apply Evolves.mkSnd
    | with_reducible apply Evolves.projSnd
    | with_reducible apply Evolves.optSome
    | with_reducible apply Evolves.optNone
    | with_reducible apply Evolves.foldl
    | with_reducible apply Evolves.replyOk
    | with_reducible apply Evolves.replyFail
    | with_reducible apply Evolves.replyCounted
    | with_reducible apply Evolves.replyWait
    | with_reducible apply Evolves.next
    | with_reducible apply Evolves.fault
    | with_reducible apply Evolves.ite
    | (with_reducible exact Evolves.same ‹_› rfl rfl rfl rfl rfl) | split)

theorem deviceStatus_evolves {z : State} (bits : Nat) (s : State) (h_ : Evolves z s) :
    Evolves z (deviceStatus bits s) := by
  unfold deviceStatus
  repeat' (first
    | intro _ | with_reducible assumption
    | with_reducible apply State.modPcie_evolves
    | with_reducible refine Evolves.ofSnd ?_ (by with_reducible assumption)
    | with_reducible refine Evolves.ofOptSnd ?_ (by with_reducible assumption)
    | with_reducible refine Evolves.ofOption ?_ (by with_reducible assumption)
    | with_reducible apply Evolves.some
    | with_reducible apply Evolves.none
    | with_reducible apply Evolves.mkSnd
    | with_reducible apply Evolves.projSnd
    | with_reducible apply Evolves.optSome
    | with_reducible apply Evolves.optNone
    | with_reducible apply Evolves.foldl
    | with_reducible apply Evolves.replyOk
    | with_reducible apply Evolves.replyFail
    | with_reducible apply Evolves.replyCounted
    | with_reducible apply Evolves.replyWait
    | with_reducible apply Evolves.next
    | with_reducible apply Evolves.fault
    | with_reducible apply Evolves.ite
    | (with_reducible exact Evolves.same ‹_› rfl rfl rfl rfl rfl) | split)

theorem correctableError_evolves {z : State} (bit : Nat) (s : State) (h_ : Evolves z s) :
    Evolves z (correctableError bit s) := by
  unfold correctableError
  repeat' (first
    | intro _ | with_reducible assumption
    | (extract_lets +onlyGivenNames x
       first
       | (refine Evolves.cut (z := z) x ?_ ?_
          rotate_left
          intro _
          clear_value x
          rotate_left
          unfold x
          clear x)
       | clear_value x)
    | with_reducible apply deviceStatus_evolves
    | with_reducible apply State.modPcie_evolves
    | with_reducible apply errorMessage_evolves
    | with_reducible refine Evolves.ofSnd ?_ (by with_reducible assumption)
    | with_reducible refine Evolves.ofOptSnd ?_ (by with_reducible assumption)
    | with_reducible refine Evolves.ofOption ?_ (by with_reducible assumption)
    | with_reducible apply Evolves.some
    | with_reducible apply Evolves.none
    | with_reducible apply Evolves.mkSnd
    | with_reducible apply Evolves.projSnd
    | with_reducible apply Evolves.optSome
    | with_reducible apply Evolves.optNone
    | with_reducible apply Evolves.foldl
    | with_reducible apply Evolves.replyOk
    | with_reducible apply Evolves.replyFail
    | with_reducible apply Evolves.replyCounted
    | with_reducible apply Evolves.replyWait
    | with_reducible apply Evolves.next
    | with_reducible apply Evolves.fault
    | with_reducible apply Evolves.ite
    | (with_reducible exact Evolves.same ‹_› rfl rfl rfl rfl rfl) | split)

theorem logHeader_evolves {z : State} (bit : Nat) (header : List Byte) (s : State) (h_ : Evolves z s) :
    Evolves z (logHeader bit header s) := by
  unfold logHeader
  repeat' (first
    | intro _ | with_reducible assumption
    | with_reducible apply State.modPcie_evolves
    | with_reducible refine Evolves.ofSnd ?_ (by with_reducible assumption)
    | with_reducible refine Evolves.ofOptSnd ?_ (by with_reducible assumption)
    | with_reducible refine Evolves.ofOption ?_ (by with_reducible assumption)
    | with_reducible apply Evolves.some
    | with_reducible apply Evolves.none
    | with_reducible apply Evolves.mkSnd
    | with_reducible apply Evolves.projSnd
    | with_reducible apply Evolves.optSome
    | with_reducible apply Evolves.optNone
    | with_reducible apply Evolves.foldl
    | with_reducible apply Evolves.replyOk
    | with_reducible apply Evolves.replyFail
    | with_reducible apply Evolves.replyCounted
    | with_reducible apply Evolves.replyWait
    | with_reducible apply Evolves.next
    | with_reducible apply Evolves.fault
    | with_reducible apply Evolves.ite
    | (with_reducible exact Evolves.same ‹_› rfl rfl rfl rfl rfl) | split)

theorem uncorrectableError_evolves {z : State} (bit : Nat) (advisory : Bool) (header : List Byte) (s : State) (h_ : Evolves z s) :
    Evolves z (uncorrectableError bit advisory header s) := by
  unfold uncorrectableError
  repeat' (first
    | intro _ | with_reducible assumption
    | (extract_lets +onlyGivenNames x
       first
       | (refine Evolves.cut (z := z) x ?_ ?_
          rotate_left
          intro _
          clear_value x
          rotate_left
          unfold x
          clear x)
       | clear_value x)
    | with_reducible apply logHeader_evolves
    | with_reducible apply State.modPcie_evolves
    | with_reducible apply deviceStatus_evolves
    | with_reducible apply errorMessage_evolves
    | with_reducible apply correctableError_evolves
    | with_reducible refine Evolves.ofSnd ?_ (by with_reducible assumption)
    | with_reducible refine Evolves.ofOptSnd ?_ (by with_reducible assumption)
    | with_reducible refine Evolves.ofOption ?_ (by with_reducible assumption)
    | with_reducible apply Evolves.some
    | with_reducible apply Evolves.none
    | with_reducible apply Evolves.mkSnd
    | with_reducible apply Evolves.projSnd
    | with_reducible apply Evolves.optSome
    | with_reducible apply Evolves.optNone
    | with_reducible apply Evolves.foldl
    | with_reducible apply Evolves.replyOk
    | with_reducible apply Evolves.replyFail
    | with_reducible apply Evolves.replyCounted
    | with_reducible apply Evolves.replyWait
    | with_reducible apply Evolves.next
    | with_reducible apply Evolves.fault
    | with_reducible apply Evolves.ite
    | (with_reducible exact Evolves.same ‹_› rfl rfl rfl rfl rfl) | split)

theorem internalError_evolves {z : State} (correctable : Bool) (s : State) (h_ : Evolves z s) :
    Evolves z (internalError correctable s) := by
  unfold internalError
  repeat' (first
    | intro _ | with_reducible assumption
    | with_reducible apply correctableError_evolves
    | with_reducible apply uncorrectableError_evolves
    | with_reducible refine Evolves.ofSnd ?_ (by with_reducible assumption)
    | with_reducible refine Evolves.ofOptSnd ?_ (by with_reducible assumption)
    | with_reducible refine Evolves.ofOption ?_ (by with_reducible assumption)
    | with_reducible apply Evolves.some
    | with_reducible apply Evolves.none
    | with_reducible apply Evolves.mkSnd
    | with_reducible apply Evolves.projSnd
    | with_reducible apply Evolves.optSome
    | with_reducible apply Evolves.optNone
    | with_reducible apply Evolves.foldl
    | with_reducible apply Evolves.replyOk
    | with_reducible apply Evolves.replyFail
    | with_reducible apply Evolves.replyCounted
    | with_reducible apply Evolves.replyWait
    | with_reducible apply Evolves.next
    | with_reducible apply Evolves.fault
    | with_reducible apply Evolves.ite
    | (with_reducible exact Evolves.same ‹_› rfl rfl rfl rfl rfl) | split)

theorem unsupportedTlp_evolves {z : State} (posted : Bool) (header : List Byte) (s : State) (h_ : Evolves z s) :
    Evolves z (unsupportedTlp posted header s) := by
  unfold unsupportedTlp
  repeat' (first
    | intro _ | with_reducible assumption
    | (extract_lets +onlyGivenNames x
       first
       | (refine Evolves.cut (z := z) x ?_ ?_
          rotate_left
          intro _
          clear_value x
          rotate_left
          unfold x
          clear x)
       | clear_value x)
    | with_reducible apply uncorrectableError_evolves
    | with_reducible apply State.push_evolves
    | with_reducible refine Evolves.ofSnd ?_ (by with_reducible assumption)
    | with_reducible refine Evolves.ofOptSnd ?_ (by with_reducible assumption)
    | with_reducible refine Evolves.ofOption ?_ (by with_reducible assumption)
    | with_reducible apply Evolves.some
    | with_reducible apply Evolves.none
    | with_reducible apply Evolves.mkSnd
    | with_reducible apply Evolves.projSnd
    | with_reducible apply Evolves.optSome
    | with_reducible apply Evolves.optNone
    | with_reducible apply Evolves.foldl
    | with_reducible apply Evolves.replyOk
    | with_reducible apply Evolves.replyFail
    | with_reducible apply Evolves.replyCounted
    | with_reducible apply Evolves.replyWait
    | with_reducible apply Evolves.next
    | with_reducible apply Evolves.fault
    | with_reducible apply Evolves.ite
    | (with_reducible exact Evolves.same ‹_› rfl rfl rfl rfl rfl) | split)

theorem unsupported_evolves {z : State} (posted : Bool) (s : State) (h_ : Evolves z s) :
    Evolves z (unsupported posted s) := by
  unfold unsupported
  repeat' (first
    | intro _ | with_reducible assumption
    | with_reducible apply unsupportedTlp_evolves
    | with_reducible apply State.useFreshN_evolves
    | with_reducible refine Evolves.ofSnd ?_ (by with_reducible assumption)
    | with_reducible refine Evolves.ofOptSnd ?_ (by with_reducible assumption)
    | with_reducible refine Evolves.ofOption ?_ (by with_reducible assumption)
    | with_reducible apply Evolves.some
    | with_reducible apply Evolves.none
    | with_reducible apply Evolves.mkSnd
    | with_reducible apply Evolves.projSnd
    | with_reducible apply Evolves.optSome
    | with_reducible apply Evolves.optNone
    | with_reducible apply Evolves.foldl
    | with_reducible apply Evolves.replyOk
    | with_reducible apply Evolves.replyFail
    | with_reducible apply Evolves.replyCounted
    | with_reducible apply Evolves.replyWait
    | with_reducible apply Evolves.next
    | with_reducible apply Evolves.fault
    | with_reducible apply Evolves.ite
    | (with_reducible exact Evolves.same ‹_› rfl rfl rfl rfl rfl) | split)

theorem poisonedTlp_evolves {z : State} (header : List Byte) (s : State) (h_ : Evolves z s) :
    Evolves z (poisonedTlp header s) := by
  unfold poisonedTlp
  repeat' (first
    | intro _ | with_reducible assumption
    | with_reducible apply statusBit_evolves
    | with_reducible apply uncorrectableError_evolves
    | with_reducible refine Evolves.ofSnd ?_ (by with_reducible assumption)
    | with_reducible refine Evolves.ofOptSnd ?_ (by with_reducible assumption)
    | with_reducible refine Evolves.ofOption ?_ (by with_reducible assumption)
    | with_reducible apply Evolves.some
    | with_reducible apply Evolves.none
    | with_reducible apply Evolves.mkSnd
    | with_reducible apply Evolves.projSnd
    | with_reducible apply Evolves.optSome
    | with_reducible apply Evolves.optNone
    | with_reducible apply Evolves.foldl
    | with_reducible apply Evolves.replyOk
    | with_reducible apply Evolves.replyFail
    | with_reducible apply Evolves.replyCounted
    | with_reducible apply Evolves.replyWait
    | with_reducible apply Evolves.next
    | with_reducible apply Evolves.fault
    | with_reducible apply Evolves.ite
    | (with_reducible exact Evolves.same ‹_› rfl rfl rfl rfl rfl) | split)

end Sys2Proof.Machine
end

