-- ==== Sys2Proof/Laws/EvolveMirror.lean ====
section
/-! SUPPORT. What the operations of Sys2Proof.Machine.Mirror never undo. -/

namespace Sys2Proof.Machine

theorem mirrorFlush_evolves {z : State} (s : State) (h_ : Evolves z s) : Evolves z (mirrorFlush s) := by
  unfold mirrorFlush
  repeat' (first
    | intro _ | with_reducible assumption
    | (extract_lets +onlyGivenNames x
       first
       | (refine Evolves.cut (z := z) x ?_ ?_
          rotate_left
          intro _
          clear_value x
          rotate_left
          unfold x
          clear x)
       | clear_value x)
    | with_reducible apply State.push_evolves | with_reducible apply State.modPair_evolves
    | (with_reducible exact Evolves.same ‹_› rfl rfl rfl rfl rfl) | split)

theorem mirrorItem_evolves {z : State} (f : Nat → BrideMsg) (s : State) (h_ : Evolves z s) : Evolves z
    (mirrorItem f s) := by
  unfold mirrorItem
  repeat' (first
    | intro _ | with_reducible assumption
    | (extract_lets +onlyGivenNames x
       first
       | (refine Evolves.cut (z := z) x ?_ ?_
          rotate_left
          intro _
          clear_value x
          rotate_left
          unfold x
          clear x)
       | clear_value x)
    | with_reducible apply mirrorFlush_evolves | with_reducible apply State.push_evolves
    | with_reducible apply State.modPair_evolves | (with_reducible exact Evolves.same ‹_› rfl rfl rfl rfl rfl) | split)

theorem defer_evolves {z : State} (d : Deferred) (s : State) (h_ : Evolves z s) : Evolves z (defer d s) := by
  unfold defer
  repeat' (first
    | intro _ | with_reducible assumption | with_reducible apply State.modPair_evolves
    | (with_reducible exact Evolves.same ‹_› rfl rfl rfl rfl rfl))

theorem countDelivered_evolves {z : State} (dest lastSeq : Nat) (s : State) (h_ : Evolves z s) :
    Evolves z (countDelivered dest lastSeq s) := by
  unfold countDelivered
  repeat' (first
    | intro _ | with_reducible assumption
    | (extract_lets +onlyGivenNames x
       first
       | (refine Evolves.cut (z := z) x ?_ ?_
          rotate_left
          intro _
          clear_value x
          rotate_left
          unfold x
          clear x)
       | clear_value x)
    | with_reducible apply State.modCtr_evolves
    | with_reducible apply State.modObj_evolves
    | with_reducible refine Evolves.ofSnd ?_ (by with_reducible assumption)
    | with_reducible refine Evolves.ofOptSnd ?_ (by with_reducible assumption)
    | with_reducible refine Evolves.ofOption ?_ (by with_reducible assumption)
    | with_reducible apply Evolves.some
    | with_reducible apply Evolves.none
    | with_reducible apply Evolves.mkSnd
    | with_reducible apply Evolves.projSnd
    | with_reducible apply Evolves.optSome
    | with_reducible apply Evolves.optNone
    | with_reducible apply Evolves.foldl
    | with_reducible apply Evolves.replyOk
    | with_reducible apply Evolves.replyFail
    | with_reducible apply Evolves.replyCounted
    | with_reducible apply Evolves.replyWait
    | with_reducible apply Evolves.next
    | with_reducible apply Evolves.fault
    | with_reducible apply Evolves.ite
    | (with_reducible exact Evolves.same ‹_› rfl rfl rfl rfl rfl) | split)

theorem enterShadow_evolves {z : State} (s : State) (h_ : Evolves z s) : Evolves z (enterShadow s) :=
  Evolves.same h_ rfl rfl rfl rfl (fun h => h)

theorem leaveShadow_evolves {z : State} (s w : State) (hs : Evolves z s) (hw : Evolves z w) :
    Evolves z (leaveShadow s w) :=
  ⟨hw.queue, hs.out, hw.fresh, hw.version, hw.fuse, fun h => hw.canonical h⟩

theorem shadowed_evolves {z : State} (f : State → State) (s : State) (hf : ∀ t, Evolves z t → Evolves z (f t))
    (h_ : Evolves z s) : Evolves z (shadowed f s) := by
  unfold shadowed
  split
  · exact leaveShadow_evolves _ _ h_ (hf _ (enterShadow_evolves _ h_))
  · exact hf _ h_

theorem onShadow_evolves {z : State} (f : State → Result) (s : State)
    (hf : ∀ t, Evolves z t → Evolves.outcome z (f t)) (h_ : Evolves z s) : Evolves.outcome z (onShadow f s) := by
  unfold onShadow
  split
  · have h := hf _ (enterShadow_evolves s h_)
    split
    · rename_i e
      exact Evolves.next (leaveShadow_evolves _ _ h_ (h.next_evolves _ e))
    · exact h
  · exact hf _ h_

end Sys2Proof.Machine
end

