-- ==== Sys2Proof/Laws/EvolveHostOps.lean ====
section
/-! SUPPORT. What the operations of Sys2Proof.Machine.HostOps never undo. -/

namespace Sys2Proof.Machine

theorem setPageSet_evolves {z : State} (p : PageSet) (s : State) (h_ : Evolves z s) : Evolves z (setPageSet p s) := by
  unfold setPageSet
  repeat' (first
    | intro _ | with_reducible assumption | with_reducible apply State.modObj_evolves
    | (with_reducible exact Evolves.same ‹_› rfl rfl rfl rfl rfl))

theorem finishDone_evolves {z : State} (d : DoneInfo) (s : State) (h_ : Evolves z s) :
    Evolves z (finishDone d s) := by
  unfold finishDone
  repeat' (first
    | intro _ | with_reducible assumption
    | (extract_lets +onlyGivenNames x
       first
       | (refine Evolves.cut (z := z) x ?_ ?_
          rotate_left
          intro _
          clear_value x
          rotate_left
          unfold x
          clear x)
       | clear_value x)
    | with_reducible apply State.pushLink_evolves
    | with_reducible apply setPageSet_evolves
    | with_reducible apply countDelivered_evolves
    | with_reducible apply sendMsix_evolves
    | with_reducible refine Evolves.ofSnd ?_ (by with_reducible assumption)
    | with_reducible refine Evolves.ofOptSnd ?_ (by with_reducible assumption)
    | with_reducible refine Evolves.ofOption ?_ (by with_reducible assumption)
    | with_reducible apply Evolves.some
    | with_reducible apply Evolves.none
    | with_reducible apply Evolves.mkSnd
    | with_reducible apply Evolves.projSnd
    | with_reducible apply Evolves.optSome
    | with_reducible apply Evolves.optNone
    | with_reducible apply Evolves.foldl
    | with_reducible apply Evolves.replyOk
    | with_reducible apply Evolves.replyFail
    | with_reducible apply Evolves.replyCounted
    | with_reducible apply Evolves.replyWait
    | with_reducible apply Evolves.next
    | with_reducible apply Evolves.fault
    | with_reducible apply Evolves.ite
    | (with_reducible exact Evolves.same ‹_› rfl rfl rfl rfl rfl) | split)

theorem sendDone_evolves {z : State} (d : DoneInfo) (s : State) (h_ : Evolves z s) :
    Evolves z (sendDone d s) := by
  unfold sendDone
  repeat' (first
    | intro _ | with_reducible assumption
    | with_reducible apply finishDone_evolves
    | with_reducible apply State.modPcie_evolves
    | with_reducible refine Evolves.ofSnd ?_ (by with_reducible assumption)
    | with_reducible refine Evolves.ofOptSnd ?_ (by with_reducible assumption)
    | with_reducible refine Evolves.ofOption ?_ (by with_reducible assumption)
    | with_reducible apply Evolves.some
    | with_reducible apply Evolves.none
    | with_reducible apply Evolves.mkSnd
    | with_reducible apply Evolves.projSnd
    | with_reducible apply Evolves.optSome
    | with_reducible apply Evolves.optNone
    | with_reducible apply Evolves.foldl
    | with_reducible apply Evolves.replyOk
    | with_reducible apply Evolves.replyFail
    | with_reducible apply Evolves.replyCounted
    | with_reducible apply Evolves.replyWait
    | with_reducible apply Evolves.next
    | with_reducible apply Evolves.fault
    | with_reducible apply Evolves.ite
    | (with_reducible exact Evolves.same ‹_› rfl rfl rfl rfl rfl) | split)

theorem writeDone_evolves {z : State} (d : DoneInfo) (s : State) (h_ : Evolves z s) :
    Evolves z (writeDone d s) := by
  unfold writeDone
  repeat' (first
    | intro _ | with_reducible assumption
    | (extract_lets +onlyGivenNames x
       first
       | (refine Evolves.cut (z := z) x ?_ ?_
          rotate_left
          intro _
          clear_value x
          rotate_left
          unfold x
          clear x)
       | clear_value x)
    | with_reducible apply mirrorFlush_evolves
    | with_reducible apply defer_evolves
    | with_reducible apply sendDone_evolves
    | with_reducible refine Evolves.ofSnd ?_ (by with_reducible assumption)
    | with_reducible refine Evolves.ofOptSnd ?_ (by with_reducible assumption)
    | with_reducible refine Evolves.ofOption ?_ (by with_reducible assumption)
    | with_reducible apply Evolves.some
    | with_reducible apply Evolves.none
    | with_reducible apply Evolves.mkSnd
    | with_reducible apply Evolves.projSnd
    | with_reducible apply Evolves.optSome
    | with_reducible apply Evolves.optNone
    | with_reducible apply Evolves.foldl
    | with_reducible apply Evolves.replyOk
    | with_reducible apply Evolves.replyFail
    | with_reducible apply Evolves.replyCounted
    | with_reducible apply Evolves.replyWait
    | with_reducible apply Evolves.next
    | with_reducible apply Evolves.fault
    | with_reducible apply Evolves.ite
    | (with_reducible exact Evolves.same ‹_› rfl rfl rfl rfl rfl) | split)

theorem deliverCompletion_evolves {z : State} (p : PageSet) (s : State) (h_ : Evolves z s) :
    Evolves z (deliverCompletion p s) := by
  unfold deliverCompletion
  repeat' (first
    | intro _ | with_reducible assumption
    | (extract_lets +onlyGivenNames x
       first
       | (refine Evolves.cut (z := z) x ?_ ?_
          rotate_left
          intro _
          clear_value x
          rotate_left
          unfold x
          clear x)
       | clear_value x)
    | with_reducible apply sendPage_evolves
    | with_reducible apply setPageSet_evolves
    | with_reducible apply writeDone_evolves
    | with_reducible refine Evolves.ofSnd ?_ (by with_reducible assumption)
    | with_reducible refine Evolves.ofOptSnd ?_ (by with_reducible assumption)
    | with_reducible refine Evolves.ofOption ?_ (by with_reducible assumption)
    | with_reducible apply Evolves.some
    | with_reducible apply Evolves.none
    | with_reducible apply Evolves.mkSnd
    | with_reducible apply Evolves.projSnd
    | with_reducible apply Evolves.optSome
    | with_reducible apply Evolves.optNone
    | with_reducible apply Evolves.foldl
    | with_reducible apply Evolves.replyOk
    | with_reducible apply Evolves.replyFail
    | with_reducible apply Evolves.replyCounted
    | with_reducible apply Evolves.replyWait
    | with_reducible apply Evolves.next
    | with_reducible apply Evolves.fault
    | with_reducible apply Evolves.ite
    | (with_reducible exact Evolves.same ‹_› rfl rfl rfl rfl rfl) | split)

theorem dropPageWrites_evolves {z : State} (set : Handle) (s : State) (h_ : Evolves z s) :
    Evolves z (dropPageWrites set s) := by
  unfold dropPageWrites
  repeat' (first
    | intro _ | with_reducible assumption
    | (extract_lets +onlyGivenNames x
       first
       | (refine Evolves.cut (z := z) x ?_ ?_
          rotate_left
          intro _
          clear_value x
          rotate_left
          unfold x
          clear x)
       | clear_value x)
    | with_reducible apply State.modPcie_evolves
    | with_reducible apply State.modPair_evolves
    | with_reducible refine Evolves.ofSnd ?_ (by with_reducible assumption)
    | with_reducible refine Evolves.ofOptSnd ?_ (by with_reducible assumption)
    | with_reducible refine Evolves.ofOption ?_ (by with_reducible assumption)
    | with_reducible apply Evolves.some
    | with_reducible apply Evolves.none
    | with_reducible apply Evolves.mkSnd
    | with_reducible apply Evolves.projSnd
    | with_reducible apply Evolves.optSome
    | with_reducible apply Evolves.optNone
    | with_reducible apply Evolves.foldl
    | with_reducible apply Evolves.replyOk
    | with_reducible apply Evolves.replyFail
    | with_reducible apply Evolves.replyCounted
    | with_reducible apply Evolves.replyWait
    | with_reducible apply Evolves.next
    | with_reducible apply Evolves.fault
    | with_reducible apply Evolves.ite
    | (with_reducible exact Evolves.same ‹_› rfl rfl rfl rfl rfl) | split)

theorem appendRecord_evolves {z : State} (p : PageSet) (r : CRec) (s : State) (h_ : Evolves z s) : Evolves z
    (appendRecord p r s) := by
  unfold appendRecord
  repeat' (first
    | with_reducible assumption
    | (extract_lets +onlyGivenNames x
       first
       | (refine Evolves.cut (z := z) x ?_ ?_
          rotate_left
          intro _
          clear_value x
          rotate_left
          unfold x
          clear x)
       | clear_value x)
    | with_reducible apply setPageSet_evolves | (with_reducible exact Evolves.same ‹_› rfl rfl rfl rfl rfl) | split)

theorem tryPlace_evolves {z : State} (sess : Handle) (r : CRec) (s : State) (h_ : Evolves z s) :
    Evolves.snd z (tryPlace sess r s) := by
  unfold tryPlace
  by_cases hp : pagesStopped s sess = true
  · rw [if_pos hp]; exact h_
  · rw [if_neg hp]
    split
    · exact h_
    · next p _ =>
      have hd : Evolves z (if p.fill ≠ 0 ∧ pageBytes < p.fill + r.size then deliverCompletion p s else s) :=
        Evolves.ite (deliverCompletion_evolves _ _ h_) h_
      generalize (if p.fill ≠ 0 ∧ pageBytes < p.fill + r.size then deliverCompletion p s else s) = t at hd
      dsimp only
      split
      · exact hd
      · split
        · exact hd
        · exact appendRecord_evolves _ _ _ hd

theorem eventsFor_evolves {z : State} (h : Handle) (v0 : List StoredEvent) (s : State) (h_ : Evolves z s) :
    Evolves.snd z (eventsFor h v0 s) := by
  induction v0 generalizing s with
  | nil => exact h_
  | cons e l ih =>
    unfold eventsFor
    split
    · exact ih s h_
    · split
      · exact h_
      · have hp : Evolves.snd z (tryPlace h (.event e.1) s) := tryPlace_evolves h _ s h_
        split
        · exact Evolves.ofSnd hp ‹_›
        · exact ih _ (Evolves.ofSnd hp ‹_›)

theorem drainEvents_evolves {z : State} (s : State) (h_ : Evolves z s) :
    Evolves z (drainEvents s) := by
  unfold drainEvents
  repeat' (first
    | intro _ | with_reducible assumption
    | (extract_lets +onlyGivenNames x
       first
       | (refine Evolves.cut (z := z) x ?_ ?_
          rotate_left
          intro _
          clear_value x
          rotate_left
          unfold x
          clear x)
       | clear_value x)
    | with_reducible apply eventsFor_evolves
    | with_reducible refine Evolves.ofSnd ?_ (by with_reducible assumption)
    | with_reducible refine Evolves.ofOptSnd ?_ (by with_reducible assumption)
    | with_reducible refine Evolves.ofOption ?_ (by with_reducible assumption)
    | with_reducible apply Evolves.some
    | with_reducible apply Evolves.none
    | with_reducible apply Evolves.mkSnd
    | with_reducible apply Evolves.projSnd
    | with_reducible apply Evolves.optSome
    | with_reducible apply Evolves.optNone
    | with_reducible apply Evolves.foldl
    | with_reducible apply Evolves.replyOk
    | with_reducible apply Evolves.replyFail
    | with_reducible apply Evolves.replyCounted
    | with_reducible apply Evolves.replyWait
    | with_reducible apply Evolves.next
    | with_reducible apply Evolves.fault
    | with_reducible apply Evolves.ite
    | (refine Evolves.hostSame _ ?_ (fun h => h))
    | (with_reducible exact Evolves.same ‹_› rfl rfl rfl rfl rfl) | split)

theorem pumpRecords_evolves {z : State} (s : State) (h_ : Evolves z s) :
    Evolves z (pumpRecords s) := by
  refine Evolves.foldl _ _ _ (State.modObj_evolves _ _ h_) fun s x h => ?_
  dsimp only
  have hp : Evolves.snd z (tryPlace x.1 x.2 s) := tryPlace_evolves _ _ _ h
  split
  · exact State.modObj_evolves _ _ h
  · split
    · exact Evolves.ofSnd hp ‹_›
    · exact State.modObj_evolves _ _ (Evolves.ofSnd hp ‹_›)

theorem placeRecord_evolves {z : State} (sess : Handle) (r : CRec) (s : State) (h_ : Evolves z s) :
    Evolves z (placeRecord sess r s) := by
  unfold placeRecord
  dsimp only
  have hp : Evolves.snd z (tryPlace sess r s) := tryPlace_evolves _ _ _ h_
  split
  · exact setCause_evolves _ _ (State.modObj_evolves _ _ h_)
  · split
    · exact Evolves.ofSnd hp ‹_›
    · exact setCause_evolves _ _ (State.modObj_evolves _ _ (Evolves.ofSnd hp ‹_›))

theorem issueEvent_evolves {z : State} (code source : Nat) (args : List Nat) (s : State) (h_ : Evolves z s) :
    Evolves z (issueEvent code source args s) := by
  unfold issueEvent
  repeat' (first
    | intro _ | with_reducible assumption
    | (extract_lets +onlyGivenNames x
       first
       | (refine Evolves.cut (z := z) x ?_ ?_
          rotate_left
          intro _
          clear_value x
          rotate_left
          unfold x
          clear x)
       | clear_value x)
    | with_reducible apply drainEvents_evolves
    | with_reducible apply setCause_evolves
    | with_reducible refine Evolves.ofSnd ?_ (by with_reducible assumption)
    | with_reducible refine Evolves.ofOptSnd ?_ (by with_reducible assumption)
    | with_reducible refine Evolves.ofOption ?_ (by with_reducible assumption)
    | with_reducible apply Evolves.some
    | with_reducible apply Evolves.none
    | with_reducible apply Evolves.mkSnd
    | with_reducible apply Evolves.projSnd
    | with_reducible apply Evolves.optSome
    | with_reducible apply Evolves.optNone
    | with_reducible apply Evolves.foldl
    | with_reducible apply Evolves.replyOk
    | with_reducible apply Evolves.replyFail
    | with_reducible apply Evolves.replyCounted
    | with_reducible apply Evolves.replyWait
    | with_reducible apply Evolves.next
    | with_reducible apply Evolves.fault
    | with_reducible apply Evolves.ite
    | (refine Evolves.hostSame _ ?_ (fun h => h))
    | (with_reducible exact Evolves.same ‹_› rfl rfl rfl rfl rfl) | split)

theorem corrected_evolves {z : State} (s : State) (h_ : Evolves z s) : Evolves z (corrected s) := by
  unfold corrected
  repeat' (first
    | intro _ | with_reducible assumption | with_reducible apply State.modCtr_evolves
    | (with_reducible exact Evolves.same ‹_› rfl rfl rfl rfl rfl))

theorem correctedBy_evolves {z : State} (n : Nat) (s : State) (h_ : Evolves z s) :
    Evolves z (correctedBy n s) := by
  unfold correctedBy
  repeat' (first
    | intro _ | with_reducible assumption
    | with_reducible apply State.modCtr_evolves
    | with_reducible apply corrected_evolves
    | with_reducible refine Evolves.ofSnd ?_ (by with_reducible assumption)
    | with_reducible refine Evolves.ofOptSnd ?_ (by with_reducible assumption)
    | with_reducible refine Evolves.ofOption ?_ (by with_reducible assumption)
    | with_reducible apply Evolves.mkSnd
    | with_reducible apply Evolves.projSnd
    | with_reducible apply Evolves.optSome
    | with_reducible apply Evolves.optNone
    | with_reducible apply Evolves.foldl
    | with_reducible apply Evolves.replyOk
    | with_reducible apply Evolves.replyFail
    | with_reducible apply Evolves.replyCounted
    | with_reducible apply Evolves.replyWait
    | with_reducible apply Evolves.next
    | with_reducible apply Evolves.fault
    | (with_reducible exact Evolves.same ‹_› rfl rfl rfl rfl rfl) | split)

theorem contained_evolves {z : State} (kind unit handle stitch : Nat) (s : State) (h_ : Evolves z s) : Evolves z
    (contained kind unit handle stitch s) := by
  unfold contained
  repeat' (first
    | intro _ | with_reducible assumption
    | (extract_lets +onlyGivenNames x
       first
       | (refine Evolves.cut (z := z) x ?_ ?_
          rotate_left
          intro _
          clear_value x
          rotate_left
          unfold x
          clear x)
       | clear_value x)
    | with_reducible apply State.modCtr_evolves | with_reducible apply internalError_evolves
    | with_reducible apply issueEvent_evolves | (with_reducible exact Evolves.same ‹_› rfl rfl rfl rfl rfl) | split)

theorem abandonRunning_evolves {z : State} (s : State) (h_ : Evolves z s) : Evolves z (abandonRunning s) := by
  unfold abandonRunning
  refine Evolves.ppuSame _ (Evolves.coresSame _ h_ fun h => ⟨SMap.wf_mapVals _ h.1, SMap.all_mapVals _ _ h.2 ?_⟩)
    (SMap.wf_mapVals _)
  intro n c hc
  split
  · exact hc
  · exact ComputeCore.halt_canonical hc

theorem enterFault_evolves {z : State} (kind unit : Nat) (s : State) (h_ : Evolves z s) : Evolves z
    (enterFault kind unit s) := by
  unfold enterFault
  repeat' (first
    | intro _ | with_reducible assumption
    | (extract_lets +onlyGivenNames x
       first
       | (refine Evolves.cut (z := z) x ?_ ?_
          rotate_left
          intro _
          clear_value x
          rotate_left
          unfold x
          clear x)
       | clear_value x)
    | with_reducible apply issueEvent_evolves | (refine Evolves.hostSame _ ?_ (fun h => h))
    | with_reducible apply internalError_evolves | with_reducible apply logWrite_evolves
    | with_reducible apply setCause_evolves | with_reducible apply abandonRunning_evolves
    | (with_reducible exact Evolves.same ‹_› rfl rfl rfl rfl rfl) | split)

theorem escalate_evolves {z : State} (kind unit : Nat) (s : State) (h_ : Evolves z s) : Evolves z
    (escalate kind unit s) := by
  unfold escalate
  repeat' (first
    | intro _ | with_reducible assumption
    | (extract_lets +onlyGivenNames x
       first
       | (refine Evolves.cut (z := z) x ?_ ?_
          rotate_left
          intro _
          clear_value x
          rotate_left
          unfold x
          clear x)
       | clear_value x)
    | with_reducible apply abandonRunning_evolves | with_reducible apply State.push_evolves
    | with_reducible apply State.modPair_evolves | (refine Evolves.hostSame _ ?_ (fun h => h))
    | with_reducible apply internalError_evolves | with_reducible apply enterFault_evolves
    | (with_reducible exact Evolves.same ‹_› rfl rfl rfl rfl rfl) | split)

theorem faultIfIdle_evolves {z : State} (s : State) (h_ : Evolves z s) : Evolves z (faultIfIdle s) := by
  unfold faultIfIdle
  repeat' (first
    | with_reducible assumption | with_reducible apply enterFault_evolves | split)

theorem checkLedger_evolves {z : State} (l : Ledger) (s : State) (h_ : Evolves z s) : Evolves z (checkLedger l s)
    := by
  unfold checkLedger
  repeat' (first
    | with_reducible assumption | with_reducible apply escalate_evolves | split)

theorem checkLedgers_evolves {z : State} (ls : List Ledger) (s : State) (h_ : Evolves z s) : Evolves z
    (checkLedgers ls s) := by
  unfold checkLedgers
  repeat' (first
    | intro _ | with_reducible assumption | with_reducible apply checkLedger_evolves
    | with_reducible apply Evolves.foldl)

theorem renewLease_evolves {z : State} (s : State) (h_ : Evolves z s) : Evolves z (renewLease s) := by
  unfold renewLease
  repeat' (first
    | intro _ | with_reducible assumption | (refine Evolves.hostSame _ ?_ (fun h => h))
    | (with_reducible exact Evolves.same ‹_› rfl rfl rfl rfl rfl))

theorem renewFor_evolves {z : State} (h : Hdr) (s : State) (h_ : Evolves z s) : Evolves z (renewFor h s) := by
  unfold renewFor
  repeat' (first
    | with_reducible assumption | with_reducible apply renewLease_evolves | split)

theorem writeAnswer_evolves {z : State} (h : Hdr) (status detail : Nat) (resp : List Byte) (s : State)
    (h_ : Evolves z s) : Evolves z (writeAnswer h status detail resp s) := by
  have key : ∀ (l : List (Nat × Byte)) (p : SMap Byte), SMap.wf 0 p = true →
      SMap.wf 0 (l.foldl (fun p x => SMap.set 0 p x.1 x.2) p) = true := by
    intro l
    induction l with
    | nil => exact fun _ h => h
    | cons x l ih => exact fun _ h => ih _ (SMap.wf_set _ _ h)
  have h2 := renewFor_evolves h _ (Evolves.hostSame
    (fun x => { x with long := x.long.filter fun l => !decide (l.hdr.mbox = h.mbox) })
    (State.modMbox_evolves h.mbox (fun m =>
      { m with
        payload := ((List.range resp.length).zip resp).foldl (fun p x => SMap.set 0 p x.1 x.2) m.payload
        length := resp.length
        status := status
        detail := detail
        own := false }) s (key _ _) h_) fun w => w)
  unfold writeAnswer
  dsimp only
  split
  · exact sendMsix_evolves _ _ h2
  · exact h2

theorem answer_evolves {z : State} (h : Hdr) (status detail : Nat) (resp : List Byte) (before : Objects) (s : State)
    (h_ : Evolves z s) : Evolves z (answer h status detail resp before s) := by
  unfold answer
  repeat' (first
    | with_reducible assumption
    | (extract_lets +onlyGivenNames x
       first
       | (refine Evolves.cut (z := z) x ?_ ?_
          rotate_left
          intro _
          clear_value x
          rotate_left
          unfold x
          clear x)
       | clear_value x)
    | with_reducible apply mirrorFlush_evolves | with_reducible apply defer_evolves
    | with_reducible apply writeAnswer_evolves | split)

theorem serve_evolves {z : State} (k : CmdKind) (h : Hdr) (len : Nat) (body : State → Reply) (s : State)
    (hbody : ∀ x, Evolves z x → Evolves.reply z (body x)) (h_ : Evolves z s) : Evolves z (serve k h len body s) := by
  have hx := renewFor_evolves h s h_
  unfold serve
  dsimp only
  split
  · exact answer_evolves _ _ _ _ _ _ hx
  · have hb := hbody _ hx
    split <;> rename_i heq <;> rw [heq] at hb
    · exact answer_evolves _ _ _ _ _ _ hb
    · exact answer_evolves _ _ _ _ _ _ hx
    · exact answer_evolves _ _ _ _ _ _ hb
    · exact mirrorFlush_evolves _ hb

theorem takeOwner_evolves {z : State} (h : Hdr) (opcode : Nat) (s : State) (h_ : Evolves z s) :
    Evolves z (takeOwner h opcode s) := State.modMbox_evolves _ _ _ (fun w => w) h_

theorem State.linkActive_evolves {z : State} (s : State) (h_ : Evolves z s) : Evolves z (State.linkActive s) := by
  unfold State.linkActive
  repeat' (first
    | intro _ | with_reducible assumption | with_reducible apply State.modPcie_evolves
    | (with_reducible exact Evolves.same ‹_› rfl rfl rfl rfl rfl))

theorem linkAccess_evolves {z : State} (f : State → Result) (s : State)
    (hf : ∀ x0, Evolves z x0 → Evolves.outcome z (f x0)) (h_ : Evolves z s) : Evolves.outcome z (linkAccess f s) := by
  unfold linkAccess
  split
  · exact Evolves.next h_
  · exact hf _ (State.linkActive_evolves s h_)

theorem cfgAccess_evolves {z : State} (f : State → Result) (s : State)
    (hf : ∀ x0, Evolves z x0 → Evolves.outcome z (f x0)) (h_ : Evolves z s) : Evolves.outcome z (cfgAccess f s) := by
  unfold cfgAccess
  split
  · exact hf _ (State.linkActive_evolves s h_)
  · split
    · exact Evolves.next (State.push_evolves _ _ h_)
    · exact Evolves.next h_

theorem barAccess_evolves {z : State} (posted : Bool) (f : State → Result) (s : State)
    (hf : ∀ x0, Evolves z x0 → Evolves.outcome z (f x0)) (h_ : Evolves z s) : Evolves.outcome z (barAccess posted f s) := by
  unfold barAccess
  split
  · exact Evolves.next h_
  · split
    · exact hf _ (State.linkActive_evolves s h_)
    · exact Evolves.next (unsupported_evolves _ _ (State.linkActive_evolves s h_))

theorem hostAccess_evolves {z : State} (posted : Bool) (f : State → State) (s : State)
    (hf : ∀ x0, Evolves z x0 → Evolves z (f x0)) (h_ : Evolves z s) : Evolves z (hostAccess posted f s) := by
  unfold hostAccess
  split
  · exact h_
  · split
    · exact hf _ (State.linkActive_evolves s h_)
    · exact unsupported_evolves _ _ (State.linkActive_evolves s h_)

theorem ownerWrite_evolves {z : State} (h : Hdr) (opcode : Nat) (i : Instr) (run : State → State) (s : State) (hrun
    : ∀ x0, Evolves z x0 → Evolves z (run x0)) (h_ : Evolves z s) : Evolves z (ownerWrite h opcode i run s) := by
  unfold ownerWrite
  repeat' (first
    | intro _ | with_reducible assumption
    | (extract_lets +onlyGivenNames x
       first
       | (refine Evolves.cut (z := z) x ?_ ?_
          rotate_left
          intro _
          clear_value x
          rotate_left
          unfold x
          clear x)
       | clear_value x)
    | (refine Evolves.hostSame _ ?_ (fun h => h)) | with_reducible apply takeOwner_evolves
    | with_reducible apply State.modPower_evolves | with_reducible apply hrun
    | (with_reducible exact Evolves.same ‹_› rfl rfl rfl rfl rfl) | split)

theorem enter_evolves {z : State} (h : Hdr) (opcode : Nat) (i : Instr) (run : State → State) (s : State) (hrun
    : ∀ x0, Evolves z x0 → Evolves z (run x0)) (h_ : Evolves z s) : Evolves z (enter h opcode i run s) := by
  unfold enter
  repeat' (first
    | intro _ | with_reducible assumption | with_reducible apply hostAccess_evolves
    | with_reducible apply ownerWrite_evolves | with_reducible apply hrun)

theorem startLong_evolves {z : State} (l : LongCmd) (s : State) (h_ : Evolves z s) :
    Evolves z (startLong l s) := by
  unfold startLong
  repeat' (first
    | intro _ | with_reducible assumption
    | with_reducible refine Evolves.ofSnd ?_ (by with_reducible assumption)
    | with_reducible refine Evolves.ofOptSnd ?_ (by with_reducible assumption)
    | with_reducible refine Evolves.ofOption ?_ (by with_reducible assumption)
    | with_reducible apply Evolves.some
    | with_reducible apply Evolves.none
    | with_reducible apply Evolves.mkSnd
    | with_reducible apply Evolves.projSnd
    | with_reducible apply Evolves.optSome
    | with_reducible apply Evolves.optNone
    | with_reducible apply Evolves.foldl
    | with_reducible apply Evolves.replyOk
    | with_reducible apply Evolves.replyFail
    | with_reducible apply Evolves.replyCounted
    | with_reducible apply Evolves.replyWait
    | with_reducible apply Evolves.next
    | with_reducible apply Evolves.fault
    | with_reducible apply Evolves.ite
    | (refine Evolves.hostSame _ ?_ (fun h => h))
    | (with_reducible exact Evolves.same ‹_› rfl rfl rfl rfl rfl) | split)

theorem forCore3_evolves {z : State} (i : Instr) (f : State → State) (s : State)
    (hf : ∀ x0, Evolves z x0 → Evolves z (f x0)) (h_ : Evolves z s) : Evolves z (forCore3 i f s) := by
  unfold forCore3
  split
  · exact hf s h_
  · split
    · exact h_
    · exact Evolves.fwSame _ h_ fun h => h

end Sys2Proof.Machine
end

