-- ==== Sys2Proof/Laws/EvolveMemory.lean ====
section
/-! SUPPORT. What the operations of Sys2Proof.Machine.Memory never undo. -/

namespace Sys2Proof.Machine

theorem rawWrite_evolves {z : State} (a : Nat) (bs : List Byte) (s : State) (h_ : Evolves z s) :
    Evolves z (rawWrite a bs s) := Evolves.cellsSame _ h_ (cellsWrite_wf a bs) rfl rfl

/-- Forgetting whole lines is a change of one unit that keeps its canonical form. -/
theorem forgetLines_evolves {z : State} (a n : Nat) (f : MemUnit → MemUnit) (s : State) (h_ : Evolves z s)
    (hf : s.mem.canonical = true → (f s.mem).canonical = true) :
    Evolves z (s.modMem fun m => MemUnit.forgetLines a n (f m)) :=
  Evolves.memSame _ h_ fun w =>
    have ⟨b, c, d⟩ := (MemUnit.canonical_iff _).1 (hf w)
    have e : SMap.wf {} (MemUnit.forgetLines a n (f s.mem)).pil = true := by
      unfold MemUnit.forgetLines
      dsimp only
      exact SMap.wf_mapVals _ d
    (MemUnit.canonical_iff _).2 ⟨b, c, e⟩

theorem zeroRange_evolves {z : State} (a n : Nat) (s : State) (h_ : Evolves z s) : Evolves z (zeroRange a n s) :=
  forgetLines_evolves _ _ _ _ h_ fun w =>
    have ⟨b, c, d⟩ := (MemUnit.canonical_iff _).1 w
    (MemUnit.canonical_iff _).2 ⟨cellsClear_wf a n b, c, d⟩

theorem copyRange_evolves {z : State} (src dst n : Nat) (s : State) (h_ : Evolves z s) :
    Evolves z (copyRange src dst n s) := Evolves.cellsSame _ h_ (cellsCopy_wf src dst n) rfl rfl

theorem loseAreas_evolves {z : State} (areas keep : List (Nat × Nat)) (s : State) (h_ : Evolves z s) :
    Evolves z (loseAreas areas keep s) := State.useFresh_evolves (Evolves.cellsSame _ h_ (clearAll_wf _) rfl rfl)

theorem settleLine_evolves {z : State} (line : Nat) (s : State) (h_ : Evolves z s) :
    Evolves z (settleLine line s) := by
  unfold settleLine
  repeat' (first
    | intro _ | with_reducible assumption
    | (extract_lets +onlyGivenNames x
       first
       | (refine Evolves.cut (z := z) x ?_ ?_
          rotate_left
          intro _
          clear_value x
          rotate_left
          unfold x
          clear x)
       | clear_value x)
    | with_reducible apply State.useFreshN_evolves
    | with_reducible refine Evolves.ofSnd ?_ (by with_reducible assumption)
    | with_reducible refine Evolves.ofOptSnd ?_ (by with_reducible assumption)
    | with_reducible refine Evolves.ofOption ?_ (by with_reducible assumption)
    | with_reducible apply Evolves.mkSnd
    | with_reducible apply Evolves.projSnd
    | with_reducible apply Evolves.optSome
    | with_reducible apply Evolves.optNone
    | with_reducible apply Evolves.foldl
    | with_reducible apply Evolves.replyOk
    | with_reducible apply Evolves.replyFail
    | with_reducible apply Evolves.replyCounted
    | with_reducible apply Evolves.replyWait
    | with_reducible apply Evolves.next
    | with_reducible apply Evolves.fault
    | (refine Evolves.memSame _ ?_ (fun h => h))
    | (with_reducible exact Evolves.same ‹_› rfl rfl rfl rfl rfl) | split)

theorem beginRewrite_evolves {z : State} (e : TagExtent) (s : State) (h_ : Evolves z s) :
    Evolves z (beginRewrite e s) := by
  unfold beginRewrite
  repeat' (first
    | intro _ | with_reducible assumption
    | with_reducible refine Evolves.ofSnd ?_ (by with_reducible assumption)
    | with_reducible refine Evolves.ofOptSnd ?_ (by with_reducible assumption)
    | with_reducible refine Evolves.ofOption ?_ (by with_reducible assumption)
    | with_reducible apply Evolves.some
    | with_reducible apply Evolves.none
    | with_reducible apply Evolves.mkSnd
    | with_reducible apply Evolves.projSnd
    | with_reducible apply Evolves.optSome
    | with_reducible apply Evolves.optNone
    | with_reducible apply Evolves.foldl
    | with_reducible apply Evolves.replyOk
    | with_reducible apply Evolves.replyFail
    | with_reducible apply Evolves.replyCounted
    | with_reducible apply Evolves.replyWait
    | with_reducible apply Evolves.next
    | with_reducible apply Evolves.fault
    | with_reducible apply Evolves.ite
    | (refine Evolves.memSame _ ?_ (fun h => h))
    | (with_reducible exact Evolves.same ‹_› rfl rfl rfl rfl rfl) | split)

theorem tagRewrite_evolves {z : State} (first count pool gen : Nat) (s : State) (h_ : Evolves z s) :
    Evolves z (tagRewrite first count pool gen s) := by
  unfold tagRewrite
  repeat' (first
    | intro _ | with_reducible assumption
    | with_reducible refine Evolves.ofSnd ?_ (by with_reducible assumption)
    | with_reducible refine Evolves.ofOptSnd ?_ (by with_reducible assumption)
    | with_reducible refine Evolves.ofOption ?_ (by with_reducible assumption)
    | with_reducible apply Evolves.some
    | with_reducible apply Evolves.none
    | with_reducible apply Evolves.mkSnd
    | with_reducible apply Evolves.projSnd
    | with_reducible apply Evolves.optSome
    | with_reducible apply Evolves.optNone
    | with_reducible apply Evolves.foldl
    | with_reducible apply Evolves.replyOk
    | with_reducible apply Evolves.replyFail
    | with_reducible apply Evolves.replyCounted
    | with_reducible apply Evolves.replyWait
    | with_reducible apply Evolves.next
    | with_reducible apply Evolves.fault
    | with_reducible apply Evolves.ite
    | (refine Evolves.memSame _ ?_ (fun h => h))
    | (with_reducible exact Evolves.same ‹_› rfl rfl rfl rfl rfl) | split)

theorem tagDone_evolves {z : State} (owner : Handle) (buffer : Nat) (s : State) (h_ : Evolves z s) :
    Evolves z (tagDone owner buffer s) := by
  unfold tagDone
  repeat' (first
    | intro _ | with_reducible assumption
    | with_reducible refine Evolves.ofSnd ?_ (by with_reducible assumption)
    | with_reducible refine Evolves.ofOptSnd ?_ (by with_reducible assumption)
    | with_reducible refine Evolves.ofOption ?_ (by with_reducible assumption)
    | with_reducible apply Evolves.some
    | with_reducible apply Evolves.none
    | with_reducible apply Evolves.mkSnd
    | with_reducible apply Evolves.projSnd
    | with_reducible apply Evolves.optSome
    | with_reducible apply Evolves.optNone
    | with_reducible apply Evolves.foldl
    | with_reducible apply Evolves.replyOk
    | with_reducible apply Evolves.replyFail
    | with_reducible apply Evolves.replyCounted
    | with_reducible apply Evolves.replyWait
    | with_reducible apply Evolves.next
    | with_reducible apply Evolves.fault
    | with_reducible apply Evolves.ite
    | (refine Evolves.memSame _ ?_ (fun h => h))
    | (with_reducible exact Evolves.same ‹_› rfl rfl rfl rfl rfl) | split)

theorem poisonLine_evolves {z : State} (a : Nat) (s : State) (h_ : Evolves z s) : Evolves z (poisonLine a s) := by
  unfold poisonLine
  repeat' (first
    | intro _ | with_reducible assumption | (refine Evolves.memSame _ ?_ (fun h => h))
    | with_reducible apply State.modPil_evolves | (with_reducible exact Evolves.same ‹_› rfl rfl rfl rfl rfl) | split)

theorem unpoisonLine_evolves {z : State} (a : Nat) (s : State) (h_ : Evolves z s) : Evolves z (unpoisonLine a s) := by
  unfold unpoisonLine
  repeat' (first
    | intro _ | with_reducible assumption | (refine Evolves.memSame _ ?_ (fun h => h))
    | with_reducible apply State.modPil_evolves | (with_reducible exact Evolves.same ‹_› rfl rfl rfl rfl rfl) | split)

theorem pieceWrite_evolves {z : State} (a : Nat) (bs : List Byte) (s : State) (h_ : Evolves z s) :
    Evolves z (pieceWrite a bs s) := by
  unfold pieceWrite
  repeat' (first
    | intro _ | with_reducible assumption
    | with_reducible apply unpoisonLine_evolves
    | with_reducible apply rawWrite_evolves
    | with_reducible refine Evolves.ofSnd ?_ (by with_reducible assumption)
    | with_reducible refine Evolves.ofOptSnd ?_ (by with_reducible assumption)
    | with_reducible refine Evolves.ofOption ?_ (by with_reducible assumption)
    | with_reducible apply Evolves.some
    | with_reducible apply Evolves.none
    | with_reducible apply Evolves.mkSnd
    | with_reducible apply Evolves.projSnd
    | with_reducible apply Evolves.optSome
    | with_reducible apply Evolves.optNone
    | with_reducible apply Evolves.foldl
    | with_reducible apply Evolves.replyOk
    | with_reducible apply Evolves.replyFail
    | with_reducible apply Evolves.replyCounted
    | with_reducible apply Evolves.replyWait
    | with_reducible apply Evolves.next
    | with_reducible apply Evolves.fault
    | with_reducible apply Evolves.ite
    | (with_reducible exact Evolves.same ‹_› rfl rfl rfl rfl rfl) | split)

theorem copyPieces_evolves {z : State} (bad : List Nat) (src dst : Nat) (ps : List (Nat × Nat)) (s : State)
    (h_ : Evolves z s) : Evolves z (copyPieces bad src dst ps s) := by
  induction ps generalizing s with
  | nil => exact h_
  | cons x ps ih =>
    have hw := Evolves.ite (c := bad.contains (x.1 / 64) = true) h_
      (pieceWrite_evolves x.1 (memRead s (src + (x.1 - dst)) x.2) s h_)
    exact ih _ (Evolves.ite (poisonLine_evolves _ _ hw) hw)

theorem copyMem_evolves {z : State} (bad : List Nat) (src dst n : Nat) (s : State) (h_ : Evolves z s) :
    Evolves z (copyMem bad src dst n s) := by
  unfold copyMem
  repeat' (first
    | intro _ | with_reducible assumption
    | with_reducible apply copyRange_evolves
    | with_reducible apply copyPieces_evolves
    | with_reducible refine Evolves.ofSnd ?_ (by with_reducible assumption)
    | with_reducible refine Evolves.ofOptSnd ?_ (by with_reducible assumption)
    | with_reducible refine Evolves.ofOption ?_ (by with_reducible assumption)
    | with_reducible apply Evolves.some
    | with_reducible apply Evolves.none
    | with_reducible apply Evolves.mkSnd
    | with_reducible apply Evolves.projSnd
    | with_reducible apply Evolves.optSome
    | with_reducible apply Evolves.optNone
    | with_reducible apply Evolves.foldl
    | with_reducible apply Evolves.replyOk
    | with_reducible apply Evolves.replyFail
    | with_reducible apply Evolves.replyCounted
    | with_reducible apply Evolves.replyWait
    | with_reducible apply Evolves.next
    | with_reducible apply Evolves.fault
    | with_reducible apply Evolves.ite
    | (with_reducible exact Evolves.same ‹_› rfl rfl rfl rfl rfl) | split)

theorem piecesWrite_evolves {z : State} (bad : List Nat) (ps : List (Nat × Nat)) (bs : List Byte) (s : State)
    (h_ : Evolves z s) : Evolves z (piecesWrite bad ps bs s) := by
  induction ps generalizing bs s with
  | nil => exact h_
  | cons p ps ih => exact ih _ _ (Evolves.ite h_ (pieceWrite_evolves _ _ _ h_))

theorem memWrite_evolves {z : State} (a : Nat) (bs : List Byte) (s : State) (h_ : Evolves z s) :
    Evolves z (memWrite a bs s) := by
  unfold memWrite
  repeat' (first
    | intro _ | with_reducible assumption
    | with_reducible apply piecesWrite_evolves
    | with_reducible refine Evolves.ofSnd ?_ (by with_reducible assumption)
    | with_reducible refine Evolves.ofOptSnd ?_ (by with_reducible assumption)
    | with_reducible refine Evolves.ofOption ?_ (by with_reducible assumption)
    | with_reducible apply Evolves.some
    | with_reducible apply Evolves.none
    | with_reducible apply Evolves.mkSnd
    | with_reducible apply Evolves.projSnd
    | with_reducible apply Evolves.optSome
    | with_reducible apply Evolves.optNone
    | with_reducible apply Evolves.foldl
    | with_reducible apply Evolves.replyOk
    | with_reducible apply Evolves.replyFail
    | with_reducible apply Evolves.replyCounted
    | with_reducible apply Evolves.replyWait
    | with_reducible apply Evolves.next
    | with_reducible apply Evolves.fault
    | with_reducible apply Evolves.ite
    | (with_reducible exact Evolves.same ‹_› rfl rfl rfl rfl rfl) | split)

theorem ddrZero_evolves {z : State} (s : State) (h_ : Evolves z s) : Evolves z (ddrZero s) :=
  forgetLines_evolves _ _ _ _ h_ fun w =>
    have ⟨b, c, d⟩ := (MemUnit.canonical_iff _).1 w
    (MemUnit.canonical_iff _).2 ⟨cellsClear_wf _ _ b, c, d⟩

theorem scratchWrite_evolves {z : State} (core o : Nat) (bs : List Byte) (s : State) (h_ : Evolves z s) :
    Evolves z (scratchWrite core o bs s) := by
  induction bs generalizing o s with
  | nil => exact h_
  | cons b bs ih => exact ih _ _ (rawWrite_evolves _ _ _ h_)

end Sys2Proof.Machine
end

