-- ==== Sys2Proof/Laws/EvolvePools.lean ====
section
/-! SUPPORT. What the operations of Sys2Proof.Machine.Pools never undo. -/

namespace Sys2Proof.Machine

theorem modPool_evolves {z : State} (h : Handle) (f : Pool → Pool) (s : State) (h_ : Evolves z s) : Evolves z
    (modPool h f s) := by
  unfold modPool
  repeat' (first
    | intro _ | with_reducible assumption | with_reducible apply State.modObj_evolves
    | (with_reducible exact Evolves.same ‹_› rfl rfl rfl rfl rfl))

theorem takeBuf_evolves {z : State} (p : Pool) (j : Nat) (waiter : Option Hdr) (s : State) (h_ : Evolves z s) :
    Evolves z (takeBuf p j waiter s) := by
  unfold takeBuf
  repeat' (first
    | intro _ | with_reducible assumption
    | (extract_lets +onlyGivenNames x
       first
       | (refine Evolves.cut (z := z) x ?_ ?_
          rotate_left
          intro _
          clear_value x
          rotate_left
          unfold x
          clear x)
       | clear_value x)
    | with_reducible apply loseAreas_evolves
    | with_reducible apply modPool_evolves
    | with_reducible apply beginRewrite_evolves
    | with_reducible refine Evolves.ofSnd ?_ (by with_reducible assumption)
    | with_reducible refine Evolves.ofOptSnd ?_ (by with_reducible assumption)
    | with_reducible refine Evolves.ofOption ?_ (by with_reducible assumption)
    | with_reducible apply Evolves.some
    | with_reducible apply Evolves.none
    | with_reducible apply Evolves.mkSnd
    | with_reducible apply Evolves.projSnd
    | with_reducible apply Evolves.optSome
    | with_reducible apply Evolves.optNone
    | with_reducible apply Evolves.foldl
    | with_reducible apply Evolves.replyOk
    | with_reducible apply Evolves.replyFail
    | with_reducible apply Evolves.replyCounted
    | with_reducible apply Evolves.replyWait
    | with_reducible apply Evolves.next
    | with_reducible apply Evolves.fault
    | with_reducible apply Evolves.ite
    | (with_reducible exact Evolves.same ‹_› rfl rfl rfl rfl rfl) | split)

theorem countNoSpace_evolves {z : State} (h : Handle) (s : State) (h_ : Evolves z s) :
    Evolves z (countNoSpace h s) := by
  unfold countNoSpace
  repeat' (first
    | intro _ | with_reducible assumption
    | with_reducible apply modPool_evolves
    | with_reducible refine Evolves.ofSnd ?_ (by with_reducible assumption)
    | with_reducible refine Evolves.ofOptSnd ?_ (by with_reducible assumption)
    | with_reducible refine Evolves.ofOption ?_ (by with_reducible assumption)
    | with_reducible apply Evolves.mkSnd
    | with_reducible apply Evolves.projSnd
    | with_reducible apply Evolves.optSome
    | with_reducible apply Evolves.optNone
    | with_reducible apply Evolves.foldl
    | with_reducible apply Evolves.replyOk
    | with_reducible apply Evolves.replyFail
    | with_reducible apply Evolves.replyCounted
    | with_reducible apply Evolves.replyWait
    | with_reducible apply Evolves.next
    | with_reducible apply Evolves.fault
    | (with_reducible exact Evolves.same ‹_› rfl rfl rfl rfl rfl) | split)

theorem poolCreateBody_evolves {z : State} (h : Hdr) (space bufLog2 flags count mask off : Nat) (s : State)
    (h_ : Evolves z s) : Evolves.reply z (poolCreateBody h space bufLog2 flags count mask off s) := by
  unfold poolCreateBody
  repeat' (first
    | exact True.intro
    | split
    | exact Evolves.replyOk (issued_evolves _ _ (State.modObj_evolves _ _ h_))
    | dsimp only)

theorem poolAllocBody_evolves {z : State} (h : Hdr) (pool : Handle) (s : State) (h_ : Evolves z s) :
    Evolves.reply z (poolAllocBody h pool s) := by
  unfold poolAllocBody
  repeat' (first
    | intro _ | with_reducible assumption
    | (extract_lets +onlyGivenNames x
       first
       | (refine Evolves.cut (z := z) x ?_ ?_
          rotate_left
          intro _
          clear_value x
          rotate_left
          unfold x
          clear x)
       | clear_value x)
    | with_reducible apply modPool_evolves
    | with_reducible apply countNoSpace_evolves
    | with_reducible apply takeBuf_evolves
    | with_reducible refine Evolves.ofSnd ?_ (by with_reducible assumption)
    | with_reducible refine Evolves.ofOptSnd ?_ (by with_reducible assumption)
    | with_reducible refine Evolves.ofOption ?_ (by with_reducible assumption)
    | with_reducible apply Evolves.mkSnd
    | with_reducible apply Evolves.projSnd
    | with_reducible apply Evolves.optSome
    | with_reducible apply Evolves.optNone
    | with_reducible apply Evolves.foldl
    | with_reducible apply Evolves.replyOk
    | with_reducible apply Evolves.replyFail
    | with_reducible apply Evolves.replyCounted
    | with_reducible apply Evolves.replyWait
    | with_reducible apply Evolves.next
    | with_reducible apply Evolves.fault
    | (with_reducible exact Evolves.same ‹_› rfl rfl rfl rfl rfl) | split)

theorem poolRefBody_evolves {z : State} (h : Hdr) (b : BufRef) (up : Bool) (s : State) (h_ : Evolves z s)
    : Evolves.reply z (poolRefBody h b up s) := by
  unfold poolRefBody
  repeat' (first
    | intro _ | with_reducible assumption
    | (extract_lets +onlyGivenNames x
       first
       | (refine Evolves.cut (z := z) x ?_ ?_
          rotate_left
          intro _
          clear_value x
          rotate_left
          unfold x
          clear x)
       | clear_value x)
    | with_reducible apply modPool_evolves | with_reducible apply Evolves.replyOk
    | with_reducible apply Evolves.replyFail | with_reducible apply Evolves.replyCounted
    | (with_reducible exact Evolves.same ‹_› rfl rfl rfl rfl rfl) | split)

theorem dropPool_evolves {z : State} (h : Handle) (s : State) (h_ : Evolves z s) : Evolves z (dropPool h s) := by
  unfold dropPool
  repeat' (first
    | intro _ | with_reducible assumption
    | (extract_lets +onlyGivenNames x
       first
       | (refine Evolves.cut (z := z) x ?_ ?_
          rotate_left
          intro _
          clear_value x
          rotate_left
          unfold x
          clear x)
       | clear_value x)
    | with_reducible apply checkLedgers_evolves | with_reducible apply State.modObj_evolves
    | (with_reducible exact Evolves.same ‹_› rfl rfl rfl rfl rfl) | split)

theorem poolDestroyBody_evolves {z : State} (h : Hdr) (pool : Handle) (s : State) (h_ : Evolves z s)
    : Evolves.reply z (poolDestroyBody h pool s) := by
  unfold poolDestroyBody
  repeat' (first
    | intro _ | with_reducible assumption | with_reducible apply modPool_evolves
    | with_reducible apply State.useFreshN_evolves | with_reducible apply dropPool_evolves
    | with_reducible apply Evolves.replyOk | with_reducible apply Evolves.replyFail
    | with_reducible apply Evolves.replyCounted | (with_reducible exact Evolves.same ‹_› rfl rfl rfl rfl rfl) | split)

theorem poolStatsBody_evolves {z : State} (h : Hdr) (pool : Handle) (s : State) (h_ : Evolves z s) : Evolves.reply z
    (poolStatsBody h pool s) := by
  unfold poolStatsBody
  repeat' (first
    | with_reducible assumption | with_reducible apply Evolves.replyOk | with_reducible apply Evolves.replyFail
    | split)

theorem runPoolCreate_evolves {z : State} (h : Hdr) (space bufLog2 flags count mask off : Nat) (s : State) (h_
    : Evolves z s) : Evolves z (runPoolCreate h space bufLog2 flags count mask off s) := by
  unfold runPoolCreate
  repeat' (first
    | with_reducible assumption | with_reducible apply serve_evolves | with_reducible apply poolCreateBody_evolves)

theorem runPoolAlloc_evolves {z : State} (h : Hdr) (pool : Handle) (s : State) (h_ : Evolves z s) : Evolves z
    (runPoolAlloc h pool s) := by
  unfold runPoolAlloc
  repeat' (first
    | with_reducible assumption | with_reducible apply serve_evolves | with_reducible apply poolAllocBody_evolves)

theorem runPoolFreeUnref_evolves {z : State} (h : Hdr) (b : BufRef) (s : State) (h_ : Evolves z s) : Evolves z
    (runPoolFreeUnref h b s) := by
  unfold runPoolFreeUnref
  repeat' (first
    | with_reducible assumption | with_reducible apply serve_evolves | with_reducible apply poolRefBody_evolves)

theorem runPoolFreeRef_evolves {z : State} (h : Hdr) (b : BufRef) (s : State) (h_ : Evolves z s) : Evolves z
    (runPoolFreeRef h b s) := by
  unfold runPoolFreeRef
  repeat' (first
    | with_reducible assumption | with_reducible apply serve_evolves | with_reducible apply poolRefBody_evolves)

theorem runPoolFreeDestroy_evolves {z : State} (h : Hdr) (pool : Handle) (s : State) (h_ : Evolves z s) : Evolves z
    (runPoolFreeDestroy h pool s) := by
  unfold runPoolFreeDestroy
  repeat' (first
    | with_reducible assumption | with_reducible apply serve_evolves | with_reducible apply poolDestroyBody_evolves)

theorem runPoolStats_evolves {z : State} (h : Hdr) (pool : Handle) (s : State) (h_ : Evolves z s) : Evolves z
    (runPoolStats h pool s) := by
  unfold runPoolStats
  repeat' (first
    | with_reducible assumption | with_reducible apply serve_evolves | with_reducible apply poolStatsBody_evolves)

theorem planSetBody_evolves {z : State} (h : Hdr) (kind mask g0 count : Nat) (s : State) (h_ : Evolves z s) :
    Evolves.reply z (planSetBody h kind mask g0 count s) := by
  unfold planSetBody
  repeat' (first
    | intro _ | with_reducible assumption
    | with_reducible apply startLong_evolves
    | with_reducible apply State.modObj_evolves
    | with_reducible refine Evolves.ofSnd ?_ (by with_reducible assumption)
    | with_reducible refine Evolves.ofOptSnd ?_ (by with_reducible assumption)
    | with_reducible refine Evolves.ofOption ?_ (by with_reducible assumption)
    | with_reducible apply Evolves.some
    | with_reducible apply Evolves.none
    | with_reducible apply Evolves.mkSnd
    | with_reducible apply Evolves.projSnd
    | with_reducible apply Evolves.optSome
    | with_reducible apply Evolves.optNone
    | with_reducible apply Evolves.foldl
    | with_reducible apply Evolves.replyOk
    | with_reducible apply Evolves.replyFail
    | with_reducible apply Evolves.replyCounted
    | with_reducible apply Evolves.replyWait
    | with_reducible apply Evolves.next
    | with_reducible apply Evolves.fault
    | with_reducible apply Evolves.ite
    | (with_reducible exact Evolves.same ‹_› rfl rfl rfl rfl rfl) | split)

theorem clearRegion_evolves {z : State} (r : Region) (s : State) (h_ : Evolves z s) : Evolves z (clearRegion r s)
    := by
  unfold clearRegion
  repeat' (first
    | intro _ | with_reducible assumption
    | (extract_lets +onlyGivenNames x
       first
       | (refine Evolves.cut (z := z) x ?_ ?_
          rotate_left
          intro _
          clear_value x
          rotate_left
          unfold x
          clear x)
       | clear_value x)
    | with_reducible apply zeroRange_evolves | with_reducible apply State.modObj_evolves
    | with_reducible apply Evolves.foldl | (with_reducible exact Evolves.same ‹_› rfl rfl rfl rfl rfl) | split)

theorem planClearBody_evolves {z : State} (h : Hdr) (kind mask g0 count : Nat) (s : State) (h_ : Evolves z s) :
    Evolves.reply z (planClearBody h kind mask g0 count s) := by
  unfold planClearBody
  repeat' (first
    | intro _ | with_reducible assumption
    | with_reducible apply startLong_evolves
    | with_reducible apply clearRegion_evolves
    | with_reducible refine Evolves.ofSnd ?_ (by with_reducible assumption)
    | with_reducible refine Evolves.ofOptSnd ?_ (by with_reducible assumption)
    | with_reducible refine Evolves.ofOption ?_ (by with_reducible assumption)
    | with_reducible apply Evolves.some
    | with_reducible apply Evolves.none
    | with_reducible apply Evolves.mkSnd
    | with_reducible apply Evolves.projSnd
    | with_reducible apply Evolves.optSome
    | with_reducible apply Evolves.optNone
    | with_reducible apply Evolves.foldl
    | with_reducible apply Evolves.replyOk
    | with_reducible apply Evolves.replyFail
    | with_reducible apply Evolves.replyCounted
    | with_reducible apply Evolves.replyWait
    | with_reducible apply Evolves.next
    | with_reducible apply Evolves.fault
    | with_reducible apply Evolves.ite
    | (with_reducible exact Evolves.same ‹_› rfl rfl rfl rfl rfl) | split)

theorem runPillowPlanClear_evolves {z : State} (h : Hdr) (kind mask g0 count : Nat) (s : State) (h_ : Evolves z s) :
    Evolves z (runPillowPlanClear h kind mask g0 count s) := by
  unfold runPillowPlanClear
  repeat' (first
    | intro _ | with_reducible assumption
    | with_reducible apply serve_evolves
    | with_reducible apply planClearBody_evolves
    | with_reducible refine Evolves.ofSnd ?_ (by with_reducible assumption)
    | with_reducible refine Evolves.ofOptSnd ?_ (by with_reducible assumption)
    | with_reducible refine Evolves.ofOption ?_ (by with_reducible assumption)
    | with_reducible apply Evolves.some
    | with_reducible apply Evolves.none
    | with_reducible apply Evolves.mkSnd
    | with_reducible apply Evolves.projSnd
    | with_reducible apply Evolves.optSome
    | with_reducible apply Evolves.optNone
    | with_reducible apply Evolves.foldl
    | with_reducible apply Evolves.replyOk
    | with_reducible apply Evolves.replyFail
    | with_reducible apply Evolves.replyCounted
    | with_reducible apply Evolves.replyWait
    | with_reducible apply Evolves.next
    | with_reducible apply Evolves.fault
    | with_reducible apply Evolves.ite
    | (with_reducible exact Evolves.same ‹_› rfl rfl rfl rfl rfl) | split)

theorem runPillowPlanSet_evolves {z : State} (h : Hdr) (kind mask g0 count : Nat) (s : State) (h_ : Evolves z s)
    : Evolves z (runPillowPlanSet h kind mask g0 count s) := by
  unfold runPillowPlanSet
  repeat' (first
    | with_reducible assumption | with_reducible apply serve_evolves | with_reducible apply planSetBody_evolves)

end Sys2Proof.Machine
end

