-- ==== Sys2Proof/Laws/EvolveBobbins.lean ====
section
/-! SUPPORT. What the operations of Sys2Proof.Machine.Bobbins never undo. -/

namespace Sys2Proof.Machine

theorem modBobbin_evolves {z : State} (h : Handle) (f : Bobbin → Bobbin) (s : State) (h_ : Evolves z s) : Evolves z
    (modBobbin h f s) := by
  unfold modBobbin
  repeat' (first
    | intro _ | with_reducible assumption | with_reducible apply State.modObj_evolves
    | (with_reducible exact Evolves.same ‹_› rfl rfl rfl rfl rfl))

theorem writeHeader_evolves {z : State} (h : Handle) (s : State) (h_ : Evolves z s) :
    Evolves z (writeHeader h s) := by
  unfold writeHeader
  repeat' (first
    | intro _ | with_reducible assumption
    | with_reducible apply hubStore_evolves
    | with_reducible refine Evolves.ofSnd ?_ (by with_reducible assumption)
    | with_reducible refine Evolves.ofOptSnd ?_ (by with_reducible assumption)
    | with_reducible refine Evolves.ofOption ?_ (by with_reducible assumption)
    | with_reducible apply Evolves.some
    | with_reducible apply Evolves.none
    | with_reducible apply Evolves.mkSnd
    | with_reducible apply Evolves.projSnd
    | with_reducible apply Evolves.optSome
    | with_reducible apply Evolves.optNone
    | with_reducible apply Evolves.foldl
    | with_reducible apply Evolves.replyOk
    | with_reducible apply Evolves.replyFail
    | with_reducible apply Evolves.replyCounted
    | with_reducible apply Evolves.replyWait
    | with_reducible apply Evolves.next
    | with_reducible apply Evolves.fault
    | with_reducible apply Evolves.ite
    | (with_reducible exact Evolves.same ‹_› rfl rfl rfl rfl rfl) | split)

theorem returnRun_evolves {z : State} (b : Bobbin) (s : State) (h_ : Evolves z s) : Evolves z (returnRun b s) := by
  unfold returnRun
  repeat' (first
    | intro _ | with_reducible assumption | with_reducible apply modPool_evolves)

theorem dropBobbin_evolves {z : State} (h : Handle) (s : State) (h_ : Evolves z s) : Evolves z (dropBobbin h s) := by
  unfold dropBobbin
  repeat' (first
    | intro _ | with_reducible assumption | with_reducible apply State.modObj_evolves
    | (with_reducible exact Evolves.same ‹_› rfl rfl rfl rfl rfl))

theorem settlePrefix_evolves {z : State} (b : Bobbin) (s : State) (h_ : Evolves z s) : Evolves z (settlePrefix b s)
    := by
  unfold settlePrefix
  repeat' (first
    | intro _ | with_reducible assumption
    | (extract_lets +onlyGivenNames x
       first
       | (refine Evolves.cut (z := z) x ?_ ?_
          rotate_left
          intro _
          clear_value x
          rotate_left
          unfold x
          clear x)
       | clear_value x)
    | with_reducible apply dropBobbin_evolves | with_reducible apply returnRun_evolves
    | with_reducible apply modPool_evolves | (with_reducible exact Evolves.same ‹_› rfl rfl rfl rfl rfl) | split)

theorem settlePrefixes_evolves {z : State} (s : State) (h_ : Evolves z s) : Evolves z (settlePrefixes s) := by
  unfold settlePrefixes
  repeat' (first
    | intro _ | with_reducible assumption | with_reducible apply settlePrefix_evolves
    | with_reducible apply Evolves.foldl)

theorem placeBobbin_evolves {z : State} (b : Bobbin) (s : State) (h_ : Evolves z s) :
    Evolves.option z (placeBobbin b s) := by
  unfold placeBobbin
  repeat' (first
    | intro _ | with_reducible assumption
    | (extract_lets +onlyGivenNames x
       first
       | (refine Evolves.cut (z := z) x ?_ ?_
          rotate_left
          intro _
          clear_value x
          rotate_left
          unfold x
          clear x)
       | clear_value x)
    | with_reducible apply modPool_evolves
    | with_reducible apply beginRewrite_evolves
    | with_reducible apply State.modObj_evolves
    | with_reducible apply loseAreas_evolves
    | with_reducible apply hubStore_evolves
    | with_reducible apply settlePrefixes_evolves
    | with_reducible apply writeHeader_evolves
    | with_reducible apply State.useFreshN_evolves
    | with_reducible refine Evolves.ofSnd ?_ (by with_reducible assumption)
    | with_reducible refine Evolves.ofOptSnd ?_ (by with_reducible assumption)
    | with_reducible refine Evolves.ofOption ?_ (by with_reducible assumption)
    | with_reducible apply Evolves.some
    | with_reducible apply Evolves.none
    | with_reducible apply Evolves.mkSnd
    | with_reducible apply Evolves.projSnd
    | with_reducible apply Evolves.optSome
    | with_reducible apply Evolves.optNone
    | with_reducible apply Evolves.foldl
    | with_reducible apply Evolves.replyOk
    | with_reducible apply Evolves.replyFail
    | with_reducible apply Evolves.replyCounted
    | with_reducible apply Evolves.replyWait
    | with_reducible apply Evolves.next
    | with_reducible apply Evolves.fault
    | with_reducible apply Evolves.ite
    | (with_reducible exact Evolves.same ‹_› rfl rfl rfl rfl rfl) | split)

theorem freeBobbin_evolves {z : State} (b : Bobbin) (s : State) (h_ : Evolves z s) :
    Evolves z (freeBobbin b s) := by
  unfold freeBobbin
  repeat' (first
    | intro _ | with_reducible assumption
    | with_reducible apply mirrorFlush_evolves
    | with_reducible apply settlePrefixes_evolves
    | with_reducible apply dropBobbin_evolves
    | with_reducible apply returnRun_evolves
    | with_reducible refine Evolves.ofSnd ?_ (by with_reducible assumption)
    | with_reducible refine Evolves.ofOptSnd ?_ (by with_reducible assumption)
    | with_reducible refine Evolves.ofOption ?_ (by with_reducible assumption)
    | with_reducible apply Evolves.some
    | with_reducible apply Evolves.none
    | with_reducible apply Evolves.mkSnd
    | with_reducible apply Evolves.projSnd
    | with_reducible apply Evolves.optSome
    | with_reducible apply Evolves.optNone
    | with_reducible apply Evolves.foldl
    | with_reducible apply Evolves.replyOk
    | with_reducible apply Evolves.replyFail
    | with_reducible apply Evolves.replyCounted
    | with_reducible apply Evolves.replyWait
    | with_reducible apply Evolves.next
    | with_reducible apply Evolves.fault
    | with_reducible apply Evolves.ite
    | (with_reducible exact Evolves.same ‹_› rfl rfl rfl rfl rfl) | split)

theorem bobbinCreateBody_evolves {z : State} (h : Hdr) (layoutIdx : Nat) (model arena : Handle) (maxPos : Nat) (pfx : Handle) (s : State) (h_ : Evolves z s) :
    Evolves.reply z (bobbinCreateBody h layoutIdx model arena maxPos pfx s) := by
  unfold bobbinCreateBody
  repeat' (first
    | intro _ | with_reducible assumption
    | (extract_lets +onlyGivenNames x
       first
       | (refine Evolves.cut (z := z) x ?_ ?_
          rotate_left
          intro _
          clear_value x
          rotate_left
          unfold x
          clear x)
       | clear_value x)
    | with_reducible apply placeBobbin_evolves
    | with_reducible apply countNoSpace_evolves
    | with_reducible apply issued_evolves
    | with_reducible refine Evolves.ofSnd ?_ (by with_reducible assumption)
    | with_reducible refine Evolves.ofOptSnd ?_ (by with_reducible assumption)
    | with_reducible refine Evolves.ofOption ?_ (by with_reducible assumption)
    | with_reducible apply Evolves.mkSnd
    | with_reducible apply Evolves.projSnd
    | with_reducible apply Evolves.optSome
    | with_reducible apply Evolves.optNone
    | with_reducible apply Evolves.foldl
    | with_reducible apply Evolves.replyOk
    | with_reducible apply Evolves.replyFail
    | with_reducible apply Evolves.replyCounted
    | with_reducible apply Evolves.replyWait
    | with_reducible apply Evolves.next
    | with_reducible apply Evolves.fault
    | (with_reducible exact Evolves.same ‹_› rfl rfl rfl rfl rfl) | split)

theorem bobbinReleaseBody_evolves {z : State} (h : Hdr) (bobbin : Handle) (s : State) (h_ : Evolves z s)
    : Evolves.reply z (bobbinReleaseBody h bobbin s) := by
  unfold bobbinReleaseBody
  repeat' (first
    | intro _ | with_reducible assumption
    | (extract_lets +onlyGivenNames x
       first
       | (refine Evolves.cut (z := z) x ?_ ?_
          rotate_left
          intro _
          clear_value x
          rotate_left
          unfold x
          clear x)
       | clear_value x)
    | with_reducible apply settlePrefixes_evolves | with_reducible apply modBobbin_evolves
    | with_reducible apply freeBobbin_evolves | with_reducible apply Evolves.replyOk
    | with_reducible apply Evolves.replyFail | (with_reducible exact Evolves.same ‹_› rfl rfl rfl rfl rfl) | split)

theorem prefixCreateBody_evolves {z : State} (h : Hdr) (bobbin : Handle) (s : State) (h_ : Evolves z s)
    : Evolves.reply z (prefixCreateBody h bobbin s) := by
  unfold prefixCreateBody
  repeat' (first
    | intro _ | with_reducible assumption
    | (extract_lets +onlyGivenNames x
       first
       | (refine Evolves.cut (z := z) x ?_ ?_
          rotate_left
          intro _
          clear_value x
          rotate_left
          unfold x
          clear x)
       | clear_value x)
    | with_reducible apply State.modObj_evolves | with_reducible apply issued_evolves
    | with_reducible apply settlePrefixes_evolves | with_reducible apply writeHeader_evolves
    | with_reducible apply Evolves.replyOk | with_reducible apply Evolves.replyFail
    | (with_reducible exact Evolves.same ‹_› rfl rfl rfl rfl rfl) | split)

theorem prefixForkBody_evolves {z : State} (h : Hdr) (bobbin : Handle) (p : Nat) (s : State) (h_ : Evolves z s)
    : Evolves.reply z (prefixForkBody h bobbin p s) := by
  unfold prefixForkBody
  repeat' (first
    | intro _ | with_reducible assumption
    | (extract_lets +onlyGivenNames x
       first
       | (refine Evolves.cut (z := z) x ?_ ?_
          rotate_left
          intro _
          clear_value x
          rotate_left
          unfold x
          clear x)
       | clear_value x)
    | with_reducible apply modBobbin_evolves | with_reducible apply Evolves.replyOk
    | with_reducible apply Evolves.replyFail | (with_reducible exact Evolves.same ‹_› rfl rfl rfl rfl rfl) | split)

theorem runBobbinCreate_evolves {z : State} (h : Hdr) (layout : Nat) (model arena : Handle) (maxPos : Nat) (pfx
    : Handle) (s : State) (h_ : Evolves z s) : Evolves z (runBobbinCreate h layout model arena maxPos pfx s) := by
  unfold runBobbinCreate
  repeat' (first
    | with_reducible assumption | with_reducible apply serve_evolves | with_reducible apply bobbinCreateBody_evolves)

theorem runBobbinRelease_evolves {z : State} (h : Hdr) (bobbin : Handle) (s : State) (h_ : Evolves z s) : Evolves z
    (runBobbinRelease h bobbin s) := by
  unfold runBobbinRelease
  repeat' (first
    | with_reducible assumption | with_reducible apply serve_evolves | with_reducible apply bobbinReleaseBody_evolves)

theorem runPrefixCreate_evolves {z : State} (h : Hdr) (bobbin : Handle) (s : State) (h_ : Evolves z s) : Evolves z
    (runPrefixCreate h bobbin s) := by
  unfold runPrefixCreate
  repeat' (first
    | with_reducible assumption | with_reducible apply serve_evolves | with_reducible apply prefixCreateBody_evolves)

theorem runPrefixFork_evolves {z : State} (h : Hdr) (bobbin : Handle) (p : Nat) (s : State) (h_ : Evolves z s)
    : Evolves z (runPrefixFork h bobbin p s) := by
  unfold runPrefixFork
  repeat' (first
    | with_reducible assumption | with_reducible apply serve_evolves | with_reducible apply prefixForkBody_evolves)

theorem linkCopy_evolves {z : State} (b q : Bobbin) (s : State) (h_ : Evolves z s) :
    Evolves z (linkCopy b q s) := by
  unfold linkCopy
  repeat' (first
    | intro _ | with_reducible assumption
    | (extract_lets +onlyGivenNames x
       first
       | (refine Evolves.cut (z := z) x ?_ ?_
          rotate_left
          intro _
          clear_value x
          rotate_left
          unfold x
          clear x)
       | clear_value x)
    | with_reducible apply hubCopy_evolves
    | with_reducible refine Evolves.ofSnd ?_ (by with_reducible assumption)
    | with_reducible refine Evolves.ofOptSnd ?_ (by with_reducible assumption)
    | with_reducible refine Evolves.ofOption ?_ (by with_reducible assumption)
    | with_reducible apply Evolves.some
    | with_reducible apply Evolves.none
    | with_reducible apply Evolves.mkSnd
    | with_reducible apply Evolves.projSnd
    | with_reducible apply Evolves.optSome
    | with_reducible apply Evolves.optNone
    | with_reducible apply Evolves.foldl
    | with_reducible apply Evolves.replyOk
    | with_reducible apply Evolves.replyFail
    | with_reducible apply Evolves.replyCounted
    | with_reducible apply Evolves.replyWait
    | with_reducible apply Evolves.next
    | with_reducible apply Evolves.fault
    | with_reducible apply Evolves.ite
    | (with_reducible exact Evolves.same ‹_› rfl rfl rfl rfl rfl) | split)

theorem readBank_evolves {z : State} (b : Bobbin) (bank a : Nat) (s : State) (h_ : Evolves z s) :
    Evolves z (readBank b bank a s) := by
  unfold readBank
  repeat' (first
    | intro _ | with_reducible assumption
    | with_reducible apply hubRead_evolves
    | with_reducible refine Evolves.ofSnd ?_ (by with_reducible assumption)
    | with_reducible refine Evolves.ofOptSnd ?_ (by with_reducible assumption)
    | with_reducible refine Evolves.ofOption ?_ (by with_reducible assumption)
    | with_reducible apply Evolves.some
    | with_reducible apply Evolves.none
    | with_reducible apply Evolves.mkSnd
    | with_reducible apply Evolves.projSnd
    | with_reducible apply Evolves.optSome
    | with_reducible apply Evolves.optNone
    | with_reducible apply Evolves.foldl
    | with_reducible apply Evolves.replyOk
    | with_reducible apply Evolves.replyFail
    | with_reducible apply Evolves.replyCounted
    | with_reducible apply Evolves.replyWait
    | with_reducible apply Evolves.next
    | with_reducible apply Evolves.fault
    | with_reducible apply Evolves.ite
    | (with_reducible exact Evolves.same ‹_› rfl rfl rfl rfl rfl) | split)

theorem emptyFrom_evolves {z : State} (b : Bobbin) (p a : Nat) (s : State) (h_ : Evolves z s) :
    Evolves z (emptyFrom b p a s) := by
  unfold emptyFrom
  repeat' (first
    | intro _ | with_reducible assumption
    | (extract_lets +onlyGivenNames x
       first
       | (refine Evolves.cut (z := z) x ?_ ?_
          rotate_left
          intro _
          clear_value x
          rotate_left
          unfold x
          clear x)
       | clear_value x)
    | with_reducible apply hubStore_evolves
    | with_reducible apply readBank_evolves
    | with_reducible refine Evolves.ofSnd ?_ (by with_reducible assumption)
    | with_reducible refine Evolves.ofOptSnd ?_ (by with_reducible assumption)
    | with_reducible refine Evolves.ofOption ?_ (by with_reducible assumption)
    | with_reducible apply Evolves.some
    | with_reducible apply Evolves.none
    | with_reducible apply Evolves.mkSnd
    | with_reducible apply Evolves.projSnd
    | with_reducible apply Evolves.optSome
    | with_reducible apply Evolves.optNone
    | with_reducible apply Evolves.foldl
    | with_reducible apply Evolves.replyOk
    | with_reducible apply Evolves.replyFail
    | with_reducible apply Evolves.replyCounted
    | with_reducible apply Evolves.replyWait
    | with_reducible apply Evolves.next
    | with_reducible apply Evolves.fault
    | with_reducible apply Evolves.ite
    | (with_reducible exact Evolves.same ‹_› rfl rfl rfl rfl rfl) | split)

theorem forkRecords_evolves {z : State} (b q : Bobbin) (n : Nat) (s : State) (h_ : Evolves z s) :
    Evolves z (forkRecords b q n s) := by
  unfold forkRecords
  repeat' (first
    | intro _ | with_reducible assumption
    | (extract_lets +onlyGivenNames x
       first
       | (refine Evolves.cut (z := z) x ?_ ?_
          rotate_left
          intro _
          clear_value x
          rotate_left
          unfold x
          clear x)
       | clear_value x)
    | with_reducible apply emptyFrom_evolves
    | with_reducible apply hubCopy_evolves
    | with_reducible refine Evolves.ofSnd ?_ (by with_reducible assumption)
    | with_reducible refine Evolves.ofOptSnd ?_ (by with_reducible assumption)
    | with_reducible refine Evolves.ofOption ?_ (by with_reducible assumption)
    | with_reducible apply Evolves.some
    | with_reducible apply Evolves.none
    | with_reducible apply Evolves.mkSnd
    | with_reducible apply Evolves.projSnd
    | with_reducible apply Evolves.optSome
    | with_reducible apply Evolves.optNone
    | with_reducible apply Evolves.foldl
    | with_reducible apply Evolves.replyOk
    | with_reducible apply Evolves.replyFail
    | with_reducible apply Evolves.replyCounted
    | with_reducible apply Evolves.replyWait
    | with_reducible apply Evolves.next
    | with_reducible apply Evolves.fault
    | with_reducible apply Evolves.ite
    | (with_reducible exact Evolves.same ‹_› rfl rfl rfl rfl rfl) | split)

theorem commitCopy_evolves {z : State} (b : Bobbin) (append a : Nat) (s : State) (h_ : Evolves z s) :
    Evolves z (commitCopy b append a s) := by
  unfold commitCopy
  repeat' (first
    | intro _ | with_reducible assumption
    | (extract_lets +onlyGivenNames x
       first
       | (refine Evolves.cut (z := z) x ?_ ?_
          rotate_left
          intro _
          clear_value x
          rotate_left
          unfold x
          clear x)
       | clear_value x)
    | with_reducible apply hubCopy_evolves
    | with_reducible apply readBank_evolves
    | with_reducible refine Evolves.ofSnd ?_ (by with_reducible assumption)
    | with_reducible refine Evolves.ofOptSnd ?_ (by with_reducible assumption)
    | with_reducible refine Evolves.ofOption ?_ (by with_reducible assumption)
    | with_reducible apply Evolves.some
    | with_reducible apply Evolves.none
    | with_reducible apply Evolves.mkSnd
    | with_reducible apply Evolves.projSnd
    | with_reducible apply Evolves.optSome
    | with_reducible apply Evolves.optNone
    | with_reducible apply Evolves.foldl
    | with_reducible apply Evolves.replyOk
    | with_reducible apply Evolves.replyFail
    | with_reducible apply Evolves.replyCounted
    | with_reducible apply Evolves.replyWait
    | with_reducible apply Evolves.next
    | with_reducible apply Evolves.fault
    | with_reducible apply Evolves.ite
    | (with_reducible exact Evolves.same ‹_› rfl rfl rfl rfl rfl) | split)

theorem forkCopy_evolves {z : State} (b q : Bobbin) (s : State) (h_ : Evolves z s) :
    Evolves z (forkCopy b q s) := by
  unfold forkCopy
  repeat' (first
    | intro _ | with_reducible assumption
    | (extract_lets +onlyGivenNames x
       first
       | (refine Evolves.cut (z := z) x ?_ ?_
          rotate_left
          intro _
          clear_value x
          rotate_left
          unfold x
          clear x)
       | clear_value x)
    | with_reducible apply forkRecords_evolves
    | with_reducible apply modBobbin_evolves
    | with_reducible apply settlePrefixes_evolves
    | with_reducible apply mirrorFlush_evolves
    | with_reducible apply writeHeader_evolves
    | with_reducible refine Evolves.ofSnd ?_ (by with_reducible assumption)
    | with_reducible refine Evolves.ofOptSnd ?_ (by with_reducible assumption)
    | with_reducible refine Evolves.ofOption ?_ (by with_reducible assumption)
    | with_reducible apply Evolves.some
    | with_reducible apply Evolves.none
    | with_reducible apply Evolves.mkSnd
    | with_reducible apply Evolves.projSnd
    | with_reducible apply Evolves.optSome
    | with_reducible apply Evolves.optNone
    | with_reducible apply Evolves.foldl
    | with_reducible apply Evolves.replyOk
    | with_reducible apply Evolves.replyFail
    | with_reducible apply Evolves.replyCounted
    | with_reducible apply Evolves.replyWait
    | with_reducible apply Evolves.next
    | with_reducible apply Evolves.fault
    | with_reducible apply Evolves.ite
    | (with_reducible exact Evolves.same ‹_› rfl rfl rfl rfl rfl) | split)

theorem commitBobbin_evolves {z : State} (h : Handle) (append : Nat) (s : State) (h_ : Evolves z s) : Evolves z
    (commitBobbin h append s) := by
  unfold commitBobbin
  repeat' (first
    | intro _ | with_reducible assumption
    | (extract_lets +onlyGivenNames x
       first
       | (refine Evolves.cut (z := z) x ?_ ?_
          rotate_left
          intro _
          clear_value x
          rotate_left
          unfold x
          clear x)
       | clear_value x)
    | with_reducible apply commitCopy_evolves | with_reducible apply writeHeader_evolves
    | with_reducible apply modBobbin_evolves | with_reducible apply Evolves.foldl
    | (with_reducible exact Evolves.same ‹_› rfl rfl rfl rfl rfl) | split)

end Sys2Proof.Machine
end

