-- ==== Sys2Proof/Laws/EvolvePower.lean ====
section
/-! SUPPORT. What the operations of Sys2Proof.Machine.Power never undo. -/

namespace Sys2Proof.Machine

theorem setStep_evolves {z : State} (n : Nat) (s : State) (h_ : Evolves z s) : Evolves z (setStep n s) := by
  unfold setStep
  repeat' (first
    | intro _ | with_reducible assumption
    | (extract_lets +onlyGivenNames x
       first
       | (refine Evolves.cut (z := z) x ?_ ?_
          rotate_left
          intro _
          clear_value x
          rotate_left
          unfold x
          clear x)
       | clear_value x)
    | with_reducible apply State.modPower_evolves | with_reducible apply State.modObj_evolves
    | (with_reducible exact Evolves.same ‹_› rfl rfl rfl rfl rfl) | split)

theorem followStep_evolves {z : State} (ready : Bool) (s : State) (h_ : Evolves z s) : Evolves z
    (followStep ready s) := by
  unfold followStep
  repeat' (first
    | intro _ | with_reducible assumption
    | (extract_lets +onlyGivenNames x
       first
       | (refine Evolves.cut (z := z) x ?_ ?_
          rotate_left
          intro _
          clear_value x
          rotate_left
          unfold x
          clear x)
       | clear_value x)
    | with_reducible apply setStep_evolves | with_reducible apply State.modPower_evolves
    | (with_reducible exact Evolves.same ‹_› rfl rfl rfl rfl rfl) | split)

theorem powerLimitEvent_evolves {z : State} (s : State) (h_ : Evolves z s) : Evolves z (powerLimitEvent s) := by
  unfold powerLimitEvent
  repeat' (first
    | with_reducible assumption | with_reducible apply issueEvent_evolves)

theorem powerCapBody_evolves {z : State} (capW : Nat) (s : State) (h_ : Evolves z s) : Evolves.reply z
    (powerCapBody capW s) := by
  unfold powerCapBody
  repeat' (first
    | intro _ | with_reducible assumption
    | (extract_lets +onlyGivenNames x
       first
       | (refine Evolves.cut (z := z) x ?_ ?_
          rotate_left
          intro _
          clear_value x
          rotate_left
          unfold x
          clear x)
       | clear_value x)
    | with_reducible apply State.modPower_evolves | with_reducible apply Evolves.replyOk
    | with_reducible apply Evolves.replyFail | (with_reducible exact Evolves.same ‹_› rfl rfl rfl rfl rfl) | split)

theorem runPowerCap_evolves {z : State} (h : Hdr) (capW : Nat) (s : State) (h_ : Evolves z s) : Evolves z
    (runPowerCap h capW s) := by
  unfold runPowerCap
  repeat' (first
    | with_reducible assumption | with_reducible apply serve_evolves | with_reducible apply powerCapBody_evolves)

theorem imbalanceStart_evolves {z : State} (s : State) (h_ : Evolves z s) : Evolves z (imbalanceStart s) := by
  unfold imbalanceStart
  repeat' (first
    | intro _ | with_reducible assumption
    | (extract_lets +onlyGivenNames x
       first
       | (refine Evolves.cut (z := z) x ?_ ?_
          rotate_left
          intro _
          clear_value x
          rotate_left
          unfold x
          clear x)
       | clear_value x)
    | with_reducible apply State.modPower_evolves | with_reducible apply followStep_evolves
    | with_reducible apply issueEvent_evolves | (with_reducible exact Evolves.same ‹_› rfl rfl rfl rfl rfl) | split)

theorem imbalanceUpdate_evolves {z : State} (s : State) (h_ : Evolves z s) : Evolves z (imbalanceUpdate s) := by
  unfold imbalanceUpdate
  repeat' (first
    | intro _ | with_reducible assumption | with_reducible apply State.modPower_evolves
    | with_reducible apply imbalanceStart_evolves | (with_reducible exact Evolves.same ‹_› rfl rfl rfl rfl rfl)
    | split)

theorem duePllIdleStop_evolves {z : State} (s : State) (h_ : Evolves z s) :
    Evolves.outcome z (duePllIdleStop s) := by
  unfold duePllIdleStop
  repeat' (first
    | intro _ | with_reducible assumption
    | with_reducible apply State.modPower_evolves
    | with_reducible refine Evolves.ofSnd ?_ (by with_reducible assumption)
    | with_reducible refine Evolves.ofOptSnd ?_ (by with_reducible assumption)
    | with_reducible refine Evolves.ofOption ?_ (by with_reducible assumption)
    | with_reducible apply Evolves.mkSnd
    | with_reducible apply Evolves.projSnd
    | with_reducible apply Evolves.optSome
    | with_reducible apply Evolves.optNone
    | with_reducible apply Evolves.foldl
    | with_reducible apply Evolves.replyOk
    | with_reducible apply Evolves.replyFail
    | with_reducible apply Evolves.replyCounted
    | with_reducible apply Evolves.replyWait
    | with_reducible apply Evolves.next
    | with_reducible apply Evolves.fault
    | (with_reducible exact Evolves.same ‹_› rfl rfl rfl rfl rfl) | split)

end Sys2Proof.Machine
end

