-- ==== Sys2Proof/Laws/EvolvePicots.lean ====
section
/-! SUPPORT. What the operations of Sys2Proof.Machine.Picots never undo. -/

namespace Sys2Proof.Machine

theorem setDest_evolves {z : State} (d : Dest) (s : State) (h_ : Evolves z s) : Evolves z (setDest d s) := by
  unfold setDest
  repeat' (first
    | intro _ | with_reducible assumption | with_reducible apply State.modObj_evolves
    | (with_reducible exact Evolves.same ‹_› rfl rfl rfl rfl rfl))

theorem modStream_evolves {z : State} (h : Handle) (f : Stream → Stream) (s : State) (h_ : Evolves z s) : Evolves z
    (modStream h f s) := by
  unfold modStream
  repeat' (first
    | intro _ | with_reducible assumption | with_reducible apply State.modObj_evolves
    | (with_reducible exact Evolves.same ‹_› rfl rfl rfl rfl rfl))

theorem countDrop_evolves {z : State} (dest : Option Nat) (reason : Nat) (s : State) (h_ : Evolves z s) : Evolves z
    (countDrop dest reason s) := by
  unfold countDrop
  repeat' (first
    | intro _ | with_reducible assumption
    | (extract_lets +onlyGivenNames x
       first
       | (refine Evolves.cut (z := z) x ?_ ?_
          rotate_left
          intro _
          clear_value x
          rotate_left
          unfold x
          clear x)
       | clear_value x)
    | with_reducible apply State.modCtr_evolves | with_reducible apply State.modObj_evolves
    | (with_reducible exact Evolves.same ‹_› rfl rfl rfl rfl rfl) | split)

theorem countProduced_evolves {z : State} (s : State) (h_ : Evolves z s) : Evolves z (countProduced s) := by
  unfold countProduced
  repeat' (first
    | intro _ | with_reducible assumption | with_reducible apply State.modCtr_evolves
    | (with_reducible exact Evolves.same ‹_› rfl rfl rfl rfl rfl))

theorem countProducedFor_evolves {z : State} (i : Nat) (s : State) (h_ : Evolves z s) : Evolves z
    (countProducedFor i s) := by
  unfold countProducedFor
  repeat' (first
    | intro _ | with_reducible assumption | with_reducible apply State.modObj_evolves
    | (with_reducible exact Evolves.same ‹_› rfl rfl rfl rfl rfl))

theorem sendDatagram_evolves {z : State} (dest lastSeq : Nat) (m : OutMsg) (s : State) (h_ : Evolves z s) :
    Evolves z (sendDatagram dest lastSeq m s) := by
  unfold sendDatagram
  repeat' (first
    | intro _ | with_reducible assumption
    | with_reducible apply countDelivered_evolves
    | with_reducible apply State.push_evolves
    | with_reducible refine Evolves.ofSnd ?_ (by with_reducible assumption)
    | with_reducible refine Evolves.ofOptSnd ?_ (by with_reducible assumption)
    | with_reducible refine Evolves.ofOption ?_ (by with_reducible assumption)
    | with_reducible apply Evolves.some
    | with_reducible apply Evolves.none
    | with_reducible apply Evolves.mkSnd
    | with_reducible apply Evolves.projSnd
    | with_reducible apply Evolves.optSome
    | with_reducible apply Evolves.optNone
    | with_reducible apply Evolves.foldl
    | with_reducible apply Evolves.replyOk
    | with_reducible apply Evolves.replyFail
    | with_reducible apply Evolves.replyCounted
    | with_reducible apply Evolves.replyWait
    | with_reducible apply Evolves.next
    | with_reducible apply Evolves.fault
    | with_reducible apply Evolves.ite
    | (with_reducible exact Evolves.same ‹_› rfl rfl rfl rfl rfl) | split)

theorem deliverDest_evolves {z : State} (d : Dest) (s : State) (h_ : Evolves z s) :
    Evolves z (deliverDest d s) := by
  unfold deliverDest
  repeat' (first
    | intro _ | with_reducible assumption
    | (extract_lets +onlyGivenNames x
       first
       | (refine Evolves.cut (z := z) x ?_ ?_
          rotate_left
          intro _
          clear_value x
          rotate_left
          unfold x
          clear x)
       | clear_value x)
    | with_reducible apply mirrorItem_evolves
    | with_reducible apply sendPage_evolves
    | with_reducible apply State.modObj_evolves
    | with_reducible apply writeDone_evolves
    | with_reducible apply setDest_evolves
    | with_reducible apply defer_evolves
    | with_reducible apply sendDatagram_evolves
    | with_reducible refine Evolves.ofSnd ?_ (by with_reducible assumption)
    | with_reducible refine Evolves.ofOptSnd ?_ (by with_reducible assumption)
    | with_reducible refine Evolves.ofOption ?_ (by with_reducible assumption)
    | with_reducible apply Evolves.some
    | with_reducible apply Evolves.none
    | with_reducible apply Evolves.mkSnd
    | with_reducible apply Evolves.projSnd
    | with_reducible apply Evolves.optSome
    | with_reducible apply Evolves.optNone
    | with_reducible apply Evolves.foldl
    | with_reducible apply Evolves.replyOk
    | with_reducible apply Evolves.replyFail
    | with_reducible apply Evolves.replyCounted
    | with_reducible apply Evolves.replyWait
    | with_reducible apply Evolves.next
    | with_reducible apply Evolves.fault
    | with_reducible apply Evolves.ite
    | (with_reducible exact Evolves.same ‹_› rfl rfl rfl rfl rfl) | split)

theorem openPage_evolves {z : State} (d : Dest) (s : State) (h_ : Evolves z s) : Evolves.optSnd z (openPage d s) := by
  unfold openPage
  repeat' (first
    | intro _ | with_reducible assumption | with_reducible apply setPageSet_evolves
    | with_reducible apply Evolves.mkSnd | with_reducible apply Evolves.optSome | with_reducible apply Evolves.optNone
    | (with_reducible exact Evolves.same ‹_› rfl rfl rfl rfl rfl) | split)

theorem pumpDest_evolves {z : State} (i : Nat) (v0 : Nat) (s : State) (h_ : Evolves z s) : Evolves z
    (pumpDest i v0 s) := by
  induction v0 generalizing s with
  | zero =>
    unfold pumpDest
    repeat' (first
      | with_reducible assumption | with_reducible apply setDest_evolves | with_reducible apply deliverDest_evolves
      | with_reducible apply openPage_evolves | with_reducible refine Evolves.ofSnd ?_ (by with_reducible assumption)
      | with_reducible refine Evolves.ofOptSnd ?_ (by with_reducible assumption) | with_reducible apply Evolves.projSnd
      | with_reducible apply Evolves.mkSnd | split)
  | succ n ih =>
    unfold pumpDest
    repeat' (first
      | with_reducible assumption | with_reducible apply setDest_evolves | with_reducible apply deliverDest_evolves
      | with_reducible apply openPage_evolves | with_reducible apply ih
      | with_reducible refine Evolves.ofSnd ?_ (by with_reducible assumption)
      | with_reducible refine Evolves.ofOptSnd ?_ (by with_reducible assumption) | with_reducible apply Evolves.projSnd
      | with_reducible apply Evolves.mkSnd | split)

theorem pump_evolves {z : State} (i : Nat) (s : State) (h_ : Evolves z s) : Evolves z (pump i s) := by
  unfold pump
  repeat' (first
    | with_reducible assumption | with_reducible apply pumpDest_evolves | split)

theorem releasePicot_evolves {z : State} (p : Picot) (s : State) (h_ : Evolves z s) : Evolves z (releasePicot p s)
    := by
  unfold releasePicot
  repeat' (first
    | intro _ | with_reducible assumption
    | (extract_lets +onlyGivenNames x
       first
       | (refine Evolves.cut (z := z) x ?_ ?_
          rotate_left
          intro _
          clear_value x
          rotate_left
          unfold x
          clear x)
       | clear_value x)
    | with_reducible apply countDrop_evolves | with_reducible apply countProducedFor_evolves
    | with_reducible apply setDest_evolves | with_reducible apply pump_evolves
    | with_reducible apply mirrorItem_evolves | (with_reducible exact Evolves.same ‹_› rfl rfl rfl rfl rfl) | split)

theorem releaseStream_evolves {z : State} (h : Handle) (s : State) (h_ : Evolves z s) : Evolves z
    (releaseStream h s) := by
  unfold releaseStream
  repeat' (first
    | intro _ | with_reducible assumption
    | (extract_lets +onlyGivenNames x
       first
       | (refine Evolves.cut (z := z) x ?_ ?_
          rotate_left
          intro _
          clear_value x
          rotate_left
          unfold x
          clear x)
       | clear_value x)
    | with_reducible apply State.modObj_evolves | with_reducible apply releasePicot_evolves
    | with_reducible apply Evolves.foldl | (with_reducible exact Evolves.same ‹_› rfl rfl rfl rfl rfl) | split)

theorem releaseHeld_evolves {z : State} (s : State) (h_ : Evolves z s) : Evolves z (releaseHeld s) := by
  unfold releaseHeld
  repeat' (first
    | intro _ | with_reducible assumption | with_reducible apply releaseStream_evolves
    | with_reducible apply Evolves.foldl)

theorem formPicot_evolves {z : State} (p : Picot) (s : State) (h_ : Evolves z s) : Evolves z (formPicot p s) := by
  unfold formPicot
  repeat' (first
    | intro _ | with_reducible assumption
    | (extract_lets +onlyGivenNames x
       first
       | (refine Evolves.cut (z := z) x ?_ ?_
          rotate_left
          intro _
          clear_value x
          rotate_left
          unfold x
          clear x)
       | clear_value x)
    | with_reducible apply countProduced_evolves | with_reducible apply countProducedFor_evolves
    | with_reducible apply countDrop_evolves | with_reducible apply releasePicot_evolves
    | with_reducible apply State.modObj_evolves | (with_reducible exact Evolves.same ‹_› rfl rfl rfl rfl rfl) | split)

theorem statusPicot_evolves {z : State} (h : Handle) (reason count detail frame : Nat) (capture : CardTime)
    (estimated : Bool) (s : State) (h_ : Evolves z s) : Evolves z
    (statusPicot h reason count detail frame capture estimated s) := by
  unfold statusPicot
  repeat' (first
    | with_reducible assumption | with_reducible apply formPicot_evolves)

theorem duePicotPageFlush_evolves {z : State} (dest : Nat) (s : State) (h_ : Evolves z s) :
    Evolves.outcome z (duePicotPageFlush dest s) := by
  unfold duePicotPageFlush
  repeat' (first
    | intro _ | with_reducible assumption
    | with_reducible apply pump_evolves
    | with_reducible apply deliverDest_evolves
    | with_reducible refine Evolves.ofSnd ?_ (by with_reducible assumption)
    | with_reducible refine Evolves.ofOptSnd ?_ (by with_reducible assumption)
    | with_reducible refine Evolves.ofOption ?_ (by with_reducible assumption)
    | with_reducible apply Evolves.some
    | with_reducible apply Evolves.none
    | with_reducible apply Evolves.mkSnd
    | with_reducible apply Evolves.projSnd
    | with_reducible apply Evolves.optSome
    | with_reducible apply Evolves.optNone
    | with_reducible apply Evolves.foldl
    | with_reducible apply Evolves.replyOk
    | with_reducible apply Evolves.replyFail
    | with_reducible apply Evolves.replyCounted
    | with_reducible apply Evolves.replyWait
    | with_reducible apply Evolves.next
    | with_reducible apply Evolves.fault
    | with_reducible apply Evolves.ite
    | (with_reducible exact Evolves.same ‹_› rfl rfl rfl rfl rfl) | split)

theorem destSetBody_evolves {z : State} (h : Hdr) (r : RouteReq) (s : State) (h_ : Evolves z s) : Evolves.reply z
    (destSetBody h r s) := by
  unfold destSetBody
  repeat' (first
    | intro _ | with_reducible assumption
    | (extract_lets +onlyGivenNames x
       first
       | (refine Evolves.cut (z := z) x ?_ ?_
          rotate_left
          intro _
          clear_value x
          rotate_left
          unfold x
          clear x)
       | clear_value x)
    | with_reducible apply setDest_evolves | with_reducible apply State.push_evolves
    | with_reducible apply Evolves.replyOk | with_reducible apply Evolves.replyFail
    | (with_reducible exact Evolves.same ‹_› rfl rfl rfl rfl rfl) | split)

theorem returnPage_evolves {z : State} (d : Dest) (s : State) (h_ : Evolves z s) : Evolves z (returnPage d s) := by
  unfold returnPage
  repeat' (first
    | intro _ | with_reducible assumption | with_reducible apply State.modObj_evolves
    | (with_reducible exact Evolves.same ‹_› rfl rfl rfl rfl rfl) | split)

theorem dropDest_evolves {z : State} (d : Dest) (s : State) (h_ : Evolves z s) : Evolves z (dropDest d s) := by
  unfold dropDest
  repeat' (first
    | intro _ | with_reducible assumption
    | (extract_lets +onlyGivenNames x
       first
       | (refine Evolves.cut (z := z) x ?_ ?_
          rotate_left
          intro _
          clear_value x
          rotate_left
          unfold x
          clear x)
       | clear_value x)
    | with_reducible apply checkLedger_evolves | with_reducible apply returnPage_evolves
    | with_reducible apply State.modCtr_evolves | with_reducible apply State.modObj_evolves
    | (with_reducible exact Evolves.same ‹_› rfl rfl rfl rfl rfl) | split)

theorem destRemoveBody_evolves {z : State} (h : Hdr) (dest : Nat) (s : State) (h_ : Evolves z s) : Evolves.reply z
    (destRemoveBody h dest s) := by
  unfold destRemoveBody
  repeat' (first
    | intro _ | with_reducible assumption | with_reducible apply dropDest_evolves
    | with_reducible apply Evolves.replyOk | with_reducible apply Evolves.replyFail | split)

theorem streamSetBody_evolves {z : State} (h : Hdr) (r : RouteReq) (s : State) (h_ : Evolves z s) : Evolves.reply z
    (streamSetBody h r s) := by
  unfold streamSetBody
  repeat' (first
    | intro _ | with_reducible assumption | with_reducible apply releaseHeld_evolves
    | with_reducible apply State.modObj_evolves | with_reducible apply Evolves.replyOk
    | with_reducible apply Evolves.replyFail | (with_reducible exact Evolves.same ‹_› rfl rfl rfl rfl rfl) | split)

theorem destStatsBody_evolves {z : State} (h : Hdr) (dest : Nat) (s : State) (h_ : Evolves z s) : Evolves.reply z
    (destStatsBody h dest s) := by
  unfold destStatsBody
  repeat' (first
    | with_reducible assumption | with_reducible apply State.useFreshN_evolves | with_reducible apply Evolves.replyOk
    | with_reducible apply Evolves.replyFail | split)

theorem runPicotRouteDestSet_evolves {z : State} (h : Hdr) (r : RouteReq) (s : State) (h_ : Evolves z s) : Evolves z
    (runPicotRouteDestSet h r s) := by
  unfold runPicotRouteDestSet
  repeat' (first
    | with_reducible assumption | with_reducible apply serve_evolves | with_reducible apply destSetBody_evolves)

theorem runPicotRouteDestRemove_evolves {z : State} (h : Hdr) (dest : Nat) (s : State) (h_ : Evolves z s)
    : Evolves z (runPicotRouteDestRemove h dest s) := by
  unfold runPicotRouteDestRemove
  repeat' (first
    | with_reducible assumption | with_reducible apply serve_evolves | with_reducible apply destRemoveBody_evolves)

theorem runPicotRouteStreamSet_evolves {z : State} (h : Hdr) (r : RouteReq) (s : State) (h_ : Evolves z s)
    : Evolves z (runPicotRouteStreamSet h r s) := by
  unfold runPicotRouteStreamSet
  repeat' (first
    | with_reducible assumption | with_reducible apply serve_evolves | with_reducible apply streamSetBody_evolves)

theorem runPicotRouteStats_evolves {z : State} (h : Hdr) (dest : Nat) (s : State) (h_ : Evolves z s) : Evolves z
    (runPicotRouteStats h dest s) := by
  unfold runPicotRouteStats
  repeat' (first
    | with_reducible assumption | with_reducible apply serve_evolves | with_reducible apply destStatsBody_evolves)

theorem addPages_evolves {z : State} (p : PageSet) (addrs : List Nat) (s : State) (h_ : Evolves z s) : Evolves z
    (addPages p addrs s) := by
  unfold addPages
  repeat' (first
    | intro _ | with_reducible assumption
    | (extract_lets +onlyGivenNames x
       first
       | (refine Evolves.cut (z := z) x ?_ ?_
          rotate_left
          intro _
          clear_value x
          rotate_left
          unfold x
          clear x)
       | clear_value x)
    | with_reducible apply setPageSet_evolves | with_reducible apply setDest_evolves
    | with_reducible apply mirrorItem_evolves | with_reducible apply pump_evolves
    | with_reducible apply drainEvents_evolves | with_reducible apply pumpRecords_evolves
    | with_reducible apply Evolves.foldl | (with_reducible exact Evolves.same ‹_› rfl rfl rfl rfl rfl) | split)

theorem pagesCreateBody_evolves {z : State} (h : Hdr) (kind vector : Nat) (addrs : List Nat) (s : State) (h_
    : Evolves z s) : Evolves.reply z (pagesCreateBody h kind vector addrs s) := by
  unfold pagesCreateBody
  repeat' (first
    | intro _ | with_reducible assumption
    | (extract_lets +onlyGivenNames x
       first
       | (refine Evolves.cut (z := z) x ?_ ?_
          rotate_left
          intro _
          clear_value x
          rotate_left
          unfold x
          clear x)
       | clear_value x)
    | with_reducible apply addPages_evolves | with_reducible apply issued_evolves
    | with_reducible apply setPageSet_evolves | with_reducible apply Evolves.replyOk
    | with_reducible apply Evolves.replyFail | split)

theorem pagesAddBody_evolves {z : State} (h : Hdr) (pageSet : Handle) (addrs : List Nat) (s : State) (h_
    : Evolves z s) : Evolves.reply z (pagesAddBody h pageSet addrs s) := by
  unfold pagesAddBody
  repeat' (first
    | intro _ | with_reducible assumption
    | (extract_lets +onlyGivenNames x
       first
       | (refine Evolves.cut (z := z) x ?_ ?_
          rotate_left
          intro _
          clear_value x
          rotate_left
          unfold x
          clear x)
       | clear_value x)
    | with_reducible apply addPages_evolves | with_reducible apply Evolves.replyOk
    | with_reducible apply Evolves.replyFail | split)

theorem runPagesPostCreate_evolves {z : State} (h : Hdr) (kind vector : Nat) (addrs : List Nat) (s : State) (h_
    : Evolves z s) : Evolves z (runPagesPostCreate h kind vector addrs s) := by
  unfold runPagesPostCreate
  repeat' (first
    | with_reducible assumption | with_reducible apply serve_evolves | with_reducible apply pagesCreateBody_evolves)

theorem runPagesPostAdd_evolves {z : State} (h : Hdr) (pageSet : Handle) (addrs : List Nat) (s : State) (h_
    : Evolves z s) : Evolves z (runPagesPostAdd h pageSet addrs s) := by
  unfold runPagesPostAdd
  repeat' (first
    | with_reducible assumption | with_reducible apply serve_evolves | with_reducible apply pagesAddBody_evolves)

end Sys2Proof.Machine
end

