-- ==== Sys2Proof/Laws/EvolveFrames.lean ====
section
/-! SUPPORT. What the operations of Sys2Proof.Machine.Frames never undo. -/

namespace Sys2Proof.Machine

theorem modOutput_evolves {z : State} (h : Handle) (n : Nat) (f : OutputCounters → OutputCounters) (s : State) (h_
    : Evolves z s) : Evolves z (modOutput h n f s) := by
  unfold modOutput
  repeat' (first
    | intro _ | with_reducible assumption | with_reducible apply modStream_evolves
    | (with_reducible exact Evolves.same ‹_› rfl rfl rfl rfl rfl) | split)

theorem modItem_evolves {z : State} (id : Nat) (f : Item → Item) (s : State) (h_ : Evolves z s) : Evolves z
    (modItem id f s) := by
  unfold modItem
  repeat' (first
    | intro _ | with_reducible assumption | with_reducible apply State.modObj_evolves
    | (with_reducible exact Evolves.same ‹_› rfl rfl rfl rfl rfl))

theorem unrefBuf_evolves {z : State} (b : BufRef) (s : State) (h_ : Evolves z s) : Evolves z (unrefBuf b s) := by
  unfold unrefBuf
  repeat' (first
    | intro _ | with_reducible assumption
    | (extract_lets +onlyGivenNames x
       first
       | (refine Evolves.cut (z := z) x ?_ ?_
          rotate_left
          intro _
          clear_value x
          rotate_left
          unfold x
          clear x)
       | clear_value x)
    | with_reducible apply modPool_evolves | split)

theorem itemStore_evolves {z : State} (i : Item) (off : Nat) (bs : List Byte) (s : State) (h_ : Evolves z s) :
    Evolves z (itemStore i off bs s) := by
  unfold itemStore
  repeat' (first
    | intro _ | with_reducible assumption
    | with_reducible apply modItem_evolves
    | with_reducible apply hubStore_evolves
    | with_reducible refine Evolves.ofSnd ?_ (by with_reducible assumption)
    | with_reducible refine Evolves.ofOptSnd ?_ (by with_reducible assumption)
    | with_reducible refine Evolves.ofOption ?_ (by with_reducible assumption)
    | with_reducible apply Evolves.some
    | with_reducible apply Evolves.none
    | with_reducible apply Evolves.mkSnd
    | with_reducible apply Evolves.projSnd
    | with_reducible apply Evolves.optSome
    | with_reducible apply Evolves.optNone
    | with_reducible apply Evolves.foldl
    | with_reducible apply Evolves.replyOk
    | with_reducible apply Evolves.replyFail
    | with_reducible apply Evolves.replyCounted
    | with_reducible apply Evolves.replyWait
    | with_reducible apply Evolves.next
    | with_reducible apply Evolves.fault
    | with_reducible apply Evolves.ite
    | (with_reducible exact Evolves.same ‹_› rfl rfl rfl rfl rfl) | split)

theorem closePack_evolves {z : State} (i : Item) (s : State) (h_ : Evolves z s) :
    Evolves z (closePack i s) := by
  unfold closePack
  repeat' (first
    | intro _ | with_reducible assumption
    | (extract_lets +onlyGivenNames x
       first
       | (refine Evolves.cut (z := z) x ?_ ?_
          rotate_left
          intro _
          clear_value x
          rotate_left
          unfold x
          clear x)
       | clear_value x)
    | with_reducible apply modItem_evolves
    | with_reducible apply itemStore_evolves
    | with_reducible refine Evolves.ofSnd ?_ (by with_reducible assumption)
    | with_reducible refine Evolves.ofOptSnd ?_ (by with_reducible assumption)
    | with_reducible refine Evolves.ofOption ?_ (by with_reducible assumption)
    | with_reducible apply Evolves.some
    | with_reducible apply Evolves.none
    | with_reducible apply Evolves.mkSnd
    | with_reducible apply Evolves.projSnd
    | with_reducible apply Evolves.optSome
    | with_reducible apply Evolves.optNone
    | with_reducible apply Evolves.foldl
    | with_reducible apply Evolves.replyOk
    | with_reducible apply Evolves.replyFail
    | with_reducible apply Evolves.replyCounted
    | with_reducible apply Evolves.replyWait
    | with_reducible apply Evolves.next
    | with_reducible apply Evolves.fault
    | with_reducible apply Evolves.ite
    | (with_reducible exact Evolves.same ‹_› rfl rfl rfl rfl rfl) | split)

theorem writeItem_evolves {z : State} (i : Item) (bytes : List Byte) (s : State) (h_ : Evolves z s) :
    Evolves z (writeItem i bytes s) := by
  unfold writeItem
  repeat' (first
    | intro _ | with_reducible assumption
    | (extract_lets +onlyGivenNames x
       first
       | (refine Evolves.cut (z := z) x ?_ ?_
          rotate_left
          intro _
          clear_value x
          rotate_left
          unfold x
          clear x)
       | clear_value x)
    | with_reducible apply itemStore_evolves
    | with_reducible refine Evolves.ofSnd ?_ (by with_reducible assumption)
    | with_reducible refine Evolves.ofOptSnd ?_ (by with_reducible assumption)
    | with_reducible refine Evolves.ofOption ?_ (by with_reducible assumption)
    | with_reducible apply Evolves.some
    | with_reducible apply Evolves.none
    | with_reducible apply Evolves.mkSnd
    | with_reducible apply Evolves.projSnd
    | with_reducible apply Evolves.optSome
    | with_reducible apply Evolves.optNone
    | with_reducible apply Evolves.foldl
    | with_reducible apply Evolves.replyOk
    | with_reducible apply Evolves.replyFail
    | with_reducible apply Evolves.replyCounted
    | with_reducible apply Evolves.replyWait
    | with_reducible apply Evolves.next
    | with_reducible apply Evolves.fault
    | with_reducible apply Evolves.ite
    | (with_reducible exact Evolves.same ‹_› rfl rfl rfl rfl rfl) | split)

theorem setProgress_evolves {z : State} (id n : Nat) (s : State) (h_ : Evolves z s) :
    Evolves z (setProgress id n s) := by
  unfold setProgress
  repeat' (first
    | intro _ | with_reducible assumption
    | with_reducible apply itemStore_evolves
    | with_reducible apply modItem_evolves
    | with_reducible refine Evolves.ofSnd ?_ (by with_reducible assumption)
    | with_reducible refine Evolves.ofOptSnd ?_ (by with_reducible assumption)
    | with_reducible refine Evolves.ofOption ?_ (by with_reducible assumption)
    | with_reducible apply Evolves.some
    | with_reducible apply Evolves.none
    | with_reducible apply Evolves.mkSnd
    | with_reducible apply Evolves.projSnd
    | with_reducible apply Evolves.optSome
    | with_reducible apply Evolves.optNone
    | with_reducible apply Evolves.foldl
    | with_reducible apply Evolves.replyOk
    | with_reducible apply Evolves.replyFail
    | with_reducible apply Evolves.replyCounted
    | with_reducible apply Evolves.replyWait
    | with_reducible apply Evolves.next
    | with_reducible apply Evolves.fault
    | with_reducible apply Evolves.ite
    | (with_reducible exact Evolves.same ‹_› rfl rfl rfl rfl rfl) | split)

theorem writeQuality_evolves {z : State} (i : Item) (s : State) (h_ : Evolves z s) :
    Evolves z (writeQuality i s) := by
  unfold writeQuality
  repeat' (first
    | intro _ | with_reducible assumption
    | with_reducible apply itemStore_evolves
    | with_reducible refine Evolves.ofSnd ?_ (by with_reducible assumption)
    | with_reducible refine Evolves.ofOptSnd ?_ (by with_reducible assumption)
    | with_reducible refine Evolves.ofOption ?_ (by with_reducible assumption)
    | with_reducible apply Evolves.some
    | with_reducible apply Evolves.none
    | with_reducible apply Evolves.mkSnd
    | with_reducible apply Evolves.projSnd
    | with_reducible apply Evolves.optSome
    | with_reducible apply Evolves.optNone
    | with_reducible apply Evolves.foldl
    | with_reducible apply Evolves.replyOk
    | with_reducible apply Evolves.replyFail
    | with_reducible apply Evolves.replyCounted
    | with_reducible apply Evolves.replyWait
    | with_reducible apply Evolves.next
    | with_reducible apply Evolves.fault
    | with_reducible apply Evolves.ite
    | (with_reducible exact Evolves.same ‹_› rfl rfl rfl rfl rfl) | split)

theorem markSegments_evolves {z : State} (i : Item) (frame : Nat) (q : Quality) (s : State) (h_ : Evolves z s) :
    Evolves z (markSegments i frame q s) := by
  unfold markSegments
  repeat' (first
    | intro _ | with_reducible assumption
    | (extract_lets +onlyGivenNames x
       first
       | (refine Evolves.cut (z := z) x ?_ ?_
          rotate_left
          intro _
          clear_value x
          rotate_left
          unfold x
          clear x)
       | clear_value x)
    | with_reducible apply modItem_evolves
    | with_reducible apply itemStore_evolves
    | with_reducible apply writeQuality_evolves
    | with_reducible refine Evolves.ofSnd ?_ (by with_reducible assumption)
    | with_reducible refine Evolves.ofOptSnd ?_ (by with_reducible assumption)
    | with_reducible refine Evolves.ofOption ?_ (by with_reducible assumption)
    | with_reducible apply Evolves.some
    | with_reducible apply Evolves.none
    | with_reducible apply Evolves.mkSnd
    | with_reducible apply Evolves.projSnd
    | with_reducible apply Evolves.optSome
    | with_reducible apply Evolves.optNone
    | with_reducible apply Evolves.foldl
    | with_reducible apply Evolves.replyOk
    | with_reducible apply Evolves.replyFail
    | with_reducible apply Evolves.replyCounted
    | with_reducible apply Evolves.replyWait
    | with_reducible apply Evolves.next
    | with_reducible apply Evolves.fault
    | with_reducible apply Evolves.ite
    | (with_reducible exact Evolves.same ‹_› rfl rfl rfl rfl rfl) | split)

theorem dropSegments_evolves {z : State} (h : Handle) (n frame : Nat) (s : State) (h_ : Evolves z s) :
    Evolves z (dropSegments h n frame s) := by
  unfold dropSegments
  repeat' (first
    | intro _ | with_reducible assumption
    | (extract_lets +onlyGivenNames x
       first
       | (refine Evolves.cut (z := z) x ?_ ?_
          rotate_left
          intro _
          clear_value x
          rotate_left
          unfold x
          clear x)
       | clear_value x)
    | with_reducible apply itemStore_evolves
    | with_reducible apply writeQuality_evolves
    | with_reducible apply modItem_evolves
    | with_reducible apply closePack_evolves
    | with_reducible refine Evolves.ofSnd ?_ (by with_reducible assumption)
    | with_reducible refine Evolves.ofOptSnd ?_ (by with_reducible assumption)
    | with_reducible refine Evolves.ofOption ?_ (by with_reducible assumption)
    | with_reducible apply Evolves.some
    | with_reducible apply Evolves.none
    | with_reducible apply Evolves.mkSnd
    | with_reducible apply Evolves.projSnd
    | with_reducible apply Evolves.optSome
    | with_reducible apply Evolves.optNone
    | with_reducible apply Evolves.foldl
    | with_reducible apply Evolves.replyOk
    | with_reducible apply Evolves.replyFail
    | with_reducible apply Evolves.replyCounted
    | with_reducible apply Evolves.replyWait
    | with_reducible apply Evolves.next
    | with_reducible apply Evolves.fault
    | with_reducible apply Evolves.ite
    | (with_reducible exact Evolves.same ‹_› rfl rfl rfl rfl rfl) | split)

theorem appendSegment_evolves {z : State} (i : Item) (g : Segment) (s : State) (h_ : Evolves z s) :
    Evolves z (appendSegment i g s) := by
  unfold appendSegment
  repeat' (first
    | intro _ | with_reducible assumption
    | (extract_lets +onlyGivenNames x
       first
       | (refine Evolves.cut (z := z) x ?_ ?_
          rotate_left
          intro _
          clear_value x
          rotate_left
          unfold x
          clear x)
       | clear_value x)
    | with_reducible apply modItem_evolves
    | with_reducible apply writeQuality_evolves
    | with_reducible apply itemStore_evolves
    | with_reducible refine Evolves.ofSnd ?_ (by with_reducible assumption)
    | with_reducible refine Evolves.ofOptSnd ?_ (by with_reducible assumption)
    | with_reducible refine Evolves.ofOption ?_ (by with_reducible assumption)
    | with_reducible apply Evolves.some
    | with_reducible apply Evolves.none
    | with_reducible apply Evolves.mkSnd
    | with_reducible apply Evolves.projSnd
    | with_reducible apply Evolves.optSome
    | with_reducible apply Evolves.optNone
    | with_reducible apply Evolves.foldl
    | with_reducible apply Evolves.replyOk
    | with_reducible apply Evolves.replyFail
    | with_reducible apply Evolves.replyCounted
    | with_reducible apply Evolves.replyWait
    | with_reducible apply Evolves.next
    | with_reducible apply Evolves.fault
    | with_reducible apply Evolves.ite
    | (with_reducible exact Evolves.same ‹_› rfl rfl rfl rfl rfl) | split)

theorem flushItem_evolves {z : State} (i : Item) (s : State) (h_ : Evolves z s) :
    Evolves z (flushItem i s) := by
  unfold flushItem
  repeat' (first
    | intro _ | with_reducible assumption
    | with_reducible apply hubStore_evolves
    | with_reducible apply modItem_evolves
    | with_reducible refine Evolves.ofSnd ?_ (by with_reducible assumption)
    | with_reducible refine Evolves.ofOptSnd ?_ (by with_reducible assumption)
    | with_reducible refine Evolves.ofOption ?_ (by with_reducible assumption)
    | with_reducible apply Evolves.some
    | with_reducible apply Evolves.none
    | with_reducible apply Evolves.mkSnd
    | with_reducible apply Evolves.projSnd
    | with_reducible apply Evolves.optSome
    | with_reducible apply Evolves.optNone
    | with_reducible apply Evolves.foldl
    | with_reducible apply Evolves.replyOk
    | with_reducible apply Evolves.replyFail
    | with_reducible apply Evolves.replyCounted
    | with_reducible apply Evolves.replyWait
    | with_reducible apply Evolves.next
    | with_reducible apply Evolves.fault
    | with_reducible apply Evolves.ite
    | (with_reducible exact Evolves.same ‹_› rfl rfl rfl rfl rfl) | split)

theorem endJob_evolves {z : State} (j : ScalerJob) (s : State) (h_ : Evolves z s) : Evolves z (endJob j s) := by
  unfold endJob
  repeat' (first
    | intro _ | with_reducible assumption
    | (extract_lets +onlyGivenNames x
       first
       | (refine Evolves.cut (z := z) x ?_ ?_
          rotate_left
          intro _
          clear_value x
          rotate_left
          unfold x
          clear x)
       | clear_value x)
    | with_reducible apply State.modObj_evolves | with_reducible apply unrefBuf_evolves
    | (with_reducible exact Evolves.same ‹_› rfl rfl rfl rfl rfl) | split)

theorem assignJobs_evolves {z : State} (v0 : Nat) (s : State) (h_ : Evolves z s) : Evolves z (assignJobs v0 s) := by
  induction v0 generalizing s with
  | zero =>
    unfold assignJobs
    repeat' (first
      | intro _ | with_reducible assumption
      | (extract_lets +onlyGivenNames x
         first
         | (refine Evolves.cut (z := z) x ?_ ?_
            rotate_left
            intro _
            clear_value x
            rotate_left
            unfold x
            clear x)
         | clear_value x)
      | with_reducible apply State.modObj_evolves
      | with_reducible refine Evolves.ofSnd ?_ (by with_reducible assumption)
      | with_reducible refine Evolves.ofOptSnd ?_ (by with_reducible assumption) | with_reducible apply Evolves.projSnd
      | with_reducible apply Evolves.mkSnd | split)
  | succ n ih =>
    unfold assignJobs
    repeat' (first
      | intro _ | with_reducible assumption
      | (extract_lets +onlyGivenNames x
         first
         | (refine Evolves.cut (z := z) x ?_ ?_
            rotate_left
            intro _
            clear_value x
            rotate_left
            unfold x
            clear x)
         | clear_value x)
      | with_reducible apply State.modObj_evolves | with_reducible apply ih
      | with_reducible refine Evolves.ofSnd ?_ (by with_reducible assumption)
      | with_reducible refine Evolves.ofOptSnd ?_ (by with_reducible assumption) | with_reducible apply Evolves.projSnd
      | with_reducible apply Evolves.mkSnd | split)

theorem releasePictures_evolves {z : State} (h : Handle) (s : State) (h_ : Evolves z s) : Evolves z
    (releasePictures h s) := by
  unfold releasePictures
  repeat' (first
    | intro _ | with_reducible assumption
    | (extract_lets +onlyGivenNames x
       first
       | (refine Evolves.cut (z := z) x ?_ ?_
          rotate_left
          intro _
          clear_value x
          rotate_left
          unfold x
          clear x)
       | clear_value x)
    | with_reducible apply modStream_evolves | (with_reducible exact Evolves.same ‹_› rfl rfl rfl rfl rfl) | split)

theorem retireItem_evolves {z : State} (i : Item) (s : State) (h_ : Evolves z s) :
    Evolves z (retireItem i s) := by
  unfold retireItem
  repeat' (first
    | intro _ | with_reducible assumption
    | (extract_lets +onlyGivenNames x
       first
       | (refine Evolves.cut (z := z) x ?_ ?_
          rotate_left
          intro _
          clear_value x
          rotate_left
          unfold x
          clear x)
       | clear_value x)
    | with_reducible apply State.modObj_evolves
    | with_reducible apply unrefBuf_evolves
    | with_reducible apply releasePictures_evolves
    | with_reducible apply assignJobs_evolves
    | with_reducible refine Evolves.ofSnd ?_ (by with_reducible assumption)
    | with_reducible refine Evolves.ofOptSnd ?_ (by with_reducible assumption)
    | with_reducible refine Evolves.ofOption ?_ (by with_reducible assumption)
    | with_reducible apply Evolves.some
    | with_reducible apply Evolves.none
    | with_reducible apply Evolves.mkSnd
    | with_reducible apply Evolves.projSnd
    | with_reducible apply Evolves.optSome
    | with_reducible apply Evolves.optNone
    | with_reducible apply Evolves.foldl
    | with_reducible apply Evolves.replyOk
    | with_reducible apply Evolves.replyFail
    | with_reducible apply Evolves.replyCounted
    | with_reducible apply Evolves.replyWait
    | with_reducible apply Evolves.next
    | with_reducible apply Evolves.fault
    | (with_reducible exact Evolves.same ‹_› rfl rfl rfl rfl rfl) | split)

theorem makeRoom_evolves {z : State} (h : Handle) (n depth : Nat) (s : State) (h_ : Evolves z s) : Evolves.option z
    (makeRoom h n depth s) := by
  unfold makeRoom
  repeat' (first
    | intro _ | with_reducible assumption
    | (extract_lets +onlyGivenNames x
       first
       | (refine Evolves.cut (z := z) x ?_ ?_
          rotate_left
          intro _
          clear_value x
          rotate_left
          unfold x
          clear x)
       | clear_value x)
    | with_reducible apply modOutput_evolves | with_reducible apply retireItem_evolves
    | with_reducible apply Evolves.some | with_reducible apply Evolves.none
    | (with_reducible exact Evolves.same ‹_› rfl rfl rfl rfl rfl) | split)

theorem dropNew_evolves {z : State} (h : Handle) (n reason : Nat) (s : State) (h_ : Evolves z s) : Evolves z
    (dropNew h n reason s) := by
  unfold dropNew
  repeat' (first
    | intro _ | with_reducible assumption | with_reducible apply modOutput_evolves
    | (with_reducible exact Evolves.same ‹_› rfl rfl rfl rfl rfl))

theorem itemBuf_evolves {z : State} (pool : Handle) (s : State) (h_ : Evolves z s) : Evolves.optSnd z
    (itemBuf pool s) := by
  unfold itemBuf
  repeat' (first
    | with_reducible assumption
    | (extract_lets +onlyGivenNames x
       first
       | (refine Evolves.cut (z := z) x ?_ ?_
          rotate_left
          intro _
          clear_value x
          rotate_left
          unfold x
          clear x)
       | clear_value x)
    | with_reducible apply takeBuf_evolves | with_reducible apply Evolves.mkSnd | with_reducible apply Evolves.optSome
    | with_reducible apply Evolves.optNone | split)

theorem newItem_evolves {z : State} (x : Stream) (n : Nat) (o : OutputDesc) (frame : Nat)
    (build : Nat → BufRef → Item × List Byte) (s : State) (h_ : Evolves z s) :
    Evolves.snd z (newItem x n o frame build s) := by
  unfold newItem
  split
  · exact writeItem_evolves _ _ _ (State.modObj_evolves _ _ (modOutput_evolves _ _ _ _ h_))
  · split
    · exact dropNew_evolves _ _ _ _ h_
    · rename_i e
      have h1 := Evolves.ofOption (makeRoom_evolves _ _ _ _ h_) e
      split
      · exact modPool_evolves _ _ _ (modOutput_evolves _ _ _ _ h1)
      · rename_i e2
        have h2 := Evolves.ofOptSnd (itemBuf_evolves _ _ h1) e2
        exact writeItem_evolves _ _ _ (State.modObj_evolves _ _ (State.modCtr_evolves _ _ h2))

theorem addJob_evolves {z : State} (j : Nat → ScalerJob) (s : State) (h_ : Evolves z s) : Evolves z (addJob j s) := by
  unfold addJob
  repeat' (first
    | intro _ | with_reducible assumption
    | (extract_lets +onlyGivenNames x
       first
       | (refine Evolves.cut (z := z) x ?_ ?_
          rotate_left
          intro _
          clear_value x
          rotate_left
          unfold x
          clear x)
       | clear_value x)
    | with_reducible apply State.modCtr_evolves | with_reducible apply State.modObj_evolves
    | with_reducible apply assignJobs_evolves | (with_reducible exact Evolves.same ‹_› rfl rfl rfl rfl rfl) | split)

theorem createPicture_evolves {z : State} (x : Stream) (p : Picture) (n : Nat) (o : Output) (s : State) (h_
    : Evolves z s) : Evolves z (createPicture x p n o s) := by
  unfold createPicture
  repeat' (first
    | with_reducible assumption
    | (extract_lets +onlyGivenNames x
       first
       | (refine Evolves.cut (z := z) x ?_ ?_
          rotate_left
          intro _
          clear_value x
          rotate_left
          unfold x
          clear x)
       | clear_value x)
    | with_reducible apply newItem_evolves | with_reducible apply addJob_evolves
    | with_reducible refine Evolves.ofSnd ?_ (by with_reducible assumption)
    | with_reducible refine Evolves.ofOptSnd ?_ (by with_reducible assumption)
    | with_reducible refine Evolves.ofOption ?_ (by with_reducible assumption) | with_reducible apply Evolves.projSnd
    | with_reducible apply Evolves.mkSnd | with_reducible apply Evolves.optSome | with_reducible apply Evolves.optNone
    | split)

theorem createEyelets_evolves {z : State} (x : Stream) (p : Picture) (n : Nat) (o : Output) (s : State) (h_
    : Evolves z s) : Evolves z (createEyelets x p n o s) := by
  unfold createEyelets
  repeat' (first
    | intro _ | with_reducible assumption
    | (extract_lets +onlyGivenNames x
       first
       | (refine Evolves.cut (z := z) x ?_ ?_
          rotate_left
          intro _
          clear_value x
          rotate_left
          unfold x
          clear x)
       | clear_value x)
    | with_reducible apply newItem_evolves | with_reducible apply addJob_evolves
    | with_reducible refine Evolves.ofSnd ?_ (by with_reducible assumption)
    | with_reducible refine Evolves.ofOptSnd ?_ (by with_reducible assumption)
    | with_reducible refine Evolves.ofOption ?_ (by with_reducible assumption) | with_reducible apply Evolves.projSnd
    | with_reducible apply Evolves.mkSnd | with_reducible apply Evolves.optSome | with_reducible apply Evolves.optNone
    | split)

theorem newPack_evolves {z : State} (x : Stream) (p : Picture) (n : Nat) (o : Output) (s : State) (h_ : Evolves z s)
    : Evolves.snd z (newPack x p n o s) := by
  unfold newPack
  repeat' (first
    | with_reducible assumption
    | (extract_lets +onlyGivenNames x
       first
       | (refine Evolves.cut (z := z) x ?_ ?_
          rotate_left
          intro _
          clear_value x
          rotate_left
          unfold x
          clear x)
       | clear_value x)
    | with_reducible apply newItem_evolves | with_reducible refine Evolves.ofSnd ?_ (by with_reducible assumption)
    | with_reducible refine Evolves.ofOptSnd ?_ (by with_reducible assumption)
    | with_reducible refine Evolves.ofOption ?_ (by with_reducible assumption) | with_reducible apply Evolves.projSnd
    | with_reducible apply Evolves.mkSnd | with_reducible apply Evolves.optSome | with_reducible apply Evolves.optNone
    | split)

theorem packSegment_evolves {z : State} (x : Stream) (p : Picture) (n : Nat) (o : Output) (track eyelet : Nat) (s
    : State)
    (h_ : Evolves z s) : Evolves.snd z (packSegment x p n o track eyelet s) := by
  unfold packSegment
  dsimp only
  split
  · split
    · exact appendSegment_evolves _ _ _ h_
    · split
      · rename_i e
        exact Evolves.ofSnd (newPack_evolves _ _ _ _ _ (closePack_evolves _ _ h_)) e
      · rename_i e
        exact appendSegment_evolves _ _ _ (Evolves.ofSnd (newPack_evolves _ _ _ _ _ (closePack_evolves _ _ h_)) e)
  · split
    · rename_i e
      exact Evolves.ofSnd (newPack_evolves _ _ _ _ _ h_) e
    · rename_i e
      exact appendSegment_evolves _ _ _ (Evolves.ofSnd (newPack_evolves _ _ _ _ _ h_) e)

theorem createPacked_evolves {z : State} (x : Stream) (p : Picture) (n : Nat) (o : Output) (s : State) (h_
    : Evolves z s) : Evolves z (createPacked x p n o s) := by
  unfold createPacked
  repeat' (first
    | intro _ | with_reducible assumption
    | (extract_lets +onlyGivenNames x
       first
       | (refine Evolves.cut (z := z) x ?_ ?_
          rotate_left
          intro _
          clear_value x
          rotate_left
          unfold x
          clear x)
       | clear_value x)
    | with_reducible apply packSegment_evolves | with_reducible apply addJob_evolves
    | with_reducible refine Evolves.ofSnd ?_ (by with_reducible assumption)
    | with_reducible refine Evolves.ofOptSnd ?_ (by with_reducible assumption)
    | with_reducible refine Evolves.ofOption ?_ (by with_reducible assumption) | with_reducible apply Evolves.projSnd
    | with_reducible apply Evolves.mkSnd | with_reducible apply Evolves.optSome | with_reducible apply Evolves.optNone
    | with_reducible apply Evolves.foldl | split)

theorem createItems_evolves {z : State} (h : Handle) (p : Picture) (s : State) (h_ : Evolves z s) : Evolves z
    (createItems h p s) := by
  unfold createItems
  repeat' (first
    | intro _ | with_reducible assumption | with_reducible apply createPacked_evolves
    | with_reducible apply createEyelets_evolves | with_reducible apply createPicture_evolves
    | with_reducible apply Evolves.foldl | split)

theorem markEligible_evolves {z : State} (s : State) (h_ : Evolves z s) :
    Evolves z (markEligible s) := by
  unfold markEligible
  repeat' (first
    | intro _ | with_reducible assumption
    | (extract_lets +onlyGivenNames x
       first
       | (refine Evolves.cut (z := z) x ?_ ?_
          rotate_left
          intro _
          clear_value x
          rotate_left
          unfold x
          clear x)
       | clear_value x)
    | with_reducible apply modStream_evolves
    | with_reducible refine Evolves.ofSnd ?_ (by with_reducible assumption)
    | with_reducible refine Evolves.ofOptSnd ?_ (by with_reducible assumption)
    | with_reducible refine Evolves.ofOption ?_ (by with_reducible assumption)
    | with_reducible apply Evolves.some
    | with_reducible apply Evolves.none
    | with_reducible apply Evolves.mkSnd
    | with_reducible apply Evolves.projSnd
    | with_reducible apply Evolves.optSome
    | with_reducible apply Evolves.optNone
    | with_reducible apply Evolves.foldl
    | with_reducible apply Evolves.replyOk
    | with_reducible apply Evolves.replyFail
    | with_reducible apply Evolves.replyCounted
    | with_reducible apply Evolves.replyWait
    | with_reducible apply Evolves.next
    | with_reducible apply Evolves.fault
    | (refine Evolves.videoSame _ ?_ (fun h => h))
    | (with_reducible exact Evolves.same ‹_› rfl rfl rfl rfl rfl) | split)

theorem modPicture_evolves {z : State} (h : Handle) (frame : Nat) (f : Picture → Picture) (s : State) (h_
    : Evolves z s) : Evolves z (modPicture h frame f s) := by
  unfold modPicture
  repeat' (first
    | intro _ | with_reducible assumption | with_reducible apply modStream_evolves
    | (with_reducible exact Evolves.same ‹_› rfl rfl rfl rfl rfl))

theorem takeSource_evolves {z : State} (x : Stream) (e : EncodeState) (y : Stream) (p : Picture) (s : State) (h_ : Evolves z s) :
    Evolves z (takeSource x e y p s) := by
  unfold takeSource
  repeat' (first
    | intro _ | with_reducible assumption
    | (extract_lets +onlyGivenNames x
       first
       | (refine Evolves.cut (z := z) x ?_ ?_
          rotate_left
          intro _
          clear_value x
          rotate_left
          unfold x
          clear x)
       | clear_value x)
    | with_reducible apply modStream_evolves
    | with_reducible apply addJob_evolves
    | with_reducible refine Evolves.ofSnd ?_ (by with_reducible assumption)
    | with_reducible refine Evolves.ofOptSnd ?_ (by with_reducible assumption)
    | with_reducible refine Evolves.ofOption ?_ (by with_reducible assumption)
    | with_reducible apply Evolves.some
    | with_reducible apply Evolves.none
    | with_reducible apply Evolves.mkSnd
    | with_reducible apply Evolves.projSnd
    | with_reducible apply Evolves.optSome
    | with_reducible apply Evolves.optNone
    | with_reducible apply Evolves.foldl
    | with_reducible apply Evolves.replyOk
    | with_reducible apply Evolves.replyFail
    | with_reducible apply Evolves.replyCounted
    | with_reducible apply Evolves.replyWait
    | with_reducible apply Evolves.next
    | with_reducible apply Evolves.fault
    | (with_reducible exact Evolves.same ‹_› rfl rfl rfl rfl rfl) | split)

theorem offerEncode_evolves {z : State} (h : Handle) (p : Picture) (s : State) (h_ : Evolves z s) :
    Evolves z (offerEncode h p s) := by
  unfold offerEncode
  repeat' (first
    | intro _ | with_reducible assumption
    | with_reducible apply takeSource_evolves
    | with_reducible refine Evolves.ofSnd ?_ (by with_reducible assumption)
    | with_reducible refine Evolves.ofOptSnd ?_ (by with_reducible assumption)
    | with_reducible refine Evolves.ofOption ?_ (by with_reducible assumption)
    | with_reducible apply Evolves.some
    | with_reducible apply Evolves.none
    | with_reducible apply Evolves.mkSnd
    | with_reducible apply Evolves.projSnd
    | with_reducible apply Evolves.optSome
    | with_reducible apply Evolves.optNone
    | with_reducible apply Evolves.foldl
    | with_reducible apply Evolves.replyOk
    | with_reducible apply Evolves.replyFail
    | with_reducible apply Evolves.replyCounted
    | with_reducible apply Evolves.replyWait
    | with_reducible apply Evolves.next
    | with_reducible apply Evolves.fault
    | (with_reducible exact Evolves.same ‹_› rfl rfl rfl rfl rfl) | split)

theorem dropJobs_evolves {z : State} (test : ScalerJob → Bool) (s : State) (h_ : Evolves z s) :
    Evolves z (dropJobs test s) := by
  unfold dropJobs
  repeat' (first
    | intro _ | with_reducible assumption
    | with_reducible apply State.modObj_evolves
    | with_reducible refine Evolves.ofSnd ?_ (by with_reducible assumption)
    | with_reducible refine Evolves.ofOptSnd ?_ (by with_reducible assumption)
    | with_reducible refine Evolves.ofOption ?_ (by with_reducible assumption)
    | with_reducible apply Evolves.some
    | with_reducible apply Evolves.none
    | with_reducible apply Evolves.mkSnd
    | with_reducible apply Evolves.projSnd
    | with_reducible apply Evolves.optSome
    | with_reducible apply Evolves.optNone
    | with_reducible apply Evolves.foldl
    | with_reducible apply Evolves.replyOk
    | with_reducible apply Evolves.replyFail
    | with_reducible apply Evolves.replyCounted
    | with_reducible apply Evolves.replyWait
    | with_reducible apply Evolves.next
    | with_reducible apply Evolves.fault
    | (with_reducible exact Evolves.same ‹_› rfl rfl rfl rfl rfl) | split)

theorem recutItem_evolves {z : State} (x : Stream) (p : Picture) (n : Nat) (o : Output) (i : Item) (s : State) (h_ : Evolves z s) :
    Evolves z (recutItem x p n o i s) := by
  unfold recutItem
  repeat' (first
    | intro _ | with_reducible assumption
    | (extract_lets +onlyGivenNames x
       first
       | (refine Evolves.cut (z := z) x ?_ ?_
          rotate_left
          intro _
          clear_value x
          rotate_left
          unfold x
          clear x)
       | clear_value x)
    | with_reducible apply dropJobs_evolves
    | with_reducible apply hubStore_evolves
    | with_reducible apply modItem_evolves
    | with_reducible apply addJob_evolves
    | with_reducible refine Evolves.ofSnd ?_ (by with_reducible assumption)
    | with_reducible refine Evolves.ofOptSnd ?_ (by with_reducible assumption)
    | with_reducible refine Evolves.ofOption ?_ (by with_reducible assumption)
    | with_reducible apply Evolves.some
    | with_reducible apply Evolves.none
    | with_reducible apply Evolves.mkSnd
    | with_reducible apply Evolves.projSnd
    | with_reducible apply Evolves.optSome
    | with_reducible apply Evolves.optNone
    | with_reducible apply Evolves.foldl
    | with_reducible apply Evolves.replyOk
    | with_reducible apply Evolves.replyFail
    | with_reducible apply Evolves.replyCounted
    | with_reducible apply Evolves.replyWait
    | with_reducible apply Evolves.next
    | with_reducible apply Evolves.fault
    | with_reducible apply Evolves.ite
    | (with_reducible exact Evolves.same ‹_› rfl rfl rfl rfl rfl) | split)

theorem recutOutput_evolves {z : State} (x : Stream) (p : Picture) (n : Nat) (o : Output) (s : State) (h_ : Evolves z s) :
    Evolves z (recutOutput x p n o s) := by
  unfold recutOutput
  repeat' (first
    | intro _ | with_reducible assumption
    | (extract_lets +onlyGivenNames x
       first
       | (refine Evolves.cut (z := z) x ?_ ?_
          rotate_left
          intro _
          clear_value x
          rotate_left
          unfold x
          clear x)
       | clear_value x)
    | with_reducible apply createPacked_evolves
    | with_reducible apply dropSegments_evolves
    | with_reducible apply dropJobs_evolves
    | with_reducible apply recutItem_evolves
    | with_reducible refine Evolves.ofSnd ?_ (by with_reducible assumption)
    | with_reducible refine Evolves.ofOptSnd ?_ (by with_reducible assumption)
    | with_reducible refine Evolves.ofOption ?_ (by with_reducible assumption)
    | with_reducible apply Evolves.some
    | with_reducible apply Evolves.none
    | with_reducible apply Evolves.mkSnd
    | with_reducible apply Evolves.projSnd
    | with_reducible apply Evolves.optSome
    | with_reducible apply Evolves.optNone
    | with_reducible apply Evolves.foldl
    | with_reducible apply Evolves.replyOk
    | with_reducible apply Evolves.replyFail
    | with_reducible apply Evolves.replyCounted
    | with_reducible apply Evolves.replyWait
    | with_reducible apply Evolves.next
    | with_reducible apply Evolves.fault
    | (with_reducible exact Evolves.same ‹_› rfl rfl rfl rfl rfl) | split)

theorem recutEyelets_evolves {z : State} (h : Handle) (s : State) (h_ : Evolves z s) :
    Evolves z (recutEyelets h s) := by
  unfold recutEyelets
  repeat' (first
    | intro _ | with_reducible assumption
    | with_reducible apply recutOutput_evolves
    | with_reducible refine Evolves.ofSnd ?_ (by with_reducible assumption)
    | with_reducible refine Evolves.ofOptSnd ?_ (by with_reducible assumption)
    | with_reducible refine Evolves.ofOption ?_ (by with_reducible assumption)
    | with_reducible apply Evolves.some
    | with_reducible apply Evolves.none
    | with_reducible apply Evolves.mkSnd
    | with_reducible apply Evolves.projSnd
    | with_reducible apply Evolves.optSome
    | with_reducible apply Evolves.optNone
    | with_reducible apply Evolves.foldl
    | with_reducible apply Evolves.replyOk
    | with_reducible apply Evolves.replyFail
    | with_reducible apply Evolves.replyCounted
    | with_reducible apply Evolves.replyWait
    | with_reducible apply Evolves.next
    | with_reducible apply Evolves.fault
    | (with_reducible exact Evolves.same ‹_› rfl rfl rfl rfl rfl) | split)

theorem markItems_evolves {z : State} (h : Handle) (frame : Nat) (q : Quality) (s : State) (h_ : Evolves z s) :
    Evolves z (markItems h frame q s) := by
  unfold markItems
  repeat' (first
    | intro _ | with_reducible assumption
    | (extract_lets +onlyGivenNames x
       first
       | (refine Evolves.cut (z := z) x ?_ ?_
          rotate_left
          intro _
          clear_value x
          rotate_left
          unfold x
          clear x)
       | clear_value x)
    | with_reducible apply markSegments_evolves
    | with_reducible apply writeQuality_evolves
    | with_reducible apply modItem_evolves
    | with_reducible apply State.modObj_evolves
    | with_reducible refine Evolves.ofSnd ?_ (by with_reducible assumption)
    | with_reducible refine Evolves.ofOptSnd ?_ (by with_reducible assumption)
    | with_reducible refine Evolves.ofOption ?_ (by with_reducible assumption)
    | with_reducible apply Evolves.some
    | with_reducible apply Evolves.none
    | with_reducible apply Evolves.mkSnd
    | with_reducible apply Evolves.projSnd
    | with_reducible apply Evolves.optSome
    | with_reducible apply Evolves.optNone
    | with_reducible apply Evolves.foldl
    | with_reducible apply Evolves.replyOk
    | with_reducible apply Evolves.replyFail
    | with_reducible apply Evolves.replyCounted
    | with_reducible apply Evolves.replyWait
    | with_reducible apply Evolves.next
    | with_reducible apply Evolves.fault
    | (with_reducible exact Evolves.same ‹_› rfl rfl rfl rfl rfl) | split)

theorem mendLine_evolves {z : State} (x : Stream) (p : Picture) (base : Nat) (line : Nat) (s : State) (h_ : Evolves z s) :
    Evolves z (mendLine x p base line s) := by
  unfold mendLine
  repeat' (first
    | intro _ | with_reducible assumption
    | (extract_lets +onlyGivenNames x
       first
       | (refine Evolves.cut (z := z) x ?_ ?_
          rotate_left
          intro _
          clear_value x
          rotate_left
          unfold x
          clear x)
       | clear_value x)
    | with_reducible apply hubStore_evolves
    | with_reducible refine Evolves.ofSnd ?_ (by with_reducible assumption)
    | with_reducible refine Evolves.ofOptSnd ?_ (by with_reducible assumption)
    | with_reducible refine Evolves.ofOption ?_ (by with_reducible assumption)
    | with_reducible apply Evolves.some
    | with_reducible apply Evolves.none
    | with_reducible apply Evolves.mkSnd
    | with_reducible apply Evolves.projSnd
    | with_reducible apply Evolves.optSome
    | with_reducible apply Evolves.optNone
    | with_reducible apply Evolves.foldl
    | with_reducible apply Evolves.replyOk
    | with_reducible apply Evolves.replyFail
    | with_reducible apply Evolves.replyCounted
    | with_reducible apply Evolves.replyWait
    | with_reducible apply Evolves.next
    | with_reducible apply Evolves.fault
    | with_reducible apply Evolves.ite
    | (with_reducible exact Evolves.same ‹_› rfl rfl rfl rfl rfl) | split)

theorem videoPoison_evolves {z : State} (x : Stream) (p : Picture) (lines : List Nat) (base : Nat) (s : State) (h_ : Evolves z s) :
    Evolves z (videoPoison x p lines base s) := by
  unfold videoPoison
  repeat' (first
    | intro _ | with_reducible assumption
    | (extract_lets +onlyGivenNames x
       first
       | (refine Evolves.cut (z := z) x ?_ ?_
          rotate_left
          intro _
          clear_value x
          rotate_left
          unfold x
          clear x)
       | clear_value x)
    | with_reducible apply mendLine_evolves
    | with_reducible apply modPicture_evolves
    | with_reducible apply modStream_evolves
    | with_reducible apply contained_evolves
    | with_reducible apply markItems_evolves
    | with_reducible refine Evolves.ofSnd ?_ (by with_reducible assumption)
    | with_reducible refine Evolves.ofOptSnd ?_ (by with_reducible assumption)
    | with_reducible refine Evolves.ofOption ?_ (by with_reducible assumption)
    | with_reducible apply Evolves.some
    | with_reducible apply Evolves.none
    | with_reducible apply Evolves.mkSnd
    | with_reducible apply Evolves.projSnd
    | with_reducible apply Evolves.optSome
    | with_reducible apply Evolves.optNone
    | with_reducible apply Evolves.foldl
    | with_reducible apply Evolves.replyOk
    | with_reducible apply Evolves.replyFail
    | with_reducible apply Evolves.replyCounted
    | with_reducible apply Evolves.replyWait
    | with_reducible apply Evolves.next
    | with_reducible apply Evolves.fault
    | with_reducible apply Evolves.ite
    | (with_reducible exact Evolves.same ‹_› rfl rfl rfl rfl rfl) | split)

theorem sourcePoison_evolves {z : State} (j : ScalerJob) (t : Strip) (s : State) (h_ : Evolves z s) :
    Evolves z (sourcePoison j t s) := by
  unfold sourcePoison
  repeat' (first
    | intro _ | with_reducible assumption
    | (extract_lets +onlyGivenNames x
       first
       | (refine Evolves.cut (z := z) x ?_ ?_
          rotate_left
          intro _
          clear_value x
          rotate_left
          unfold x
          clear x)
       | clear_value x)
    | with_reducible apply hubLoad_evolves
    | with_reducible apply videoPoison_evolves
    | with_reducible refine Evolves.ofSnd ?_ (by with_reducible assumption)
    | with_reducible refine Evolves.ofOptSnd ?_ (by with_reducible assumption)
    | with_reducible refine Evolves.ofOption ?_ (by with_reducible assumption)
    | with_reducible apply Evolves.some
    | with_reducible apply Evolves.none
    | with_reducible apply Evolves.mkSnd
    | with_reducible apply Evolves.projSnd
    | with_reducible apply Evolves.optSome
    | with_reducible apply Evolves.optNone
    | with_reducible apply Evolves.foldl
    | with_reducible apply Evolves.replyOk
    | with_reducible apply Evolves.replyFail
    | with_reducible apply Evolves.replyCounted
    | with_reducible apply Evolves.replyWait
    | with_reducible apply Evolves.next
    | with_reducible apply Evolves.fault
    | with_reducible apply Evolves.ite
    | (with_reducible exact Evolves.same ‹_› rfl rfl rfl rfl rfl) | split)

theorem readSource_evolves {z : State} (d : EncodeDecl) (y : Stream) (p : Picture) (s : State) (h_ : Evolves z s) :
    Evolves.snd z (readSource d y p s) := by
  unfold readSource
  repeat' (first
    | intro _ | with_reducible assumption
    | (extract_lets +onlyGivenNames x
       first
       | (refine Evolves.cut (z := z) x ?_ ?_
          rotate_left
          intro _
          clear_value x
          rotate_left
          unfold x
          clear x)
       | clear_value x)
    | with_reducible apply hubLoad_evolves
    | with_reducible apply videoPoison_evolves
    | with_reducible refine Evolves.ofSnd ?_ (by with_reducible assumption)
    | with_reducible refine Evolves.ofOptSnd ?_ (by with_reducible assumption)
    | with_reducible refine Evolves.ofOption ?_ (by with_reducible assumption)
    | with_reducible apply Evolves.some
    | with_reducible apply Evolves.none
    | with_reducible apply Evolves.mkSnd
    | with_reducible apply Evolves.projSnd
    | with_reducible apply Evolves.optSome
    | with_reducible apply Evolves.optNone
    | with_reducible apply Evolves.foldl
    | with_reducible apply Evolves.replyOk
    | with_reducible apply Evolves.replyFail
    | with_reducible apply Evolves.replyCounted
    | with_reducible apply Evolves.replyWait
    | with_reducible apply Evolves.next
    | with_reducible apply Evolves.fault
    | with_reducible apply Evolves.ite
    | (with_reducible exact Evolves.same ‹_› rfl rfl rfl rfl rfl) | split)

theorem sourcePicture_evolves {z : State} (d : EncodeDecl) (q : EncodePic) (s : State) (h_ : Evolves z s) :
    Evolves.snd z (sourcePicture d q s) := by
  unfold sourcePicture
  split
  · exact Evolves.mkSnd h_
  · next y p _ =>
    have hr := readSource_evolves d y p s h_
    generalize readSource d y p s = r at hr
    split
    · exact Evolves.mkSnd h_
    · exact Evolves.mkSnd hr

theorem lookSources_evolves {z : State} (h : Handle) (d : EncodeDecl) (l : List EncodePic) (s : State)
    (h_ : Evolves z s) : Evolves z (lookSources h d l s) := by
  induction l generalizing s with
  | nil => exact h_
  | cons q l ih => exact ih _ (modStream_evolves _ _ _ (sourcePicture_evolves d q s h_))

theorem readyEncodes_evolves {z : State} (s : State) (h_ : Evolves z s) :
    Evolves z (readyEncodes s) := by
  unfold readyEncodes
  repeat' (first
    | intro _ | with_reducible assumption
    | with_reducible apply markEligible_evolves
    | with_reducible apply lookSources_evolves
    | with_reducible refine Evolves.ofSnd ?_ (by with_reducible assumption)
    | with_reducible refine Evolves.ofOptSnd ?_ (by with_reducible assumption)
    | with_reducible refine Evolves.ofOption ?_ (by with_reducible assumption)
    | with_reducible apply Evolves.some
    | with_reducible apply Evolves.none
    | with_reducible apply Evolves.mkSnd
    | with_reducible apply Evolves.projSnd
    | with_reducible apply Evolves.optSome
    | with_reducible apply Evolves.optNone
    | with_reducible apply Evolves.foldl
    | with_reducible apply Evolves.replyOk
    | with_reducible apply Evolves.replyFail
    | with_reducible apply Evolves.replyCounted
    | with_reducible apply Evolves.replyWait
    | with_reducible apply Evolves.next
    | with_reducible apply Evolves.fault
    | with_reducible apply Evolves.ite
    | (with_reducible exact Evolves.same ‹_› rfl rfl rfl rfl rfl) | split)

theorem forwardPicture_evolves {z : State} (h : Handle) (p : Picture) (s : State) (h_ : Evolves z s) : Evolves z
    (forwardPicture h p s) := by
  unfold forwardPicture
  repeat' (first
    | intro _ | with_reducible assumption
    | (extract_lets +onlyGivenNames x
       first
       | (refine Evolves.cut (z := z) x ?_ ?_
          rotate_left
          intro _
          clear_value x
          rotate_left
          unfold x
          clear x)
       | clear_value x)
    | with_reducible apply modStream_evolves | with_reducible apply modPicture_evolves
    | with_reducible apply offerEncode_evolves | with_reducible apply createItems_evolves
    | with_reducible apply readyEncodes_evolves | with_reducible apply releasePictures_evolves
    | with_reducible apply releaseHeld_evolves | (with_reducible exact Evolves.same ‹_› rfl rfl rfl rfl rfl) | split)

theorem closeFrame_evolves {z : State} (h : Handle) (f : Nat) (s : State) (h_ : Evolves z s) : Evolves z
    (closeFrame h f s) := by
  unfold closeFrame
  repeat' (first
    | intro _ | with_reducible assumption | with_reducible apply releaseHeld_evolves
    | with_reducible apply modStream_evolves)

theorem startStrip_evolves {z : State} (unit : Nat) (s : State) (h_ : Evolves z s) :
    Evolves.outcome z (startStrip unit s) := by
  unfold startStrip
  repeat' (first
    | intro _ | with_reducible assumption
    | with_reducible apply State.modScl_evolves
    | with_reducible apply State.modObj_evolves
    | with_reducible refine Evolves.ofSnd ?_ (by with_reducible assumption)
    | with_reducible refine Evolves.ofOptSnd ?_ (by with_reducible assumption)
    | with_reducible refine Evolves.ofOption ?_ (by with_reducible assumption)
    | with_reducible apply Evolves.some
    | with_reducible apply Evolves.none
    | with_reducible apply Evolves.mkSnd
    | with_reducible apply Evolves.projSnd
    | with_reducible apply Evolves.optSome
    | with_reducible apply Evolves.optNone
    | with_reducible apply Evolves.foldl
    | with_reducible apply Evolves.replyOk
    | with_reducible apply Evolves.replyFail
    | with_reducible apply Evolves.replyCounted
    | with_reducible apply Evolves.replyWait
    | with_reducible apply Evolves.next
    | with_reducible apply Evolves.fault
    | (with_reducible exact Evolves.same ‹_› rfl rfl rfl rfl rfl) | split)

theorem writeStrip_evolves {z : State} (i : Item) (j : ScalerJob) (t : Strip) (x : Stream) (p : Picture) (s : State) (h_ : Evolves z s) :
    Evolves z (writeStrip i j t x p s) := by
  unfold writeStrip
  repeat' (first
    | intro _ | with_reducible assumption
    | (extract_lets +onlyGivenNames x
       first
       | (refine Evolves.cut (z := z) x ?_ ?_
          rotate_left
          intro _
          clear_value x
          rotate_left
          unfold x
          clear x)
       | clear_value x)
    | with_reducible apply hubStore_evolves
    | with_reducible refine Evolves.ofSnd ?_ (by with_reducible assumption)
    | with_reducible refine Evolves.ofOptSnd ?_ (by with_reducible assumption)
    | with_reducible refine Evolves.ofOption ?_ (by with_reducible assumption)
    | with_reducible apply Evolves.some
    | with_reducible apply Evolves.none
    | with_reducible apply Evolves.mkSnd
    | with_reducible apply Evolves.projSnd
    | with_reducible apply Evolves.optSome
    | with_reducible apply Evolves.optNone
    | with_reducible apply Evolves.foldl
    | with_reducible apply Evolves.replyOk
    | with_reducible apply Evolves.replyFail
    | with_reducible apply Evolves.replyCounted
    | with_reducible apply Evolves.replyWait
    | with_reducible apply Evolves.next
    | with_reducible apply Evolves.fault
    | with_reducible apply Evolves.ite
    | (with_reducible exact Evolves.same ‹_› rfl rfl rfl rfl rfl) | split)

theorem writeEncodeStrip_evolves {z : State} (h : Handle) (j : ScalerJob) (t : Strip) (x : Stream) (p : Picture) (s : State) (h_ : Evolves z s) :
    Evolves z (writeEncodeStrip h j t x p s) := by
  unfold writeEncodeStrip
  repeat' (first
    | intro _ | with_reducible assumption
    | (extract_lets +onlyGivenNames x
       first
       | (refine Evolves.cut (z := z) x ?_ ?_
          rotate_left
          intro _
          clear_value x
          rotate_left
          unfold x
          clear x)
       | clear_value x)
    | with_reducible apply hubStore_evolves
    | with_reducible apply modStream_evolves
    | with_reducible refine Evolves.ofSnd ?_ (by with_reducible assumption)
    | with_reducible refine Evolves.ofOptSnd ?_ (by with_reducible assumption)
    | with_reducible refine Evolves.ofOption ?_ (by with_reducible assumption)
    | with_reducible apply Evolves.some
    | with_reducible apply Evolves.none
    | with_reducible apply Evolves.mkSnd
    | with_reducible apply Evolves.projSnd
    | with_reducible apply Evolves.optSome
    | with_reducible apply Evolves.optNone
    | with_reducible apply Evolves.foldl
    | with_reducible apply Evolves.replyOk
    | with_reducible apply Evolves.replyFail
    | with_reducible apply Evolves.replyCounted
    | with_reducible apply Evolves.replyWait
    | with_reducible apply Evolves.next
    | with_reducible apply Evolves.fault
    | with_reducible apply Evolves.ite
    | (with_reducible exact Evolves.same ‹_› rfl rfl rfl rfl rfl) | split)

theorem finishJob_evolves {z : State} (unit : Nat) (j : ScalerJob) (s : State) (h_ : Evolves z s) : Evolves z
    (finishJob unit j s) := by
  unfold finishJob
  repeat' (first
    | intro _ | with_reducible assumption
    | (extract_lets +onlyGivenNames x
       first
       | (refine Evolves.cut (z := z) x ?_ ?_
          rotate_left
          intro _
          clear_value x
          rotate_left
          unfold x
          clear x)
       | clear_value x)
    | with_reducible apply endJob_evolves | with_reducible apply State.modScl_evolves
    | with_reducible apply modStream_evolves | with_reducible apply readyEncodes_evolves
    | with_reducible apply releasePictures_evolves | with_reducible apply assignJobs_evolves
    | (with_reducible exact Evolves.same ‹_› rfl rfl rfl rfl rfl) | split)

theorem endStrip_evolves {z : State} (unit : Nat) (s : State) (h_ : Evolves z s) :
    Evolves.outcome z (endStrip unit s) := by
  unfold endStrip
  repeat' (first
    | intro _ | with_reducible assumption
    | (extract_lets +onlyGivenNames x
       first
       | (refine Evolves.cut (z := z) x ?_ ?_
          rotate_left
          intro _
          clear_value x
          rotate_left
          unfold x
          clear x)
       | clear_value x)
    | with_reducible apply State.modScl_evolves
    | with_reducible apply modOutput_evolves
    | with_reducible apply State.modObj_evolves
    | with_reducible apply sourcePoison_evolves
    | with_reducible apply writeStrip_evolves
    | with_reducible apply writeEncodeStrip_evolves
    | with_reducible apply setProgress_evolves
    | with_reducible apply finishJob_evolves
    | with_reducible apply releasePictures_evolves
    | with_reducible apply readyEncodes_evolves
    | with_reducible refine Evolves.ofSnd ?_ (by with_reducible assumption)
    | with_reducible refine Evolves.ofOptSnd ?_ (by with_reducible assumption)
    | with_reducible refine Evolves.ofOption ?_ (by with_reducible assumption)
    | with_reducible apply Evolves.some
    | with_reducible apply Evolves.none
    | with_reducible apply Evolves.mkSnd
    | with_reducible apply Evolves.projSnd
    | with_reducible apply Evolves.optSome
    | with_reducible apply Evolves.optNone
    | with_reducible apply Evolves.foldl
    | with_reducible apply Evolves.replyOk
    | with_reducible apply Evolves.replyFail
    | with_reducible apply Evolves.replyCounted
    | with_reducible apply Evolves.replyWait
    | with_reducible apply Evolves.next
    | with_reducible apply Evolves.fault
    | with_reducible apply Evolves.ite
    | (with_reducible exact Evolves.same ‹_› rfl rfl rfl rfl rfl) | split)

theorem starveTick_evolves {z : State} (s : State) (h_ : Evolves z s) : Evolves z (starveTick s) := by
  unfold starveTick
  repeat' (first
    | intro _ | with_reducible assumption | with_reducible apply State.modScl_evolves
    | with_reducible apply Evolves.foldl | (with_reducible exact Evolves.same ‹_› rfl rfl rfl rfl rfl) | split)

end Sys2Proof.Machine
end

