-- ==== Sys2Proof/Laws/EvolveCompletion.lean ====
section
/-! SUPPORT. What the operations of Sys2Proof.Machine.Completion never undo. -/

namespace Sys2Proof.Machine

theorem modPart_evolves {z : State} (h : Handle) (f : Partition → Partition) (s : State) (h_ : Evolves z s)
    : Evolves z (modPart h f s) := by
  unfold modPart
  repeat' (first
    | intro _ | with_reducible assumption | with_reducible apply State.modObj_evolves
    | (with_reducible exact Evolves.same ‹_› rfl rfl rfl rfl rfl))

theorem modStitch_evolves {z : State} (id : Nat) (f : Stitch → Stitch) (s : State) (h_ : Evolves z s) : Evolves z
    (modStitch id f s) := by
  unfold modStitch
  repeat' (first
    | intro _ | with_reducible assumption | with_reducible apply State.modObj_evolves
    | (with_reducible exact Evolves.same ‹_› rfl rfl rfl rfl rfl))

theorem modClient_evolves {z : State} (h : Handle) (f : Client → Client) (s : State) (h_ : Evolves z s) : Evolves z
    (modClient h f s) := by
  unfold modClient
  repeat' (first
    | intro _ | with_reducible assumption | with_reducible apply State.modObj_evolves
    | (with_reducible exact Evolves.same ‹_› rfl rfl rfl rfl rfl))

theorem dropMalformedFor_evolves {z : State} (h : Option Handle) (s : State) (h_ : Evolves z s) : Evolves z
    (dropMalformedFor h s) := by
  unfold dropMalformedFor
  repeat' (first
    | with_reducible assumption
    | (extract_lets +onlyGivenNames x
       first
       | (refine Evolves.cut (z := z) x ?_ ?_
          rotate_left
          intro _
          clear_value x
          rotate_left
          unfold x
          clear x)
       | clear_value x)
    | with_reducible apply countProduced_evolves | with_reducible apply countProducedFor_evolves
    | with_reducible apply countDrop_evolves | split)

theorem emitRecords_evolves {z : State} (t : Stitch) (m : Model) (base size limit : Nat) (overflow : Bool) (v0 : Nat) (v1 : Nat) (s : State) (h_ : Evolves z s) :
    Evolves z (emitRecords t m base size limit overflow v0 v1 s) := by
  induction v0 generalizing v1 s with
  | zero =>
    unfold emitRecords
    repeat' (first
      | intro _ | with_reducible assumption
      | (extract_lets +onlyGivenNames x
         first
         | (refine Evolves.cut (z := z) x ?_ ?_
            rotate_left
            intro _
            clear_value x
            rotate_left
            unfold x
            clear x)
         | clear_value x)
      | with_reducible apply hubRead_evolves
      | with_reducible apply dropMalformedFor_evolves
      | with_reducible apply formPicot_evolves
      | with_reducible refine Evolves.ofSnd ?_ (by with_reducible assumption)
      | with_reducible refine Evolves.ofOptSnd ?_ (by with_reducible assumption)
      | with_reducible refine Evolves.ofOption ?_ (by with_reducible assumption)
      | with_reducible apply Evolves.some
      | with_reducible apply Evolves.none
      | with_reducible apply Evolves.mkSnd
      | with_reducible apply Evolves.projSnd
      | with_reducible apply Evolves.optSome
      | with_reducible apply Evolves.optNone
      | with_reducible apply Evolves.foldl
      | with_reducible apply Evolves.replyOk
      | with_reducible apply Evolves.replyFail
      | with_reducible apply Evolves.replyCounted
      | with_reducible apply Evolves.replyWait
      | with_reducible apply Evolves.next
      | with_reducible apply Evolves.fault
      | with_reducible apply Evolves.ite
      | (with_reducible exact Evolves.same ‹_› rfl rfl rfl rfl rfl) | split)
  | succ n ih =>
    unfold emitRecords
    repeat' (first
      | intro _ | with_reducible assumption | with_reducible apply ih
      | (extract_lets +onlyGivenNames x
         first
         | (refine Evolves.cut (z := z) x ?_ ?_
            rotate_left
            intro _
            clear_value x
            rotate_left
            unfold x
            clear x)
         | clear_value x)
      | with_reducible apply hubRead_evolves
      | with_reducible apply dropMalformedFor_evolves
      | with_reducible apply formPicot_evolves
      | with_reducible refine Evolves.ofSnd ?_ (by with_reducible assumption)
      | with_reducible refine Evolves.ofOptSnd ?_ (by with_reducible assumption)
      | with_reducible refine Evolves.ofOption ?_ (by with_reducible assumption)
      | with_reducible apply Evolves.some
      | with_reducible apply Evolves.none
      | with_reducible apply Evolves.mkSnd
      | with_reducible apply Evolves.projSnd
      | with_reducible apply Evolves.optSome
      | with_reducible apply Evolves.optNone
      | with_reducible apply Evolves.foldl
      | with_reducible apply Evolves.replyOk
      | with_reducible apply Evolves.replyFail
      | with_reducible apply Evolves.replyCounted
      | with_reducible apply Evolves.replyWait
      | with_reducible apply Evolves.next
      | with_reducible apply Evolves.fault
      | with_reducible apply Evolves.ite
      | (with_reducible exact Evolves.same ‹_› rfl rfl rfl rfl rfl) | split)

theorem emitPicots_evolves {z : State} (p : Partition) (t : Stitch) (m : Model) (ovfTiles : Nat) (s : State) (h_ : Evolves z s) :
    Evolves z (emitPicots p t m ovfTiles s) := by
  unfold emitPicots
  repeat' (first
    | intro _ | with_reducible assumption
    | (extract_lets +onlyGivenNames x
       first
       | (refine Evolves.cut (z := z) x ?_ ?_
          rotate_left
          intro _
          clear_value x
          rotate_left
          unfold x
          clear x)
       | clear_value x)
    | with_reducible apply hubRead_evolves
    | with_reducible apply emitRecords_evolves
    | with_reducible refine Evolves.ofSnd ?_ (by with_reducible assumption)
    | with_reducible refine Evolves.ofOptSnd ?_ (by with_reducible assumption)
    | with_reducible refine Evolves.ofOption ?_ (by with_reducible assumption)
    | with_reducible apply Evolves.some
    | with_reducible apply Evolves.none
    | with_reducible apply Evolves.mkSnd
    | with_reducible apply Evolves.projSnd
    | with_reducible apply Evolves.optSome
    | with_reducible apply Evolves.optNone
    | with_reducible apply Evolves.foldl
    | with_reducible apply Evolves.replyOk
    | with_reducible apply Evolves.replyFail
    | with_reducible apply Evolves.replyCounted
    | with_reducible apply Evolves.replyWait
    | with_reducible apply Evolves.next
    | with_reducible apply Evolves.fault
    | with_reducible apply Evolves.ite
    | (with_reducible exact Evolves.same ‹_› rfl rfl rfl rfl rfl) | split)

theorem commitEyelets_evolves {z : State} (i : Item) (s : State) (h_ : Evolves z s) :
    Evolves z (commitEyelets i s) := by
  unfold commitEyelets
  repeat' (first
    | intro _ | with_reducible assumption
    | (extract_lets +onlyGivenNames x
       first
       | (refine Evolves.cut (z := z) x ?_ ?_
          rotate_left
          intro _
          clear_value x
          rotate_left
          unfold x
          clear x)
       | clear_value x)
    | with_reducible apply hubRead_evolves
    | with_reducible apply modOutput_evolves
    | with_reducible apply recutEyelets_evolves
    | with_reducible apply modStream_evolves
    | with_reducible refine Evolves.ofSnd ?_ (by with_reducible assumption)
    | with_reducible refine Evolves.ofOptSnd ?_ (by with_reducible assumption)
    | with_reducible refine Evolves.ofOption ?_ (by with_reducible assumption)
    | with_reducible apply Evolves.some
    | with_reducible apply Evolves.none
    | with_reducible apply Evolves.mkSnd
    | with_reducible apply Evolves.projSnd
    | with_reducible apply Evolves.optSome
    | with_reducible apply Evolves.optNone
    | with_reducible apply Evolves.foldl
    | with_reducible apply Evolves.replyOk
    | with_reducible apply Evolves.replyFail
    | with_reducible apply Evolves.replyCounted
    | with_reducible apply Evolves.replyWait
    | with_reducible apply Evolves.next
    | with_reducible apply Evolves.fault
    | with_reducible apply Evolves.ite
    | (with_reducible exact Evolves.same ‹_› rfl rfl rfl rfl rfl) | split)

theorem consumeItem_evolves {z : State} (i : Item) (s : State) (h_ : Evolves z s) : Evolves z (consumeItem i s) := by
  unfold consumeItem
  repeat' (first
    | intro _ | with_reducible assumption | with_reducible apply retireItem_evolves
    | with_reducible apply modOutput_evolves | (with_reducible exact Evolves.same ‹_› rfl rfl rfl rfl rfl))

theorem settleItems_evolves {z : State} (t : Stitch) (consumed : Bool) (s : State) (h_ : Evolves z s) : Evolves z
    (settleItems t consumed s) := by
  unfold settleItems
  repeat' (first
    | intro _ | with_reducible assumption
    | (extract_lets +onlyGivenNames x
       first
       | (refine Evolves.cut (z := z) x ?_ ?_
          rotate_left
          intro _
          clear_value x
          rotate_left
          unfold x
          clear x)
       | clear_value x)
    | with_reducible apply consumeItem_evolves | with_reducible apply modItem_evolves
    | with_reducible apply releaseHeld_evolves | with_reducible apply Evolves.foldl
    | (with_reducible exact Evolves.same ‹_› rfl rfl rfl rfl rfl) | split)

theorem leaveActive_evolves {z : State} (s : State) (h_ : Evolves z s) : Evolves z (leaveActive s) := by
  unfold leaveActive
  repeat' (first
    | intro _ | with_reducible assumption | with_reducible apply State.modPower_evolves
    | (with_reducible exact Evolves.same ‹_› rfl rfl rfl rfl rfl) | split)

theorem settleFailover_evolves {z : State} (id : Nat) (s : State) (h_ : Evolves z s) :
    Evolves z (settleFailover id s) := by
  unfold settleFailover
  repeat' (first
    | intro _ | with_reducible assumption
    | (extract_lets +onlyGivenNames x
       first
       | (refine Evolves.cut (z := z) x ?_ ?_
          rotate_left
          intro _
          clear_value x
          rotate_left
          unfold x
          clear x)
       | clear_value x)
    | with_reducible apply State.modPair_evolves
    | with_reducible apply issueEvent_evolves
    | with_reducible refine Evolves.ofSnd ?_ (by with_reducible assumption)
    | with_reducible refine Evolves.ofOptSnd ?_ (by with_reducible assumption)
    | with_reducible refine Evolves.ofOption ?_ (by with_reducible assumption)
    | with_reducible apply Evolves.some
    | with_reducible apply Evolves.none
    | with_reducible apply Evolves.mkSnd
    | with_reducible apply Evolves.projSnd
    | with_reducible apply Evolves.optSome
    | with_reducible apply Evolves.optNone
    | with_reducible apply Evolves.foldl
    | with_reducible apply Evolves.replyOk
    | with_reducible apply Evolves.replyFail
    | with_reducible apply Evolves.replyCounted
    | with_reducible apply Evolves.replyWait
    | with_reducible apply Evolves.next
    | with_reducible apply Evolves.fault
    | with_reducible apply Evolves.ite
    | (with_reducible exact Evolves.same ‹_› rfl rfl rfl rfl rfl) | split)

theorem countStitch_evolves {z : State} (t : Stitch) (r : StitchRec) (s : State) (h_ : Evolves z s) :
    Evolves z (countStitch t r s) := by
  unfold countStitch
  repeat' (first
    | intro _ | with_reducible assumption
    | (extract_lets +onlyGivenNames x
       first
       | (refine Evolves.cut (z := z) x ?_ ?_
          rotate_left
          intro _
          clear_value x
          rotate_left
          unfold x
          clear x)
       | clear_value x)
    | with_reducible apply modClient_evolves
    | with_reducible apply modPart_evolves
    | with_reducible apply State.modCtr_evolves
    | with_reducible apply settlePrefixes_evolves
    | with_reducible apply leaveActive_evolves
    | with_reducible apply State.modObj_evolves
    | with_reducible refine Evolves.ofSnd ?_ (by with_reducible assumption)
    | with_reducible refine Evolves.ofOptSnd ?_ (by with_reducible assumption)
    | with_reducible refine Evolves.ofOption ?_ (by with_reducible assumption)
    | with_reducible apply Evolves.some
    | with_reducible apply Evolves.none
    | with_reducible apply Evolves.mkSnd
    | with_reducible apply Evolves.projSnd
    | with_reducible apply Evolves.optSome
    | with_reducible apply Evolves.optNone
    | with_reducible apply Evolves.foldl
    | with_reducible apply Evolves.replyOk
    | with_reducible apply Evolves.replyFail
    | with_reducible apply Evolves.replyCounted
    | with_reducible apply Evolves.replyWait
    | with_reducible apply Evolves.next
    | with_reducible apply Evolves.fault
    | with_reducible apply Evolves.ite
    | (with_reducible exact Evolves.same ‹_› rfl rfl rfl rfl rfl) | split)

theorem closeStitch_evolves {z : State} (t : Stitch) (r : StitchRec) (s : State) (h_ : Evolves z s) :
    Evolves z (closeStitch t r s) := by
  unfold closeStitch
  repeat' (first
    | intro _ | with_reducible assumption
    | (extract_lets +onlyGivenNames x
       first
       | (refine Evolves.cut (z := z) x ?_ ?_
          rotate_left
          intro _
          clear_value x
          rotate_left
          unfold x
          clear x)
       | clear_value x)
    | with_reducible apply placeRecord_evolves
    | with_reducible apply sendMsix_evolves
    | with_reducible apply faultIfIdle_evolves
    | with_reducible apply settleFailover_evolves
    | with_reducible apply countStitch_evolves
    | with_reducible refine Evolves.ofSnd ?_ (by with_reducible assumption)
    | with_reducible refine Evolves.ofOptSnd ?_ (by with_reducible assumption)
    | with_reducible refine Evolves.ofOption ?_ (by with_reducible assumption)
    | with_reducible apply Evolves.some
    | with_reducible apply Evolves.none
    | with_reducible apply Evolves.mkSnd
    | with_reducible apply Evolves.projSnd
    | with_reducible apply Evolves.optSome
    | with_reducible apply Evolves.optNone
    | with_reducible apply Evolves.foldl
    | with_reducible apply Evolves.replyOk
    | with_reducible apply Evolves.replyFail
    | with_reducible apply Evolves.replyCounted
    | with_reducible apply Evolves.replyWait
    | with_reducible apply Evolves.next
    | with_reducible apply Evolves.fault
    | with_reducible apply Evolves.ite
    | (with_reducible exact Evolves.same ‹_› rfl rfl rfl rfl rfl) | split)

theorem writeRecord_evolves {z : State} (t : Stitch) (outcome status : Nat) (sums : StitchSums) (s : State) (h_ : Evolves z s) :
    Evolves z (writeRecord t outcome status sums s) := by
  unfold writeRecord
  repeat' (first
    | intro _ | with_reducible assumption
    | (extract_lets +onlyGivenNames x
       first
       | (refine Evolves.cut (z := z) x ?_ ?_
          rotate_left
          intro _
          clear_value x
          rotate_left
          unfold x
          clear x)
       | clear_value x)
    | with_reducible apply State.useFresh_evolves
    | with_reducible apply defer_evolves
    | with_reducible apply mirrorItem_evolves
    | with_reducible apply modStitch_evolves
    | with_reducible apply closeStitch_evolves
    | with_reducible refine Evolves.ofSnd ?_ (by with_reducible assumption)
    | with_reducible refine Evolves.ofOptSnd ?_ (by with_reducible assumption)
    | with_reducible refine Evolves.ofOption ?_ (by with_reducible assumption)
    | with_reducible apply Evolves.some
    | with_reducible apply Evolves.none
    | with_reducible apply Evolves.mkSnd
    | with_reducible apply Evolves.projSnd
    | with_reducible apply Evolves.optSome
    | with_reducible apply Evolves.optNone
    | with_reducible apply Evolves.foldl
    | with_reducible apply Evolves.replyOk
    | with_reducible apply Evolves.replyFail
    | with_reducible apply Evolves.replyCounted
    | with_reducible apply Evolves.replyWait
    | with_reducible apply Evolves.next
    | with_reducible apply Evolves.fault
    | with_reducible apply Evolves.ite
    | (with_reducible exact Evolves.same ‹_› rfl rfl rfl rfl rfl) | split)

theorem releaseStitch_evolves {z : State} (id : Nat) (s : State) (h_ : Evolves z s) :
    Evolves z (releaseStitch id s) := by
  unfold releaseStitch
  repeat' (first
    | intro _ | with_reducible assumption
    | with_reducible apply closeStitch_evolves
    | with_reducible refine Evolves.ofSnd ?_ (by with_reducible assumption)
    | with_reducible refine Evolves.ofOptSnd ?_ (by with_reducible assumption)
    | with_reducible refine Evolves.ofOption ?_ (by with_reducible assumption)
    | with_reducible apply Evolves.some
    | with_reducible apply Evolves.none
    | with_reducible apply Evolves.mkSnd
    | with_reducible apply Evolves.projSnd
    | with_reducible apply Evolves.optSome
    | with_reducible apply Evolves.optNone
    | with_reducible apply Evolves.foldl
    | with_reducible apply Evolves.replyOk
    | with_reducible apply Evolves.replyFail
    | with_reducible apply Evolves.replyCounted
    | with_reducible apply Evolves.replyWait
    | with_reducible apply Evolves.next
    | with_reducible apply Evolves.fault
    | with_reducible apply Evolves.ite
    | (with_reducible exact Evolves.same ‹_› rfl rfl rfl rfl rfl) | split)

theorem chargeSlice_evolves {z : State} (p : Partition) (t : Stitch) (s : State) (h_ : Evolves z s) : Evolves z
    (chargeSlice p t s) := by
  unfold chargeSlice
  repeat' (first
    | intro _ | with_reducible assumption
    | (extract_lets +onlyGivenNames x
       first
       | (refine Evolves.cut (z := z) x ?_ ?_
          rotate_left
          intro _
          clear_value x
          rotate_left
          unfold x
          clear x)
       | clear_value x)
    | with_reducible apply modPart_evolves | with_reducible apply modStitch_evolves
    | (with_reducible exact Evolves.same ‹_› rfl rfl rfl rfl rfl) | split)

theorem idleCores_evolves {z : State} (p : Partition) (s : State) (h_ : Evolves z s) : Evolves z (idleCores p s) :=
  Evolves.ppuSame _
    (Evolves.foldl _ _ _ h_ fun _ _ h => State.modCore_evolves _ _ _ ComputeCore.halt_canonical h)
    (SMap.wf_mapVals _)

theorem sendCheckpoint_evolves {z : State} (id : Nat) (log : List (Nat × List Byte)) (s : State) (h_ : Evolves z s) :
    Evolves z (sendCheckpoint id log s) := by
  unfold sendCheckpoint
  repeat' (first
    | intro _ | with_reducible assumption
    | (extract_lets +onlyGivenNames x
       first
       | (refine Evolves.cut (z := z) x ?_ ?_
          rotate_left
          intro _
          clear_value x
          rotate_left
          unfold x
          clear x)
       | clear_value x)
    | with_reducible apply State.modPair_evolves
    | with_reducible apply State.push_evolves
    | with_reducible refine Evolves.ofSnd ?_ (by with_reducible assumption)
    | with_reducible refine Evolves.ofOptSnd ?_ (by with_reducible assumption)
    | with_reducible refine Evolves.ofOption ?_ (by with_reducible assumption)
    | with_reducible apply Evolves.some
    | with_reducible apply Evolves.none
    | with_reducible apply Evolves.mkSnd
    | with_reducible apply Evolves.projSnd
    | with_reducible apply Evolves.optSome
    | with_reducible apply Evolves.optNone
    | with_reducible apply Evolves.foldl
    | with_reducible apply Evolves.replyOk
    | with_reducible apply Evolves.replyFail
    | with_reducible apply Evolves.replyCounted
    | with_reducible apply Evolves.replyWait
    | with_reducible apply Evolves.next
    | with_reducible apply Evolves.fault
    | (with_reducible exact Evolves.same ‹_› rfl rfl rfl rfl rfl) | split)

theorem completionSteps_evolves {z : State} (id : Nat) (s : State) (h_ : Evolves z s) :
    Evolves z (completionSteps id s) := by
  unfold completionSteps
  repeat' (first
    | intro _ | with_reducible assumption
    | (extract_lets +onlyGivenNames x
       first
       | (refine Evolves.cut (z := z) x ?_ ?_
          rotate_left
          intro _
          clear_value x
          rotate_left
          unfold x
          clear x)
       | clear_value x)
    | with_reducible apply idleCores_evolves
    | with_reducible apply commitBobbin_evolves
    | with_reducible apply commitEyelets_evolves
    | with_reducible apply settleItems_evolves
    | with_reducible apply emitPicots_evolves
    | with_reducible apply modStitch_evolves
    | with_reducible apply sendCheckpoint_evolves
    | with_reducible apply chargeSlice_evolves
    | with_reducible apply modPart_evolves
    | with_reducible apply writeRecord_evolves
    | with_reducible refine Evolves.ofSnd ?_ (by with_reducible assumption)
    | with_reducible refine Evolves.ofOptSnd ?_ (by with_reducible assumption)
    | with_reducible refine Evolves.ofOption ?_ (by with_reducible assumption)
    | with_reducible apply Evolves.some
    | with_reducible apply Evolves.none
    | with_reducible apply Evolves.mkSnd
    | with_reducible apply Evolves.projSnd
    | with_reducible apply Evolves.optSome
    | with_reducible apply Evolves.optNone
    | with_reducible apply Evolves.foldl
    | with_reducible apply Evolves.replyOk
    | with_reducible apply Evolves.replyFail
    | with_reducible apply Evolves.replyCounted
    | with_reducible apply Evolves.replyWait
    | with_reducible apply Evolves.next
    | with_reducible apply Evolves.fault
    | with_reducible apply Evolves.ite
    | (with_reducible exact Evolves.same ‹_› rfl rfl rfl rfl rfl) | split)

theorem finishStitch_evolves {z : State} (id : Nat) (s : State) (h_ : Evolves z s) : Evolves z (finishStitch id s)
    := by
  unfold finishStitch
  repeat' (first
    | intro _ | with_reducible assumption | with_reducible apply completionSteps_evolves
    | (refine Evolves.fwSame _ ?_ (fun h => h)) | (with_reducible exact Evolves.same ‹_› rfl rfl rfl rfl rfl) | split)

theorem haltCore_evolves {z : State} (n : Nat) (s : State) (h_ : Evolves z s) : Evolves z (haltCore n s) := by
  unfold haltCore
  refine State.useFresh_evolves (s := _) (State.modCore_evolves _ _ _ (fun h => ?_) h_)
  split
  · exact h
  · exact ComputeCore.canonical_like (ComputeCore.halt_canonical h) rfl rfl rfl rfl

theorem stopIfHalted_evolves {z : State} (p : Partition) (id : Nat) (s : State) (h_ : Evolves z s) : Evolves z
    (stopIfHalted p id s) := by
  unfold stopIfHalted
  repeat' (first
    | intro _ | with_reducible assumption | with_reducible apply finishStitch_evolves | split)

theorem stopStitch_evolves {z : State} (p : Partition) (id status detail : Nat) (atOnce : Bool) (s : State) (h_
    : Evolves z s) : Evolves z (stopStitch p id status detail atOnce s) := by
  unfold stopStitch
  repeat' (first
    | intro _ | with_reducible assumption
    | (extract_lets +onlyGivenNames x
       first
       | (refine Evolves.cut (z := z) x ?_ ?_
          rotate_left
          intro _
          clear_value x
          rotate_left
          unfold x
          clear x)
       | clear_value x)
    | with_reducible apply modStitch_evolves | with_reducible apply haltCore_evolves
    | with_reducible apply stopIfHalted_evolves | with_reducible apply Evolves.foldl
    | (with_reducible exact Evolves.same ‹_› rfl rfl rfl rfl rfl) | split)

theorem dueStitchTimeout_evolves {z : State} (partition : Handle) (cause : Nat) (s : State) (h_ : Evolves z s) :
    Evolves.outcome z (dueStitchTimeout partition cause s) := by
  unfold dueStitchTimeout
  repeat' (first
    | intro _ | with_reducible assumption
    | with_reducible apply contained_evolves
    | with_reducible apply stopStitch_evolves
    | with_reducible refine Evolves.ofSnd ?_ (by with_reducible assumption)
    | with_reducible refine Evolves.ofOptSnd ?_ (by with_reducible assumption)
    | with_reducible refine Evolves.ofOption ?_ (by with_reducible assumption)
    | with_reducible apply Evolves.mkSnd
    | with_reducible apply Evolves.projSnd
    | with_reducible apply Evolves.optSome
    | with_reducible apply Evolves.optNone
    | with_reducible apply Evolves.foldl
    | with_reducible apply Evolves.replyOk
    | with_reducible apply Evolves.replyFail
    | with_reducible apply Evolves.replyCounted
    | with_reducible apply Evolves.replyWait
    | with_reducible apply Evolves.next
    | with_reducible apply Evolves.fault
    | (with_reducible exact Evolves.same ‹_› rfl rfl rfl rfl rfl) | split)

end Sys2Proof.Machine
end

