-- ==== Sys2Proof/Laws/EvolveSlots.lean ====
section
/-! SUPPORT. What the operations of Sys2Proof.Machine.Slots never undo. -/

namespace Sys2Proof.Machine

theorem passEmpty_evolves {z : State} (n : Nat) (s : State) (h_ : Evolves z s) : Evolves z (passEmpty n s) := by
  unfold passEmpty
  split
  · exact h_
  · split
    · exact State.modCore_evolves _ _ _ (ComputeCore.skipEmpty_canonical _ _) h_
    · exact h_

theorem closeBundle_evolves {z : State} (n : Nat) (p : Partition) (id : Nat) (s : State) (h_ : Evolves z s) :
    Evolves z (closeBundle n p id s) := by
  have h := State.modCore_evolves n (fun k => { k with mid := false, issue := k.issue + 1 }) s (fun h => h) h_
  unfold closeBundle
  dsimp only
  split
  · exact h
  · exact stopIfHalted_evolves _ _ _ (haltCore_evolves _ _ h)

theorem slotOp_evolves {z : State} (c : Slot) (f : Partition → Stitch → Model → State → Option State) (s0 : State)
    (hf : ∀ p t m s, Evolves z s → Evolves.option z (f p t m s)) (h_ : Evolves z s0) : Evolves z (slotOp c f s0) := by
  have h1 := passEmpty_evolves (z := z) c.core s0 h_
  unfold slotOp
  dsimp only
  split
  · exact h_
  · split
    · exact h_
    · rename_i e
      have h2 := correctedBy_evolves c.corrected _ (State.modCore_evolves c.core (fun k => { k with late := k.late + c.held }) _ (fun h => h)
        (Evolves.ofOption (hf _ _ _ _ h1) e))
      split
      · exact closeBundle_evolves _ _ _ _ (State.modCore_evolves _ _ _ (ComputeCore.goOn_canonical _) h2)
      · exact State.modCore_evolves _ _ _ (fun h => h) h2

theorem coreOp_evolves {z : State} (c : Slot) (f : ComputeCore → ComputeCore) (s : State)
    (hf : ∀ c, c.canonical = true → (f c).canonical = true) (h_ : Evolves z s) : Evolves z (coreOp c f s) :=
  slotOp_evolves _ _ _ (fun _ _ _ _ h => State.modCore_evolves _ _ _ (hf _) h) h_

theorem controlOp_evolves {z : State} (c : Slot) (f : Stitch → Model → ComputeCore → ComputeCore) (s0 : State)
    (hf : ∀ t m c, c.canonical = true → (f t m c).canonical = true) (h_ : Evolves z s0) :
    Evolves z (controlOp c f s0) := by
  have h1 := passEmpty_evolves (z := z) c.core s0 h_
  unfold controlOp
  dsimp only
  split
  · exact h_
  · exact closeBundle_evolves _ _ _ _ (State.modCore_evolves _ _ _
      (fun h => ComputeCore.canonical_like (hf _ _ _ h) rfl rfl rfl rfl) h1)

end Sys2Proof.Machine
end

