-- ==== Sys2Proof/Laws/EvolveArrays.lean ====
section
/-! SUPPORT. What the operations of Sys2Proof.Machine.Arrays never undo. -/

namespace Sys2Proof.Machine

theorem issueRows_evolves {z : State} (c : Slot) (array : Nat) (isStream hoop : Bool) (mode : Mode) (fmt areg sreg n
    : Nat) (s : State) (h_ : Evolves z s) : Evolves z (issueRows c array isStream hoop mode fmt areg sreg n s) := by
  unfold issueRows
  repeat' (first
    | intro _ | with_reducible assumption
    | (extract_lets +onlyGivenNames x
       first
       | (refine Evolves.cut (z := z) x ?_ ?_
          rotate_left
          intro _
          clear_value x
          rotate_left
          unfold x
          clear x)
       | clear_value x)
    | with_reducible apply ComputeCore.modArray_canonical | with_reducible apply slotOp_evolves
    | with_reducible apply State.modCore_evolves | with_reducible apply Evolves.some
    | with_reducible apply Evolves.none | split
    | (exact ComputeCore.canonical_like ‹ComputeCore.canonical _ = true› rfl rfl rfl rfl))

end Sys2Proof.Machine
end

