-- ==== Sys2Proof/Laws/EvolveReads.lean ====
section
/-! SUPPORT. What the operations of Sys2Proof.Machine.Reads never undo. -/

namespace Sys2Proof.Machine

theorem issueQueued_evolves {z : State}  (v0 : Nat) (s : State) (h_ : Evolves z s) :
    Evolves z (issueQueued v0 s) := by
  induction v0 generalizing s with
  | zero =>
    unfold issueQueued
    repeat' (first
      | intro _ | with_reducible assumption
      | (extract_lets +onlyGivenNames x
         first
         | (refine Evolves.cut (z := z) x ?_ ?_
            rotate_left
            intro _
            clear_value x
            rotate_left
            unfold x
            clear x)
         | clear_value x)
      | with_reducible apply State.modPcie_evolves
      | with_reducible apply issued_evolves
      | with_reducible apply State.pushLink_evolves
      | with_reducible refine Evolves.ofSnd ?_ (by with_reducible assumption)
      | with_reducible refine Evolves.ofOptSnd ?_ (by with_reducible assumption)
      | with_reducible refine Evolves.ofOption ?_ (by with_reducible assumption)
      | with_reducible apply Evolves.some
      | with_reducible apply Evolves.none
      | with_reducible apply Evolves.mkSnd
      | with_reducible apply Evolves.projSnd
      | with_reducible apply Evolves.optSome
      | with_reducible apply Evolves.optNone
      | with_reducible apply Evolves.foldl
      | with_reducible apply Evolves.replyOk
      | with_reducible apply Evolves.replyFail
      | with_reducible apply Evolves.replyCounted
      | with_reducible apply Evolves.replyWait
      | with_reducible apply Evolves.next
      | with_reducible apply Evolves.fault
      | with_reducible apply Evolves.ite
      | (with_reducible exact Evolves.same ‹_› rfl rfl rfl rfl rfl) | split)
  | succ n ih =>
    unfold issueQueued
    repeat' (first
      | intro _ | with_reducible assumption | with_reducible apply ih
      | (extract_lets +onlyGivenNames x
         first
         | (refine Evolves.cut (z := z) x ?_ ?_
            rotate_left
            intro _
            clear_value x
            rotate_left
            unfold x
            clear x)
         | clear_value x)
      | with_reducible apply State.modPcie_evolves
      | with_reducible apply issued_evolves
      | with_reducible apply State.pushLink_evolves
      | with_reducible refine Evolves.ofSnd ?_ (by with_reducible assumption)
      | with_reducible refine Evolves.ofOptSnd ?_ (by with_reducible assumption)
      | with_reducible refine Evolves.ofOption ?_ (by with_reducible assumption)
      | with_reducible apply Evolves.some
      | with_reducible apply Evolves.none
      | with_reducible apply Evolves.mkSnd
      | with_reducible apply Evolves.projSnd
      | with_reducible apply Evolves.optSome
      | with_reducible apply Evolves.optNone
      | with_reducible apply Evolves.foldl
      | with_reducible apply Evolves.replyOk
      | with_reducible apply Evolves.replyFail
      | with_reducible apply Evolves.replyCounted
      | with_reducible apply Evolves.replyWait
      | with_reducible apply Evolves.next
      | with_reducible apply Evolves.fault
      | with_reducible apply Evolves.ite
      | (with_reducible exact Evolves.same ‹_› rfl rfl rfl rfl rfl) | split)

theorem pumpReads_evolves {z : State} (s : State) (h_ : Evolves z s) : Evolves z (pumpReads s) := by
  unfold pumpReads
  repeat' (first
    | with_reducible assumption | with_reducible apply issueQueued_evolves)

theorem startReads_evolves {z : State} (owner : ReadOwner) (entries : List (Nat × Nat)) (s : State) (h_
    : Evolves z s) : Evolves z (startReads owner entries s) := by
  unfold startReads
  repeat' (first
    | intro _ | with_reducible assumption
    | (extract_lets +onlyGivenNames x
       first
       | (refine Evolves.cut (z := z) x ?_ ?_
          rotate_left
          intro _
          clear_value x
          rotate_left
          unfold x
          clear x)
       | clear_value x)
    | with_reducible apply pumpReads_evolves | with_reducible apply State.modPcie_evolves
    | (with_reducible exact Evolves.same ‹_› rfl rfl rfl rfl rfl) | split)

theorem instantReads_evolves {z : State} (entries : List (Nat × Nat)) (s : State) (h_ : Evolves z s) : Evolves z
    (instantReads entries s) := by
  unfold instantReads
  repeat' (first
    | intro _ | with_reducible assumption | with_reducible apply State.push_evolves
    | with_reducible apply State.modPcie_evolves | with_reducible apply Evolves.foldl
    | (with_reducible exact Evolves.same ‹_› rfl rfl rfl rfl rfl))

theorem dropReads_evolves {z : State} (owner : ReadOwner) (s : State) (h_ : Evolves z s) : Evolves z
    (dropReads owner s) := by
  unfold dropReads
  repeat' (first
    | intro _ | with_reducible assumption | with_reducible apply State.modPcie_evolves
    | (with_reducible exact Evolves.same ‹_› rfl rfl rfl rfl rfl))

theorem setLong_evolves {z : State} (l : LongCmd) (s : State) (h_ : Evolves z s) : Evolves z (setLong l s) := by
  unfold setLong
  repeat' (first
    | intro _ | with_reducible assumption | (refine Evolves.hostSame _ ?_ (fun h => h))
    | (with_reducible exact Evolves.same ‹_› rfl rfl rfl rfl rfl))

theorem answerLater_evolves {z : State} (h : Hdr) (status detail : Nat) (resp : List Byte) (s : State) (h_
    : Evolves z s) : Evolves z (answerLater h status detail resp s) := by
  unfold answerLater
  repeat' (first
    | with_reducible assumption | with_reducible apply answer_evolves)

end Sys2Proof.Machine
end

