-- ==== Sys2Proof/Laws/EvolveTimeOps.lean ====
section
/-! SUPPORT. What the operations of Sys2Proof.Machine.TimeOps never undo. -/

namespace Sys2Proof.Machine

theorem clockRelease_evolves {z : State} (s : State) (h_ : Evolves z s) : Evolves z (clockRelease s) := by
  unfold clockRelease
  repeat' (first
    | intro _ | with_reducible assumption | (refine Evolves.timeSame _ ?_ (fun h => h))
    | (with_reducible exact Evolves.same ‹_› rfl rfl rfl rfl rfl))

theorem clockStep_evolves {z : State} (d : Int) (s : State) (h_ : Evolves z s) : Evolves z (clockStep d s) := by
  unfold clockStep
  refine State.modObj_evolves _ _ (Evolves.timeSame _ h_ fun h => ?_)
  unfold TimeUnitBlock.canonical at *
  dsimp only
  exact SMap.wf_mapVals _ h

theorem timeStepBody_evolves {z : State} (sec ns : Int) (s : State) (h_ : Evolves z s) : Evolves.reply z
    (timeStepBody sec ns s) := by
  unfold timeStepBody
  repeat' (first
    | with_reducible assumption | with_reducible apply clockStep_evolves | with_reducible apply Evolves.replyOk
    | with_reducible apply Evolves.replyFail | split)

theorem setRate_evolves {z : State} (rate : Int) (s : State) (h_ : Evolves z s) : Evolves z (setRate rate s) := by
  unfold setRate
  repeat' (first
    | intro _ | with_reducible assumption | (refine Evolves.timeSame _ ?_ (fun h => h))
    | (with_reducible exact Evolves.same ‹_› rfl rfl rfl rfl rfl) | split)

theorem timeRateBody_evolves {z : State} (rate : Int) (s : State) (h_ : Evolves z s) : Evolves.reply z
    (timeRateBody rate s) := by
  unfold timeRateBody
  repeat' (first
    | with_reducible assumption | with_reducible apply setRate_evolves | with_reducible apply Evolves.replyOk
    | with_reducible apply Evolves.replyFail | split)

theorem timeClaimBody_evolves {z : State} (h : Hdr) (unit function connector period : Nat) (start : CardTime) (s
    : State) (h_ : Evolves z s) : Evolves.reply z (timeClaimBody h unit function connector period start s) := by
  unfold timeClaimBody
  repeat' (first
    | intro _ | with_reducible assumption
    | (extract_lets +onlyGivenNames x
       first
       | (refine Evolves.cut (z := z) x ?_ ?_
          rotate_left
          intro _
          clear_value x
          rotate_left
          unfold x
          clear x)
       | clear_value x)
    | with_reducible apply State.modTu_evolves | with_reducible apply State.modObj_evolves
    | with_reducible apply issued_evolves | with_reducible apply Evolves.replyOk
    | with_reducible apply Evolves.replyFail | (with_reducible exact Evolves.same ‹_› rfl rfl rfl rfl rfl) | split)

theorem restartOutput_evolves {z : State} (resp : List Byte) (s : State) (h_ : Evolves z s) :
    Evolves z (restartOutput resp s) := by
  unfold restartOutput
  repeat' (first
    | intro _ | with_reducible assumption
    | with_reducible apply State.modTu_evolves
    | with_reducible refine Evolves.ofSnd ?_ (by with_reducible assumption)
    | with_reducible refine Evolves.ofOptSnd ?_ (by with_reducible assumption)
    | with_reducible refine Evolves.ofOption ?_ (by with_reducible assumption)
    | with_reducible apply Evolves.some
    | with_reducible apply Evolves.none
    | with_reducible apply Evolves.mkSnd
    | with_reducible apply Evolves.projSnd
    | with_reducible apply Evolves.optSome
    | with_reducible apply Evolves.optNone
    | with_reducible apply Evolves.foldl
    | with_reducible apply Evolves.replyOk
    | with_reducible apply Evolves.replyFail
    | with_reducible apply Evolves.replyCounted
    | with_reducible apply Evolves.replyWait
    | with_reducible apply Evolves.next
    | with_reducible apply Evolves.fault
    | with_reducible apply Evolves.ite
    | (with_reducible exact Evolves.same ‹_› rfl rfl rfl rfl rfl) | split)

theorem freeUnit_evolves {z : State} (u : Nat) (s : State) (h_ : Evolves z s) : Evolves z (freeUnit u s) := by
  unfold freeUnit
  repeat' (first
    | intro _ | with_reducible assumption
    | (extract_lets +onlyGivenNames x
       first
       | (refine Evolves.cut (z := z) x ?_ ?_
          rotate_left
          intro _
          clear_value x
          rotate_left
          unfold x
          clear x)
       | clear_value x)
    | with_reducible apply State.modTu_evolves | with_reducible apply State.modBoard_evolves
    | with_reducible apply State.modObj_evolves | (with_reducible exact Evolves.same ‹_› rfl rfl rfl rfl rfl) | split)

theorem timeReleaseBody_evolves {z : State} (h : Hdr) (unit : Handle) (s : State) (h_ : Evolves z s)
    : Evolves.reply z (timeReleaseBody h unit s) := by
  unfold timeReleaseBody
  repeat' (first
    | intro _ | with_reducible assumption
    | (extract_lets +onlyGivenNames x
       first
       | (refine Evolves.cut (z := z) x ?_ ?_
          rotate_left
          intro _
          clear_value x
          rotate_left
          unfold x
          clear x)
       | clear_value x)
    | with_reducible apply freeUnit_evolves | with_reducible apply Evolves.replyOk
    | with_reducible apply Evolves.replyFail | split)

theorem runTimeStep_evolves {z : State} (h : Hdr) (sec ns : Int) (s : State) (h_ : Evolves z s) : Evolves z
    (runTimeStep h sec ns s) := by
  unfold runTimeStep
  repeat' (first
    | with_reducible assumption | with_reducible apply serve_evolves | with_reducible apply timeStepBody_evolves)

theorem runTimeRate_evolves {z : State} (h : Hdr) (rate : Int) (s : State) (h_ : Evolves z s) : Evolves z
    (runTimeRate h rate s) := by
  unfold runTimeRate
  repeat' (first
    | with_reducible assumption | with_reducible apply serve_evolves | with_reducible apply timeRateBody_evolves)

theorem runTimeUnitClaim_evolves {z : State} (h : Hdr) (unit function connector period : Nat) (start : CardTime) (s
    : State) (h_ : Evolves z s) : Evolves z (runTimeUnitClaim h unit function connector period start s) := by
  unfold runTimeUnitClaim
  repeat' (first
    | intro _ | with_reducible assumption | with_reducible apply serve_evolves
    | with_reducible apply timeClaimBody_evolves)

theorem runTimeUnitRelease_evolves {z : State} (h : Hdr) (unit : Handle) (s : State) (h_ : Evolves z s) : Evolves z
    (runTimeUnitRelease h unit s) := by
  unfold runTimeUnitRelease
  repeat' (first
    | with_reducible assumption | with_reducible apply serve_evolves | with_reducible apply timeReleaseBody_evolves)

theorem signalWake_evolves {z : State} (s : State) (h_ : Evolves z s) : Evolves z (signalWake s) := by
  unfold signalWake
  repeat' (first
    | intro _ | with_reducible assumption
    | (extract_lets +onlyGivenNames x
       first
       | (refine Evolves.cut (z := z) x ?_ ?_
          rotate_left
          intro _
          clear_value x
          rotate_left
          unfold x
          clear x)
       | clear_value x)
    | with_reducible apply State.modPcie_evolves | with_reducible apply State.push_evolves
    | (with_reducible exact Evolves.same ‹_› rfl rfl rfl rfl rfl) | split)

theorem latchedRead_evolves {z : State} (size value : Nat) (latch : State → State) (s : State)
    (hl : ∀ x0, Evolves z x0 → Evolves z (latch x0)) (h_ : Evolves z s) :
    Evolves.outcome z (latchedRead size value latch s) := by
  unfold latchedRead
  split
  · exact Evolves.next (State.push_evolves _ _ (hl s h_))
  · exact Evolves.next (State.push_evolves _ _ h_)

theorem timeNowSecRead_evolves {z : State} (size : Nat) (s : State) (h_ : Evolves z s) :
    Evolves.outcome z (timeNowSecRead size s) :=
  latchedRead_evolves _ _ _ _ (fun _ h => Evolves.timeSame _ h fun c => c) h_

theorem timeTxqPopRead_evolves {z : State} (size : Nat) (s : State) (h_ : Evolves z s) : Evolves.outcome z
    (timeTxqPopRead size s) := by
  unfold timeTxqPopRead
  repeat' (first
    | intro _ | with_reducible assumption | with_reducible apply State.push_evolves
    | (refine Evolves.timeSame _ ?_ (fun h => h)) | with_reducible apply State.useFresh_evolves
    | with_reducible apply Evolves.next | (with_reducible exact Evolves.same ‹_› rfl rfl rfl rfl rfl) | split)

theorem tuCaptureSecRead_evolves {z : State} (unit size : Nat) (s : State) (h_ : Evolves z s) :
    Evolves.outcome z (tuCaptureSecRead unit size s) :=
  latchedRead_evolves _ _ _ _ (fun _ h => State.modTu_evolves _ _ _ h) h_

theorem timeCtrlRelease_evolves {z : State} (value : Nat) (s : State) (h_ : Evolves z s) : Evolves.outcome z
    (timeCtrlRelease value s) := by
  unfold timeCtrlRelease
  repeat' (first
    | with_reducible assumption | with_reducible apply clockRelease_evolves | with_reducible apply Evolves.next
    | with_reducible apply Evolves.fault | split)

theorem dropMaster_evolves {z : State} (s : State) (h_ : Evolves z s) :
    Evolves z (dropMaster s) := by
  unfold dropMaster
  repeat' (first
    | intro _ | with_reducible assumption
    | with_reducible refine Evolves.ofSnd ?_ (by with_reducible assumption)
    | with_reducible refine Evolves.ofOptSnd ?_ (by with_reducible assumption)
    | with_reducible refine Evolves.ofOption ?_ (by with_reducible assumption)
    | with_reducible apply Evolves.some
    | with_reducible apply Evolves.none
    | with_reducible apply Evolves.mkSnd
    | with_reducible apply Evolves.projSnd
    | with_reducible apply Evolves.optSome
    | with_reducible apply Evolves.optNone
    | with_reducible apply Evolves.foldl
    | with_reducible apply Evolves.replyOk
    | with_reducible apply Evolves.replyFail
    | with_reducible apply Evolves.replyCounted
    | with_reducible apply Evolves.replyWait
    | with_reducible apply Evolves.next
    | with_reducible apply Evolves.fault
    | with_reducible apply Evolves.ite
    | (refine Evolves.timeSame _ ?_ (fun h => h))
    | (with_reducible exact Evolves.same ‹_› rfl rfl rfl rfl rfl) | split)

theorem timePtpCfgWrite_evolves {z : State} (value : Nat) (s : State) (h_ : Evolves z s) : Evolves.outcome z
    (timePtpCfgWrite value s) := by
  unfold timePtpCfgWrite
  repeat' (first
    | intro _ | with_reducible assumption
    | (extract_lets +onlyGivenNames x
       first
       | (refine Evolves.cut (z := z) x ?_ ?_
          rotate_left
          intro _
          clear_value x
          rotate_left
          unfold x
          clear x)
       | clear_value x)
    | with_reducible apply clockRelease_evolves | (refine Evolves.timeSame _ ?_ (fun h => h))
    | with_reducible apply Evolves.next | with_reducible apply Evolves.fault
    | (with_reducible exact Evolves.same ‹_› rfl rfl rfl rfl rfl) | split)

theorem timeUtcOffsetWrite_evolves {z : State} (value : Nat) (s : State) (h_ : Evolves z s) : Evolves.outcome z
    (timeUtcOffsetWrite value s) := by
  unfold timeUtcOffsetWrite
  repeat' (first
    | intro _ | with_reducible assumption | (refine Evolves.timeSame _ ?_ (fun h => h))
    | with_reducible apply Evolves.next | with_reducible apply Evolves.fault
    | (with_reducible exact Evolves.same ‹_› rfl rfl rfl rfl rfl) | split)

theorem takeStamp_evolves {z : State} (e : TxStamp) (s : State) (h_ : Evolves z s) : Evolves z (takeStamp e s) := by
  refine Evolves.timeSame _ h_ fun h => ?_
  split <;> exact h

theorem drainStamps_evolves {z : State} (s : State) (h_ : Evolves z s) :
    Evolves z (drainStamps s) := by
  unfold drainStamps
  repeat' (first
    | intro _ | with_reducible assumption
    | with_reducible refine Evolves.ofSnd ?_ (by with_reducible assumption)
    | with_reducible refine Evolves.ofOptSnd ?_ (by with_reducible assumption)
    | with_reducible refine Evolves.ofOption ?_ (by with_reducible assumption)
    | with_reducible apply Evolves.some
    | with_reducible apply Evolves.none
    | with_reducible apply Evolves.mkSnd
    | with_reducible apply Evolves.projSnd
    | with_reducible apply Evolves.optSome
    | with_reducible apply Evolves.optNone
    | with_reducible apply Evolves.foldl
    | with_reducible apply Evolves.replyOk
    | with_reducible apply Evolves.replyFail
    | with_reducible apply Evolves.replyCounted
    | with_reducible apply Evolves.replyWait
    | with_reducible apply Evolves.next
    | with_reducible apply Evolves.fault
    | with_reducible apply Evolves.ite
    | (refine Evolves.timeSame _ ?_ (fun h => h))
    | (with_reducible exact Evolves.same ‹_› rfl rfl rfl rfl rfl) | split)

theorem answerPeer_evolves {z : State} (ingress : CardTime) (sequenceId requester : Nat) (s : State) (h_ : Evolves z s) :
    Evolves z (answerPeer ingress sequenceId requester s) := by
  unfold answerPeer
  repeat' (first
    | intro _ | with_reducible assumption
    | (extract_lets +onlyGivenNames x
       first
       | (refine Evolves.cut (z := z) x ?_ ?_
          rotate_left
          intro _
          clear_value x
          rotate_left
          unfold x
          clear x)
       | clear_value x)
    | with_reducible apply takeStamp_evolves
    | with_reducible apply State.push_evolves
    | with_reducible refine Evolves.ofSnd ?_ (by with_reducible assumption)
    | with_reducible refine Evolves.ofOptSnd ?_ (by with_reducible assumption)
    | with_reducible refine Evolves.ofOption ?_ (by with_reducible assumption)
    | with_reducible apply Evolves.some
    | with_reducible apply Evolves.none
    | with_reducible apply Evolves.mkSnd
    | with_reducible apply Evolves.projSnd
    | with_reducible apply Evolves.optSome
    | with_reducible apply Evolves.optNone
    | with_reducible apply Evolves.foldl
    | with_reducible apply Evolves.replyOk
    | with_reducible apply Evolves.replyFail
    | with_reducible apply Evolves.replyCounted
    | with_reducible apply Evolves.replyWait
    | with_reducible apply Evolves.next
    | with_reducible apply Evolves.fault
    | with_reducible apply Evolves.ite
    | (with_reducible exact Evolves.same ‹_› rfl rfl rfl rfl rfl) | split)

theorem hearMaster_evolves {z : State} (sender : Nat) (a : PtpAnnounce) (s : State) (h_ : Evolves z s) :
    Evolves z (hearMaster sender a s) := by
  unfold hearMaster
  repeat' (first
    | intro _ | with_reducible assumption
    | (extract_lets +onlyGivenNames x
       first
       | (refine Evolves.cut (z := z) x ?_ ?_
          rotate_left
          intro _
          clear_value x
          rotate_left
          unfold x
          clear x)
       | clear_value x)
    | with_reducible refine Evolves.ofSnd ?_ (by with_reducible assumption)
    | with_reducible refine Evolves.ofOptSnd ?_ (by with_reducible assumption)
    | with_reducible refine Evolves.ofOption ?_ (by with_reducible assumption)
    | with_reducible apply Evolves.some
    | with_reducible apply Evolves.none
    | with_reducible apply Evolves.mkSnd
    | with_reducible apply Evolves.projSnd
    | with_reducible apply Evolves.optSome
    | with_reducible apply Evolves.optNone
    | with_reducible apply Evolves.foldl
    | with_reducible apply Evolves.replyOk
    | with_reducible apply Evolves.replyFail
    | with_reducible apply Evolves.replyCounted
    | with_reducible apply Evolves.replyWait
    | with_reducible apply Evolves.next
    | with_reducible apply Evolves.fault
    | with_reducible apply Evolves.ite
    | (refine Evolves.timeSame _ ?_ (fun h => h))
    | (with_reducible exact Evolves.same ‹_› rfl rfl rfl rfl rfl) | split)

theorem selectMaster_evolves {z : State} (s : State) (h_ : Evolves z s) :
    Evolves z (selectMaster s) := by
  unfold selectMaster
  repeat' (first
    | intro _ | with_reducible assumption
    | (extract_lets +onlyGivenNames x
       first
       | (refine Evolves.cut (z := z) x ?_ ?_
          rotate_left
          intro _
          clear_value x
          rotate_left
          unfold x
          clear x)
       | clear_value x)
    | with_reducible apply clockRelease_evolves
    | with_reducible refine Evolves.ofSnd ?_ (by with_reducible assumption)
    | with_reducible refine Evolves.ofOptSnd ?_ (by with_reducible assumption)
    | with_reducible refine Evolves.ofOption ?_ (by with_reducible assumption)
    | with_reducible apply Evolves.some
    | with_reducible apply Evolves.none
    | with_reducible apply Evolves.mkSnd
    | with_reducible apply Evolves.projSnd
    | with_reducible apply Evolves.optSome
    | with_reducible apply Evolves.optNone
    | with_reducible apply Evolves.foldl
    | with_reducible apply Evolves.replyOk
    | with_reducible apply Evolves.replyFail
    | with_reducible apply Evolves.replyCounted
    | with_reducible apply Evolves.replyWait
    | with_reducible apply Evolves.next
    | with_reducible apply Evolves.fault
    | with_reducible apply Evolves.ite
    | (refine Evolves.timeSame _ ?_ (fun h => h))
    | (with_reducible exact Evolves.same ‹_› rfl rfl rfl rfl rfl) | split)

theorem servoCorrect_evolves {z : State} (offset rate : Option Int) (s : State) (h_ : Evolves z s) :
    Evolves z (servoCorrect offset rate s) := by
  unfold servoCorrect
  repeat' (first
    | intro _ | with_reducible assumption
    | (extract_lets +onlyGivenNames x
       first
       | (refine Evolves.cut (z := z) x ?_ ?_
          rotate_left
          intro _
          clear_value x
          rotate_left
          unfold x
          clear x)
       | clear_value x)
    | with_reducible apply clockStep_evolves
    | with_reducible apply setRate_evolves
    | with_reducible refine Evolves.ofSnd ?_ (by with_reducible assumption)
    | with_reducible refine Evolves.ofOptSnd ?_ (by with_reducible assumption)
    | with_reducible refine Evolves.ofOption ?_ (by with_reducible assumption)
    | with_reducible apply Evolves.some
    | with_reducible apply Evolves.none
    | with_reducible apply Evolves.mkSnd
    | with_reducible apply Evolves.projSnd
    | with_reducible apply Evolves.optSome
    | with_reducible apply Evolves.optNone
    | with_reducible apply Evolves.foldl
    | with_reducible apply Evolves.replyOk
    | with_reducible apply Evolves.replyFail
    | with_reducible apply Evolves.replyCounted
    | with_reducible apply Evolves.replyWait
    | with_reducible apply Evolves.next
    | with_reducible apply Evolves.fault
    | with_reducible apply Evolves.ite
    | (refine Evolves.timeSame _ ?_ (fun h => h))
    | (with_reducible exact Evolves.same ‹_› rfl rfl rfl rfl rfl) | split)

theorem servoMessage_evolves {z : State} (ingress : CardTime) (m : PtpMsg) (s : State) (h_ : Evolves z s) :
    Evolves z (servoMessage ingress m s) := by
  unfold servoMessage
  repeat' (first
    | intro _ | with_reducible assumption
    | (extract_lets +onlyGivenNames x
       first
       | (refine Evolves.cut (z := z) x ?_ ?_
          rotate_left
          intro _
          clear_value x
          rotate_left
          unfold x
          clear x)
       | clear_value x)
    | with_reducible apply selectMaster_evolves
    | with_reducible apply hearMaster_evolves
    | with_reducible apply answerPeer_evolves
    | with_reducible apply servoCorrect_evolves
    | with_reducible refine Evolves.ofSnd ?_ (by with_reducible assumption)
    | with_reducible refine Evolves.ofOptSnd ?_ (by with_reducible assumption)
    | with_reducible refine Evolves.ofOption ?_ (by with_reducible assumption)
    | with_reducible apply Evolves.some
    | with_reducible apply Evolves.none
    | with_reducible apply Evolves.mkSnd
    | with_reducible apply Evolves.projSnd
    | with_reducible apply Evolves.optSome
    | with_reducible apply Evolves.optNone
    | with_reducible apply Evolves.foldl
    | with_reducible apply Evolves.replyOk
    | with_reducible apply Evolves.replyFail
    | with_reducible apply Evolves.replyCounted
    | with_reducible apply Evolves.replyWait
    | with_reducible apply Evolves.next
    | with_reducible apply Evolves.fault
    | with_reducible apply Evolves.ite
    | (refine Evolves.timeSame _ ?_ (fun h => h))
    | (with_reducible exact Evolves.same ‹_› rfl rfl rfl rfl rfl) | split)

theorem dueHoldoverTimeout_evolves {z : State} (s : State) (h_ : Evolves z s) :
    Evolves.outcome z (dueHoldoverTimeout s) := by
  unfold dueHoldoverTimeout
  have h1 : Evolves z (s.modTime fun t => if t.sync = 1 then { t with sync := 2 } else t) :=
    Evolves.timeSame _ h_ fun h => by split <;> exact h
  split
  · exact Evolves.next (dropMaster_evolves _ (Evolves.timeSame _ h1 fun h => h))
  · exact Evolves.next h1

end Sys2Proof.Machine
end

