-- ==== Sys2Proof/Laws/EvolveIngest.lean ====
section
/-! SUPPORT. What the operations of Sys2Proof.Machine.Ingest never undo. -/

namespace Sys2Proof.Machine

theorem setFlow_evolves {z : State} (f : Flow) (s : State) (h_ : Evolves z s) : Evolves z (setFlow f s) := by
  unfold setFlow
  repeat' (first
    | intro _ | with_reducible assumption | with_reducible apply State.modObj_evolves
    | (with_reducible exact Evolves.same ‹_› rfl rfl rfl rfl rfl))

theorem modIngest_evolves {z : State} (h : Handle) (f : IngestCounters → IngestCounters) (s : State) (h_
    : Evolves z s) : Evolves z (modIngest h f s) := by
  unfold modIngest
  repeat' (first
    | intro _ | with_reducible assumption | with_reducible apply modStream_evolves
    | (with_reducible exact Evolves.same ‹_› rfl rfl rfl rfl rfl))

theorem applyContinuity_evolves {z : State} (t : TsPacket) (f : Flow) (s : State) (h_ : Evolves z s) :
    Evolves.snd z (applyContinuity t f s) := by
  unfold applyContinuity
  generalize continuity f.cc t.pid t.cc = r
  obtain ⟨count, lost⟩ := r
  have hs := modIngest_evolves f.req.stream (fun c => { c with lost := c.lost + lost }) s h_
  dsimp only
  split
  · exact Evolves.mkSnd h_
  · split
    · exact Evolves.mkSnd hs
    · split
      · exact Evolves.mkSnd hs
      · exact Evolves.mkSnd hs

theorem discard_evolves {z : State} (h : Handle) (reason : Nat) (s : State) (h_ : Evolves z s) : Evolves z
    (discard h reason s) := by
  unfold discard
  repeat' (first
    | intro _ | with_reducible assumption | with_reducible apply modIngest_evolves
    | (with_reducible exact Evolves.same ‹_› rfl rfl rfl rfl rfl))

theorem emitUnit_evolves {z : State} (h : Handle) (a : AccessUnit) (s : State) (h_ : Evolves z s) :
    Evolves z (emitUnit h a s) := by
  unfold emitUnit
  repeat' (first
    | intro _ | with_reducible assumption
    | (extract_lets +onlyGivenNames x
       first
       | (refine Evolves.cut (z := z) x ?_ ?_
          rotate_left
          intro _
          clear_value x
          rotate_left
          unfold x
          clear x)
       | clear_value x)
    | with_reducible apply modStream_evolves
    | with_reducible apply mirrorItem_evolves
    | with_reducible refine Evolves.ofSnd ?_ (by with_reducible assumption)
    | with_reducible refine Evolves.ofOptSnd ?_ (by with_reducible assumption)
    | with_reducible refine Evolves.ofOption ?_ (by with_reducible assumption)
    | with_reducible apply Evolves.some
    | with_reducible apply Evolves.none
    | with_reducible apply Evolves.mkSnd
    | with_reducible apply Evolves.projSnd
    | with_reducible apply Evolves.optSome
    | with_reducible apply Evolves.optNone
    | with_reducible apply Evolves.foldl
    | with_reducible apply Evolves.replyOk
    | with_reducible apply Evolves.replyFail
    | with_reducible apply Evolves.replyCounted
    | with_reducible apply Evolves.replyWait
    | with_reducible apply Evolves.next
    | with_reducible apply Evolves.fault
    | (with_reducible exact Evolves.same ‹_› rfl rfl rfl rfl rfl) | split)

theorem closeUnit_evolves {z : State} (f : Flow) (s : State) (h_ : Evolves z s) : Evolves.snd z (closeUnit f s) := by
  unfold closeUnit
  repeat' (first
    | with_reducible assumption | with_reducible apply emitUnit_evolves | with_reducible apply Evolves.mkSnd
    | (with_reducible exact Evolves.same ‹_› rfl rfl rfl rfl rfl) | split)

theorem leaveTs_evolves {z : State} (p : HeldPacket) (t : TsPacket) (f : Flow) (s : State) (h_ : Evolves z s) :
    Evolves.snd z (leaveTs p t f s) := by
  unfold leaveTs
  have hx := applyContinuity_evolves t f s h_
  generalize applyContinuity t f s = x at hx
  obtain ⟨g, u⟩ := x
  dsimp only
  split
  · exact hx
  · exact hx
  · split
    · exact hx
    · exact closeUnit_evolves (loseTail g) u hx
  · split
    · split
      · exact hx
      · exact hx
    · exact hx

theorem leave_evolves {z : State} (p : HeldPacket) (f : Flow) (s : State) (h_ : Evolves z s) :
    Evolves.snd z (leave p f s) := by
  unfold leave
  split
  · have h1 : Evolves.snd z (match f.open_ with
        | some (k, a) =>
          if k = p.rtpTime then (growUnit f p.bytes k a, s)
          else
            let (f, s) := closeUnit (loseTail f) s
            (openUnit f p p.rtpTime none p.bytes, s)
        | none => (openUnit f p p.rtpTime none p.bytes, s)) := by
      split
      · split
        · exact h_
        · exact closeUnit_evolves (loseTail f) s h_
      · exact h_
    dsimp only
    split
    · exact closeUnit_evolves _ _ h1
    · exact h1
  · have hf : ∀ (l : List TsPacket) (x : Flow × State), Evolves z x.2 →
        Evolves.snd z (l.foldl (fun x t => leaveTs p t x.1 x.2) x) := by
      intro l
      induction l with
      | nil => exact fun _ h => h
      | cons t l ih => exact fun x h => ih _ (leaveTs_evolves p t x.1 x.2 h)
    exact hf _ _ h_

theorem emptyOutbox_evolves {z : State} (f : Flow) (s : State) (h_ : Evolves z s) :
    Evolves.snd z (emptyOutbox f s) := by
  have hf : ∀ (l : List (HeldPacket × Bool)) (x : Flow × State), Evolves z x.2 → Evolves.snd z
      (l.foldl (fun x p => leave p.1 { x.1 with lossPending := x.1.lossPending || p.2 } x.2) x) := by
    intro l
    induction l with
    | nil => exact fun _ h => h
    | cons p l ih => exact fun x h => ih _ (leave_evolves p.1 _ x.2 h)
  exact hf f.outbox ({ f with outbox := [] }, s) h_

theorem leaveTo_evolves {z : State} (p : HeldPacket) (f : Flow) (s : State) (h_ : Evolves z s) :
    Evolves.snd z (leaveTo p f s) := by
  unfold leaveTo
  split
  · exact leave_evolves p f s h_
  · exact h_

theorem leaveReady_evolves {z : State} (l : List HeldPacket) (f : Flow) (s : State) (h_ : Evolves z s) :
    Evolves.snd z (leaveReady l f s) := by
  induction l generalizing f s with
  | nil => exact h_
  | cons p l ih =>
    unfold leaveReady
    split
    · exact ih _ _ (leaveTo_evolves _ _ _ h_)
    · exact h_

theorem declareLost_evolves {z : State} (f : Flow) (s : State) (h_ : Evolves z s) : Evolves.snd z (declareLost f s)
    := by
  unfold declareLost
  repeat' (first
    | intro _ | with_reducible assumption | with_reducible apply modIngest_evolves
    | with_reducible apply Evolves.mkSnd | (with_reducible exact Evolves.same ‹_› rfl rfl rfl rfl rfl) | split)

theorem releaseGaps_evolves {z : State} (l : List HeldPacket) (f : Flow) (s : State) (h_ : Evolves z s) :
    Evolves.snd z (releaseGaps l f s) := by
  induction l generalizing f s with
  | nil => exact h_
  | cons p l ih =>
    unfold releaseGaps
    split
    · exact h_
    · split
      · exact h_
      · have hx := declareLost_evolves f s h_
        generalize declareLost f s = x at hx
        obtain ⟨g, u⟩ := x
        exact ih _ _ (leaveReady_evolves g.held g u hx)

theorem dueJitterGapDeadline_evolves {z : State} (flow : Handle) (s : State) (h_ : Evolves z s) :
    Evolves.outcome z (dueJitterGapDeadline flow s) := by
  unfold dueJitterGapDeadline
  repeat' (first
    | intro _ | with_reducible assumption
    | (extract_lets +onlyGivenNames x
       first
       | (refine Evolves.cut (z := z) x ?_ ?_
          rotate_left
          intro _
          clear_value x
          rotate_left
          unfold x
          clear x)
       | clear_value x)
    | with_reducible apply releaseGaps_evolves
    | with_reducible apply setFlow_evolves
    | with_reducible refine Evolves.ofSnd ?_ (by with_reducible assumption)
    | with_reducible refine Evolves.ofOptSnd ?_ (by with_reducible assumption)
    | with_reducible refine Evolves.ofOption ?_ (by with_reducible assumption)
    | with_reducible apply Evolves.some
    | with_reducible apply Evolves.none
    | with_reducible apply Evolves.mkSnd
    | with_reducible apply Evolves.projSnd
    | with_reducible apply Evolves.optSome
    | with_reducible apply Evolves.optNone
    | with_reducible apply Evolves.foldl
    | with_reducible apply Evolves.replyOk
    | with_reducible apply Evolves.replyFail
    | with_reducible apply Evolves.replyCounted
    | with_reducible apply Evolves.replyWait
    | with_reducible apply Evolves.next
    | with_reducible apply Evolves.fault
    | with_reducible apply Evolves.ite
    | (with_reducible exact Evolves.same ‹_› rfl rfl rfl rfl rfl) | split)

theorem flushFlow_evolves {z : State} (v0 : List HeldPacket) (v1 : Flow) (s : State) (h_ : Evolves z s)
    : Evolves.snd z (flushFlow v0 v1 s) := by
  induction v0 generalizing v1 s with
  | nil =>
    unfold flushFlow
    repeat' (first
      | with_reducible assumption
      | (extract_lets +onlyGivenNames x
         first
         | (refine Evolves.cut (z := z) x ?_ ?_
            rotate_left
            intro _
            clear_value x
            rotate_left
            unfold x
            clear x)
         | clear_value x)
      | with_reducible apply closeUnit_evolves | with_reducible apply leave_evolves
      | with_reducible apply declareLost_evolves | with_reducible refine Evolves.ofSnd ?_ (by with_reducible assumption)
      | with_reducible refine Evolves.ofOptSnd ?_ (by with_reducible assumption) | with_reducible apply Evolves.projSnd
      | with_reducible apply Evolves.mkSnd | split)
  | cons y l ih =>
    unfold flushFlow
    repeat' (first
      | with_reducible assumption
      | (extract_lets +onlyGivenNames x
         first
         | (refine Evolves.cut (z := z) x ?_ ?_
            rotate_left
            intro _
            clear_value x
            rotate_left
            unfold x
            clear x)
         | clear_value x)
      | with_reducible apply closeUnit_evolves | with_reducible apply leave_evolves
      | with_reducible apply declareLost_evolves | with_reducible apply ih
      | with_reducible refine Evolves.ofSnd ?_ (by with_reducible assumption)
      | with_reducible refine Evolves.ofOptSnd ?_ (by with_reducible assumption) | with_reducible apply Evolves.projSnd
      | with_reducible apply Evolves.mkSnd | split)

theorem discontinuity_evolves {z : State} (f : Flow) (ssrc : Nat) (s : State) (h_ : Evolves z s) : Evolves.snd z
    (discontinuity f ssrc s) := by
  unfold discontinuity
  have hx := emptyOutbox_evolves f s h_
  generalize emptyOutbox f s = x at hx
  obtain ⟨g, u⟩ := x
  dsimp only
  have hy := flushFlow_evolves g.held g u hx
  generalize flushFlow g.held g u = y at hy
  obtain ⟨k, v⟩ := y
  exact statusPicot_evolves _ _ _ _ _ _ _ _ (modIngest_evolves _ _ _ hy)

theorem admitPacket_evolves {z : State} (f : Flow) (p : HeldPacket) (s : State) (h_ : Evolves z s) : Evolves z
    (admitPacket f p s) := by
  unfold admitPacket
  repeat' (first
    | intro _ | with_reducible assumption
    | (extract_lets +onlyGivenNames x
       first
       | (refine Evolves.cut (z := z) x ?_ ?_
          rotate_left
          intro _
          clear_value x
          rotate_left
          unfold x
          clear x)
       | clear_value x)
    | with_reducible apply modIngest_evolves | with_reducible apply leaveReady_evolves
    | with_reducible apply setFlow_evolves | with_reducible refine Evolves.ofSnd ?_ (by with_reducible assumption)
    | with_reducible refine Evolves.ofOptSnd ?_ (by with_reducible assumption)
    | with_reducible refine Evolves.ofOption ?_ (by with_reducible assumption) | with_reducible apply Evolves.projSnd
    | with_reducible apply Evolves.mkSnd | with_reducible apply Evolves.optSome | with_reducible apply Evolves.optNone
    | (with_reducible exact Evolves.same ‹_› rfl rfl rfl rfl rfl) | split)

theorem tsPacket_evolves {z : State} (f : Flow) (ts : List TsPacket) (pcr : Option Nat) (bytes : Nat) (malformed : Bool) (ingress : CardTime) (s : State) (h_ : Evolves z s) :
    Evolves z (tsPacket f ts pcr bytes malformed ingress s) := by
  unfold tsPacket
  repeat' (first
    | intro _ | with_reducible assumption
    | (extract_lets +onlyGivenNames x
       first
       | (refine Evolves.cut (z := z) x ?_ ?_
          rotate_left
          intro _
          clear_value x
          rotate_left
          unfold x
          clear x)
       | clear_value x)
    | with_reducible apply discard_evolves
    | with_reducible apply admitPacket_evolves
    | with_reducible refine Evolves.ofSnd ?_ (by with_reducible assumption)
    | with_reducible refine Evolves.ofOptSnd ?_ (by with_reducible assumption)
    | with_reducible refine Evolves.ofOption ?_ (by with_reducible assumption)
    | with_reducible apply Evolves.some
    | with_reducible apply Evolves.none
    | with_reducible apply Evolves.mkSnd
    | with_reducible apply Evolves.projSnd
    | with_reducible apply Evolves.optSome
    | with_reducible apply Evolves.optNone
    | with_reducible apply Evolves.foldl
    | with_reducible apply Evolves.replyOk
    | with_reducible apply Evolves.replyFail
    | with_reducible apply Evolves.replyCounted
    | with_reducible apply Evolves.replyWait
    | with_reducible apply Evolves.next
    | with_reducible apply Evolves.fault
    | with_reducible apply Evolves.ite
    | (with_reducible exact Evolves.same ‹_› rfl rfl rfl rfl rfl) | split)

theorem rtpPacket_evolves {z : State} (f : Flow) (p : RtpPacket) (ingress : CardTime) (s : State) (h_ : Evolves z s) :
    Evolves z (rtpPacket f p ingress s) := by
  have rest : ∀ (x : Flow × State), Evolves.snd z x → Evolves z
      (if x.1.req.pt ≠ 0xFF ∧ p.pt ≠ x.1.req.pt then
        discard x.1.req.stream 2 (setFlow { x.1 with ssrc := some p.ssrc } x.2)
      else
        let f := { x.1 with ssrc := some p.ssrc }
        let s := setFlow f x.2
        let seq := extendSeq f.highest p.seq
        if f.lastOut.any fun n => decide (seq ≤ n) then discard f.req.stream 1 s
        else if f.held.any fun q => decide (q.seq = seq) then discard f.req.stream 0 s
        else if f.bufBytes < f.heldBytes + p.bytes then discard f.req.stream 4 s
        else
          admitPacket f
            ⟨seq, ingress, ingress.add (f.req.jitterMs * 1000000), p.bytes, p.timestamp, p.marker, p.ts⟩ s) := by
    intro x hx
    have h2 := fun f => setFlow_evolves (z := z) f x.2 hx
    dsimp only
    split
    · exact discard_evolves _ _ _ (h2 _)
    · split
      · exact discard_evolves _ _ _ (h2 _)
      · split
        · exact discard_evolves _ _ _ (h2 _)
        · split
          · exact discard_evolves _ _ _ (h2 _)
          · exact admitPacket_evolves _ _ _ (h2 _)
  unfold rtpPacket
  split
  · exact discard_evolves _ _ _ h_
  · refine rest (if f.req.key = 2 ∧ f.ssrc.any (· != p.ssrc) then discontinuity f p.ssrc s else (f, s)) ?_
    split
    · exact discontinuity_evolves _ _ _ h_
    · exact h_

theorem modHostPath_evolves {z : State} (port : Nat) (f : Nat × Nat × Nat → Nat × Nat × Nat) (s : State) (h_
    : Evolves z s) : Evolves z (modHostPath port f s) := by
  unfold modHostPath
  repeat' (first
    | intro _ | with_reducible assumption | with_reducible apply State.modCtr_evolves
    | (with_reducible exact Evolves.same ‹_› rfl rfl rfl rfl rfl))

theorem deliverHostPage_evolves {z : State} (p : PageSet) (s : State) (h_ : Evolves z s) :
    Evolves z (deliverHostPage p s) := by
  unfold deliverHostPage
  repeat' (first
    | intro _ | with_reducible assumption
    | (extract_lets +onlyGivenNames x
       first
       | (refine Evolves.cut (z := z) x ?_ ?_
          rotate_left
          intro _
          clear_value x
          rotate_left
          unfold x
          clear x)
       | clear_value x)
    | with_reducible apply sendPage_evolves
    | with_reducible apply State.useFreshN_evolves
    | with_reducible apply setPageSet_evolves
    | with_reducible apply writeDone_evolves
    | with_reducible refine Evolves.ofSnd ?_ (by with_reducible assumption)
    | with_reducible refine Evolves.ofOptSnd ?_ (by with_reducible assumption)
    | with_reducible refine Evolves.ofOption ?_ (by with_reducible assumption)
    | with_reducible apply Evolves.some
    | with_reducible apply Evolves.none
    | with_reducible apply Evolves.mkSnd
    | with_reducible apply Evolves.projSnd
    | with_reducible apply Evolves.optSome
    | with_reducible apply Evolves.optNone
    | with_reducible apply Evolves.foldl
    | with_reducible apply Evolves.replyOk
    | with_reducible apply Evolves.replyFail
    | with_reducible apply Evolves.replyCounted
    | with_reducible apply Evolves.replyWait
    | with_reducible apply Evolves.next
    | with_reducible apply Evolves.fault
    | with_reducible apply Evolves.ite
    | (with_reducible exact Evolves.same ‹_› rfl rfl rfl rfl rfl) | split)

theorem hostDrop_evolves {z : State} (port : Nat) (s : State) (h_ : Evolves z s) :
    Evolves z (hostDrop port s) := by
  unfold hostDrop
  repeat' (first
    | intro _ | with_reducible assumption
    | with_reducible apply modHostPath_evolves
    | with_reducible refine Evolves.ofSnd ?_ (by with_reducible assumption)
    | with_reducible refine Evolves.ofOptSnd ?_ (by with_reducible assumption)
    | with_reducible refine Evolves.ofOption ?_ (by with_reducible assumption)
    | with_reducible apply Evolves.some
    | with_reducible apply Evolves.none
    | with_reducible apply Evolves.mkSnd
    | with_reducible apply Evolves.projSnd
    | with_reducible apply Evolves.optSome
    | with_reducible apply Evolves.optNone
    | with_reducible apply Evolves.foldl
    | with_reducible apply Evolves.replyOk
    | with_reducible apply Evolves.replyFail
    | with_reducible apply Evolves.replyCounted
    | with_reducible apply Evolves.replyWait
    | with_reducible apply Evolves.next
    | with_reducible apply Evolves.fault
    | with_reducible apply Evolves.ite
    | (with_reducible exact Evolves.same ‹_› rfl rfl rfl rfl rfl) | split)

theorem hostPath_evolves {z : State} (f : Frame) (s : State) (h_ : Evolves z s) :
    Evolves z (hostPath f s) := by
  unfold hostPath
  repeat' (first
    | intro _ | with_reducible assumption
    | (extract_lets +onlyGivenNames x
       first
       | (refine Evolves.cut (z := z) x ?_ ?_
          rotate_left
          intro _
          clear_value x
          rotate_left
          unfold x
          clear x)
       | clear_value x)
    | with_reducible apply modHostPath_evolves
    | with_reducible apply hostDrop_evolves
    | with_reducible apply deliverHostPage_evolves
    | with_reducible apply sendPage_evolves
    | with_reducible apply setPageSet_evolves
    | with_reducible refine Evolves.ofSnd ?_ (by with_reducible assumption)
    | with_reducible refine Evolves.ofOptSnd ?_ (by with_reducible assumption)
    | with_reducible refine Evolves.ofOption ?_ (by with_reducible assumption)
    | with_reducible apply Evolves.some
    | with_reducible apply Evolves.none
    | with_reducible apply Evolves.mkSnd
    | with_reducible apply Evolves.projSnd
    | with_reducible apply Evolves.optSome
    | with_reducible apply Evolves.optNone
    | with_reducible apply Evolves.foldl
    | with_reducible apply Evolves.replyOk
    | with_reducible apply Evolves.replyFail
    | with_reducible apply Evolves.replyCounted
    | with_reducible apply Evolves.replyWait
    | with_reducible apply Evolves.next
    | with_reducible apply Evolves.fault
    | with_reducible apply Evolves.ite
    | (with_reducible exact Evolves.same ‹_› rfl rfl rfl rfl rfl) | split)

theorem ptpMessage_evolves {z : State} (f : Frame) (m : PtpMsg) (s : State) (h_ : Evolves z s) :
    Evolves z (ptpMessage f m s) := by
  unfold ptpMessage
  repeat' (first
    | intro _ | with_reducible assumption
    | with_reducible apply hostPath_evolves
    | with_reducible apply servoMessage_evolves
    | with_reducible refine Evolves.ofSnd ?_ (by with_reducible assumption)
    | with_reducible refine Evolves.ofOptSnd ?_ (by with_reducible assumption)
    | with_reducible refine Evolves.ofOption ?_ (by with_reducible assumption)
    | with_reducible apply Evolves.some
    | with_reducible apply Evolves.none
    | with_reducible apply Evolves.mkSnd
    | with_reducible apply Evolves.projSnd
    | with_reducible apply Evolves.optSome
    | with_reducible apply Evolves.optNone
    | with_reducible apply Evolves.foldl
    | with_reducible apply Evolves.replyOk
    | with_reducible apply Evolves.replyFail
    | with_reducible apply Evolves.replyCounted
    | with_reducible apply Evolves.replyWait
    | with_reducible apply Evolves.next
    | with_reducible apply Evolves.fault
    | with_reducible apply Evolves.ite
    | (with_reducible exact Evolves.same ‹_› rfl rfl rfl rfl rfl) | split)

theorem dueCompletionPageFlush_evolves {z : State} (pageSet : Handle) (s : State) (h_ : Evolves z s) :
    Evolves.outcome z (dueCompletionPageFlush pageSet s) := by
  unfold dueCompletionPageFlush
  repeat' (first
    | intro _ | with_reducible assumption
    | with_reducible apply drainEvents_evolves
    | with_reducible apply pumpRecords_evolves
    | with_reducible apply deliverCompletion_evolves
    | with_reducible apply deliverHostPage_evolves
    | with_reducible refine Evolves.ofSnd ?_ (by with_reducible assumption)
    | with_reducible refine Evolves.ofOptSnd ?_ (by with_reducible assumption)
    | with_reducible refine Evolves.ofOption ?_ (by with_reducible assumption)
    | with_reducible apply Evolves.some
    | with_reducible apply Evolves.none
    | with_reducible apply Evolves.mkSnd
    | with_reducible apply Evolves.projSnd
    | with_reducible apply Evolves.optSome
    | with_reducible apply Evolves.optNone
    | with_reducible apply Evolves.foldl
    | with_reducible apply Evolves.replyOk
    | with_reducible apply Evolves.replyFail
    | with_reducible apply Evolves.replyCounted
    | with_reducible apply Evolves.replyWait
    | with_reducible apply Evolves.next
    | with_reducible apply Evolves.fault
    | with_reducible apply Evolves.ite
    | (with_reducible exact Evolves.same ‹_› rfl rfl rfl rfl rfl) | split)

theorem senderReport_evolves {z : State} (flows : List Flow) (ssrc ntpSec ntpFrac rtp : Nat) (s : State) (h_
    : Evolves z s) : Evolves z (senderReport flows ssrc ntpSec ntpFrac rtp s) := by
  unfold senderReport
  repeat' (first
    | intro _ | with_reducible assumption | with_reducible apply modIngest_evolves
    | with_reducible apply setFlow_evolves | with_reducible apply Evolves.foldl
    | (with_reducible exact Evolves.same ‹_› rfl rfl rfl rfl rfl) | split)

theorem plainDatagram_evolves {z : State} (f : Frame) (word : Option Nat) (s : State) (h_ : Evolves z s) :
    Evolves z (plainDatagram f word s) := by
  unfold plainDatagram
  repeat' (first
    | intro _ | with_reducible assumption
    | with_reducible apply hostPath_evolves
    | with_reducible apply discard_evolves
    | with_reducible refine Evolves.ofSnd ?_ (by with_reducible assumption)
    | with_reducible refine Evolves.ofOptSnd ?_ (by with_reducible assumption)
    | with_reducible refine Evolves.ofOption ?_ (by with_reducible assumption)
    | with_reducible apply Evolves.some
    | with_reducible apply Evolves.none
    | with_reducible apply Evolves.mkSnd
    | with_reducible apply Evolves.projSnd
    | with_reducible apply Evolves.optSome
    | with_reducible apply Evolves.optNone
    | with_reducible apply Evolves.foldl
    | with_reducible apply Evolves.replyOk
    | with_reducible apply Evolves.replyFail
    | with_reducible apply Evolves.replyCounted
    | with_reducible apply Evolves.replyWait
    | with_reducible apply Evolves.next
    | with_reducible apply Evolves.fault
    | with_reducible apply Evolves.ite
    | (with_reducible exact Evolves.same ‹_› rfl rfl rfl rfl rfl) | split)

theorem answerQuery_evolves {z : State} (f : Frame) (s : State) (h_ : Evolves z s) :
    Evolves z (answerQuery f s) := by
  unfold answerQuery
  repeat' (first
    | intro _ | with_reducible assumption
    | with_reducible apply hostPath_evolves
    | with_reducible apply State.push_evolves
    | with_reducible refine Evolves.ofSnd ?_ (by with_reducible assumption)
    | with_reducible refine Evolves.ofOptSnd ?_ (by with_reducible assumption)
    | with_reducible refine Evolves.ofOption ?_ (by with_reducible assumption)
    | with_reducible apply Evolves.mkSnd
    | with_reducible apply Evolves.projSnd
    | with_reducible apply Evolves.optSome
    | with_reducible apply Evolves.optNone
    | with_reducible apply Evolves.foldl
    | with_reducible apply Evolves.replyOk
    | with_reducible apply Evolves.replyFail
    | with_reducible apply Evolves.replyCounted
    | with_reducible apply Evolves.replyWait
    | with_reducible apply Evolves.next
    | with_reducible apply Evolves.fault
    | (with_reducible exact Evolves.same ‹_› rfl rfl rfl rfl rfl) | split)

theorem frameFor3_evolves {z : State} (f : Frame) (g : State → State) (s : State)
    (hf : ∀ x0, Evolves z x0 → Evolves z (g x0)) (h_ : Evolves z s) : Evolves z (frameFor3 f g s) :=
  forCore3_evolves _ _ _ hf h_

theorem receive_evolves {z : State} (f : Frame) (s : State) (h_ : Evolves z s) :
    Evolves z (receive f s) := by
  unfold receive
  repeat' (first
    | intro _ | with_reducible assumption
    | with_reducible apply frameFor3_evolves
    | with_reducible apply State.push_evolves
    | with_reducible apply hostPath_evolves
    | with_reducible apply answerQuery_evolves
    | with_reducible apply plainDatagram_evolves
    | with_reducible apply State.modPair_evolves
    | with_reducible apply ptpMessage_evolves
    | with_reducible apply discard_evolves
    | with_reducible apply rtpPacket_evolves
    | with_reducible apply senderReport_evolves
    | with_reducible apply tsPacket_evolves
    | with_reducible refine Evolves.ofSnd ?_ (by with_reducible assumption)
    | with_reducible refine Evolves.ofOptSnd ?_ (by with_reducible assumption)
    | with_reducible refine Evolves.ofOption ?_ (by with_reducible assumption)
    | with_reducible apply Evolves.some
    | with_reducible apply Evolves.none
    | with_reducible apply Evolves.mkSnd
    | with_reducible apply Evolves.projSnd
    | with_reducible apply Evolves.optSome
    | with_reducible apply Evolves.optNone
    | with_reducible apply Evolves.foldl
    | with_reducible apply Evolves.replyOk
    | with_reducible apply Evolves.replyFail
    | with_reducible apply Evolves.replyCounted
    | with_reducible apply Evolves.replyWait
    | with_reducible apply Evolves.next
    | with_reducible apply Evolves.fault
    | with_reducible apply Evolves.ite
    | (with_reducible exact Evolves.same ‹_› rfl rfl rfl rfl rfl) | split)

theorem joinGroup_evolves {z : State} (h : Handle) (q : FlowReq) (s : State) (h_ : Evolves z s) : Evolves z
    (joinGroup h q s) := by
  unfold joinGroup
  repeat' (first
    | intro _ | with_reducible assumption | with_reducible apply State.push_evolves
    | with_reducible apply State.modObj_evolves | (with_reducible exact Evolves.same ‹_› rfl rfl rfl rfl rfl))

theorem leaveGroup_evolves {z : State} (h : Handle) (s : State) (h_ : Evolves z s) : Evolves z (leaveGroup h s) := by
  unfold leaveGroup
  repeat' (first
    | intro _ | with_reducible assumption
    | (extract_lets +onlyGivenNames x
       first
       | (refine Evolves.cut (z := z) x ?_ ?_
          rotate_left
          intro _
          clear_value x
          rotate_left
          unfold x
          clear x)
       | clear_value x)
    | with_reducible apply State.modObj_evolves | with_reducible apply State.push_evolves
    | (with_reducible exact Evolves.same ‹_› rfl rfl rfl rfl rfl) | split)

theorem removeFlow_evolves {z : State} (f : Flow) (s : State) (h_ : Evolves z s) :
    Evolves z (removeFlow f s) := by
  unfold removeFlow
  repeat' (first
    | intro _ | with_reducible assumption
    | (extract_lets +onlyGivenNames x
       first
       | (refine Evolves.cut (z := z) x ?_ ?_
          rotate_left
          intro _
          clear_value x
          rotate_left
          unfold x
          clear x)
       | clear_value x)
    | with_reducible apply emptyOutbox_evolves
    | with_reducible apply flushFlow_evolves
    | with_reducible apply leaveGroup_evolves
    | with_reducible apply State.modObj_evolves
    | with_reducible refine Evolves.ofSnd ?_ (by with_reducible assumption)
    | with_reducible refine Evolves.ofOptSnd ?_ (by with_reducible assumption)
    | with_reducible refine Evolves.ofOption ?_ (by with_reducible assumption)
    | with_reducible apply Evolves.some
    | with_reducible apply Evolves.none
    | with_reducible apply Evolves.mkSnd
    | with_reducible apply Evolves.projSnd
    | with_reducible apply Evolves.optSome
    | with_reducible apply Evolves.optNone
    | with_reducible apply Evolves.foldl
    | with_reducible apply Evolves.replyOk
    | with_reducible apply Evolves.replyFail
    | with_reducible apply Evolves.replyCounted
    | with_reducible apply Evolves.replyWait
    | with_reducible apply Evolves.next
    | with_reducible apply Evolves.fault
    | with_reducible apply Evolves.ite
    | (with_reducible exact Evolves.same ‹_› rfl rfl rfl rfl rfl) | split)

theorem flowRemoveBody_evolves {z : State} (h : Hdr) (q : FlowReq) (s : State) (h_ : Evolves z s) :
    Evolves.reply z (flowRemoveBody h q s) := by
  unfold flowRemoveBody
  repeat' (first
    | intro _ | with_reducible assumption
    | (extract_lets +onlyGivenNames x
       first
       | (refine Evolves.cut (z := z) x ?_ ?_
          rotate_left
          intro _
          clear_value x
          rotate_left
          unfold x
          clear x)
       | clear_value x)
    | with_reducible apply removeFlow_evolves
    | with_reducible refine Evolves.ofSnd ?_ (by with_reducible assumption)
    | with_reducible refine Evolves.ofOptSnd ?_ (by with_reducible assumption)
    | with_reducible refine Evolves.ofOption ?_ (by with_reducible assumption)
    | with_reducible apply Evolves.some
    | with_reducible apply Evolves.none
    | with_reducible apply Evolves.mkSnd
    | with_reducible apply Evolves.projSnd
    | with_reducible apply Evolves.optSome
    | with_reducible apply Evolves.optNone
    | with_reducible apply Evolves.foldl
    | with_reducible apply Evolves.replyOk
    | with_reducible apply Evolves.replyFail
    | with_reducible apply Evolves.replyCounted
    | with_reducible apply Evolves.replyWait
    | with_reducible apply Evolves.next
    | with_reducible apply Evolves.fault
    | with_reducible apply Evolves.ite
    | (with_reducible exact Evolves.same ‹_› rfl rfl rfl rfl rfl) | split)

theorem flowAddBody_evolves {z : State} (h : Hdr) (q : FlowReq) (s : State) (h_ : Evolves z s) : Evolves.reply z
    (flowAddBody h q s) := by
  unfold flowAddBody
  repeat' (first
    | intro _ | with_reducible assumption
    | (extract_lets +onlyGivenNames x
       first
       | (refine Evolves.cut (z := z) x ?_ ?_
          rotate_left
          intro _
          clear_value x
          rotate_left
          unfold x
          clear x)
       | clear_value x)
    | with_reducible apply issued_evolves | with_reducible apply setFlow_evolves
    | with_reducible apply joinGroup_evolves | with_reducible apply Evolves.replyOk
    | with_reducible apply Evolves.replyFail | split)

theorem flowModifyBody_evolves {z : State} (h : Hdr) (q : FlowReq) (s : State) (h_ : Evolves z s) : Evolves.reply z
    (flowModifyBody h q s) := by
  unfold flowModifyBody
  repeat' (first
    | with_reducible assumption
    | (extract_lets +onlyGivenNames x
       first
       | (refine Evolves.cut (z := z) x ?_ ?_
          rotate_left
          intro _
          clear_value x
          rotate_left
          unfold x
          clear x)
       | clear_value x)
    | with_reducible apply setFlow_evolves | with_reducible apply joinGroup_evolves
    | with_reducible apply leaveGroup_evolves | with_reducible apply Evolves.replyOk
    | with_reducible apply Evolves.replyFail | (with_reducible exact Evolves.same ‹_› rfl rfl rfl rfl rfl) | split)

theorem addrAddBody_evolves {z : State} (q : FlowReq) (s : State) (h_ : Evolves z s) : Evolves.reply z
    (addrAddBody q s) := by
  unfold addrAddBody
  repeat' (first
    | intro _ | with_reducible assumption | with_reducible apply State.modObj_evolves
    | with_reducible apply Evolves.replyOk | with_reducible apply Evolves.replyFail
    | (with_reducible exact Evolves.same ‹_› rfl rfl rfl rfl rfl) | split)

theorem addrRemoveBody_evolves {z : State} (q : FlowReq) (s : State) (h_ : Evolves z s) : Evolves.reply z
    (addrRemoveBody q s) := by
  unfold addrRemoveBody
  repeat' (first
    | intro _ | with_reducible assumption
    | (extract_lets +onlyGivenNames x
       first
       | (refine Evolves.cut (z := z) x ?_ ?_
          rotate_left
          intro _
          clear_value x
          rotate_left
          unfold x
          clear x)
       | clear_value x)
    | with_reducible apply State.modObj_evolves | with_reducible apply Evolves.replyOk
    | with_reducible apply Evolves.replyFail | (with_reducible exact Evolves.same ‹_› rfl rfl rfl rfl rfl) | split)

theorem runFlowSetAdd_evolves {z : State} (h : Hdr) (f : FlowReq) (s : State) (h_ : Evolves z s) : Evolves z
    (runFlowSetAdd h f s) := by
  unfold runFlowSetAdd
  repeat' (first
    | with_reducible assumption | with_reducible apply serve_evolves | with_reducible apply flowAddBody_evolves)

theorem runFlowSetModify_evolves {z : State} (h : Hdr) (f : FlowReq) (s : State) (h_ : Evolves z s) : Evolves z
    (runFlowSetModify h f s) := by
  unfold runFlowSetModify
  repeat' (first
    | with_reducible assumption | with_reducible apply serve_evolves | with_reducible apply flowModifyBody_evolves)

theorem runFlowSetRemove_evolves {z : State} (h : Hdr) (f : FlowReq) (s : State) (h_ : Evolves z s) : Evolves z
    (runFlowSetRemove h f s) := by
  unfold runFlowSetRemove
  repeat' (first
    | with_reducible assumption | with_reducible apply serve_evolves | with_reducible apply flowRemoveBody_evolves)

theorem runFlowSetAddrAdd_evolves {z : State} (h : Hdr) (f : FlowReq) (s : State) (h_ : Evolves z s) : Evolves z
    (runFlowSetAddrAdd h f s) := by
  unfold runFlowSetAddrAdd
  repeat' (first
    | with_reducible assumption | with_reducible apply serve_evolves | with_reducible apply addrAddBody_evolves)

theorem runFlowSetAddrRemove_evolves {z : State} (h : Hdr) (f : FlowReq) (s : State) (h_ : Evolves z s) : Evolves z
    (runFlowSetAddrRemove h f s) := by
  unfold runFlowSetAddrRemove
  repeat' (first
    | with_reducible assumption | with_reducible apply serve_evolves | with_reducible apply addrRemoveBody_evolves)

theorem useUnit_evolves {z : State} (h : Handle) (s : State) (h_ : Evolves z s) : Evolves z (useUnit h s) := by
  unfold useUnit
  repeat' (first
    | intro _ | with_reducible assumption | with_reducible apply modIngest_evolves
    | (with_reducible exact Evolves.same ‹_› rfl rfl rfl rfl rfl))

theorem parseRecords_evolves {z : State} (h : Handle) (times : List (Nat × CardTime)) (n : Nat) (bs : List Byte)
    (scan : Bool) (s : State) (h_ : Evolves z s) : Evolves z (parseRecords h times n bs scan s).2.2 := by
  induction n generalizing bs scan s with
  | zero => exact h_
  | succ n ih =>
    unfold parseRecords
    split
    · split
      · exact h_
      · exact ih _ _ _ h_
    · split
      · exact h_
      · dsimp only
        split
        · exact ih _ _ _ (discard_evolves _ _ _ h_)
        · split
          · exact h_
          · split
            · exact ih _ _ _ (discard_evolves _ _ _ h_)
            · exact ih _ _ _ (discard_evolves _ _ _ h_)
            · refine ih _ _ _ ?_
              have hu := useUnit_evolves (z := z) h s h_
              split
              · exact emitUnit_evolves _ _ _ hu
              · split
                · exact modStream_evolves _ _ _ hu
                · exact hu

theorem feedUnit_evolves {z : State} (f : FeedReq) (times : List (Nat × CardTime)) (s : State) (u : FeedUnit) (h_ : Evolves z s) :
    Evolves z (feedUnit f times s u) := by
  unfold feedUnit
  repeat' (first
    | intro _ | with_reducible assumption
    | (extract_lets +onlyGivenNames x
       first
       | (refine Evolves.cut (z := z) x ?_ ?_
          rotate_left
          intro _
          clear_value x
          rotate_left
          unfold x
          clear x)
       | clear_value x)
    | with_reducible apply discard_evolves
    | with_reducible apply modIngest_evolves
    | with_reducible apply useUnit_evolves
    | with_reducible apply emitUnit_evolves
    | with_reducible refine Evolves.ofSnd ?_ (by with_reducible assumption)
    | with_reducible refine Evolves.ofOptSnd ?_ (by with_reducible assumption)
    | with_reducible refine Evolves.ofOption ?_ (by with_reducible assumption)
    | with_reducible apply Evolves.mkSnd
    | with_reducible apply Evolves.projSnd
    | with_reducible apply Evolves.optSome
    | with_reducible apply Evolves.optNone
    | with_reducible apply Evolves.foldl
    | with_reducible apply Evolves.replyOk
    | with_reducible apply Evolves.replyFail
    | with_reducible apply Evolves.replyCounted
    | with_reducible apply Evolves.replyWait
    | with_reducible apply Evolves.next
    | with_reducible apply Evolves.fault
    | (with_reducible exact Evolves.same ‹_› rfl rfl rfl rfl rfl) | split)

theorem feedDone_evolves {z : State} (h : Hdr) (f : FeedReq) (data : List Byte) (times : List (Nat × CardTime)) (units : List FeedUnit) (s : State) (h_ : Evolves z s) :
    Evolves z (feedDone h f data times units s) := by
  unfold feedDone
  repeat' (first
    | intro _ | with_reducible assumption
    | (extract_lets +onlyGivenNames x
       first
       | (refine Evolves.cut (z := z) x ?_ ?_
          rotate_left
          intro _
          clear_value x
          rotate_left
          unfold x
          clear x)
       | clear_value x)
    | with_reducible apply modStream_evolves
    | with_reducible apply parseRecords_evolves
    | with_reducible apply feedUnit_evolves
    | with_reducible apply answer_evolves
    | with_reducible refine Evolves.ofSnd ?_ (by with_reducible assumption)
    | with_reducible refine Evolves.ofOptSnd ?_ (by with_reducible assumption)
    | with_reducible refine Evolves.ofOption ?_ (by with_reducible assumption)
    | with_reducible apply Evolves.mkSnd
    | with_reducible apply Evolves.projSnd
    | with_reducible apply Evolves.optSome
    | with_reducible apply Evolves.optNone
    | with_reducible apply Evolves.foldl
    | with_reducible apply Evolves.replyOk
    | with_reducible apply Evolves.replyFail
    | with_reducible apply Evolves.replyCounted
    | with_reducible apply Evolves.replyWait
    | with_reducible apply Evolves.next
    | with_reducible apply Evolves.fault
    | (with_reducible exact Evolves.same ‹_› rfl rfl rfl rfl rfl) | split)

theorem feedWaits_evolves {z : State} (h : Hdr) (f : FeedReq) (data : Option (List Byte)) (units : List FeedUnit) (s : State) (h_ : Evolves z s) :
    Evolves z (feedWaits h f data units s) := by
  unfold feedWaits
  repeat' (first
    | intro _ | with_reducible assumption
    | (extract_lets +onlyGivenNames x
       first
       | (refine Evolves.cut (z := z) x ?_ ?_
          rotate_left
          intro _
          clear_value x
          rotate_left
          unfold x
          clear x)
       | clear_value x)
    | with_reducible apply setLong_evolves
    | with_reducible apply startReads_evolves
    | with_reducible refine Evolves.ofSnd ?_ (by with_reducible assumption)
    | with_reducible refine Evolves.ofOptSnd ?_ (by with_reducible assumption)
    | with_reducible refine Evolves.ofOption ?_ (by with_reducible assumption)
    | with_reducible apply Evolves.mkSnd
    | with_reducible apply Evolves.projSnd
    | with_reducible apply Evolves.optSome
    | with_reducible apply Evolves.optNone
    | with_reducible apply Evolves.foldl
    | with_reducible apply Evolves.replyOk
    | with_reducible apply Evolves.replyFail
    | with_reducible apply Evolves.replyCounted
    | with_reducible apply Evolves.replyWait
    | with_reducible apply Evolves.next
    | with_reducible apply Evolves.fault
    | (with_reducible exact Evolves.same ‹_› rfl rfl rfl rfl rfl) | split)

theorem feedStart_evolves {z : State} (h : Hdr) (f : FeedReq) (data : Option (List Byte)) (units : List FeedUnit) (s : State) (h_ : Evolves z s) :
    Evolves z (feedStart h f data units s) := by
  unfold feedStart
  repeat' (first
    | intro _ | with_reducible assumption
    | with_reducible apply feedDone_evolves
    | with_reducible apply instantReads_evolves
    | with_reducible apply feedWaits_evolves
    | with_reducible refine Evolves.ofSnd ?_ (by with_reducible assumption)
    | with_reducible refine Evolves.ofOptSnd ?_ (by with_reducible assumption)
    | with_reducible refine Evolves.ofOption ?_ (by with_reducible assumption)
    | with_reducible apply Evolves.mkSnd
    | with_reducible apply Evolves.projSnd
    | with_reducible apply Evolves.optSome
    | with_reducible apply Evolves.optNone
    | with_reducible apply Evolves.foldl
    | with_reducible apply Evolves.replyOk
    | with_reducible apply Evolves.replyFail
    | with_reducible apply Evolves.replyCounted
    | with_reducible apply Evolves.replyWait
    | with_reducible apply Evolves.next
    | with_reducible apply Evolves.fault
    | (with_reducible exact Evolves.same ‹_› rfl rfl rfl rfl rfl) | split)

theorem feedRetry_evolves {z : State} (stream : Handle) (s : State) (h_ : Evolves z s) : Evolves z
    (feedRetry stream s) := by
  unfold feedRetry
  repeat' (first
    | intro _ | with_reducible assumption | with_reducible apply feedStart_evolves | split)

theorem streamFeedBody_evolves {z : State} (h : Hdr) (f : FeedReq) (data : Option (List Byte)) (units
    : List FeedUnit) (s : State) (h_ : Evolves z s) : Evolves.reply z (streamFeedBody h f data units s) := by
  unfold streamFeedBody
  repeat' (first
    | with_reducible assumption
    | (extract_lets +onlyGivenNames x
       first
       | (refine Evolves.cut (z := z) x ?_ ?_
          rotate_left
          intro _
          clear_value x
          rotate_left
          unfold x
          clear x)
       | clear_value x)
    | with_reducible apply startLong_evolves | with_reducible apply feedStart_evolves
    | with_reducible apply Evolves.replyFail | with_reducible apply Evolves.replyWait | split)

theorem runStreamFeed_evolves {z : State} (h : Hdr) (f : FeedReq) (data : Option (List Byte)) (units
    : List FeedUnit) (s : State) (h_ : Evolves z s) : Evolves z (runStreamFeed h f data units s) := by
  unfold runStreamFeed
  repeat' (first
    | with_reducible assumption | with_reducible apply serve_evolves | with_reducible apply streamFeedBody_evolves)

theorem dueStreamFeedTimeout_evolves {z : State} (stream : Handle) (s : State) (h_ : Evolves z s) :
    Evolves.outcome z (dueStreamFeedTimeout stream s) := by
  unfold dueStreamFeedTimeout
  repeat' (first
    | intro _ | with_reducible assumption
    | with_reducible apply answer_evolves
    | with_reducible refine Evolves.ofSnd ?_ (by with_reducible assumption)
    | with_reducible refine Evolves.ofOptSnd ?_ (by with_reducible assumption)
    | with_reducible refine Evolves.ofOption ?_ (by with_reducible assumption)
    | with_reducible apply Evolves.mkSnd
    | with_reducible apply Evolves.projSnd
    | with_reducible apply Evolves.optSome
    | with_reducible apply Evolves.optNone
    | with_reducible apply Evolves.foldl
    | with_reducible apply Evolves.replyOk
    | with_reducible apply Evolves.replyFail
    | with_reducible apply Evolves.replyCounted
    | with_reducible apply Evolves.replyWait
    | with_reducible apply Evolves.next
    | with_reducible apply Evolves.fault
    | (with_reducible exact Evolves.same ‹_› rfl rfl rfl rfl rfl) | split)

end Sys2Proof.Machine
end

