-- ==== Sys2Proof/Laws/EvolveVideo.lean ====
section
/-! SUPPORT. What the operations of Sys2Proof.Machine.Video never undo. -/

namespace Sys2Proof.Machine

theorem takeBufs_evolves {z : State} (pool : Handle) (n : Nat) (acc : List BufRef) (s : State) (h_ : Evolves z s) :
    Evolves.snd z (takeBufs pool n acc s) := by
  induction n generalizing acc s with
  | zero => exact h_
  | succ n ih =>
    unfold takeBufs
    split
    · exact h_
    · exact ih _ _ (takeBuf_evolves _ _ _ _ h_)

theorem encodeOpenBody_evolves {z : State} (h : Hdr) (d : EncodeDecl) (s : State) (h_ : Evolves z s) :
    Evolves.reply z (encodeOpenBody h d s) := by
  unfold encodeOpenBody
  repeat' (first
    | intro _ | with_reducible assumption
    | (extract_lets +onlyGivenNames x
       first
       | (refine Evolves.cut (z := z) x ?_ ?_
          rotate_left
          intro _
          clear_value x
          rotate_left
          unfold x
          clear x)
       | clear_value x)
    | with_reducible apply countNoSpace_evolves
    | with_reducible apply takeBufs_evolves
    | with_reducible apply issued_evolves
    | with_reducible apply State.modObj_evolves
    | with_reducible refine Evolves.ofSnd ?_ (by with_reducible assumption)
    | with_reducible refine Evolves.ofOptSnd ?_ (by with_reducible assumption)
    | with_reducible refine Evolves.ofOption ?_ (by with_reducible assumption)
    | with_reducible apply Evolves.some
    | with_reducible apply Evolves.none
    | with_reducible apply Evolves.mkSnd
    | with_reducible apply Evolves.projSnd
    | with_reducible apply Evolves.optSome
    | with_reducible apply Evolves.optNone
    | with_reducible apply Evolves.foldl
    | with_reducible apply Evolves.replyOk
    | with_reducible apply Evolves.replyFail
    | with_reducible apply Evolves.replyCounted
    | with_reducible apply Evolves.replyWait
    | with_reducible apply Evolves.next
    | with_reducible apply Evolves.fault
    | (with_reducible exact Evolves.same ‹_› rfl rfl rfl rfl rfl) | split)

theorem streamOpenBody_evolves {z : State} (h : Hdr) (d : DecodeDecl) (outs : List OutputDesc) (s : State) (h_ : Evolves z s) :
    Evolves.reply z (streamOpenBody h d outs s) := by
  unfold streamOpenBody
  repeat' (first
    | intro _ | with_reducible assumption
    | (extract_lets +onlyGivenNames x
       first
       | (refine Evolves.cut (z := z) x ?_ ?_
          rotate_left
          intro _
          clear_value x
          rotate_left
          unfold x
          clear x)
       | clear_value x)
    | with_reducible apply countNoSpace_evolves
    | with_reducible apply takeBufs_evolves
    | with_reducible apply issued_evolves
    | with_reducible apply State.modObj_evolves
    | with_reducible refine Evolves.ofSnd ?_ (by with_reducible assumption)
    | with_reducible refine Evolves.ofOptSnd ?_ (by with_reducible assumption)
    | with_reducible refine Evolves.ofOption ?_ (by with_reducible assumption)
    | with_reducible apply Evolves.some
    | with_reducible apply Evolves.none
    | with_reducible apply Evolves.mkSnd
    | with_reducible apply Evolves.projSnd
    | with_reducible apply Evolves.optSome
    | with_reducible apply Evolves.optNone
    | with_reducible apply Evolves.foldl
    | with_reducible apply Evolves.replyOk
    | with_reducible apply Evolves.replyFail
    | with_reducible apply Evolves.replyCounted
    | with_reducible apply Evolves.replyWait
    | with_reducible apply Evolves.next
    | with_reducible apply Evolves.fault
    | (with_reducible exact Evolves.same ‹_› rfl rfl rfl rfl rfl) | split)

theorem skipPicture_evolves {z : State} (h : Handle) (frame slot reason detail : Nat) (capture : CardTime)
    (estimated : Bool) (s : State) (h_ : Evolves z s) : Evolves z
    (skipPicture h frame slot reason detail capture estimated s) := by
  unfold skipPicture
  repeat' (first
    | intro _ | with_reducible assumption
    | (extract_lets +onlyGivenNames x
       first
       | (refine Evolves.cut (z := z) x ?_ ?_
          rotate_left
          intro _
          clear_value x
          rotate_left
          unfold x
          clear x)
       | clear_value x)
    | with_reducible apply modStream_evolves | with_reducible apply statusPicot_evolves
    | with_reducible apply closeFrame_evolves | (with_reducible exact Evolves.same ‹_› rfl rfl rfl rfl rfl) | split)

theorem resumeDecoding_evolves {z : State} (h : Handle) (frame : Nat) (capture : CardTime) (estimated : Bool) (s
    : State) (h_ : Evolves z s) : Evolves z (resumeDecoding h frame capture estimated s) := by
  unfold resumeDecoding
  repeat' (first
    | intro _ | with_reducible assumption
    | (extract_lets +onlyGivenNames x
       first
       | (refine Evolves.cut (z := z) x ?_ ?_
          rotate_left
          intro _
          clear_value x
          rotate_left
          unfold x
          clear x)
       | clear_value x)
    | with_reducible apply statusPicot_evolves | with_reducible apply modStream_evolves
    | (with_reducible exact Evolves.same ‹_› rfl rfl rfl rfl rfl) | split)

theorem writePlane_evolves {z : State} (base pitch y : Nat) (rows : List (List Byte)) (s : State) (h_ : Evolves z s) :
    Evolves z (writePlane base pitch y rows s) := by
  induction rows generalizing y s with
  | nil => exact h_
  | cons r rows ih => exact ih _ _ (hubStore_evolves _ _ _ (State.useFreshN_evolves _ _ h_))

theorem putRows_evolves {z : State} (x : Stream) (p : Picture) (luma chroma : List (List Byte)) (s : State) (h_ : Evolves z s) :
    Evolves z (putRows x p luma chroma s) := by
  unfold putRows
  repeat' (first
    | intro _ | with_reducible assumption
    | (extract_lets +onlyGivenNames x
       first
       | (refine Evolves.cut (z := z) x ?_ ?_
          rotate_left
          intro _
          clear_value x
          rotate_left
          unfold x
          clear x)
       | clear_value x)
    | with_reducible apply writePlane_evolves
    | with_reducible apply modPicture_evolves
    | with_reducible refine Evolves.ofSnd ?_ (by with_reducible assumption)
    | with_reducible refine Evolves.ofOptSnd ?_ (by with_reducible assumption)
    | with_reducible refine Evolves.ofOption ?_ (by with_reducible assumption)
    | with_reducible apply Evolves.some
    | with_reducible apply Evolves.none
    | with_reducible apply Evolves.mkSnd
    | with_reducible apply Evolves.projSnd
    | with_reducible apply Evolves.optSome
    | with_reducible apply Evolves.optNone
    | with_reducible apply Evolves.foldl
    | with_reducible apply Evolves.replyOk
    | with_reducible apply Evolves.replyFail
    | with_reducible apply Evolves.replyCounted
    | with_reducible apply Evolves.replyWait
    | with_reducible apply Evolves.next
    | with_reducible apply Evolves.fault
    | (with_reducible exact Evolves.same ‹_› rfl rfl rfl rfl rfl) | split)

theorem dropPicture_evolves {z : State} (h : Handle) (p : Picture) (reason : Nat) (s : State) (h_ : Evolves z s)
    : Evolves z (dropPicture h p reason s) := by
  unfold dropPicture
  repeat' (first
    | intro _ | with_reducible assumption
    | (extract_lets +onlyGivenNames x
       first
       | (refine Evolves.cut (z := z) x ?_ ?_
          rotate_left
          intro _
          clear_value x
          rotate_left
          unfold x
          clear x)
       | clear_value x)
    | with_reducible apply modStream_evolves | with_reducible apply closeFrame_evolves
    | (with_reducible exact Evolves.same ‹_› rfl rfl rfl rfl rfl) | split)

theorem countForwarded_evolves {z : State} (h : Handle) (s : State) (h_ : Evolves z s) : Evolves z
    (countForwarded h s) := by
  unfold countForwarded
  repeat' (first
    | intro _ | with_reducible assumption | with_reducible apply modStream_evolves
    | (with_reducible exact Evolves.same ‹_› rfl rfl rfl rfl rfl))

theorem enterRing_evolves {z : State} (h : Handle) (p : Picture) (s : State) (h_ : Evolves z s) : Evolves z
    (enterRing h p s) := by
  unfold enterRing
  repeat' (first
    | intro _ | with_reducible assumption
    | (extract_lets +onlyGivenNames x
       first
       | (refine Evolves.cut (z := z) x ?_ ?_
          rotate_left
          intro _
          clear_value x
          rotate_left
          unfold x
          clear x)
       | clear_value x)
    | with_reducible apply modPicture_evolves | with_reducible apply dropPicture_evolves
    | (with_reducible exact Evolves.same ‹_› rfl rfl rfl rfl rfl) | split)

theorem outputPictures_evolves {z : State} (h : Handle) (bound : Option Nat) (v0 : Nat) (s : State) (h_ : Evolves z s) :
    Evolves z (outputPictures h bound v0 s) := by
  induction v0 generalizing s with
  | zero =>
    unfold outputPictures
    repeat' (first
      | intro _ | with_reducible assumption
      | (extract_lets +onlyGivenNames x
         first
         | (refine Evolves.cut (z := z) x ?_ ?_
            rotate_left
            intro _
            clear_value x
            rotate_left
            unfold x
            clear x)
         | clear_value x)
      | with_reducible apply enterRing_evolves
      | with_reducible apply forwardPicture_evolves
      | with_reducible refine Evolves.ofSnd ?_ (by with_reducible assumption)
      | with_reducible refine Evolves.ofOptSnd ?_ (by with_reducible assumption)
      | with_reducible refine Evolves.ofOption ?_ (by with_reducible assumption)
      | with_reducible apply Evolves.some
      | with_reducible apply Evolves.none
      | with_reducible apply Evolves.mkSnd
      | with_reducible apply Evolves.projSnd
      | with_reducible apply Evolves.optSome
      | with_reducible apply Evolves.optNone
      | with_reducible apply Evolves.foldl
      | with_reducible apply Evolves.replyOk
      | with_reducible apply Evolves.replyFail
      | with_reducible apply Evolves.replyCounted
      | with_reducible apply Evolves.replyWait
      | with_reducible apply Evolves.next
      | with_reducible apply Evolves.fault
      | with_reducible apply Evolves.ite
      | (with_reducible exact Evolves.same ‹_› rfl rfl rfl rfl rfl) | split)
  | succ n ih =>
    unfold outputPictures
    repeat' (first
      | intro _ | with_reducible assumption | with_reducible apply ih
      | (extract_lets +onlyGivenNames x
         first
         | (refine Evolves.cut (z := z) x ?_ ?_
            rotate_left
            intro _
            clear_value x
            rotate_left
            unfold x
            clear x)
         | clear_value x)
      | with_reducible apply enterRing_evolves
      | with_reducible apply forwardPicture_evolves
      | with_reducible refine Evolves.ofSnd ?_ (by with_reducible assumption)
      | with_reducible refine Evolves.ofOptSnd ?_ (by with_reducible assumption)
      | with_reducible refine Evolves.ofOption ?_ (by with_reducible assumption)
      | with_reducible apply Evolves.some
      | with_reducible apply Evolves.none
      | with_reducible apply Evolves.mkSnd
      | with_reducible apply Evolves.projSnd
      | with_reducible apply Evolves.optSome
      | with_reducible apply Evolves.optNone
      | with_reducible apply Evolves.foldl
      | with_reducible apply Evolves.replyOk
      | with_reducible apply Evolves.replyFail
      | with_reducible apply Evolves.replyCounted
      | with_reducible apply Evolves.replyWait
      | with_reducible apply Evolves.next
      | with_reducible apply Evolves.fault
      | with_reducible apply Evolves.ite
      | (with_reducible exact Evolves.same ‹_› rfl rfl rfl rfl rfl) | split)

theorem showExisting_evolves {z : State} (h : Handle) (x : Stream) (base : Picture) (shown : Nat) (s : State) (h_ : Evolves z s) :
    Evolves z (showExisting h x base shown s) := by
  unfold showExisting
  repeat' (first
    | intro _ | with_reducible assumption
    | (extract_lets +onlyGivenNames x
       first
       | (refine Evolves.cut (z := z) x ?_ ?_
          rotate_left
          intro _
          clear_value x
          rotate_left
          unfold x
          clear x)
       | clear_value x)
    | with_reducible apply modStream_evolves
    | with_reducible apply dropPicture_evolves
    | with_reducible apply putRows_evolves
    | with_reducible apply enterRing_evolves
    | with_reducible apply outputPictures_evolves
    | with_reducible apply modPicture_evolves
    | with_reducible apply countForwarded_evolves
    | with_reducible refine Evolves.ofSnd ?_ (by with_reducible assumption)
    | with_reducible refine Evolves.ofOptSnd ?_ (by with_reducible assumption)
    | with_reducible refine Evolves.ofOption ?_ (by with_reducible assumption)
    | with_reducible apply Evolves.some
    | with_reducible apply Evolves.none
    | with_reducible apply Evolves.mkSnd
    | with_reducible apply Evolves.projSnd
    | with_reducible apply Evolves.optSome
    | with_reducible apply Evolves.optNone
    | with_reducible apply Evolves.foldl
    | with_reducible apply Evolves.replyOk
    | with_reducible apply Evolves.replyFail
    | with_reducible apply Evolves.replyCounted
    | with_reducible apply Evolves.replyWait
    | with_reducible apply Evolves.next
    | with_reducible apply Evolves.fault
    | with_reducible apply Evolves.ite
    | (with_reducible exact Evolves.same ‹_› rfl rfl rfl rfl rfl) | split)

theorem kickFrom_evolves {z : State} (h : Handle) (v0 : Nat) (s : State) (h_ : Evolves z s) :
    Evolves z (kickFrom h v0 s) := by
  induction v0 generalizing s with
  | zero =>
    unfold kickFrom
    repeat' (first
      | intro _ | with_reducible assumption
      | (extract_lets +onlyGivenNames x
         first
         | (refine Evolves.cut (z := z) x ?_ ?_
            rotate_left
            intro _
            clear_value x
            rotate_left
            unfold x
            clear x)
         | clear_value x)
      | with_reducible apply releasePictures_evolves
      | with_reducible apply readyEncodes_evolves
      | with_reducible apply showExisting_evolves
      | with_reducible apply modPicture_evolves
      | with_reducible refine Evolves.ofSnd ?_ (by with_reducible assumption)
      | with_reducible refine Evolves.ofOptSnd ?_ (by with_reducible assumption)
      | with_reducible refine Evolves.ofOption ?_ (by with_reducible assumption)
      | with_reducible apply Evolves.some
      | with_reducible apply Evolves.none
      | with_reducible apply Evolves.mkSnd
      | with_reducible apply Evolves.projSnd
      | with_reducible apply Evolves.optSome
      | with_reducible apply Evolves.optNone
      | with_reducible apply Evolves.foldl
      | with_reducible apply Evolves.replyOk
      | with_reducible apply Evolves.replyFail
      | with_reducible apply Evolves.replyCounted
      | with_reducible apply Evolves.replyWait
      | with_reducible apply Evolves.next
      | with_reducible apply Evolves.fault
      | with_reducible apply Evolves.ite
      | (refine Evolves.videoSame _ ?_ (fun h => h))
      | (with_reducible exact Evolves.same ‹_› rfl rfl rfl rfl rfl) | split)
  | succ n ih =>
    unfold kickFrom
    repeat' (first
      | intro _ | with_reducible assumption | with_reducible apply ih
      | (extract_lets +onlyGivenNames x
         first
         | (refine Evolves.cut (z := z) x ?_ ?_
            rotate_left
            intro _
            clear_value x
            rotate_left
            unfold x
            clear x)
         | clear_value x)
      | with_reducible apply releasePictures_evolves
      | with_reducible apply readyEncodes_evolves
      | with_reducible apply showExisting_evolves
      | with_reducible apply modPicture_evolves
      | with_reducible refine Evolves.ofSnd ?_ (by with_reducible assumption)
      | with_reducible refine Evolves.ofOptSnd ?_ (by with_reducible assumption)
      | with_reducible refine Evolves.ofOption ?_ (by with_reducible assumption)
      | with_reducible apply Evolves.some
      | with_reducible apply Evolves.none
      | with_reducible apply Evolves.mkSnd
      | with_reducible apply Evolves.projSnd
      | with_reducible apply Evolves.optSome
      | with_reducible apply Evolves.optNone
      | with_reducible apply Evolves.foldl
      | with_reducible apply Evolves.replyOk
      | with_reducible apply Evolves.replyFail
      | with_reducible apply Evolves.replyCounted
      | with_reducible apply Evolves.replyWait
      | with_reducible apply Evolves.next
      | with_reducible apply Evolves.fault
      | with_reducible apply Evolves.ite
      | (refine Evolves.videoSame _ ?_ (fun h => h))
      | (with_reducible exact Evolves.same ‹_› rfl rfl rfl rfl rfl) | split)

theorem kick_evolves {z : State} (h : Handle) (s : State) (h_ : Evolves z s) :
    Evolves z (kick h s) := by
  unfold kick
  repeat' (first
    | intro _ | with_reducible assumption
    | with_reducible apply kickFrom_evolves
    | with_reducible refine Evolves.ofSnd ?_ (by with_reducible assumption)
    | with_reducible refine Evolves.ofOptSnd ?_ (by with_reducible assumption)
    | with_reducible refine Evolves.ofOption ?_ (by with_reducible assumption)
    | with_reducible apply Evolves.some
    | with_reducible apply Evolves.none
    | with_reducible apply Evolves.mkSnd
    | with_reducible apply Evolves.projSnd
    | with_reducible apply Evolves.optSome
    | with_reducible apply Evolves.optNone
    | with_reducible apply Evolves.foldl
    | with_reducible apply Evolves.replyOk
    | with_reducible apply Evolves.replyFail
    | with_reducible apply Evolves.replyCounted
    | with_reducible apply Evolves.replyWait
    | with_reducible apply Evolves.next
    | with_reducible apply Evolves.fault
    | with_reducible apply Evolves.ite
    | (with_reducible exact Evolves.same ‹_› rfl rfl rfl rfl rfl) | split)

theorem losePicture_evolves {z : State} (h : Handle) (s : State) (h_ : Evolves z s) :
    Evolves z (losePicture h s) := by
  unfold losePicture
  repeat' (first
    | intro _ | with_reducible assumption
    | (extract_lets +onlyGivenNames x
       first
       | (refine Evolves.cut (z := z) x ?_ ?_
          rotate_left
          intro _
          clear_value x
          rotate_left
          unfold x
          clear x)
       | clear_value x)
    | with_reducible apply modStream_evolves
    | with_reducible apply State.modEng_evolves
    | with_reducible apply modPicture_evolves
    | with_reducible apply markItems_evolves
    | with_reducible apply putRows_evolves
    | with_reducible apply statusPicot_evolves
    | with_reducible apply kick_evolves
    | with_reducible apply releasePictures_evolves
    | with_reducible apply readyEncodes_evolves
    | with_reducible apply closeFrame_evolves
    | with_reducible refine Evolves.ofSnd ?_ (by with_reducible assumption)
    | with_reducible refine Evolves.ofOptSnd ?_ (by with_reducible assumption)
    | with_reducible refine Evolves.ofOption ?_ (by with_reducible assumption)
    | with_reducible apply Evolves.some
    | with_reducible apply Evolves.none
    | with_reducible apply Evolves.mkSnd
    | with_reducible apply Evolves.projSnd
    | with_reducible apply Evolves.optSome
    | with_reducible apply Evolves.optNone
    | with_reducible apply Evolves.foldl
    | with_reducible apply Evolves.replyOk
    | with_reducible apply Evolves.replyFail
    | with_reducible apply Evolves.replyCounted
    | with_reducible apply Evolves.replyWait
    | with_reducible apply Evolves.next
    | with_reducible apply Evolves.fault
    | with_reducible apply Evolves.ite
    | (with_reducible exact Evolves.same ‹_› rfl rfl rfl rfl rfl) | split)

theorem openSlot_evolves {z : State} (x : Stream) (slot : Option Nat) (s : State) (h_ : Evolves z s) :
    Evolves z (openSlot x slot s) := by
  unfold openSlot
  repeat' (first
    | intro _ | with_reducible assumption
    | with_reducible apply loseAreas_evolves
    | with_reducible refine Evolves.ofSnd ?_ (by with_reducible assumption)
    | with_reducible refine Evolves.ofOptSnd ?_ (by with_reducible assumption)
    | with_reducible refine Evolves.ofOption ?_ (by with_reducible assumption)
    | with_reducible apply Evolves.mkSnd
    | with_reducible apply Evolves.projSnd
    | with_reducible apply Evolves.optSome
    | with_reducible apply Evolves.optNone
    | with_reducible apply Evolves.foldl
    | with_reducible apply Evolves.replyOk
    | with_reducible apply Evolves.replyFail
    | with_reducible apply Evolves.replyCounted
    | with_reducible apply Evolves.replyWait
    | with_reducible apply Evolves.next
    | with_reducible apply Evolves.fault
    | (with_reducible exact Evolves.same ‹_› rfl rfl rfl rfl rfl) | split)

theorem firstSlice_evolves {z : State} (x : Stream) (a : AccessUnit) (p : SliceParse) (s : State) (h_ : Evolves z s) :
    Evolves z (firstSlice x a p s) := by
  unfold firstSlice
  repeat' (first
    | intro _ | with_reducible assumption
    | (extract_lets +onlyGivenNames x
       first
       | (refine Evolves.cut (z := z) x ?_ ?_
          rotate_left
          intro _
          clear_value x
          rotate_left
          unfold x
          clear x)
       | clear_value x)
    | with_reducible apply modStream_evolves
    | with_reducible apply skipPicture_evolves
    | with_reducible apply resumeDecoding_evolves
    | with_reducible apply statusPicot_evolves
    | with_reducible apply kick_evolves
    | with_reducible refine Evolves.ofSnd ?_ (by with_reducible assumption)
    | with_reducible refine Evolves.ofOptSnd ?_ (by with_reducible assumption)
    | with_reducible refine Evolves.ofOption ?_ (by with_reducible assumption)
    | with_reducible apply Evolves.some
    | with_reducible apply Evolves.none
    | with_reducible apply Evolves.mkSnd
    | with_reducible apply Evolves.projSnd
    | with_reducible apply Evolves.optSome
    | with_reducible apply Evolves.optNone
    | with_reducible apply Evolves.foldl
    | with_reducible apply Evolves.replyOk
    | with_reducible apply Evolves.replyFail
    | with_reducible apply Evolves.replyCounted
    | with_reducible apply Evolves.replyWait
    | with_reducible apply Evolves.next
    | with_reducible apply Evolves.fault
    | with_reducible apply Evolves.ite
    | (with_reducible exact Evolves.same ‹_› rfl rfl rfl rfl rfl) | split)

theorem freeEngine_evolves {z : State} (p : Picture) (how : PicEnd) (s : State) (h_ : Evolves z s) : Evolves z
    (freeEngine p how s) := by
  unfold freeEngine
  repeat' (first
    | intro _ | with_reducible assumption | with_reducible apply State.modEng_evolves
    | (with_reducible exact Evolves.same ‹_› rfl rfl rfl rfl rfl) | split)

theorem skipToRap_evolves {z : State} (h : Handle) (v0 : List Picture) (s : State) (h_ : Evolves z s) : Evolves z
    (skipToRap h v0 s) := by
  induction v0 generalizing s with
  | nil =>
    unfold skipToRap
    repeat' (first
      | intro _ | with_reducible assumption
      | (extract_lets +onlyGivenNames x
         first
         | (refine Evolves.cut (z := z) x ?_ ?_
            rotate_left
            intro _
            clear_value x
            rotate_left
            unfold x
            clear x)
         | clear_value x)
      | with_reducible apply modStream_evolves | with_reducible apply skipPicture_evolves
      | with_reducible apply resumeDecoding_evolves
      | with_reducible refine Evolves.ofSnd ?_ (by with_reducible assumption)
      | with_reducible refine Evolves.ofOptSnd ?_ (by with_reducible assumption) | with_reducible apply Evolves.projSnd
      | with_reducible apply Evolves.mkSnd | split)
  | cons y l ih =>
    unfold skipToRap
    repeat' (first
      | intro _ | with_reducible assumption
      | (extract_lets +onlyGivenNames x
         first
         | (refine Evolves.cut (z := z) x ?_ ?_
            rotate_left
            intro _
            clear_value x
            rotate_left
            unfold x
            clear x)
         | clear_value x)
      | with_reducible apply modStream_evolves | with_reducible apply skipPicture_evolves
      | with_reducible apply resumeDecoding_evolves | with_reducible apply ih
      | with_reducible refine Evolves.ofSnd ?_ (by with_reducible assumption)
      | with_reducible refine Evolves.ofOptSnd ?_ (by with_reducible assumption) | with_reducible apply Evolves.projSnd
      | with_reducible apply Evolves.mkSnd | split)

theorem addSlice_evolves {z : State} (h : Handle) (a : AccessUnit) (p : SliceParse) (s : State) (h_ : Evolves z s)
    : Evolves z (addSlice h a p s) := by
  unfold addSlice
  repeat' (first
    | intro _ | with_reducible assumption
    | (extract_lets +onlyGivenNames x
       first
       | (refine Evolves.cut (z := z) x ?_ ?_
          rotate_left
          intro _
          clear_value x
          rotate_left
          unfold x
          clear x)
       | clear_value x)
    | with_reducible apply kick_evolves | with_reducible apply modStream_evolves
    | (with_reducible exact Evolves.same ‹_› rfl rfl rfl rfl rfl) | split)

theorem parseSlice_evolves {z : State} (stream : Handle) (p : SliceParse) (s : State) (h_ : Evolves z s) :
    Evolves.outcome z (parseSlice stream p s) := by
  unfold parseSlice
  repeat' (first
    | intro _ | with_reducible assumption
    | (extract_lets +onlyGivenNames x
       first
       | (refine Evolves.cut (z := z) x ?_ ?_
          rotate_left
          intro _
          clear_value x
          rotate_left
          unfold x
          clear x)
       | clear_value x)
    | with_reducible apply firstSlice_evolves
    | with_reducible apply addSlice_evolves
    | with_reducible apply feedRetry_evolves
    | with_reducible apply modStream_evolves
    | with_reducible refine Evolves.ofSnd ?_ (by with_reducible assumption)
    | with_reducible refine Evolves.ofOptSnd ?_ (by with_reducible assumption)
    | with_reducible refine Evolves.ofOption ?_ (by with_reducible assumption)
    | with_reducible apply Evolves.mkSnd
    | with_reducible apply Evolves.projSnd
    | with_reducible apply Evolves.optSome
    | with_reducible apply Evolves.optNone
    | with_reducible apply Evolves.foldl
    | with_reducible apply Evolves.replyOk
    | with_reducible apply Evolves.replyFail
    | with_reducible apply Evolves.replyCounted
    | with_reducible apply Evolves.replyWait
    | with_reducible apply Evolves.next
    | with_reducible apply Evolves.fault
    | (with_reducible exact Evolves.same ‹_› rfl rfl rfl rfl rfl) | split)

theorem beginPicture_evolves {z : State} (x : Stream) (p : Picture) (s : State) (h_ : Evolves z s) :
    Evolves z (beginPicture x p s) := by
  unfold beginPicture
  repeat' (first
    | intro _ | with_reducible assumption
    | (extract_lets +onlyGivenNames x
       first
       | (refine Evolves.cut (z := z) x ?_ ?_
          rotate_left
          intro _
          clear_value x
          rotate_left
          unfold x
          clear x)
       | clear_value x)
    | with_reducible apply openSlot_evolves
    | with_reducible apply modStream_evolves
    | with_reducible apply modPicture_evolves
    | with_reducible apply forwardPicture_evolves
    | with_reducible refine Evolves.ofSnd ?_ (by with_reducible assumption)
    | with_reducible refine Evolves.ofOptSnd ?_ (by with_reducible assumption)
    | with_reducible refine Evolves.ofOption ?_ (by with_reducible assumption)
    | with_reducible apply Evolves.some
    | with_reducible apply Evolves.none
    | with_reducible apply Evolves.mkSnd
    | with_reducible apply Evolves.projSnd
    | with_reducible apply Evolves.optSome
    | with_reducible apply Evolves.optNone
    | with_reducible apply Evolves.foldl
    | with_reducible apply Evolves.replyOk
    | with_reducible apply Evolves.replyFail
    | with_reducible apply Evolves.replyCounted
    | with_reducible apply Evolves.replyWait
    | with_reducible apply Evolves.next
    | with_reducible apply Evolves.fault
    | with_reducible apply Evolves.ite
    | (with_reducible exact Evolves.same ‹_› rfl rfl rfl rfl rfl) | split)

theorem startPicture_evolves {z : State} (x : Stream) (p : Picture) (s : State) (h_ : Evolves z s) :
    Evolves z (startPicture x p s) := by
  unfold startPicture
  repeat' (first
    | intro _ | with_reducible assumption
    | (extract_lets +onlyGivenNames x
       first
       | (refine Evolves.cut (z := z) x ?_ ?_
          rotate_left
          intro _
          clear_value x
          rotate_left
          unfold x
          clear x)
       | clear_value x)
    | with_reducible apply outputPictures_evolves
    | with_reducible apply beginPicture_evolves
    | with_reducible refine Evolves.ofSnd ?_ (by with_reducible assumption)
    | with_reducible refine Evolves.ofOptSnd ?_ (by with_reducible assumption)
    | with_reducible refine Evolves.ofOption ?_ (by with_reducible assumption)
    | with_reducible apply Evolves.some
    | with_reducible apply Evolves.none
    | with_reducible apply Evolves.mkSnd
    | with_reducible apply Evolves.projSnd
    | with_reducible apply Evolves.optSome
    | with_reducible apply Evolves.optNone
    | with_reducible apply Evolves.foldl
    | with_reducible apply Evolves.replyOk
    | with_reducible apply Evolves.replyFail
    | with_reducible apply Evolves.replyCounted
    | with_reducible apply Evolves.replyWait
    | with_reducible apply Evolves.next
    | with_reducible apply Evolves.fault
    | with_reducible apply Evolves.ite
    | (with_reducible exact Evolves.same ‹_› rfl rfl rfl rfl rfl) | split)

theorem spendCycles_evolves {z : State} (h : Handle) (frame e n : Nat) (budgeted : Bool) (s : State) (h_
    : Evolves z s) : Evolves z (spendCycles h frame e n budgeted s) := by
  unfold spendCycles
  repeat' (first
    | intro _ | with_reducible assumption
    | (extract_lets +onlyGivenNames x
       first
       | (refine Evolves.cut (z := z) x ?_ ?_
          rotate_left
          intro _
          clear_value x
          rotate_left
          unfold x
          clear x)
       | clear_value x)
    | with_reducible apply modPicture_evolves | with_reducible apply modStream_evolves
    | with_reducible apply State.modEng_evolves | (with_reducible exact Evolves.same ‹_› rfl rfl rfl rfl rfl) | split)

theorem takeJob_evolves {z : State} (engine : Nat) (s : State) (h_ : Evolves z s) :
    Evolves.outcome z (takeJob engine s) := by
  unfold takeJob
  repeat' (first
    | intro _ | with_reducible assumption
    | (extract_lets +onlyGivenNames x
       first
       | (refine Evolves.cut (z := z) x ?_ ?_
          rotate_left
          intro _
          clear_value x
          rotate_left
          unfold x
          clear x)
       | clear_value x)
    | with_reducible apply State.modEng_evolves
    | with_reducible apply modPicture_evolves
    | with_reducible apply spendCycles_evolves
    | with_reducible apply startPicture_evolves
    | with_reducible refine Evolves.ofSnd ?_ (by with_reducible assumption)
    | with_reducible refine Evolves.ofOptSnd ?_ (by with_reducible assumption)
    | with_reducible refine Evolves.ofOption ?_ (by with_reducible assumption)
    | with_reducible apply Evolves.mkSnd
    | with_reducible apply Evolves.projSnd
    | with_reducible apply Evolves.optSome
    | with_reducible apply Evolves.optNone
    | with_reducible apply Evolves.foldl
    | with_reducible apply Evolves.replyOk
    | with_reducible apply Evolves.replyFail
    | with_reducible apply Evolves.replyCounted
    | with_reducible apply Evolves.replyWait
    | with_reducible apply Evolves.next
    | with_reducible apply Evolves.fault
    | (with_reducible exact Evolves.same ‹_› rfl rfl rfl rfl rfl) | split)

theorem readRefs_evolves {z : State} (x : Stream) (p : Picture) (s : State) (h_ : Evolves z s) :
    Evolves z (readRefs x p s) := by
  unfold readRefs
  repeat' (first
    | intro _ | with_reducible assumption
    | with_reducible apply hubLoad_evolves
    | with_reducible refine Evolves.ofSnd ?_ (by with_reducible assumption)
    | with_reducible refine Evolves.ofOptSnd ?_ (by with_reducible assumption)
    | with_reducible refine Evolves.ofOption ?_ (by with_reducible assumption)
    | with_reducible apply Evolves.some
    | with_reducible apply Evolves.none
    | with_reducible apply Evolves.mkSnd
    | with_reducible apply Evolves.projSnd
    | with_reducible apply Evolves.optSome
    | with_reducible apply Evolves.optNone
    | with_reducible apply Evolves.foldl
    | with_reducible apply Evolves.replyOk
    | with_reducible apply Evolves.replyFail
    | with_reducible apply Evolves.replyCounted
    | with_reducible apply Evolves.replyWait
    | with_reducible apply Evolves.next
    | with_reducible apply Evolves.fault
    | with_reducible apply Evolves.ite
    | (with_reducible exact Evolves.same ‹_› rfl rfl rfl rfl rfl) | split)

theorem markPicture_evolves {z : State} (h : Handle) (frame : Nat) (q : Quality) (s : State) (h_ : Evolves z s) :
    Evolves z (markPicture h frame q s) := by
  unfold markPicture
  repeat' (first
    | intro _ | with_reducible assumption
    | (extract_lets +onlyGivenNames x
       first
       | (refine Evolves.cut (z := z) x ?_ ?_
          rotate_left
          intro _
          clear_value x
          rotate_left
          unfold x
          clear x)
       | clear_value x)
    | with_reducible apply modPicture_evolves
    | with_reducible apply markItems_evolves
    | with_reducible refine Evolves.ofSnd ?_ (by with_reducible assumption)
    | with_reducible refine Evolves.ofOptSnd ?_ (by with_reducible assumption)
    | with_reducible refine Evolves.ofOption ?_ (by with_reducible assumption)
    | with_reducible apply Evolves.some
    | with_reducible apply Evolves.none
    | with_reducible apply Evolves.mkSnd
    | with_reducible apply Evolves.projSnd
    | with_reducible apply Evolves.optSome
    | with_reducible apply Evolves.optNone
    | with_reducible apply Evolves.foldl
    | with_reducible apply Evolves.replyOk
    | with_reducible apply Evolves.replyFail
    | with_reducible apply Evolves.replyCounted
    | with_reducible apply Evolves.replyWait
    | with_reducible apply Evolves.next
    | with_reducible apply Evolves.fault
    | with_reducible apply Evolves.ite
    | (with_reducible exact Evolves.same ‹_› rfl rfl rfl rfl rfl) | split)

theorem decodeSlice_evolves {z : State} (x : Stream) (p : Picture) (e cycles : Nat) (samples : List Byte) (missing : List Block) (s : State) (h_ : Evolves z s) :
    Evolves z (decodeSlice x p e cycles samples missing s) := by
  unfold decodeSlice
  repeat' (first
    | intro _ | with_reducible assumption
    | (extract_lets +onlyGivenNames x
       first
       | (refine Evolves.cut (z := z) x ?_ ?_
          rotate_left
          intro _
          clear_value x
          rotate_left
          unfold x
          clear x)
       | clear_value x)
    | with_reducible apply readRefs_evolves
    | with_reducible apply openSlot_evolves
    | with_reducible apply putRows_evolves
    | with_reducible apply contained_evolves
    | with_reducible apply spendCycles_evolves
    | with_reducible apply State.modEng_evolves
    | with_reducible apply markPicture_evolves
    | with_reducible apply modPicture_evolves
    | with_reducible refine Evolves.ofSnd ?_ (by with_reducible assumption)
    | with_reducible refine Evolves.ofOptSnd ?_ (by with_reducible assumption)
    | with_reducible refine Evolves.ofOption ?_ (by with_reducible assumption)
    | with_reducible apply Evolves.some
    | with_reducible apply Evolves.none
    | with_reducible apply Evolves.mkSnd
    | with_reducible apply Evolves.projSnd
    | with_reducible apply Evolves.optSome
    | with_reducible apply Evolves.optNone
    | with_reducible apply Evolves.foldl
    | with_reducible apply Evolves.replyOk
    | with_reducible apply Evolves.replyFail
    | with_reducible apply Evolves.replyCounted
    | with_reducible apply Evolves.replyWait
    | with_reducible apply Evolves.next
    | with_reducible apply Evolves.fault
    | with_reducible apply Evolves.ite
    | (with_reducible exact Evolves.same ‹_› rfl rfl rfl rfl rfl) | split)

theorem spendUnfinished_evolves {z : State} (p : Picture) (how : PicEnd) (s : State) (h_ : Evolves z s) :
    Evolves z (spendUnfinished p how s) := by
  unfold spendUnfinished
  repeat' (first
    | intro _ | with_reducible assumption
    | with_reducible apply spendCycles_evolves
    | with_reducible refine Evolves.ofSnd ?_ (by with_reducible assumption)
    | with_reducible refine Evolves.ofOptSnd ?_ (by with_reducible assumption)
    | with_reducible refine Evolves.ofOption ?_ (by with_reducible assumption)
    | with_reducible apply Evolves.mkSnd
    | with_reducible apply Evolves.projSnd
    | with_reducible apply Evolves.optSome
    | with_reducible apply Evolves.optNone
    | with_reducible apply Evolves.foldl
    | with_reducible apply Evolves.replyOk
    | with_reducible apply Evolves.replyFail
    | with_reducible apply Evolves.replyCounted
    | with_reducible apply Evolves.replyWait
    | with_reducible apply Evolves.next
    | with_reducible apply Evolves.fault
    | (with_reducible exact Evolves.same ‹_› rfl rfl rfl rfl rfl) | split)

theorem endPicture_evolves {z : State} (h : Handle) (p : Picture) (how : PicEnd) (s : State) (h_ : Evolves z s) :
    Evolves z (endPicture h p how s) := by
  unfold endPicture
  repeat' (first
    | intro _ | with_reducible assumption
    | (extract_lets +onlyGivenNames x
       first
       | (refine Evolves.cut (z := z) x ?_ ?_
          rotate_left
          intro _
          clear_value x
          rotate_left
          unfold x
          clear x)
       | clear_value x)
    | with_reducible apply putRows_evolves
    | with_reducible apply freeEngine_evolves
    | with_reducible apply spendUnfinished_evolves
    | with_reducible apply modStream_evolves
    | with_reducible apply modPicture_evolves
    | with_reducible apply markItems_evolves
    | with_reducible apply dropPicture_evolves
    | with_reducible apply countForwarded_evolves
    | with_reducible apply enterRing_evolves
    | with_reducible apply outputPictures_evolves
    | with_reducible apply kick_evolves
    | with_reducible apply releasePictures_evolves
    | with_reducible apply readyEncodes_evolves
    | with_reducible refine Evolves.ofSnd ?_ (by with_reducible assumption)
    | with_reducible refine Evolves.ofOptSnd ?_ (by with_reducible assumption)
    | with_reducible refine Evolves.ofOption ?_ (by with_reducible assumption)
    | with_reducible apply Evolves.some
    | with_reducible apply Evolves.none
    | with_reducible apply Evolves.mkSnd
    | with_reducible apply Evolves.projSnd
    | with_reducible apply Evolves.optSome
    | with_reducible apply Evolves.optNone
    | with_reducible apply Evolves.foldl
    | with_reducible apply Evolves.replyOk
    | with_reducible apply Evolves.replyFail
    | with_reducible apply Evolves.replyCounted
    | with_reducible apply Evolves.replyWait
    | with_reducible apply Evolves.next
    | with_reducible apply Evolves.fault
    | with_reducible apply Evolves.ite
    | (with_reducible exact Evolves.same ‹_› rfl rfl rfl rfl rfl) | split)

theorem abandonPicture_evolves {z : State} (h : Handle) (p : Picture) (s : State) (h_ : Evolves z s) :
    Evolves z (abandonPicture h p s) := by
  unfold abandonPicture
  repeat' (first
    | intro _ | with_reducible assumption
    | (extract_lets +onlyGivenNames x
       first
       | (refine Evolves.cut (z := z) x ?_ ?_
          rotate_left
          intro _
          clear_value x
          rotate_left
          unfold x
          clear x)
       | clear_value x)
    | with_reducible apply modStream_evolves
    | with_reducible apply statusPicot_evolves
    | with_reducible apply modPicture_evolves
    | with_reducible apply endPicture_evolves
    | with_reducible apply kick_evolves
    | with_reducible apply skipToRap_evolves
    | with_reducible refine Evolves.ofSnd ?_ (by with_reducible assumption)
    | with_reducible refine Evolves.ofOptSnd ?_ (by with_reducible assumption)
    | with_reducible refine Evolves.ofOption ?_ (by with_reducible assumption)
    | with_reducible apply Evolves.some
    | with_reducible apply Evolves.none
    | with_reducible apply Evolves.mkSnd
    | with_reducible apply Evolves.projSnd
    | with_reducible apply Evolves.optSome
    | with_reducible apply Evolves.optNone
    | with_reducible apply Evolves.foldl
    | with_reducible apply Evolves.replyOk
    | with_reducible apply Evolves.replyFail
    | with_reducible apply Evolves.replyCounted
    | with_reducible apply Evolves.replyWait
    | with_reducible apply Evolves.next
    | with_reducible apply Evolves.fault
    | (with_reducible exact Evolves.same ‹_› rfl rfl rfl rfl rfl) | split)

theorem abandonDue_evolves {z : State} (stream : Handle) (s : State) (h_ : Evolves z s) :
    Evolves.outcome z (abandonDue stream s) := by
  unfold abandonDue
  repeat' (first
    | intro _ | with_reducible assumption
    | with_reducible apply abandonPicture_evolves
    | with_reducible refine Evolves.ofSnd ?_ (by with_reducible assumption)
    | with_reducible refine Evolves.ofOptSnd ?_ (by with_reducible assumption)
    | with_reducible refine Evolves.ofOption ?_ (by with_reducible assumption)
    | with_reducible apply Evolves.some
    | with_reducible apply Evolves.none
    | with_reducible apply Evolves.mkSnd
    | with_reducible apply Evolves.projSnd
    | with_reducible apply Evolves.optSome
    | with_reducible apply Evolves.optNone
    | with_reducible apply Evolves.foldl
    | with_reducible apply Evolves.replyOk
    | with_reducible apply Evolves.replyFail
    | with_reducible apply Evolves.replyCounted
    | with_reducible apply Evolves.replyWait
    | with_reducible apply Evolves.next
    | with_reducible apply Evolves.fault
    | (with_reducible exact Evolves.same ‹_› rfl rfl rfl rfl rfl) | split)

theorem duePictureAbandon_evolves {z : State} (stream : Handle) (s : State) (h_ : Evolves z s) :
    Evolves.outcome z (duePictureAbandon stream s) := by
  unfold duePictureAbandon
  repeat' (first
    | intro _ | with_reducible assumption
    | with_reducible apply onShadow_evolves
    | with_reducible apply abandonDue_evolves
    | with_reducible refine Evolves.ofSnd ?_ (by with_reducible assumption)
    | with_reducible refine Evolves.ofOptSnd ?_ (by with_reducible assumption)
    | with_reducible refine Evolves.ofOption ?_ (by with_reducible assumption)
    | with_reducible apply Evolves.some
    | with_reducible apply Evolves.none
    | with_reducible apply Evolves.mkSnd
    | with_reducible apply Evolves.projSnd
    | with_reducible apply Evolves.optSome
    | with_reducible apply Evolves.optNone
    | with_reducible apply Evolves.foldl
    | with_reducible apply Evolves.replyOk
    | with_reducible apply Evolves.replyFail
    | with_reducible apply Evolves.replyCounted
    | with_reducible apply Evolves.replyWait
    | with_reducible apply Evolves.next
    | with_reducible apply Evolves.fault
    | (with_reducible exact Evolves.same ‹_› rfl rfl rfl rfl rfl) | split)

theorem parkPicture_evolves {z : State} (h : Handle) (p : Picture) (e : Nat) (forBudget : Bool) (s : State) (h_
    : Evolves z s) : Evolves z (parkPicture h p e forBudget s) := by
  unfold parkPicture
  repeat' (first
    | intro _ | with_reducible assumption
    | (extract_lets +onlyGivenNames x
       first
       | (refine Evolves.cut (z := z) x ?_ ?_
          rotate_left
          intro _
          clear_value x
          rotate_left
          unfold x
          clear x)
       | clear_value x)
    | with_reducible apply spendCycles_evolves | with_reducible apply State.modEng_evolves
    | with_reducible apply modStream_evolves | with_reducible apply kick_evolves
    | with_reducible apply modPicture_evolves | (with_reducible exact Evolves.same ‹_› rfl rfl rfl rfl rfl) | split)

theorem stopEngine_evolves {z : State} (e cycles : Nat) (s : State) (h_ : Evolves z s) :
    Evolves z (stopEngine e cycles s) := by
  unfold stopEngine
  repeat' (first
    | intro _ | with_reducible assumption
    | (extract_lets +onlyGivenNames x
       first
       | (refine Evolves.cut (z := z) x ?_ ?_
          rotate_left
          intro _
          clear_value x
          rotate_left
          unfold x
          clear x)
       | clear_value x)
    | with_reducible apply modStream_evolves
    | with_reducible apply State.modEng_evolves
    | with_reducible refine Evolves.ofSnd ?_ (by with_reducible assumption)
    | with_reducible refine Evolves.ofOptSnd ?_ (by with_reducible assumption)
    | with_reducible refine Evolves.ofOption ?_ (by with_reducible assumption)
    | with_reducible apply Evolves.mkSnd
    | with_reducible apply Evolves.projSnd
    | with_reducible apply Evolves.optSome
    | with_reducible apply Evolves.optNone
    | with_reducible apply Evolves.foldl
    | with_reducible apply Evolves.replyOk
    | with_reducible apply Evolves.replyFail
    | with_reducible apply Evolves.replyCounted
    | with_reducible apply Evolves.replyWait
    | with_reducible apply Evolves.next
    | with_reducible apply Evolves.fault
    | (with_reducible exact Evolves.same ‹_› rfl rfl rfl rfl rfl) | split)

theorem sliceEnd_evolves {z : State} (engine cycles : Nat) (samples : List Byte) (missing : List Block) (s : State) (h_ : Evolves z s) :
    Evolves.outcome z (sliceEnd engine cycles samples missing s) := by
  unfold sliceEnd
  repeat' (first
    | intro _ | with_reducible assumption
    | (extract_lets +onlyGivenNames x
       first
       | (refine Evolves.cut (z := z) x ?_ ?_
          rotate_left
          intro _
          clear_value x
          rotate_left
          unfold x
          clear x)
       | clear_value x)
    | with_reducible apply stopEngine_evolves
    | with_reducible apply decodeSlice_evolves
    | with_reducible apply parkPicture_evolves
    | with_reducible refine Evolves.ofSnd ?_ (by with_reducible assumption)
    | with_reducible refine Evolves.ofOptSnd ?_ (by with_reducible assumption)
    | with_reducible refine Evolves.ofOption ?_ (by with_reducible assumption)
    | with_reducible apply Evolves.mkSnd
    | with_reducible apply Evolves.projSnd
    | with_reducible apply Evolves.optSome
    | with_reducible apply Evolves.optNone
    | with_reducible apply Evolves.foldl
    | with_reducible apply Evolves.replyOk
    | with_reducible apply Evolves.replyFail
    | with_reducible apply Evolves.replyCounted
    | with_reducible apply Evolves.replyWait
    | with_reducible apply Evolves.next
    | with_reducible apply Evolves.fault
    | (with_reducible exact Evolves.same ‹_› rfl rfl rfl rfl rfl) | split)

theorem pictureEnd_evolves {z : State} (engine cycles : Nat) (samples : List Byte) (missing : List Block) (s : State) (h_ : Evolves z s) :
    Evolves.outcome z (pictureEnd engine cycles samples missing s) := by
  unfold pictureEnd
  repeat' (first
    | intro _ | with_reducible assumption
    | (extract_lets +onlyGivenNames x
       first
       | (refine Evolves.cut (z := z) x ?_ ?_
          rotate_left
          intro _
          clear_value x
          rotate_left
          unfold x
          clear x)
       | clear_value x)
    | with_reducible apply stopEngine_evolves
    | with_reducible apply decodeSlice_evolves
    | with_reducible apply endPicture_evolves
    | with_reducible refine Evolves.ofSnd ?_ (by with_reducible assumption)
    | with_reducible refine Evolves.ofOptSnd ?_ (by with_reducible assumption)
    | with_reducible refine Evolves.ofOption ?_ (by with_reducible assumption)
    | with_reducible apply Evolves.mkSnd
    | with_reducible apply Evolves.projSnd
    | with_reducible apply Evolves.optSome
    | with_reducible apply Evolves.optNone
    | with_reducible apply Evolves.foldl
    | with_reducible apply Evolves.replyOk
    | with_reducible apply Evolves.replyFail
    | with_reducible apply Evolves.replyCounted
    | with_reducible apply Evolves.replyWait
    | with_reducible apply Evolves.next
    | with_reducible apply Evolves.fault
    | (with_reducible exact Evolves.same ‹_› rfl rfl rfl rfl rfl) | split)

theorem keepSources_evolves {z : State} (h : Handle) (s : State) (h_ : Evolves z s) :
    Evolves z (keepSources h s) := by
  unfold keepSources
  repeat' (first
    | intro _ | with_reducible assumption
    | (extract_lets +onlyGivenNames x
       first
       | (refine Evolves.cut (z := z) x ?_ ?_
          rotate_left
          intro _
          clear_value x
          rotate_left
          unfold x
          clear x)
       | clear_value x)
    | with_reducible apply State.modObj_evolves
    | with_reducible refine Evolves.ofSnd ?_ (by with_reducible assumption)
    | with_reducible refine Evolves.ofOptSnd ?_ (by with_reducible assumption)
    | with_reducible refine Evolves.ofOption ?_ (by with_reducible assumption)
    | with_reducible apply Evolves.mkSnd
    | with_reducible apply Evolves.projSnd
    | with_reducible apply Evolves.optSome
    | with_reducible apply Evolves.optNone
    | with_reducible apply Evolves.foldl
    | with_reducible apply Evolves.replyOk
    | with_reducible apply Evolves.replyFail
    | with_reducible apply Evolves.replyCounted
    | with_reducible apply Evolves.replyWait
    | with_reducible apply Evolves.next
    | with_reducible apply Evolves.fault
    | (with_reducible exact Evolves.same ‹_› rfl rfl rfl rfl rfl) | split)

theorem closeJobs_evolves {z : State} (x : Stream) (s : State) (h_ : Evolves z s) :
    Evolves z (closeJobs x s) := by
  unfold closeJobs
  repeat' (first
    | intro _ | with_reducible assumption
    | (extract_lets +onlyGivenNames x
       first
       | (refine Evolves.cut (z := z) x ?_ ?_
          rotate_left
          intro _
          clear_value x
          rotate_left
          unfold x
          clear x)
       | clear_value x)
    | with_reducible apply State.modObj_evolves
    | with_reducible apply assignJobs_evolves
    | with_reducible refine Evolves.ofSnd ?_ (by with_reducible assumption)
    | with_reducible refine Evolves.ofOptSnd ?_ (by with_reducible assumption)
    | with_reducible refine Evolves.ofOption ?_ (by with_reducible assumption)
    | with_reducible apply Evolves.some
    | with_reducible apply Evolves.none
    | with_reducible apply Evolves.mkSnd
    | with_reducible apply Evolves.projSnd
    | with_reducible apply Evolves.optSome
    | with_reducible apply Evolves.optNone
    | with_reducible apply Evolves.foldl
    | with_reducible apply Evolves.replyOk
    | with_reducible apply Evolves.replyFail
    | with_reducible apply Evolves.replyCounted
    | with_reducible apply Evolves.replyWait
    | with_reducible apply Evolves.next
    | with_reducible apply Evolves.fault
    | with_reducible apply Evolves.ite
    | (with_reducible exact Evolves.same ‹_› rfl rfl rfl rfl rfl) | split)

theorem completeItems_evolves {z : State} (x : Stream) (p : Picture) (jobs : List ScalerJob) (s : State) (h_ : Evolves z s) :
    Evolves z (completeItems x p jobs s) := by
  unfold completeItems
  repeat' (first
    | intro _ | with_reducible assumption
    | (extract_lets +onlyGivenNames x
       first
       | (refine Evolves.cut (z := z) x ?_ ?_
          rotate_left
          intro _
          clear_value x
          rotate_left
          unfold x
          clear x)
       | clear_value x)
    | with_reducible apply writeStrip_evolves
    | with_reducible apply setProgress_evolves
    | with_reducible refine Evolves.ofSnd ?_ (by with_reducible assumption)
    | with_reducible refine Evolves.ofOptSnd ?_ (by with_reducible assumption)
    | with_reducible refine Evolves.ofOption ?_ (by with_reducible assumption)
    | with_reducible apply Evolves.mkSnd
    | with_reducible apply Evolves.projSnd
    | with_reducible apply Evolves.optSome
    | with_reducible apply Evolves.optNone
    | with_reducible apply Evolves.foldl
    | with_reducible apply Evolves.replyOk
    | with_reducible apply Evolves.replyFail
    | with_reducible apply Evolves.replyCounted
    | with_reducible apply Evolves.replyWait
    | with_reducible apply Evolves.next
    | with_reducible apply Evolves.fault
    | (with_reducible exact Evolves.same ‹_› rfl rfl rfl rfl rfl) | split)

theorem finishPicture_evolves {z : State} (h : Handle) (s : State) (h_ : Evolves z s) :
    Evolves z (finishPicture h s) := by
  unfold finishPicture
  repeat' (first
    | intro _ | with_reducible assumption
    | (extract_lets +onlyGivenNames x
       first
       | (refine Evolves.cut (z := z) x ?_ ?_
          rotate_left
          intro _
          clear_value x
          rotate_left
          unfold x
          clear x)
       | clear_value x)
    | with_reducible apply completeItems_evolves
    | with_reducible apply endPicture_evolves
    | with_reducible refine Evolves.ofSnd ?_ (by with_reducible assumption)
    | with_reducible refine Evolves.ofOptSnd ?_ (by with_reducible assumption)
    | with_reducible refine Evolves.ofOption ?_ (by with_reducible assumption)
    | with_reducible apply Evolves.mkSnd
    | with_reducible apply Evolves.projSnd
    | with_reducible apply Evolves.optSome
    | with_reducible apply Evolves.optNone
    | with_reducible apply Evolves.foldl
    | with_reducible apply Evolves.replyOk
    | with_reducible apply Evolves.replyFail
    | with_reducible apply Evolves.replyCounted
    | with_reducible apply Evolves.replyWait
    | with_reducible apply Evolves.next
    | with_reducible apply Evolves.fault
    | (with_reducible exact Evolves.same ‹_› rfl rfl rfl rfl rfl) | split)

theorem endStream_evolves {z : State} (x : Stream) (s : State) (h_ : Evolves z s) :
    Evolves z (endStream x s) := by
  unfold endStream
  repeat' (first
    | intro _ | with_reducible assumption
    | (extract_lets +onlyGivenNames x
       first
       | (refine Evolves.cut (z := z) x ?_ ?_
          rotate_left
          intro _
          clear_value x
          rotate_left
          unfold x
          clear x)
       | clear_value x)
    | with_reducible apply removeFlow_evolves
    | with_reducible apply closeJobs_evolves
    | with_reducible apply finishPicture_evolves
    | with_reducible apply keepSources_evolves
    | with_reducible apply checkLedgers_evolves
    | with_reducible apply State.modEng_evolves
    | with_reducible apply retireItem_evolves
    | with_reducible apply State.modObj_evolves
    | with_reducible apply releasePictures_evolves
    | with_reducible apply assignJobs_evolves
    | with_reducible apply unrefBuf_evolves
    | with_reducible apply releaseStream_evolves
    | with_reducible refine Evolves.ofSnd ?_ (by with_reducible assumption)
    | with_reducible refine Evolves.ofOptSnd ?_ (by with_reducible assumption)
    | with_reducible refine Evolves.ofOption ?_ (by with_reducible assumption)
    | with_reducible apply Evolves.some
    | with_reducible apply Evolves.none
    | with_reducible apply Evolves.mkSnd
    | with_reducible apply Evolves.projSnd
    | with_reducible apply Evolves.optSome
    | with_reducible apply Evolves.optNone
    | with_reducible apply Evolves.foldl
    | with_reducible apply Evolves.replyOk
    | with_reducible apply Evolves.replyFail
    | with_reducible apply Evolves.replyCounted
    | with_reducible apply Evolves.replyWait
    | with_reducible apply Evolves.next
    | with_reducible apply Evolves.fault
    | with_reducible apply Evolves.ite
    | (with_reducible exact Evolves.same ‹_› rfl rfl rfl rfl rfl) | split)

theorem streamCloseBody_evolves {z : State} (h : Hdr) (stream : Handle) (s : State) (h_ : Evolves z s)
    : Evolves.reply z (streamCloseBody h stream s) := by
  unfold streamCloseBody
  repeat' (first
    | intro _ | with_reducible assumption | with_reducible apply endStream_evolves
    | with_reducible apply Evolves.replyOk | with_reducible apply Evolves.replyFail | split)

theorem streamQueryBody_evolves {z : State} (h : Hdr) (stream : Handle) (s : State) (h_ : Evolves z s)
    : Evolves.reply z (streamQueryBody h stream s) := by
  unfold streamQueryBody
  repeat' (first
    | with_reducible assumption | with_reducible apply Evolves.replyOk | with_reducible apply Evolves.replyFail
    | split)

theorem eyeletPolicyBody_evolves {z : State} (h : Hdr) (stream : Handle) (output fit maxAge marginPct : Nat) (s
    : State) (h_ : Evolves z s) : Evolves.reply z (eyeletPolicyBody h stream output fit maxAge marginPct s) := by
  unfold eyeletPolicyBody
  repeat' (first
    | intro _ | with_reducible assumption | with_reducible apply modStream_evolves
    | with_reducible apply Evolves.replyOk | with_reducible apply Evolves.replyFail
    | (with_reducible exact Evolves.same ‹_› rfl rfl rfl rfl rfl) | split)

theorem keyPictureBody_evolves {z : State} (h : Hdr) (stream : Handle) (s : State) (h_ : Evolves z s) :
    Evolves.reply z (keyPictureBody h stream s) := by
  unfold keyPictureBody
  repeat' (first
    | intro _ | with_reducible assumption
    | with_reducible apply modStream_evolves
    | with_reducible apply markEligible_evolves
    | with_reducible refine Evolves.ofSnd ?_ (by with_reducible assumption)
    | with_reducible refine Evolves.ofOptSnd ?_ (by with_reducible assumption)
    | with_reducible refine Evolves.ofOption ?_ (by with_reducible assumption)
    | with_reducible apply Evolves.some
    | with_reducible apply Evolves.none
    | with_reducible apply Evolves.mkSnd
    | with_reducible apply Evolves.projSnd
    | with_reducible apply Evolves.optSome
    | with_reducible apply Evolves.optNone
    | with_reducible apply Evolves.foldl
    | with_reducible apply Evolves.replyOk
    | with_reducible apply Evolves.replyFail
    | with_reducible apply Evolves.replyCounted
    | with_reducible apply Evolves.replyWait
    | with_reducible apply Evolves.next
    | with_reducible apply Evolves.fault
    | with_reducible apply Evolves.ite
    | (with_reducible exact Evolves.same ‹_› rfl rfl rfl rfl rfl) | split)

theorem readScaled_evolves {z : State} (h : Handle) (e : EncodeState) (q : EncodePic) (s : State) (h_ : Evolves z s) :
    Evolves.snd z (readScaled h e q s) := by
  have hl : ∀ l : List (Nat × Nat), Evolves z (l.foldl (fun s a => hubLoad a.1 a.2 s) s) := fun l =>
    Evolves.foldl _ l s h_ fun s a h => hubLoad_evolves a.1 a.2 s h
  unfold readScaled
  split
  · exact Evolves.mkSnd h_
  · extract_lets w planes t
    have hs : Evolves z t := hl planes
    split
    · exact Evolves.mkSnd hs
    · exact Evolves.mkSnd (contained_evolves _ _ _ _ _ hs)

theorem clipPicots_evolves {z : State} (h : Handle) (p : EncodePic) (codec kind total room : Nat) (v0 : Nat) (v1
    : Nat) (v2 : List Byte) (s : State) (h_ : Evolves z s) : Evolves z
    (clipPicots h p codec kind total room v0 v1 v2 s) := by
  induction v0 generalizing v1 v2 s with
  | zero =>
    unfold clipPicots
    repeat' (first
      | with_reducible assumption
      | (extract_lets +onlyGivenNames x
         first
         | (refine Evolves.cut (z := z) x ?_ ?_
            rotate_left
            intro _
            clear_value x
            rotate_left
            unfold x
            clear x)
         | clear_value x)
      | with_reducible apply formPicot_evolves | with_reducible refine Evolves.ofSnd ?_ (by with_reducible assumption)
      | with_reducible refine Evolves.ofOptSnd ?_ (by with_reducible assumption) | with_reducible apply Evolves.projSnd
      | with_reducible apply Evolves.mkSnd | split)
  | succ n ih =>
    unfold clipPicots
    repeat' (first
      | with_reducible assumption
      | (extract_lets +onlyGivenNames x
         first
         | (refine Evolves.cut (z := z) x ?_ ?_
            rotate_left
            intro _
            clear_value x
            rotate_left
            unfold x
            clear x)
         | clear_value x)
      | with_reducible apply formPicot_evolves | with_reducible apply ih
      | with_reducible refine Evolves.ofSnd ?_ (by with_reducible assumption)
      | with_reducible refine Evolves.ofOptSnd ?_ (by with_reducible assumption) | with_reducible apply Evolves.projSnd
      | with_reducible apply Evolves.mkSnd | split)

theorem runStreamOpen_evolves {z : State} (h : Hdr) (d : DecodeDecl) (outs : List OutputDesc) (s : State) (h_
    : Evolves z s) : Evolves z (runStreamOpen h d outs s) := by
  unfold runStreamOpen
  repeat' (first
    | with_reducible assumption | with_reducible apply serve_evolves | with_reducible apply streamOpenBody_evolves)

theorem runStreamClose_evolves {z : State} (h : Hdr) (stream : Handle) (s : State) (h_ : Evolves z s) : Evolves z
    (runStreamClose h stream s) := by
  unfold runStreamClose
  repeat' (first
    | with_reducible assumption | with_reducible apply serve_evolves | with_reducible apply streamCloseBody_evolves)

theorem runKeyPicture_evolves {z : State} (h : Hdr) (stream : Handle) (s : State) (h_ : Evolves z s) : Evolves z
    (runKeyPicture h stream s) := by
  unfold runKeyPicture
  repeat' (first
    | with_reducible assumption | with_reducible apply serve_evolves | with_reducible apply keyPictureBody_evolves)

theorem runEncodeOpen_evolves {z : State} (h : Hdr) (d : EncodeDecl) (s : State) (h_ : Evolves z s) : Evolves z
    (runEncodeOpen h d s) := by
  unfold runEncodeOpen
  repeat' (first
    | with_reducible assumption | with_reducible apply serve_evolves | with_reducible apply encodeOpenBody_evolves)

theorem runStreamQuery_evolves {z : State} (h : Hdr) (stream : Handle) (s : State) (h_ : Evolves z s) : Evolves z
    (runStreamQuery h stream s) := by
  unfold runStreamQuery
  repeat' (first
    | with_reducible assumption | with_reducible apply serve_evolves | with_reducible apply streamQueryBody_evolves)

theorem runEyeletPolicy_evolves {z : State} (h : Hdr) (stream : Handle) (output fit maxAge marginPct : Nat) (s
    : State) (h_ : Evolves z s) : Evolves z (runEyeletPolicy h stream output fit maxAge marginPct s) := by
  unfold runEyeletPolicy
  repeat' (first
    | with_reducible assumption | with_reducible apply serve_evolves | with_reducible apply eyeletPolicyBody_evolves)

end Sys2Proof.Machine
end

