-- ==== Sys2Proof/Laws/EvolveFirmware.lean ====
section
/-! SUPPORT. What the operations of Sys2Proof.Machine.Firmware never undo. -/

namespace Sys2Proof.Machine

theorem restartCore_evolves {z : State} (c cause : Nat) (s : State) (h_ : Evolves z s) :
    Evolves z (restartCore c cause s) := by
  unfold restartCore
  repeat' (first
    | intro _ | with_reducible assumption
    | (extract_lets +onlyGivenNames x
       first
       | (refine Evolves.cut (z := z) x ?_ ?_
          rotate_left
          intro _
          clear_value x
          rotate_left
          unfold x
          clear x)
       | clear_value x)
    | with_reducible apply State.modCc_evolves
    | with_reducible apply shadowed_evolves
    | with_reducible apply losePicture_evolves
    | with_reducible apply logWrite_evolves
    | with_reducible apply issueEvent_evolves
    | with_reducible apply State.useFresh_evolves
    | with_reducible apply setCause_evolves
    | with_reducible apply escalate_evolves
    | with_reducible apply contained_evolves
    | with_reducible refine Evolves.ofSnd ?_ (by with_reducible assumption)
    | with_reducible refine Evolves.ofOptSnd ?_ (by with_reducible assumption)
    | with_reducible refine Evolves.ofOption ?_ (by with_reducible assumption)
    | with_reducible apply Evolves.some
    | with_reducible apply Evolves.none
    | with_reducible apply Evolves.mkSnd
    | with_reducible apply Evolves.projSnd
    | with_reducible apply Evolves.optSome
    | with_reducible apply Evolves.optNone
    | with_reducible apply Evolves.foldl
    | with_reducible apply Evolves.replyOk
    | with_reducible apply Evolves.replyFail
    | with_reducible apply Evolves.replyCounted
    | with_reducible apply Evolves.replyWait
    | with_reducible apply Evolves.next
    | with_reducible apply Evolves.fault
    | with_reducible apply Evolves.ite
    | (refine Evolves.evgSame _ ?_ (fun h => h))
    | (with_reducible exact Evolves.same ‹_› rfl rfl rfl rfl rfl) | split)

theorem dueWatchdogExpiry_evolves {z : State} (core : Nat) (s : State) (h_ : Evolves z s) :
    Evolves.outcome z (dueWatchdogExpiry core s) := by
  unfold dueWatchdogExpiry
  repeat' (first
    | intro _ | with_reducible assumption
    | with_reducible apply restartCore_evolves
    | with_reducible refine Evolves.ofSnd ?_ (by with_reducible assumption)
    | with_reducible refine Evolves.ofOptSnd ?_ (by with_reducible assumption)
    | with_reducible refine Evolves.ofOption ?_ (by with_reducible assumption)
    | with_reducible apply Evolves.mkSnd
    | with_reducible apply Evolves.projSnd
    | with_reducible apply Evolves.optSome
    | with_reducible apply Evolves.optNone
    | with_reducible apply Evolves.foldl
    | with_reducible apply Evolves.replyOk
    | with_reducible apply Evolves.replyFail
    | with_reducible apply Evolves.replyCounted
    | with_reducible apply Evolves.replyWait
    | with_reducible apply Evolves.next
    | with_reducible apply Evolves.fault
    | (with_reducible exact Evolves.same ‹_› rfl rfl rfl rfl rfl) | split)

theorem dueBootCoreWatchdogExpiry_evolves {z : State} (s : State) (h_ : Evolves z s) :
    Evolves.outcome z (dueBootCoreWatchdogExpiry s) := by
  unfold dueBootCoreWatchdogExpiry
  repeat' (first
    | intro _ | with_reducible assumption
    | with_reducible apply escalate_evolves
    | with_reducible apply State.modCc_evolves
    | with_reducible refine Evolves.ofSnd ?_ (by with_reducible assumption)
    | with_reducible refine Evolves.ofOptSnd ?_ (by with_reducible assumption)
    | with_reducible refine Evolves.ofOption ?_ (by with_reducible assumption)
    | with_reducible apply Evolves.some
    | with_reducible apply Evolves.none
    | with_reducible apply Evolves.mkSnd
    | with_reducible apply Evolves.projSnd
    | with_reducible apply Evolves.optSome
    | with_reducible apply Evolves.optNone
    | with_reducible apply Evolves.foldl
    | with_reducible apply Evolves.replyOk
    | with_reducible apply Evolves.replyFail
    | with_reducible apply Evolves.replyCounted
    | with_reducible apply Evolves.replyWait
    | with_reducible apply Evolves.next
    | with_reducible apply Evolves.fault
    | with_reducible apply Evolves.ite
    | (with_reducible exact Evolves.same ‹_› rfl rfl rfl rfl rfl) | split)

end Sys2Proof.Machine
end

