-- ==== Sys2Proof/Laws/EvolveStarts.lean ====
section
/-! SUPPORT. What the operations of Sys2Proof.Machine.Starts never undo. -/

namespace Sys2Proof.Machine

theorem endSlice_evolves {z : State} (p : Partition) (s : State) (h_ : Evolves z s) : Evolves z (endSlice p s) := by
  unfold endSlice
  repeat' (first
    | intro _ | with_reducible assumption
    | (extract_lets +onlyGivenNames x
       first
       | (refine Evolves.cut (z := z) x ?_ ?_
          rotate_left
          intro _
          clear_value x
          rotate_left
          unfold x
          clear x)
       | clear_value x)
    | with_reducible apply modClient_evolves | with_reducible apply modPart_evolves
    | (with_reducible exact Evolves.same ‹_› rfl rfl rfl rfl rfl) | split)

theorem chooseStitch_evolves {z : State} (h : Handle) (s : State) (h_ : Evolves z s) : Evolves.snd z
    (chooseStitch h s) := by
  unfold chooseStitch
  repeat' (first
    | intro _ | with_reducible assumption
    | (extract_lets +onlyGivenNames x
       first
       | (refine Evolves.cut (z := z) x ?_ ?_
          rotate_left
          intro _
          clear_value x
          rotate_left
          unfold x
          clear x)
       | clear_value x)
    | with_reducible apply endSlice_evolves | with_reducible apply modClient_evolves
    | with_reducible apply modPart_evolves | with_reducible apply Evolves.mkSnd | with_reducible apply Evolves.foldl
    | (with_reducible exact Evolves.same ‹_› rfl rfl rfl rfl rfl) | split)

theorem notRun_evolves {z : State} (p : Partition) (id status : Nat) (s : State) (h_ : Evolves z s) : Evolves z
    (notRun p id status s) := by
  unfold notRun
  repeat' (first
    | intro _ | with_reducible assumption
    | (extract_lets +onlyGivenNames x
       first
       | (refine Evolves.cut (z := z) x ?_ ?_
          rotate_left
          intro _
          clear_value x
          rotate_left
          unfold x
          clear x)
       | clear_value x)
    | with_reducible apply settleItems_evolves | with_reducible apply chargeSlice_evolves
    | with_reducible apply modStitch_evolves | with_reducible apply faultIfIdle_evolves
    | with_reducible apply writeRecord_evolves | (with_reducible exact Evolves.same ‹_› rfl rfl rfl rfl rfl) | split)

theorem retireJoin_evolves {z : State} (index : Nat) (h : Handle) (s : State) (h_ : Evolves z s) :
    Evolves z (retireJoin index h s) := by
  unfold retireJoin
  repeat' (first
    | intro _ | with_reducible assumption
    | (extract_lets +onlyGivenNames x
       first
       | (refine Evolves.cut (z := z) x ?_ ?_
          rotate_left
          intro _
          clear_value x
          rotate_left
          unfold x
          clear x)
       | clear_value x)
    | with_reducible apply mirrorFlush_evolves
    | with_reducible apply settlePrefixes_evolves
    | with_reducible apply dropBobbin_evolves
    | with_reducible apply State.modObj_evolves
    | with_reducible refine Evolves.ofSnd ?_ (by with_reducible assumption)
    | with_reducible refine Evolves.ofOptSnd ?_ (by with_reducible assumption)
    | with_reducible refine Evolves.ofOption ?_ (by with_reducible assumption)
    | with_reducible apply Evolves.some
    | with_reducible apply Evolves.none
    | with_reducible apply Evolves.mkSnd
    | with_reducible apply Evolves.projSnd
    | with_reducible apply Evolves.optSome
    | with_reducible apply Evolves.optNone
    | with_reducible apply Evolves.foldl
    | with_reducible apply Evolves.replyOk
    | with_reducible apply Evolves.replyFail
    | with_reducible apply Evolves.replyCounted
    | with_reducible apply Evolves.replyWait
    | with_reducible apply Evolves.next
    | with_reducible apply Evolves.fault
    | with_reducible apply Evolves.ite
    | (with_reducible exact Evolves.same ‹_› rfl rfl rfl rfl rfl) | split)

theorem doLeaves_evolves {z : State} (t : Stitch) (s : State) (h_ : Evolves z s) : Evolves z (doLeaves t s) := by
  unfold doLeaves
  repeat' (first
    | intro _ | with_reducible assumption | with_reducible apply freeBobbin_evolves
    | with_reducible apply Evolves.foldl | split)

theorem doJoins_evolves {z : State} (t : Stitch) (s : State) (h_ : Evolves z s) : Evolves z (doJoins t s) := by
  unfold doJoins
  refine Evolves.foldl _ _ _ h_ fun s j h => ?_
  split
  · rename_i e
    obtain ⟨b, _, hb⟩ := Option.bind_eq_some_iff.1 e
    exact mirrorFlush_evolves _ (Evolves.ofOption (placeBobbin_evolves b s h) hb)
  · refine modStitch_evolves _ _ _ (retireJoin_evolves _ _ _ ?_)
    split
    · exact h
    · exact countNoSpace_evolves _ _ h

theorem startStitch_evolves {z : State} (h : Handle) (t : Stitch) (s : State) (h_ : Evolves z s) : Evolves z
    (startStitch h t s) := by
  unfold startStitch
  repeat' (first
    | intro _ | with_reducible assumption
    | (extract_lets +onlyGivenNames x
       first
       | (refine Evolves.cut (z := z) x ?_ ?_
          rotate_left
          intro _
          clear_value x
          rotate_left
          unfold x
          clear x)
       | clear_value x)
    | with_reducible apply modPart_evolves | with_reducible apply modStitch_evolves
    | with_reducible apply State.modPower_evolves | with_reducible apply doJoins_evolves
    | with_reducible apply doLeaves_evolves | (with_reducible exact Evolves.same ‹_› rfl rfl rfl rfl rfl) | split)

theorem decide__evolves {z : State} (h : Handle) (s : State) (h_ : Evolves z s) : Evolves z (decide_ h s) := by
  unfold decide_
  repeat' (first
    | intro _ | with_reducible assumption | (refine Evolves.fwSame _ ?_ (fun h => h))
    | with_reducible apply chooseStitch_evolves | with_reducible apply startStitch_evolves
    | with_reducible refine Evolves.ofSnd ?_ (by with_reducible assumption)
    | with_reducible refine Evolves.ofOptSnd ?_ (by with_reducible assumption)
    | with_reducible refine Evolves.ofOption ?_ (by with_reducible assumption) | with_reducible apply Evolves.projSnd
    | with_reducible apply Evolves.mkSnd | with_reducible apply Evolves.optSome | with_reducible apply Evolves.optNone
    | (with_reducible exact Evolves.same ‹_› rfl rfl rfl rfl rfl) | split)

theorem bindSlots_evolves {z : State} (id : Nat) (l : List SlotRec) (s : State) (h_ : Evolves z s) :
    Evolves.snd z (bindSlots id l s) := by
  induction l generalizing s with
  | nil => exact h_
  | cons r l ih =>
    unfold bindSlots
    split
    · exact ih _ h_
    · exact ih _ (modItem_evolves _ _ _ (closePack_evolves _ _ h_))

theorem nextOrder_evolves {z : State} (s : State) (h_ : Evolves z s) : Evolves z (nextOrder s) := by
  unfold nextOrder
  repeat' (first
    | intro _ | with_reducible assumption | with_reducible apply State.modCtr_evolves
    | (with_reducible exact Evolves.same ‹_› rfl rfl rfl rfl rfl))

theorem relocate_evolves {z : State} (p : Partition) (m : Model) (r : Reloc) (base j : Nat) (s : State) (h_
    : Evolves z s) : Evolves z (relocate p m r base j s) := by
  unfold relocate
  repeat' (first
    | with_reducible assumption | with_reducible apply rawWrite_evolves | split)

theorem fillPlace_evolves {z : State} (p : Partition) (m : Model) (i : Nat) (s : State) (h_ : Evolves z s) :
    Evolves z (fillPlace p m i s) := by
  unfold fillPlace
  repeat' (first
    | intro _ | with_reducible assumption
    | (extract_lets +onlyGivenNames x
       first
       | (refine Evolves.cut (z := z) x ?_ ?_
          rotate_left
          intro _
          clear_value x
          rotate_left
          unfold x
          clear x)
       | clear_value x)
    | with_reducible apply hubCopy_evolves
    | with_reducible apply relocate_evolves
    | with_reducible refine Evolves.ofSnd ?_ (by with_reducible assumption)
    | with_reducible refine Evolves.ofOptSnd ?_ (by with_reducible assumption)
    | with_reducible refine Evolves.ofOption ?_ (by with_reducible assumption)
    | with_reducible apply Evolves.some
    | with_reducible apply Evolves.none
    | with_reducible apply Evolves.mkSnd
    | with_reducible apply Evolves.projSnd
    | with_reducible apply Evolves.optSome
    | with_reducible apply Evolves.optNone
    | with_reducible apply Evolves.foldl
    | with_reducible apply Evolves.replyOk
    | with_reducible apply Evolves.replyFail
    | with_reducible apply Evolves.replyCounted
    | with_reducible apply Evolves.replyWait
    | with_reducible apply Evolves.next
    | with_reducible apply Evolves.fault
    | with_reducible apply Evolves.ite
    | (with_reducible exact Evolves.same ‹_› rfl rfl rfl rfl rfl) | split)

theorem fillPlaces_evolves {z : State} (p : Partition) (m : Model) (s : State) (h_ : Evolves z s) : Evolves z
    (fillPlaces p m s) := by
  unfold fillPlaces
  repeat' (first
    | intro _ | with_reducible assumption | with_reducible apply fillPlace_evolves
    | with_reducible apply Evolves.foldl | split)

theorem writeTemplate_evolves {z : State} (p : Partition) (t : Stitch) (m : Model) (l : Template) (s : State) (h_ : Evolves z s) :
    Evolves z (writeTemplate p t m l s) := by
  unfold writeTemplate
  repeat' (first
    | intro _ | with_reducible assumption
    | (extract_lets +onlyGivenNames x
       first
       | (refine Evolves.cut (z := z) x ?_ ?_
          rotate_left
          intro _
          clear_value x
          rotate_left
          unfold x
          clear x)
       | clear_value x)
    | with_reducible apply hubStore_evolves
    | with_reducible refine Evolves.ofSnd ?_ (by with_reducible assumption)
    | with_reducible refine Evolves.ofOptSnd ?_ (by with_reducible assumption)
    | with_reducible refine Evolves.ofOption ?_ (by with_reducible assumption)
    | with_reducible apply Evolves.some
    | with_reducible apply Evolves.none
    | with_reducible apply Evolves.mkSnd
    | with_reducible apply Evolves.projSnd
    | with_reducible apply Evolves.optSome
    | with_reducible apply Evolves.optNone
    | with_reducible apply Evolves.foldl
    | with_reducible apply Evolves.replyOk
    | with_reducible apply Evolves.replyFail
    | with_reducible apply Evolves.replyCounted
    | with_reducible apply Evolves.replyWait
    | with_reducible apply Evolves.next
    | with_reducible apply Evolves.fault
    | with_reducible apply Evolves.ite
    | (with_reducible exact Evolves.same ‹_› rfl rfl rfl rfl rfl) | split)

theorem startCores_evolves {z : State} (p : Partition) (t : Stitch) (m : Model) (s : State) (h_ : Evolves z s) :
    Evolves z (startCores p t m s) :=
  Evolves.foldl _ _ _ h_ fun _ _ h => State.modCore_evolves _ _ _ (fun _ => ComputeCore.fresh_canonical _ _ _) h

theorem startSteps_evolves {z : State} (p : Partition) (id : Nat) (m : Model) (s : State) (h_ : Evolves z s)
    : Evolves z (startSteps p id m s) := by
  unfold startSteps
  repeat' (first
    | intro _ | with_reducible assumption
    | (extract_lets +onlyGivenNames x
       first
       | (refine Evolves.cut (z := z) x ?_ ?_
          rotate_left
          intro _
          clear_value x
          rotate_left
          unfold x
          clear x)
       | clear_value x)
    | with_reducible apply notRun_evolves | with_reducible apply modStitch_evolves
    | with_reducible apply loseAreas_evolves | with_reducible apply startCores_evolves
    | with_reducible apply writeTemplate_evolves | with_reducible apply Evolves.foldl
    | (with_reducible exact Evolves.same ‹_› rfl rfl rfl rfl rfl) | split)

theorem rerunStitch_evolves {z : State} (p : Partition) (t : Stitch) (m : Model) (s : State) (h_ : Evolves z s)
    : Evolves z (rerunStitch p t m s) := by
  unfold rerunStitch
  repeat' (first
    | intro _ | with_reducible assumption | with_reducible apply startSteps_evolves
    | with_reducible apply modStitch_evolves | with_reducible apply idleCores_evolves
    | (with_reducible exact Evolves.same ‹_› rfl rfl rfl rfl rfl))

theorem rerunFor_evolves {z : State} (kind unit handle : Nat) (p : Partition) (t : Stitch) (m : Model) (s : State)
    (h_ : Evolves z s) : Evolves z (rerunFor kind unit handle p t m s) := by
  unfold rerunFor
  repeat' (first
    | with_reducible assumption | with_reducible apply escalate_evolves | with_reducible apply rerunStitch_evolves
    | with_reducible apply contained_evolves | split)

end Sys2Proof.Machine
end

