-- ==== Sys2Proof/Laws/EvolveStitches.lean ====
section
/-! SUPPORT. What the operations of Sys2Proof.Machine.Stitches never undo. -/

namespace Sys2Proof.Machine

theorem partCreateBody_evolves {z : State} (h : Hdr) (r : PartReq) (s : State) (h_ : Evolves z s) : Evolves.reply z
    (partCreateBody h r s) := by
  unfold partCreateBody
  repeat' (first
    | intro _ | with_reducible assumption
    | (extract_lets +onlyGivenNames x
       first
       | (refine Evolves.cut (z := z) x ?_ ?_
          rotate_left
          intro _
          clear_value x
          rotate_left
          unfold x
          clear x)
       | clear_value x)
    | with_reducible apply issued_evolves | with_reducible apply State.modObj_evolves
    | with_reducible apply Evolves.replyOk | with_reducible apply Evolves.replyFail
    | (with_reducible exact Evolves.same ‹_› rfl rfl rfl rfl rfl) | split)

theorem partModifyBody_evolves {z : State} (h : Hdr) (r : PartReq) (s : State) (h_ : Evolves z s) : Evolves.reply z
    (partModifyBody h r s) := by
  unfold partModifyBody
  repeat' (first
    | intro _ | with_reducible assumption
    | (extract_lets +onlyGivenNames x
       first
       | (refine Evolves.cut (z := z) x ?_ ?_
          rotate_left
          intro _
          clear_value x
          rotate_left
          unfold x
          clear x)
       | clear_value x)
    | with_reducible apply modPart_evolves | with_reducible apply Evolves.replyOk
    | with_reducible apply Evolves.replyFail | (with_reducible exact Evolves.same ‹_› rfl rfl rfl rfl rfl) | split)

theorem dropPartition_evolves {z : State} (h : Handle) (s : State) (h_ : Evolves z s) : Evolves z
    (dropPartition h s) := by
  unfold dropPartition
  repeat' (first
    | intro _ | with_reducible assumption
    | (extract_lets +onlyGivenNames x
       first
       | (refine Evolves.cut (z := z) x ?_ ?_
          rotate_left
          intro _
          clear_value x
          rotate_left
          unfold x
          clear x)
       | clear_value x)
    | with_reducible apply checkLedger_evolves | with_reducible apply State.modObj_evolves
    | (with_reducible exact Evolves.same ‹_› rfl rfl rfl rfl rfl) | split)

theorem partRemoveBody_evolves {z : State} (h : Hdr) (r : PartReq) (s : State) (h_ : Evolves z s) : Evolves.reply z
    (partRemoveBody h r s) := by
  unfold partRemoveBody
  repeat' (first
    | with_reducible assumption
    | (extract_lets +onlyGivenNames x
       first
       | (refine Evolves.cut (z := z) x ?_ ?_
          rotate_left
          intro _
          clear_value x
          rotate_left
          unfold x
          clear x)
       | clear_value x)
    | with_reducible apply dropPartition_evolves | with_reducible apply Evolves.replyOk
    | with_reducible apply Evolves.replyFail | split)

theorem runPartitionSetCreate_evolves {z : State} (h : Hdr) (p : PartReq) (s : State) (h_ : Evolves z s) : Evolves z
    (runPartitionSetCreate h p s) := by
  unfold runPartitionSetCreate
  repeat' (first
    | with_reducible assumption | with_reducible apply serve_evolves | with_reducible apply partCreateBody_evolves)

theorem runPartitionSetModify_evolves {z : State} (h : Hdr) (p : PartReq) (s : State) (h_ : Evolves z s) : Evolves z
    (runPartitionSetModify h p s) := by
  unfold runPartitionSetModify
  repeat' (first
    | with_reducible assumption | with_reducible apply serve_evolves | with_reducible apply partModifyBody_evolves)

theorem runPartitionSetRemove_evolves {z : State} (h : Hdr) (p : PartReq) (s : State) (h_ : Evolves z s) : Evolves z
    (runPartitionSetRemove h p s) := by
  unfold runPartitionSetRemove
  repeat' (first
    | with_reducible assumption | with_reducible apply serve_evolves | with_reducible apply partRemoveBody_evolves)

theorem clientCreateBody_evolves {z : State} (h : Hdr) (classes weight : Nat) (s : State) (h_ : Evolves z s)
    : Evolves.reply z (clientCreateBody h classes weight s) := by
  unfold clientCreateBody
  repeat' (first
    | intro _ | with_reducible assumption
    | (extract_lets +onlyGivenNames x
       first
       | (refine Evolves.cut (z := z) x ?_ ?_
          rotate_left
          intro _
          clear_value x
          rotate_left
          unfold x
          clear x)
       | clear_value x)
    | with_reducible apply issued_evolves | with_reducible apply State.modObj_evolves
    | with_reducible apply Evolves.replyOk | with_reducible apply Evolves.replyFail
    | (with_reducible exact Evolves.same ‹_› rfl rfl rfl rfl rfl) | split)

theorem clientModifyBody_evolves {z : State} (h : Hdr) (client : Handle) (classes weight : Nat) (s : State) (h_
    : Evolves z s) : Evolves.reply z (clientModifyBody h client classes weight s) := by
  unfold clientModifyBody
  repeat' (first
    | intro _ | with_reducible assumption | with_reducible apply modClient_evolves
    | with_reducible apply Evolves.replyOk | with_reducible apply Evolves.replyFail
    | (with_reducible exact Evolves.same ‹_› rfl rfl rfl rfl rfl) | split)

theorem dropClient_evolves {z : State} (client : Handle) (s : State) (h_ : Evolves z s) : Evolves z
    (dropClient client s) := by
  unfold dropClient
  repeat' (first
    | intro _ | with_reducible assumption | with_reducible apply State.modObj_evolves
    | (with_reducible exact Evolves.same ‹_› rfl rfl rfl rfl rfl) | split)

theorem clientRemoveBody_evolves {z : State} (h : Hdr) (client : Handle) (s : State) (h_ : Evolves z s)
    : Evolves.reply z (clientRemoveBody h client s) := by
  unfold clientRemoveBody
  repeat' (first
    | intro _ | with_reducible assumption | with_reducible apply dropClient_evolves
    | with_reducible apply Evolves.replyOk | with_reducible apply Evolves.replyFail | split)

theorem clientStatsBody_evolves {z : State} (h : Hdr) (client : Handle) (s : State) (h_ : Evolves z s)
    : Evolves.reply z (clientStatsBody h client s) := by
  unfold clientStatsBody
  repeat' (first
    | with_reducible assumption | with_reducible apply Evolves.replyOk | with_reducible apply Evolves.replyFail
    | split)

theorem runClientSetCreate_evolves {z : State} (h : Hdr) (classes weight : Nat) (s : State) (h_ : Evolves z s)
    : Evolves z (runClientSetCreate h classes weight s) := by
  unfold runClientSetCreate
  repeat' (first
    | with_reducible assumption | with_reducible apply serve_evolves | with_reducible apply clientCreateBody_evolves)

theorem runClientSetModify_evolves {z : State} (h : Hdr) (client : Handle) (classes weight : Nat) (s : State) (h_
    : Evolves z s) : Evolves z (runClientSetModify h client classes weight s) := by
  unfold runClientSetModify
  repeat' (first
    | with_reducible assumption | with_reducible apply serve_evolves | with_reducible apply clientModifyBody_evolves)

theorem runClientSetRemove_evolves {z : State} (h : Hdr) (client : Handle) (s : State) (h_ : Evolves z s)
    : Evolves z (runClientSetRemove h client s) := by
  unfold runClientSetRemove
  repeat' (first
    | with_reducible assumption | with_reducible apply serve_evolves | with_reducible apply clientRemoveBody_evolves)

theorem runClientStats_evolves {z : State} (h : Hdr) (client : Handle) (s : State) (h_ : Evolves z s) : Evolves z
    (runClientStats h client s) := by
  unfold runClientStats
  repeat' (first
    | with_reducible assumption | with_reducible apply serve_evolves | with_reducible apply clientStatsBody_evolves)

theorem postJoins_evolves {z t : State} (sess model : Handle) (l : List JoinRec) (hs : List Handle) (s : State)
    (h_ : Evolves z s) (e : postJoins sess model l s = .ok (hs, t)) : Evolves z t := by
  induction l generalizing s hs t with
  | nil =>
    simp only [postJoins, Except.ok.injEq, Prod.mk.injEq] at e
    exact e.2 ▸ h_
  | cons j l ih =>
    unfold postJoins at e
    dsimp only at e
    split at e
    · cases e
    · split at e
      · cases e
      · rename_i hs' t' e'
        simp only [Except.ok.injEq, Prod.mk.injEq] at e
        exact e.2 ▸ ih _ _ (issued_evolves _ _ (State.modObj_evolves _ _ h_)) e'

theorem stitchPostBody_evolves {z : State} (h : Hdr) (r : StitchReq) (s : State) (h_ : Evolves z s) :
    Evolves.reply z (stitchPostBody h r s) := by
  unfold stitchPostBody
  split
  · exact True.intro
  · dsimp only
    split
    · exact True.intro
    · split
      · exact True.intro
      · rename_i e
        have h1 := postJoins_evolves _ _ _ _ _ h_ e
        split
        · exact True.intro
        · exact True.intro
        · exact State.modCtr_evolves _ _ (State.modObj_evolves _ _ h1)
  · exact True.intro

theorem runStitchPost_evolves {z : State} (h : Hdr) (r : StitchReq) (s : State) (h_ : Evolves z s) : Evolves z
    (runStitchPost h r s) := by
  unfold runStitchPost
  repeat' (first
    | with_reducible assumption | with_reducible apply serve_evolves | with_reducible apply stitchPostBody_evolves)

theorem cancelStitch_evolves {z : State} (t : Stitch) (s : State) (h_ : Evolves z s) :
    Evolves z (cancelStitch t s) := by
  unfold cancelStitch
  repeat' (first
    | intro _ | with_reducible assumption
    | (extract_lets +onlyGivenNames x
       first
       | (refine Evolves.cut (z := z) x ?_ ?_
          rotate_left
          intro _
          clear_value x
          rotate_left
          unfold x
          clear x)
       | clear_value x)
    | with_reducible apply retireJoin_evolves
    | with_reducible apply writeRecord_evolves
    | with_reducible refine Evolves.ofSnd ?_ (by with_reducible assumption)
    | with_reducible refine Evolves.ofOptSnd ?_ (by with_reducible assumption)
    | with_reducible refine Evolves.ofOption ?_ (by with_reducible assumption)
    | with_reducible apply Evolves.some
    | with_reducible apply Evolves.none
    | with_reducible apply Evolves.mkSnd
    | with_reducible apply Evolves.projSnd
    | with_reducible apply Evolves.optSome
    | with_reducible apply Evolves.optNone
    | with_reducible apply Evolves.foldl
    | with_reducible apply Evolves.replyOk
    | with_reducible apply Evolves.replyFail
    | with_reducible apply Evolves.replyCounted
    | with_reducible apply Evolves.replyWait
    | with_reducible apply Evolves.next
    | with_reducible apply Evolves.fault
    | with_reducible apply Evolves.ite
    | (with_reducible exact Evolves.same ‹_› rfl rfl rfl rfl rfl) | split)

theorem stitchCancelBody_evolves {z : State} (h : Hdr) (id : Nat) (s : State) (h_ : Evolves z s) :
    Evolves.reply z (stitchCancelBody h id s) := by
  unfold stitchCancelBody
  repeat' (first
    | intro _ | with_reducible assumption
    | with_reducible apply cancelStitch_evolves
    | with_reducible refine Evolves.ofSnd ?_ (by with_reducible assumption)
    | with_reducible refine Evolves.ofOptSnd ?_ (by with_reducible assumption)
    | with_reducible refine Evolves.ofOption ?_ (by with_reducible assumption)
    | with_reducible apply Evolves.some
    | with_reducible apply Evolves.none
    | with_reducible apply Evolves.mkSnd
    | with_reducible apply Evolves.projSnd
    | with_reducible apply Evolves.optSome
    | with_reducible apply Evolves.optNone
    | with_reducible apply Evolves.foldl
    | with_reducible apply Evolves.replyOk
    | with_reducible apply Evolves.replyFail
    | with_reducible apply Evolves.replyCounted
    | with_reducible apply Evolves.replyWait
    | with_reducible apply Evolves.next
    | with_reducible apply Evolves.fault
    | with_reducible apply Evolves.ite
    | (with_reducible exact Evolves.same ‹_› rfl rfl rfl rfl rfl) | split)

theorem runStitchCancel_evolves {z : State} (h : Hdr) (id : Nat) (s : State) (h_ : Evolves z s) : Evolves z
    (runStitchCancel h id s) := by
  unfold runStitchCancel
  repeat' (first
    | with_reducible assumption | with_reducible apply serve_evolves | with_reducible apply stitchCancelBody_evolves)

theorem dueDispatchDecision_evolves {z : State} (partition : Handle) (s : State) (h_ : Evolves z s) :
    Evolves.outcome z (dueDispatchDecision partition s) := by
  unfold dueDispatchDecision
  repeat' (first
    | intro _ | with_reducible assumption
    | with_reducible apply decide__evolves
    | with_reducible refine Evolves.ofSnd ?_ (by with_reducible assumption)
    | with_reducible refine Evolves.ofOptSnd ?_ (by with_reducible assumption)
    | with_reducible refine Evolves.ofOption ?_ (by with_reducible assumption)
    | with_reducible apply Evolves.mkSnd
    | with_reducible apply Evolves.projSnd
    | with_reducible apply Evolves.optSome
    | with_reducible apply Evolves.optNone
    | with_reducible apply Evolves.foldl
    | with_reducible apply Evolves.replyOk
    | with_reducible apply Evolves.replyFail
    | with_reducible apply Evolves.replyCounted
    | with_reducible apply Evolves.replyWait
    | with_reducible apply Evolves.next
    | with_reducible apply Evolves.fault
    | (with_reducible exact Evolves.same ‹_› rfl rfl rfl rfl rfl) | split)

theorem touchModel_evolves {z : State} (p : Partition) (m : Model) (s : State) (h_ : Evolves z s) : Evolves z
    (touchModel p m s) := by
  unfold touchModel
  repeat' (first
    | intro _ | with_reducible assumption | with_reducible apply nextOrder_evolves
    | with_reducible apply modPart_evolves | (with_reducible exact Evolves.same ‹_› rfl rfl rfl rfl rfl))

theorem startResidency_evolves {z : State} (p : Partition) (id : Nat) (m : Model) (s : State) (h_ : Evolves z s)
    : Evolves z (startResidency p id m s) := by
  unfold startResidency
  repeat' (first
    | intro _ | with_reducible assumption
    | (extract_lets +onlyGivenNames x
       first
       | (refine Evolves.cut (z := z) x ?_ ?_
          rotate_left
          intro _
          clear_value x
          rotate_left
          unfold x
          clear x)
       | clear_value x)
    | with_reducible apply touchModel_evolves | with_reducible apply startSteps_evolves
    | with_reducible apply notRun_evolves | with_reducible apply nextOrder_evolves
    | with_reducible apply modPart_evolves | with_reducible apply modStitch_evolves
    | (with_reducible exact Evolves.same ‹_› rfl rfl rfl rfl rfl) | split)

end Sys2Proof.Machine
end

