-- ==== Sys2Proof/Laws/EvolveMemEvents.lean ====
section
/-! SUPPORT. What the operations of Sys2Proof.Machine.MemEvents never undo. -/

namespace Sys2Proof.Machine

theorem streamPrepared_evolves {z : State} (pool : Handle) (addr gen : Nat) (s : State) (h_ : Evolves z s)
    : Evolves z (streamPrepared pool addr gen s) := by
  unfold streamPrepared
  repeat' (first
    | intro _ | with_reducible assumption
    | (extract_lets +onlyGivenNames x
       first
       | (refine Evolves.cut (z := z) x ?_ ?_
          rotate_left
          intro _
          clear_value x
          rotate_left
          unfold x
          clear x)
       | clear_value x)
    | with_reducible apply State.modObj_evolves | (with_reducible exact Evolves.same ‹_› rfl rfl rfl rfl rfl) | split)

theorem runPrepared_evolves {z : State} (e : TagExtent) (s : State) (h_ : Evolves z s) :
    Evolves z (runPrepared e s) := by
  unfold runPrepared
  repeat' (first
    | intro _ | with_reducible assumption
    | (extract_lets +onlyGivenNames x
       first
       | (refine Evolves.cut (z := z) x ?_ ?_
          rotate_left
          intro _
          clear_value x
          rotate_left
          unfold x
          clear x)
       | clear_value x)
    | with_reducible apply State.modObj_evolves
    | with_reducible refine Evolves.ofSnd ?_ (by with_reducible assumption)
    | with_reducible refine Evolves.ofOptSnd ?_ (by with_reducible assumption)
    | with_reducible refine Evolves.ofOption ?_ (by with_reducible assumption)
    | with_reducible apply Evolves.some
    | with_reducible apply Evolves.none
    | with_reducible apply Evolves.mkSnd
    | with_reducible apply Evolves.projSnd
    | with_reducible apply Evolves.optSome
    | with_reducible apply Evolves.optNone
    | with_reducible apply Evolves.foldl
    | with_reducible apply Evolves.replyOk
    | with_reducible apply Evolves.replyFail
    | with_reducible apply Evolves.replyCounted
    | with_reducible apply Evolves.replyWait
    | with_reducible apply Evolves.next
    | with_reducible apply Evolves.fault
    | with_reducible apply Evolves.ite
    | (with_reducible exact Evolves.same ‹_› rfl rfl rfl rfl rfl) | split)

theorem itemsPrepared_evolves {z : State} (e : TagExtent) (s : State) (h_ : Evolves z s) :
    Evolves z (itemsPrepared e s) := by
  unfold itemsPrepared
  repeat' (first
    | intro _ | with_reducible assumption
    | with_reducible apply flushItem_evolves
    | with_reducible refine Evolves.ofSnd ?_ (by with_reducible assumption)
    | with_reducible refine Evolves.ofOptSnd ?_ (by with_reducible assumption)
    | with_reducible refine Evolves.ofOption ?_ (by with_reducible assumption)
    | with_reducible apply Evolves.some
    | with_reducible apply Evolves.none
    | with_reducible apply Evolves.mkSnd
    | with_reducible apply Evolves.projSnd
    | with_reducible apply Evolves.optSome
    | with_reducible apply Evolves.optNone
    | with_reducible apply Evolves.foldl
    | with_reducible apply Evolves.replyOk
    | with_reducible apply Evolves.replyFail
    | with_reducible apply Evolves.replyCounted
    | with_reducible apply Evolves.replyWait
    | with_reducible apply Evolves.next
    | with_reducible apply Evolves.fault
    | with_reducible apply Evolves.ite
    | (with_reducible exact Evolves.same ‹_› rfl rfl rfl rfl rfl) | split)

theorem allocPrepared_evolves {z : State} (e : TagExtent) (s : State) (h_ : Evolves z s) :
    Evolves z (allocPrepared e s) := by
  unfold allocPrepared
  repeat' (first
    | intro _ | with_reducible assumption
    | (extract_lets +onlyGivenNames x
       first
       | (refine Evolves.cut (z := z) x ?_ ?_
          rotate_left
          intro _
          clear_value x
          rotate_left
          unfold x
          clear x)
       | clear_value x)
    | with_reducible apply itemsPrepared_evolves
    | with_reducible apply streamPrepared_evolves
    | with_reducible apply runPrepared_evolves
    | with_reducible apply answerLater_evolves
    | with_reducible refine Evolves.ofSnd ?_ (by with_reducible assumption)
    | with_reducible refine Evolves.ofOptSnd ?_ (by with_reducible assumption)
    | with_reducible refine Evolves.ofOption ?_ (by with_reducible assumption)
    | with_reducible apply Evolves.some
    | with_reducible apply Evolves.none
    | with_reducible apply Evolves.mkSnd
    | with_reducible apply Evolves.projSnd
    | with_reducible apply Evolves.optSome
    | with_reducible apply Evolves.optNone
    | with_reducible apply Evolves.foldl
    | with_reducible apply Evolves.replyOk
    | with_reducible apply Evolves.replyFail
    | with_reducible apply Evolves.replyCounted
    | with_reducible apply Evolves.replyWait
    | with_reducible apply Evolves.next
    | with_reducible apply Evolves.fault
    | with_reducible apply Evolves.ite
    | (with_reducible exact Evolves.same ‹_› rfl rfl rfl rfl rfl) | split)

theorem scrubDdr_evolves {z : State} (c : Nat) (finding : EccFinding) (s : State) (h_ : Evolves z s) :
    Evolves z (scrubDdr c finding s) := by
  unfold scrubDdr
  repeat' (first
    | intro _ | with_reducible assumption
    | (extract_lets +onlyGivenNames x
       first
       | (refine Evolves.cut (z := z) x ?_ ?_
          rotate_left
          intro _
          clear_value x
          rotate_left
          unfold x
          clear x)
       | clear_value x)
    | with_reducible apply accessLine_evolves
    | with_reducible apply upset_evolves
    | with_reducible apply State.modDdr_evolves
    | with_reducible refine Evolves.ofSnd ?_ (by with_reducible assumption)
    | with_reducible refine Evolves.ofOptSnd ?_ (by with_reducible assumption)
    | with_reducible refine Evolves.ofOption ?_ (by with_reducible assumption)
    | with_reducible apply Evolves.some
    | with_reducible apply Evolves.none
    | with_reducible apply Evolves.mkSnd
    | with_reducible apply Evolves.projSnd
    | with_reducible apply Evolves.optSome
    | with_reducible apply Evolves.optNone
    | with_reducible apply Evolves.foldl
    | with_reducible apply Evolves.replyOk
    | with_reducible apply Evolves.replyFail
    | with_reducible apply Evolves.replyCounted
    | with_reducible apply Evolves.replyWait
    | with_reducible apply Evolves.next
    | with_reducible apply Evolves.fault
    | with_reducible apply Evolves.ite
    | (with_reducible exact Evolves.same ‹_› rfl rfl rfl rfl rfl) | split)

theorem scrubPillow_evolves {z : State} (k : Nat) (finding : EccFinding) (s : State) (h_ : Evolves z s) :
    Evolves z (scrubPillow k finding s) := by
  unfold scrubPillow
  repeat' (first
    | intro _ | with_reducible assumption
    | (extract_lets +onlyGivenNames x
       first
       | (refine Evolves.cut (z := z) x ?_ ?_
          rotate_left
          intro _
          clear_value x
          rotate_left
          unfold x
          clear x)
       | clear_value x)
    | with_reducible apply accessLine_evolves
    | with_reducible apply upset_evolves
    | with_reducible apply State.modPil_evolves
    | with_reducible refine Evolves.ofSnd ?_ (by with_reducible assumption)
    | with_reducible refine Evolves.ofOptSnd ?_ (by with_reducible assumption)
    | with_reducible refine Evolves.ofOption ?_ (by with_reducible assumption)
    | with_reducible apply Evolves.some
    | with_reducible apply Evolves.none
    | with_reducible apply Evolves.mkSnd
    | with_reducible apply Evolves.projSnd
    | with_reducible apply Evolves.optSome
    | with_reducible apply Evolves.optNone
    | with_reducible apply Evolves.foldl
    | with_reducible apply Evolves.replyOk
    | with_reducible apply Evolves.replyFail
    | with_reducible apply Evolves.replyCounted
    | with_reducible apply Evolves.replyWait
    | with_reducible apply Evolves.next
    | with_reducible apply Evolves.fault
    | with_reducible apply Evolves.ite
    | (with_reducible exact Evolves.same ‹_› rfl rfl rfl rfl rfl) | split)

theorem bar2Read_evolves {z : State} (offset size : Nat) (ecc : List (Nat × EccFinding)) (s : State) (h_ : Evolves z s) :
    Evolves z (bar2Read offset size ecc s) := by
  unfold bar2Read
  repeat' (first
    | intro _ | with_reducible assumption
    | (extract_lets +onlyGivenNames x
       first
       | (refine Evolves.cut (z := z) x ?_ ?_
          rotate_left
          intro _
          clear_value x
          rotate_left
          unfold x
          clear x)
       | clear_value x)
    | with_reducible apply unsupported_evolves
    | with_reducible apply accessPieces_evolves
    | with_reducible apply carry_evolves
    | with_reducible apply upset_evolves
    | with_reducible apply State.push_evolves
    | with_reducible apply readData_evolves
    | with_reducible refine Evolves.ofSnd ?_ (by with_reducible assumption)
    | with_reducible refine Evolves.ofOptSnd ?_ (by with_reducible assumption)
    | with_reducible refine Evolves.ofOption ?_ (by with_reducible assumption)
    | with_reducible apply Evolves.some
    | with_reducible apply Evolves.none
    | with_reducible apply Evolves.mkSnd
    | with_reducible apply Evolves.projSnd
    | with_reducible apply Evolves.optSome
    | with_reducible apply Evolves.optNone
    | with_reducible apply Evolves.foldl
    | with_reducible apply Evolves.replyOk
    | with_reducible apply Evolves.replyFail
    | with_reducible apply Evolves.replyCounted
    | with_reducible apply Evolves.replyWait
    | with_reducible apply Evolves.next
    | with_reducible apply Evolves.fault
    | with_reducible apply Evolves.ite
    | (with_reducible exact Evolves.same ‹_› rfl rfl rfl rfl rfl) | split)

theorem bar2Pieces_evolves {z : State} (lostTags : List Nat) (poisoned : Bool) (v0 : List (Nat × Nat)) (v1 : List Byte) (s : State) (h_ : Evolves z s) :
    Evolves z (bar2Pieces lostTags poisoned v0 v1 s) := by
  induction v0 generalizing v1 s with
  | nil =>
    unfold bar2Pieces
    repeat' (first
      | intro _ | with_reducible assumption
      | (extract_lets +onlyGivenNames x
         first
         | (refine Evolves.cut (z := z) x ?_ ?_
            rotate_left
            intro _
            clear_value x
            rotate_left
            unfold x
            clear x)
         | clear_value x)
      | with_reducible apply pieceWrite_evolves
      | with_reducible apply overflowCheck_evolves
      | with_reducible apply poisonLine_evolves
      | with_reducible refine Evolves.ofSnd ?_ (by with_reducible assumption)
      | with_reducible refine Evolves.ofOptSnd ?_ (by with_reducible assumption)
      | with_reducible refine Evolves.ofOption ?_ (by with_reducible assumption)
      | with_reducible apply Evolves.some
      | with_reducible apply Evolves.none
      | with_reducible apply Evolves.mkSnd
      | with_reducible apply Evolves.projSnd
      | with_reducible apply Evolves.optSome
      | with_reducible apply Evolves.optNone
      | with_reducible apply Evolves.foldl
      | with_reducible apply Evolves.replyOk
      | with_reducible apply Evolves.replyFail
      | with_reducible apply Evolves.replyCounted
      | with_reducible apply Evolves.replyWait
      | with_reducible apply Evolves.next
      | with_reducible apply Evolves.fault
      | with_reducible apply Evolves.ite
      | (with_reducible exact Evolves.same ‹_› rfl rfl rfl rfl rfl) | split)
  | cons a l ih =>
    unfold bar2Pieces
    repeat' (first
      | intro _ | with_reducible assumption | with_reducible apply ih
      | (extract_lets +onlyGivenNames x
         first
         | (refine Evolves.cut (z := z) x ?_ ?_
            rotate_left
            intro _
            clear_value x
            rotate_left
            unfold x
            clear x)
         | clear_value x)
      | with_reducible apply pieceWrite_evolves
      | with_reducible apply overflowCheck_evolves
      | with_reducible apply poisonLine_evolves
      | with_reducible refine Evolves.ofSnd ?_ (by with_reducible assumption)
      | with_reducible refine Evolves.ofOptSnd ?_ (by with_reducible assumption)
      | with_reducible refine Evolves.ofOption ?_ (by with_reducible assumption)
      | with_reducible apply Evolves.some
      | with_reducible apply Evolves.none
      | with_reducible apply Evolves.mkSnd
      | with_reducible apply Evolves.projSnd
      | with_reducible apply Evolves.optSome
      | with_reducible apply Evolves.optNone
      | with_reducible apply Evolves.foldl
      | with_reducible apply Evolves.replyOk
      | with_reducible apply Evolves.replyFail
      | with_reducible apply Evolves.replyCounted
      | with_reducible apply Evolves.replyWait
      | with_reducible apply Evolves.next
      | with_reducible apply Evolves.fault
      | with_reducible apply Evolves.ite
      | (with_reducible exact Evolves.same ‹_› rfl rfl rfl rfl rfl) | split)

theorem bar2Write_evolves {z : State} (offset : Nat) (data : List Byte) (poison : Option (List Byte)) (ecc : List (Nat × EccFinding)) (s : State) (h_ : Evolves z s) :
    Evolves.outcome z (bar2Write offset data poison ecc s) := by
  unfold bar2Write
  repeat' (first
    | intro _ | with_reducible assumption
    | (extract_lets +onlyGivenNames x
       first
       | (refine Evolves.cut (z := z) x ?_ ?_
          rotate_left
          intro _
          clear_value x
          rotate_left
          unfold x
          clear x)
       | clear_value x)
    | with_reducible apply unsupported_evolves
    | with_reducible apply poisonedTlp_evolves
    | with_reducible apply carry_evolves
    | with_reducible apply upset_evolves
    | with_reducible apply accessPieces_evolves
    | with_reducible apply uncorrectable_evolves
    | with_reducible apply bar2Pieces_evolves
    | with_reducible refine Evolves.ofSnd ?_ (by with_reducible assumption)
    | with_reducible refine Evolves.ofOptSnd ?_ (by with_reducible assumption)
    | with_reducible refine Evolves.ofOption ?_ (by with_reducible assumption)
    | with_reducible apply Evolves.some
    | with_reducible apply Evolves.none
    | with_reducible apply Evolves.mkSnd
    | with_reducible apply Evolves.projSnd
    | with_reducible apply Evolves.optSome
    | with_reducible apply Evolves.optNone
    | with_reducible apply Evolves.foldl
    | with_reducible apply Evolves.replyOk
    | with_reducible apply Evolves.replyFail
    | with_reducible apply Evolves.replyCounted
    | with_reducible apply Evolves.replyWait
    | with_reducible apply Evolves.next
    | with_reducible apply Evolves.fault
    | with_reducible apply Evolves.ite
    | (with_reducible exact Evolves.same ‹_› rfl rfl rfl rfl rfl) | split)

theorem b2Write_evolves {z : State} (offset size value : Nat) (s : State) (h_ : Evolves z s) :
    Evolves.outcome z (b2Write offset size value s) := by
  unfold b2Write
  repeat' (first
    | intro _ | with_reducible assumption
    | (extract_lets +onlyGivenNames x
       first
       | (refine Evolves.cut (z := z) x ?_ ?_
          rotate_left
          intro _
          clear_value x
          rotate_left
          unfold x
          clear x)
       | clear_value x)
    | with_reducible refine Evolves.ofSnd ?_ (by with_reducible assumption)
    | with_reducible refine Evolves.ofOptSnd ?_ (by with_reducible assumption)
    | with_reducible refine Evolves.ofOption ?_ (by with_reducible assumption)
    | with_reducible apply Evolves.some
    | with_reducible apply Evolves.none
    | with_reducible apply Evolves.mkSnd
    | with_reducible apply Evolves.projSnd
    | with_reducible apply Evolves.optSome
    | with_reducible apply Evolves.optNone
    | with_reducible apply Evolves.foldl
    | with_reducible apply Evolves.replyOk
    | with_reducible apply Evolves.replyFail
    | with_reducible apply Evolves.replyCounted
    | with_reducible apply Evolves.replyWait
    | with_reducible apply Evolves.next
    | with_reducible apply Evolves.fault
    | with_reducible apply Evolves.ite
    | (refine Evolves.hostSame _ ?_ (fun h => h))
    | (with_reducible exact Evolves.same ‹_› rfl rfl rfl rfl rfl) | split)

theorem barSizeWrite_evolves {z : State} (value : Nat) (s : State) (h_ : Evolves z s) : Evolves.outcome z
    (barSizeWrite value s) := by
  unfold barSizeWrite
  repeat' (first
    | intro _ | with_reducible assumption | (refine Evolves.hostSame _ ?_ (fun h => h))
    | with_reducible apply State.modPcie_evolves | with_reducible apply Evolves.next
    | with_reducible apply Evolves.fault | (with_reducible exact Evolves.same ‹_› rfl rfl rfl rfl rfl) | split)

end Sys2Proof.Machine
end

