-- ==== Sys2Proof/Laws/EvolveShuttle.lean ====
section
/-! SUPPORT. What the operations of Sys2Proof.Machine.Shuttle never undo. -/

namespace Sys2Proof.Machine

theorem modShuttle_evolves {z : State} (n sh : Nat) (f : List ShuttleJob → List ShuttleJob) (s : State) (h_
    : Evolves z s) : Evolves z (modShuttle n sh f s) := by
  unfold modShuttle
  repeat' (first
    | intro _ | with_reducible assumption | with_reducible apply ComputeCore.modQueue_canonical
    | with_reducible apply State.modCore_evolves
    | (exact ComputeCore.canonical_like ‹ComputeCore.canonical _ = true› rfl rfl rfl rfl))

theorem countStale_evolves {z : State} (ptr off : Nat) (s : State) (h_ : Evolves z s) : Evolves z
    (countStale ptr off s) := by
  unfold countStale
  repeat' (first
    | intro _ | with_reducible assumption | with_reducible apply State.modDdr_evolves
    | (with_reducible exact Evolves.same ‹_› rfl rfl rfl rfl rfl))

theorem spreadPoison_evolves {z : State} (bad : List (Nat × Nat)) (dst : List (Nat × Nat)) (s : State) (h_
    : Evolves z s) : Evolves z (spreadPoison bad dst s) := by
  unfold spreadPoison
  repeat' (first
    | intro _ | with_reducible assumption | with_reducible apply poisonLine_evolves
    | with_reducible apply Evolves.foldl | split)

theorem poisonRerun_evolves {z : State} (p : Partition) (t : Stitch) (m : Model) (bad : List (Nat × Nat)) (s : State) (h_ : Evolves z s) :
    Evolves.option z (poisonRerun p t m bad s) := by
  unfold poisonRerun
  repeat' (first
    | intro _ | with_reducible assumption
    | with_reducible apply rerunFor_evolves
    | with_reducible apply fillPlace_evolves
    | with_reducible refine Evolves.ofSnd ?_ (by with_reducible assumption)
    | with_reducible refine Evolves.ofOptSnd ?_ (by with_reducible assumption)
    | with_reducible refine Evolves.ofOption ?_ (by with_reducible assumption)
    | with_reducible apply Evolves.some
    | with_reducible apply Evolves.none
    | with_reducible apply Evolves.mkSnd
    | with_reducible apply Evolves.projSnd
    | with_reducible apply Evolves.optSome
    | with_reducible apply Evolves.optNone
    | with_reducible apply Evolves.foldl
    | with_reducible apply Evolves.replyOk
    | with_reducible apply Evolves.replyFail
    | with_reducible apply Evolves.replyCounted
    | with_reducible apply Evolves.replyWait
    | with_reducible apply Evolves.next
    | with_reducible apply Evolves.fault
    | with_reducible apply Evolves.ite
    | (with_reducible exact Evolves.same ‹_› rfl rfl rfl rfl rfl) | split)

theorem moveBytes_evolves {z : State} (n : Nat) (p : Partition) (t : Stitch) (m : Model) (ecc : List (Nat × EccFinding)) (src cnt dst pad : Nat) (s : State) (h_ : Evolves z s) :
    Evolves z (moveBytes n p t m ecc src cnt dst pad s) := by
  unfold moveBytes
  repeat' (first
    | intro _ | with_reducible assumption
    | (extract_lets +onlyGivenNames x
       first
       | (refine Evolves.cut (z := z) x ?_ ?_
          rotate_left
          intro _
          clear_value x
          rotate_left
          unfold x
          clear x)
       | clear_value x)
    | with_reducible apply stopStitch_evolves
    | with_reducible apply accessPieces_evolves
    | with_reducible apply upset_evolves
    | with_reducible apply poisonRerun_evolves
    | with_reducible apply carry_evolves
    | with_reducible apply uncorrectable_evolves
    | with_reducible apply spreadPoison_evolves
    | with_reducible apply piecesWrite_evolves
    | with_reducible apply countStale_evolves
    | with_reducible refine Evolves.ofSnd ?_ (by with_reducible assumption)
    | with_reducible refine Evolves.ofOptSnd ?_ (by with_reducible assumption)
    | with_reducible refine Evolves.ofOption ?_ (by with_reducible assumption)
    | with_reducible apply Evolves.some
    | with_reducible apply Evolves.none
    | with_reducible apply Evolves.mkSnd
    | with_reducible apply Evolves.projSnd
    | with_reducible apply Evolves.optSome
    | with_reducible apply Evolves.optNone
    | with_reducible apply Evolves.foldl
    | with_reducible apply Evolves.replyOk
    | with_reducible apply Evolves.replyFail
    | with_reducible apply Evolves.replyCounted
    | with_reducible apply Evolves.replyWait
    | with_reducible apply Evolves.next
    | with_reducible apply Evolves.fault
    | with_reducible apply Evolves.ite
    | (with_reducible exact Evolves.same ‹_› rfl rfl rfl rfl rfl) | split)

theorem gatherRun_evolves {z : State} (n : Nat) (p : Partition) (t : Stitch) (m : Model) (d : Desc) (e dst : Nat) (s : State) (h_ : Evolves z s) :
    Evolves z (gatherRun n p t m d e dst s) := by
  unfold gatherRun
  repeat' (first
    | intro _ | with_reducible assumption
    | (extract_lets +onlyGivenNames x
       first
       | (refine Evolves.cut (z := z) x ?_ ?_
          rotate_left
          intro _
          clear_value x
          rotate_left
          unfold x
          clear x)
       | clear_value x)
    | with_reducible apply poisonRerun_evolves
    | with_reducible apply moveBytes_evolves
    | with_reducible apply uncorrectable_evolves
    | with_reducible refine Evolves.ofSnd ?_ (by with_reducible assumption)
    | with_reducible refine Evolves.ofOptSnd ?_ (by with_reducible assumption)
    | with_reducible refine Evolves.ofOption ?_ (by with_reducible assumption)
    | with_reducible apply Evolves.some
    | with_reducible apply Evolves.none
    | with_reducible apply Evolves.mkSnd
    | with_reducible apply Evolves.projSnd
    | with_reducible apply Evolves.optSome
    | with_reducible apply Evolves.optNone
    | with_reducible apply Evolves.foldl
    | with_reducible apply Evolves.replyOk
    | with_reducible apply Evolves.replyFail
    | with_reducible apply Evolves.replyCounted
    | with_reducible apply Evolves.replyWait
    | with_reducible apply Evolves.next
    | with_reducible apply Evolves.fault
    | with_reducible apply Evolves.ite
    | (with_reducible exact Evolves.same ‹_› rfl rfl rfl rfl rfl) | split)

theorem moveRun_evolves {z : State} (p : Partition) (t : Stitch) (m : Model) (ecc : List (Nat × EccFinding)) (n i : Nat) (j : ShuttleJob) (s : State) (h_ : Evolves z s) :
    Evolves z (moveRun p t m ecc n i j s) := by
  unfold moveRun
  repeat' (first
    | intro _ | with_reducible assumption
    | (extract_lets +onlyGivenNames x
       first
       | (refine Evolves.cut (z := z) x ?_ ?_
          rotate_left
          intro _
          clear_value x
          rotate_left
          unfold x
          clear x)
       | clear_value x)
    | with_reducible apply stopStitch_evolves
    | with_reducible apply accessPieces_evolves
    | with_reducible apply carry_evolves
    | with_reducible apply upset_evolves
    | with_reducible apply countStale_evolves
    | with_reducible apply gatherRun_evolves
    | with_reducible apply moveBytes_evolves
    | with_reducible refine Evolves.ofSnd ?_ (by with_reducible assumption)
    | with_reducible refine Evolves.ofOptSnd ?_ (by with_reducible assumption)
    | with_reducible refine Evolves.ofOption ?_ (by with_reducible assumption)
    | with_reducible apply Evolves.some
    | with_reducible apply Evolves.none
    | with_reducible apply Evolves.mkSnd
    | with_reducible apply Evolves.projSnd
    | with_reducible apply Evolves.optSome
    | with_reducible apply Evolves.optNone
    | with_reducible apply Evolves.foldl
    | with_reducible apply Evolves.replyOk
    | with_reducible apply Evolves.replyFail
    | with_reducible apply Evolves.replyCounted
    | with_reducible apply Evolves.replyWait
    | with_reducible apply Evolves.next
    | with_reducible apply Evolves.fault
    | with_reducible apply Evolves.ite
    | (with_reducible exact Evolves.same ‹_› rfl rfl rfl rfl rfl) | split)

theorem popShuttle_evolves {z : State} (n sh : Nat) (s : State) (h_ : Evolves z s) : Evolves z (popShuttle n sh s)
    := by
  unfold popShuttle
  repeat' (first
    | intro _ | with_reducible assumption | with_reducible apply modShuttle_evolves)

theorem modHead_evolves {z : State} (n sh : Nat) (f : ShuttleJob → ShuttleJob) (s : State) (h_ : Evolves z s)
    : Evolves z (modHead n sh f s) := by
  unfold modHead
  repeat' (first
    | intro _ | with_reducible assumption | with_reducible apply modShuttle_evolves | split)

theorem submitJob_evolves {z : State} (p : Partition) (n sh : Nat) (t : Stitch) (ptr : Nat) (s : State) (h_ : Evolves z s) :
    Evolves z (submitJob p n sh t ptr s) := Evolves.ppuSame _ h_ (SMap.wf_modify _ _)

end Sys2Proof.Machine
end

