-- ==== Sys2Proof/Laws/EvolveControl.lean ====
section
/-! SUPPORT. What the operations of Sys2Proof.Machine.Control never undo. -/

namespace Sys2Proof.Machine


end Sys2Proof.Machine
end

