-- ==== Sys2Proof/Laws/EvolveDrains.lean ====
section
/-! SUPPORT. What the operations of Sys2Proof.Machine.Drains never undo. -/

namespace Sys2Proof.Machine

theorem issueDrain_evolves {z : State} (c : Slot) (form : Nat) (d : DrainOp) (s : State) (h_ : Evolves z s) :
    Evolves z (issueDrain c form d s) := by
  refine slotOp_evolves _ _ _ (fun p t m s h => ?_) h_
  dsimp only
  split
  · exact True.intro
  · refine State.modCore_evolves _ _ _ (fun h => ?_) h
    obtain ⟨h1, h2, h3, h4⟩ := (ComputeCore.canonical_iff _).1 h
    refine (ComputeCore.canonical_iff _).2 ⟨h1, h2, h3, ?_⟩
    dsimp only [ComputeCore.modArray]
    exact SMap.wf_modify _ _ h4

theorem writePart_evolves {z : State} (core : Nat) (d : Draining) (r g : Nat) (bytes : List Byte) (s : State)
    (h_ : Evolves z s) : Evolves z (writePart core d r g bytes s) := by
  unfold writePart
  split
  · exact State.modCore_evolves _ _ _ (fun h => ComputeCore.setVreg_canonical _ _ h) h_
  · exact scratchWrite_evolves _ _ _ _ h_

theorem drainWrite_evolves {z : State} (withheld : List Nat) (core g : Nat) (a : Draining × State) (h_ : Evolves.snd z a) :
    Evolves.snd z (drainWrite withheld core g a) := by
  unfold drainWrite
  dsimp only
  split
  · exact h_
  · split
    · exact h_
    · exact writePart_evolves _ _ _ _ _ _ h_

theorem drainBeat_evolves {z : State} (withheld : List Nat) (core : Nat) (d : Draining) (h : Hoop) (s : State)
    (h_ : Evolves z s) : Evolves z (drainBeat withheld core d h s).2.2 := by
  have k : ∀ (l : List Nat) (a : Draining × State), Evolves.snd z a →
      Evolves.snd z (l.foldl (fun a g => drainWrite withheld core g a) a) := by
    intro l
    induction l with
    | nil => exact fun _ h => h
    | cons g l ih => exact fun a h => ih _ (drainWrite_evolves withheld core g a h)
  unfold drainBeat
  generalize List.range 4 = l
  dsimp only
  exact k l _ h_

theorem drainBeats_evolves {z : State} (withheld : List Nat) (core n : Nat) (d : Draining) (h : Hoop) (s : State)
    (h_ : Evolves z s) : Evolves z (drainBeats withheld core n d h s).2.2 := by
  induction n generalizing d h s with
  | zero => exact h_
  | succ n ih =>
    have k := drainBeat_evolves withheld core d h s h_
    rw [drainBeats]
    generalize drainBeat withheld core d h s = x at k ⊢
    obtain ⟨d', h', s'⟩ := x
    dsimp only at k ⊢
    split
    · exact k
    · exact ih _ _ _ k

theorem drainOn_evolves {z : State} (withheld : List Nat) (core array : Nat) (sat : Bool) (d : Draining) (s : State)
    (h_ : Evolves z s) : Evolves z (drainOn withheld core array sat d s) := by
  have k := drainBeats_evolves (z := z) withheld core 96 d (((s.core core).array array).hoopOf d.req.hoop) s h_
  unfold drainOn
  generalize drainBeats withheld core 96 d (((s.core core).array array).hoopOf d.req.hoop) s = x at k ⊢
  obtain ⟨d', h', s'⟩ := x
  dsimp only at k ⊢
  refine State.modCore_evolves _ _ _ (fun h => ComputeCore.takeRows_canonical _ _ ?_) k
  split
  · obtain ⟨h1, h2, h3, h4⟩ := (ComputeCore.canonical_iff _).1 h
    refine (ComputeCore.canonical_iff _).2 ⟨h1, h2, h3, ?_⟩
    dsimp only [ComputeCore.modArray]
    exact SMap.wf_modify _ _ h4
  · exact ComputeCore.modArray_canonical _ _ h

end Sys2Proof.Machine
end

