-- ==== Sys2Proof/Laws/EvolvePpu.lean ====
section
/-! SUPPORT. What the operations of Sys2Proof.Machine.Ppu never undo. -/

namespace Sys2Proof.Machine

theorem modJob_evolves {z : State} (stack : Nat) (f : PpuJob → Option PpuJob) (s : State) (h_ : Evolves z s) :
    Evolves z (modJob stack f s) := Evolves.ppuSame _ h_ (SMap.wf_modify _ _)

theorem writeResults_evolves {z : State} (lostTags : List Nat) (p : Partition) (o : PpuOp) (rs : List (List Byte))
    (s : State) (h_ : Evolves z s) : Evolves z (writeResults lostTags p o rs s) :=
  piecesWrite_evolves _ _ _ _ (piecesWrite_evolves _ _ _ _ h_)

theorem closePpuJob_evolves {z : State} (p : Partition) (owner : Option (Partition × Stitch × Model)) (stack : Nat)
    (o : PpuOp) (rs : List (List Byte)) (ins outs : List (Nat × Nat)) (lostTags : List Nat) (s : State)
    (h_ : Evolves z s) : Evolves z (closePpuJob p owner stack o rs ins outs lostTags s) := by
  have h := modJob_evolves (z := z) stack (fun j => some { j with done := true }) s h_
  unfold closePpuJob
  dsimp only
  split
  · rename_i e
    obtain ⟨x, _, hx⟩ := Option.bind_eq_some_iff.1 e
    exact Evolves.ofOption (poisonRerun_evolves _ _ _ _ _ h) hx
  · exact uncorrectable_evolves _ _ (writeResults_evolves _ _ _ _ _ h)

theorem runJob_evolves {z : State} (op stack : Nat) (ecc : List (Nat × EccFinding)) (s : State) (h_ : Evolves z s) :
    Evolves z (runJob op stack ecc s) := by
  unfold runJob
  repeat' (first
    | intro _ | with_reducible assumption
    | (extract_lets +onlyGivenNames x
       first
       | (refine Evolves.cut (z := z) x ?_ ?_
          rotate_left
          intro _
          clear_value x
          rotate_left
          unfold x
          clear x)
       | clear_value x)
    | with_reducible apply accessPieces_evolves
    | with_reducible apply carry_evolves
    | with_reducible apply upset_evolves
    | with_reducible apply modJob_evolves
    | with_reducible apply countStale_evolves
    | with_reducible apply stopStitch_evolves
    | with_reducible apply closePpuJob_evolves
    | with_reducible refine Evolves.ofSnd ?_ (by with_reducible assumption)
    | with_reducible refine Evolves.ofOptSnd ?_ (by with_reducible assumption)
    | with_reducible refine Evolves.ofOption ?_ (by with_reducible assumption)
    | with_reducible apply Evolves.some
    | with_reducible apply Evolves.none
    | with_reducible apply Evolves.mkSnd
    | with_reducible apply Evolves.projSnd
    | with_reducible apply Evolves.optSome
    | with_reducible apply Evolves.optNone
    | with_reducible apply Evolves.foldl
    | with_reducible apply Evolves.replyOk
    | with_reducible apply Evolves.replyFail
    | with_reducible apply Evolves.replyCounted
    | with_reducible apply Evolves.replyWait
    | with_reducible apply Evolves.next
    | with_reducible apply Evolves.fault
    | with_reducible apply Evolves.ite
    | (with_reducible exact Evolves.same ‹_› rfl rfl rfl rfl rfl) | split)

end Sys2Proof.Machine
end

