-- ==== Sys2Proof/Laws/EvolveModels.lean ====
section
/-! SUPPORT. What the operations of Sys2Proof.Machine.Models never undo. -/

namespace Sys2Proof.Machine

theorem fillDdr_evolves {z : State} (p : Pricking) (m : Model) (s : State) (h_ : Evolves z s) :
    Evolves z (fillDdr p m s) := by
  unfold fillDdr
  repeat' (first
    | intro _ | with_reducible assumption
    | (extract_lets +onlyGivenNames x
       first
       | (refine Evolves.cut (z := z) x ?_ ?_
          rotate_left
          intro _
          clear_value x
          rotate_left
          unfold x
          clear x)
       | clear_value x)
    | with_reducible apply hubStore_evolves
    | with_reducible apply rawWrite_evolves
    | with_reducible refine Evolves.ofSnd ?_ (by with_reducible assumption)
    | with_reducible refine Evolves.ofOptSnd ?_ (by with_reducible assumption)
    | with_reducible refine Evolves.ofOption ?_ (by with_reducible assumption)
    | with_reducible apply Evolves.some
    | with_reducible apply Evolves.none
    | with_reducible apply Evolves.mkSnd
    | with_reducible apply Evolves.projSnd
    | with_reducible apply Evolves.optSome
    | with_reducible apply Evolves.optNone
    | with_reducible apply Evolves.foldl
    | with_reducible apply Evolves.replyOk
    | with_reducible apply Evolves.replyFail
    | with_reducible apply Evolves.replyCounted
    | with_reducible apply Evolves.replyWait
    | with_reducible apply Evolves.next
    | with_reducible apply Evolves.fault
    | with_reducible apply Evolves.ite
    | (with_reducible exact Evolves.same ‹_› rfl rfl rfl rfl rfl) | split)

theorem loadDone_evolves {z : State} (session : Handle) (img : List Byte) (total : Nat) (s : State) (h_
    : Evolves z s) : Evolves.reply z (loadDone session img total s) := by
  unfold loadDone
  repeat' (first
    | intro _ | with_reducible assumption
    | (extract_lets +onlyGivenNames x
       first
       | (refine Evolves.cut (z := z) x ?_ ?_
          rotate_left
          intro _
          clear_value x
          rotate_left
          unfold x
          clear x)
       | clear_value x)
    | with_reducible apply nextOrder_evolves | with_reducible apply issued_evolves
    | with_reducible apply State.modObj_evolves | with_reducible apply fillDdr_evolves
    | with_reducible apply Evolves.replyOk | with_reducible apply Evolves.replyFail
    | (with_reducible exact Evolves.same ‹_› rfl rfl rfl rfl rfl) | split)

theorem loadLater_evolves {z : State} (h : Hdr) (img : List Byte) (total : Nat) (s : State) (h_ : Evolves z s) :
    Evolves z (loadLater h img total s) := by
  have hb := loadDone_evolves (z := z) h.session img total s h_
  unfold loadLater
  split <;> rename_i heq <;> rw [heq] at hb
  · exact answer_evolves _ _ _ _ _ _ hb
  · exact answer_evolves _ _ _ _ _ _ h_
  · exact answer_evolves _ _ _ _ _ _ hb
  · exact hb

theorem modelLoadBody_evolves {z : State} (h : Hdr) (entries : List (Nat × Nat)) (total : Nat) (image : Option
    (List Byte)) (s : State) (h_ : Evolves z s) : Evolves.reply z (modelLoadBody h entries total image s) := by
  unfold modelLoadBody
  repeat' (first
    | intro _ | with_reducible assumption
    | (extract_lets +onlyGivenNames x
       first
       | (refine Evolves.cut (z := z) x ?_ ?_
          rotate_left
          intro _
          clear_value x
          rotate_left
          unfold x
          clear x)
       | clear_value x)
    | with_reducible apply instantReads_evolves | with_reducible apply loadDone_evolves
    | with_reducible apply startLong_evolves | with_reducible apply startReads_evolves
    | with_reducible apply Evolves.replyFail | with_reducible apply Evolves.replyCounted
    | with_reducible apply Evolves.replyWait | split)

theorem runModelLoad_evolves {z : State} (h : Hdr) (entries : List (Nat × Nat)) (total : Nat) (image : Option
    (List Byte)) (s : State) (h_ : Evolves z s) : Evolves z (runModelLoad h entries total image s) := by
  unfold runModelLoad
  repeat' (first
    | with_reducible assumption | with_reducible apply serve_evolves | with_reducible apply modelLoadBody_evolves)

theorem dropModel_evolves {z : State} (h : Handle) (s : State) (h_ : Evolves z s) : Evolves z (dropModel h s) := by
  unfold dropModel
  repeat' (first
    | intro _ | with_reducible assumption | with_reducible apply State.modObj_evolves
    | (with_reducible exact Evolves.same ‹_› rfl rfl rfl rfl rfl))

theorem modelUnloadBody_evolves {z : State} (h : Hdr) (model : Handle) (s : State) (h_ : Evolves z s)
    : Evolves.reply z (modelUnloadBody h model s) := by
  unfold modelUnloadBody
  repeat' (first
    | intro _ | with_reducible assumption | with_reducible apply dropModel_evolves
    | with_reducible apply Evolves.replyOk | with_reducible apply Evolves.replyFail | split)

theorem runModelUnload_evolves {z : State} (h : Hdr) (model : Handle) (s : State) (h_ : Evolves z s) : Evolves z
    (runModelUnload h model s) := by
  unfold runModelUnload
  repeat' (first
    | with_reducible assumption | with_reducible apply serve_evolves | with_reducible apply modelUnloadBody_evolves)

theorem modelPinBody_evolves {z : State} (h : Hdr) (model partition : Handle) (pinning : Bool) (s : State) (h_
    : Evolves z s) : Evolves.reply z (modelPinBody h model partition pinning s) := by
  unfold modelPinBody
  repeat' (first
    | intro _ | with_reducible assumption | with_reducible apply modPart_evolves
    | with_reducible apply startLong_evolves | with_reducible apply Evolves.replyFail
    | with_reducible apply Evolves.replyWait | (with_reducible exact Evolves.same ‹_› rfl rfl rfl rfl rfl) | split)

theorem runModelPinSet_evolves {z : State} (h : Hdr) (model partition : Handle) (s : State) (h_ : Evolves z s)
    : Evolves z (runModelPinSet h model partition s) := by
  unfold runModelPinSet
  repeat' (first
    | with_reducible assumption | with_reducible apply serve_evolves | with_reducible apply modelPinBody_evolves)

theorem runModelPinClear_evolves {z : State} (h : Hdr) (model partition : Handle) (s : State) (h_ : Evolves z s)
    : Evolves z (runModelPinClear h model partition s) := by
  unfold runModelPinClear
  repeat' (first
    | with_reducible assumption | with_reducible apply serve_evolves | with_reducible apply modelPinBody_evolves)

theorem applyPin_evolves {z : State} (p : Partition) (h : Hdr) (model : Handle) (s : State) (h_ : Evolves z s) :
    Evolves z (applyPin p h model s) := by
  have hk : ∀ (k : Handle) (p : Partition), Evolves z (modPart k (fun _ => p) s) := fun k p => modPart_evolves _ _ _ h_
  unfold applyPin
  extract_lets keep
  have hkeep : ∀ q, Evolves z (keep q) := fun q => hk _ q
  clear_value keep
  have h2 : ∀ m (o : Option Partition), Evolves z (match o with
      | none => answerLater h stNoSpace 0 [] (keep p)
      | some q => answerLater h stOk 0 [] (fillPlaces q m (nextOrder (keep q)))) := by
    intro m o
    cases o with
    | none => exact answerLater_evolves _ _ _ _ _ (hkeep _)
    | some q => exact answerLater_evolves _ _ _ _ _ (fillPlaces_evolves _ _ _ (nextOrder_evolves _ (hkeep _)))
  have h1 : ∀ o : Option Model, Evolves z (match o with
      | none => answerLater h stNotFound 0 [] (keep p)
      | some m =>
        match makeResident p m true s with
        | none => answerLater h stNoSpace 0 [] (keep p)
        | some q => answerLater h stOk 0 [] (fillPlaces q m (nextOrder (keep q)))) := by
    intro o
    cases o with
    | none => exact answerLater_evolves _ _ _ _ _ (hkeep _)
    | some m => exact h2 m _
  split
  · exact answerLater_evolves _ _ _ _ _ (hkeep _)
  · split
    · exact answerLater_evolves _ _ _ _ _ (hkeep _)
    · exact h1 _

end Sys2Proof.Machine
end

