-- ==== Sys2Proof/Laws/EvolveSessions.lean ====
section
/-! SUPPORT. What the operations of Sys2Proof.Machine.Sessions never undo. -/

namespace Sys2Proof.Machine

theorem setPeriod_evolves {z : State} (ms : Nat) (s : State) (h_ : Evolves z s) : Evolves z (setPeriod ms s) := by
  unfold setPeriod
  repeat' (first
    | intro _ | with_reducible assumption | (refine Evolves.hostSame _ ?_ (fun h => h))
    | (with_reducible exact Evolves.same ‹_› rfl rfl rfl rfl rfl) | split)

theorem openSessionBody_evolves {z : State} (flags leaseMs : Nat) (versions : List Nat) (s : State) (h_
    : Evolves z s) : Evolves.reply z (openSessionBody flags leaseMs versions s) := by
  unfold openSessionBody
  repeat' (first
    | intro _ | with_reducible assumption
    | (extract_lets +onlyGivenNames x
       first
       | (refine Evolves.cut (z := z) x ?_ ?_
          rotate_left
          intro _
          clear_value x
          rotate_left
          unfold x
          clear x)
       | clear_value x)
    | with_reducible apply State.modObj_evolves | with_reducible apply setPeriod_evolves
    | with_reducible apply renewLease_evolves | with_reducible apply issued_evolves
    | with_reducible apply Evolves.replyOk | with_reducible apply Evolves.replyFail
    | (with_reducible exact Evolves.same ‹_› rfl rfl rfl rfl rfl) | split)

theorem runOpenSession_evolves {z : State} (h : Hdr) (flags leaseMs : Nat) (versions : List Nat) (s : State) (h_
    : Evolves z s) : Evolves z (runOpenSession h flags leaseMs versions s) := by
  unfold runOpenSession
  repeat' (first
    | with_reducible assumption | with_reducible apply serve_evolves | with_reducible apply openSessionBody_evolves)

theorem leaseRenewBody_evolves {z : State} (leaseMs : Nat) (s : State) (h_ : Evolves z s) : Evolves.reply z
    (leaseRenewBody leaseMs s) := by
  unfold leaseRenewBody
  repeat' (first
    | with_reducible assumption
    | (extract_lets +onlyGivenNames x
       first
       | (refine Evolves.cut (z := z) x ?_ ?_
          rotate_left
          intro _
          clear_value x
          rotate_left
          unfold x
          clear x)
       | clear_value x)
    | with_reducible apply renewLease_evolves | with_reducible apply setPeriod_evolves
    | with_reducible apply Evolves.replyOk | with_reducible apply Evolves.replyFail | split)

theorem runLeaseRenew_evolves {z : State} (h : Hdr) (leaseMs : Nat) (s : State) (h_ : Evolves z s) : Evolves z
    (runLeaseRenew h leaseMs s) := by
  unfold runLeaseRenew
  repeat' (first
    | with_reducible assumption | with_reducible apply serve_evolves | with_reducible apply leaseRenewBody_evolves)

theorem endPageSet_evolves {z : State} (p : PageSet) (s : State) (h_ : Evolves z s) :
    Evolves z (endPageSet p s) := by
  unfold endPageSet
  repeat' (first
    | intro _ | with_reducible assumption
    | (extract_lets +onlyGivenNames x
       first
       | (refine Evolves.cut (z := z) x ?_ ?_
          rotate_left
          intro _
          clear_value x
          rotate_left
          unfold x
          clear x)
       | clear_value x)
    | with_reducible apply dropPageWrites_evolves
    | with_reducible apply checkLedger_evolves
    | with_reducible apply State.modObj_evolves
    | with_reducible refine Evolves.ofSnd ?_ (by with_reducible assumption)
    | with_reducible refine Evolves.ofOptSnd ?_ (by with_reducible assumption)
    | with_reducible refine Evolves.ofOption ?_ (by with_reducible assumption)
    | with_reducible apply Evolves.some
    | with_reducible apply Evolves.none
    | with_reducible apply Evolves.mkSnd
    | with_reducible apply Evolves.projSnd
    | with_reducible apply Evolves.optSome
    | with_reducible apply Evolves.optNone
    | with_reducible apply Evolves.foldl
    | with_reducible apply Evolves.replyOk
    | with_reducible apply Evolves.replyFail
    | with_reducible apply Evolves.replyCounted
    | with_reducible apply Evolves.replyWait
    | with_reducible apply Evolves.next
    | with_reducible apply Evolves.fault
    | with_reducible apply Evolves.ite
    | (with_reducible exact Evolves.same ‹_› rfl rfl rfl rfl rfl) | split)

theorem endObjects_evolves {z : State} (h : Handle) (s : State) (h_ : Evolves z s) :
    Evolves z (endObjects h s) := by
  unfold endObjects
  repeat' (first
    | intro _ | with_reducible assumption
    | (extract_lets +onlyGivenNames x
       first
       | (refine Evolves.cut (z := z) x ?_ ?_
          rotate_left
          intro _
          clear_value x
          rotate_left
          unfold x
          clear x)
       | clear_value x)
    | with_reducible apply endStream_evolves
    | with_reducible apply removeFlow_evolves
    | with_reducible apply dropPartition_evolves
    | with_reducible apply dropClient_evolves
    | with_reducible apply dropModel_evolves
    | with_reducible apply freeBobbin_evolves
    | with_reducible apply settlePrefixes_evolves
    | with_reducible apply State.modObj_evolves
    | with_reducible apply releaseHeld_evolves
    | with_reducible apply dropPool_evolves
    | with_reducible apply dropDest_evolves
    | with_reducible apply endPageSet_evolves
    | with_reducible apply freeUnit_evolves
    | with_reducible apply clearRegion_evolves
    | with_reducible refine Evolves.ofSnd ?_ (by with_reducible assumption)
    | with_reducible refine Evolves.ofOptSnd ?_ (by with_reducible assumption)
    | with_reducible refine Evolves.ofOption ?_ (by with_reducible assumption)
    | with_reducible apply Evolves.some
    | with_reducible apply Evolves.none
    | with_reducible apply Evolves.mkSnd
    | with_reducible apply Evolves.projSnd
    | with_reducible apply Evolves.optSome
    | with_reducible apply Evolves.optNone
    | with_reducible apply Evolves.foldl
    | with_reducible apply Evolves.replyOk
    | with_reducible apply Evolves.replyFail
    | with_reducible apply Evolves.replyCounted
    | with_reducible apply Evolves.replyWait
    | with_reducible apply Evolves.next
    | with_reducible apply Evolves.fault
    | with_reducible apply Evolves.ite
    | (with_reducible exact Evolves.same ‹_› rfl rfl rfl rfl rfl) | split)

theorem endSession_evolves {z : State} (h : Handle) (s : State) (h_ : Evolves z s) :
    Evolves z (endSession h s) := by
  unfold endSession
  repeat' (first
    | intro _ | with_reducible assumption
    | (extract_lets +onlyGivenNames x
       first
       | (refine Evolves.cut (z := z) x ?_ ?_
          rotate_left
          intro _
          clear_value x
          rotate_left
          unfold x
          clear x)
       | clear_value x)
    | with_reducible apply endObjects_evolves
    | with_reducible apply drainEvents_evolves
    | with_reducible apply State.modObj_evolves
    | with_reducible refine Evolves.ofSnd ?_ (by with_reducible assumption)
    | with_reducible refine Evolves.ofOptSnd ?_ (by with_reducible assumption)
    | with_reducible refine Evolves.ofOption ?_ (by with_reducible assumption)
    | with_reducible apply Evolves.some
    | with_reducible apply Evolves.none
    | with_reducible apply Evolves.mkSnd
    | with_reducible apply Evolves.projSnd
    | with_reducible apply Evolves.optSome
    | with_reducible apply Evolves.optNone
    | with_reducible apply Evolves.foldl
    | with_reducible apply Evolves.replyOk
    | with_reducible apply Evolves.replyFail
    | with_reducible apply Evolves.replyCounted
    | with_reducible apply Evolves.replyWait
    | with_reducible apply Evolves.next
    | with_reducible apply Evolves.fault
    | with_reducible apply Evolves.ite
    | (refine Evolves.hostSame _ ?_ (fun h => h))
    | (with_reducible exact Evolves.same ‹_› rfl rfl rfl rfl rfl) | split)

theorem closeSessionBody_evolves {z : State} (h : Hdr) (s : State) (h_ : Evolves z s) : Evolves.reply z
    (closeSessionBody h s) := by
  unfold closeSessionBody
  repeat' (first
    | with_reducible assumption | with_reducible apply endSession_evolves | with_reducible apply Evolves.replyOk
    | with_reducible apply Evolves.replyFail | split)

theorem runCloseSession_evolves {z : State} (h : Hdr) (s : State) (h_ : Evolves z s) : Evolves z
    (runCloseSession h s) := by
  unfold runCloseSession
  repeat' (first
    | with_reducible assumption | with_reducible apply serve_evolves | with_reducible apply closeSessionBody_evolves)

theorem becomeOrphaned_evolves {z : State} (s : State) (h_ : Evolves z s) : Evolves z (becomeOrphaned s) := by
  unfold becomeOrphaned
  repeat' (first
    | intro _ | with_reducible assumption | with_reducible apply setCause_evolves
    | (refine Evolves.hostSame _ ?_ (fun h => h)) | (with_reducible exact Evolves.same ‹_› rfl rfl rfl rfl rfl))

theorem dueLeaseExpiry_evolves {z : State} (s : State) (h_ : Evolves z s) :
    Evolves.outcome z (dueLeaseExpiry s) := by
  unfold dueLeaseExpiry
  repeat' (first
    | intro _ | with_reducible assumption
    | with_reducible apply becomeOrphaned_evolves
    | with_reducible refine Evolves.ofSnd ?_ (by with_reducible assumption)
    | with_reducible refine Evolves.ofOptSnd ?_ (by with_reducible assumption)
    | with_reducible refine Evolves.ofOption ?_ (by with_reducible assumption)
    | with_reducible apply Evolves.mkSnd
    | with_reducible apply Evolves.projSnd
    | with_reducible apply Evolves.optSome
    | with_reducible apply Evolves.optNone
    | with_reducible apply Evolves.foldl
    | with_reducible apply Evolves.replyOk
    | with_reducible apply Evolves.replyFail
    | with_reducible apply Evolves.replyCounted
    | with_reducible apply Evolves.replyWait
    | with_reducible apply Evolves.next
    | with_reducible apply Evolves.fault
    | (with_reducible exact Evolves.same ‹_› rfl rfl rfl rfl rfl) | split)

theorem releaseRing_evolves {z : State} (h : Handle) (s : State) (h_ : Evolves z s) : Evolves z (releaseRing h s)
    := by
  unfold releaseRing
  repeat' (first
    | intro _ | with_reducible assumption
    | (extract_lets +onlyGivenNames x
       first
       | (refine Evolves.cut (z := z) x ?_ ?_
          rotate_left
          intro _
          clear_value x
          rotate_left
          unfold x
          clear x)
       | clear_value x)
    | with_reducible apply forwardPicture_evolves | with_reducible apply countForwarded_evolves
    | with_reducible apply Evolves.foldl | split)

theorem restartPages_evolves {z : State} (p : PageSet) (s : State) (h_ : Evolves z s) :
    Evolves z (restartPages p s) := by
  unfold restartPages
  repeat' (first
    | intro _ | with_reducible assumption
    | (extract_lets +onlyGivenNames x
       first
       | (refine Evolves.cut (z := z) x ?_ ?_
          rotate_left
          intro _
          clear_value x
          rotate_left
          unfold x
          clear x)
       | clear_value x)
    | with_reducible apply setPageSet_evolves
    | with_reducible apply dropPageWrites_evolves
    | with_reducible apply setCause_evolves
    | with_reducible apply State.modObj_evolves
    | with_reducible refine Evolves.ofSnd ?_ (by with_reducible assumption)
    | with_reducible refine Evolves.ofOptSnd ?_ (by with_reducible assumption)
    | with_reducible refine Evolves.ofOption ?_ (by with_reducible assumption)
    | with_reducible apply Evolves.some
    | with_reducible apply Evolves.none
    | with_reducible apply Evolves.mkSnd
    | with_reducible apply Evolves.projSnd
    | with_reducible apply Evolves.optSome
    | with_reducible apply Evolves.optNone
    | with_reducible apply Evolves.foldl
    | with_reducible apply Evolves.replyOk
    | with_reducible apply Evolves.replyFail
    | with_reducible apply Evolves.replyCounted
    | with_reducible apply Evolves.replyWait
    | with_reducible apply Evolves.next
    | with_reducible apply Evolves.fault
    | with_reducible apply Evolves.ite
    | (with_reducible exact Evolves.same ‹_› rfl rfl rfl rfl rfl) | split)

theorem resumeDest_evolves {z : State} (d : Dest) (s : State) (h_ : Evolves z s) : Evolves z (resumeDest d s) := by
  unfold resumeDest
  repeat' (first
    | intro _ | with_reducible assumption
    | (extract_lets +onlyGivenNames x
       first
       | (refine Evolves.cut (z := z) x ?_ ?_
          rotate_left
          intro _
          clear_value x
          rotate_left
          unfold x
          clear x)
       | clear_value x)
    | with_reducible apply setDest_evolves | (with_reducible exact Evolves.same ‹_› rfl rfl rfl rfl rfl) | split)

theorem restartDelivery_evolves {z : State} (h : Handle) (s : State) (h_ : Evolves z s) : Evolves z
    (restartDelivery h s) := by
  unfold restartDelivery
  repeat' (first
    | intro _ | with_reducible assumption
    | (extract_lets +onlyGivenNames x
       first
       | (refine Evolves.cut (z := z) x ?_ ?_
          rotate_left
          intro _
          clear_value x
          rotate_left
          unfold x
          clear x)
       | clear_value x)
    | with_reducible apply restartPages_evolves | with_reducible apply resumeDest_evolves
    | with_reducible apply Evolves.foldl | split)

theorem adoptBody_evolves {z : State} (snapshot leaseMs : Nat) (versions : List Nat) (s : State) (h_ : Evolves z s)
    : Evolves.reply z (adoptBody snapshot leaseMs versions s) := by
  unfold adoptBody
  repeat' (first
    | intro _ | with_reducible assumption
    | (extract_lets +onlyGivenNames x
       first
       | (refine Evolves.cut (z := z) x ?_ ?_
          rotate_left
          intro _
          clear_value x
          rotate_left
          unfold x
          clear x)
       | clear_value x)
    | with_reducible apply restartDelivery_evolves | with_reducible apply State.modObj_evolves
    | with_reducible apply setPeriod_evolves | (refine Evolves.hostSame _ ?_ (fun h => h))
    | with_reducible apply renewLease_evolves | with_reducible apply releaseRing_evolves
    | with_reducible apply pump_evolves | with_reducible apply drainEvents_evolves
    | with_reducible apply pumpRecords_evolves | with_reducible apply issueEvent_evolves
    | with_reducible apply Evolves.replyOk | with_reducible apply Evolves.replyFail
    | with_reducible apply Evolves.foldl | (with_reducible exact Evolves.same ‹_› rfl rfl rfl rfl rfl) | split)

theorem runAdopt_evolves {z : State} (h : Hdr) (snapshot leaseMs : Nat) (versions : List Nat) (s : State) (h_
    : Evolves z s) : Evolves z (runAdopt h snapshot leaseMs versions s) := by
  unfold runAdopt
  repeat' (first
    | with_reducible assumption | with_reducible apply serve_evolves | with_reducible apply adoptBody_evolves)

theorem cancelQueued_evolves {z : State} (s : State) (h_ : Evolves z s) : Evolves z (cancelQueued s) := by
  unfold cancelQueued
  repeat' (first
    | intro _ | with_reducible assumption | with_reducible apply cancelStitch_evolves
    | with_reducible apply Evolves.foldl | split)

theorem failLong_evolves {z : State} (s : State) (h_ : Evolves z s) : Evolves z (failLong s) := by
  unfold failLong
  repeat' (first
    | intro _ | with_reducible assumption | with_reducible apply answerLater_evolves
    | with_reducible apply dropReads_evolves | with_reducible apply Evolves.foldl | split)

theorem endAllWork_evolves {z : State} (s : State) (h_ : Evolves z s) : Evolves z (endAllWork s) := by
  unfold endAllWork
  repeat' (first
    | intro _ | with_reducible assumption
    | (extract_lets +onlyGivenNames x
       first
       | (refine Evolves.cut (z := z) x ?_ ?_
          rotate_left
          intro _
          clear_value x
          rotate_left
          unfold x
          clear x)
       | clear_value x)
    | with_reducible apply failLong_evolves | with_reducible apply endSession_evolves
    | with_reducible apply State.modObj_evolves | with_reducible apply loseAreas_evolves
    | (refine Evolves.hostSame _ ?_ (fun h => h)) | with_reducible apply mirrorItem_evolves
    | with_reducible apply State.modPair_evolves | with_reducible apply Evolves.foldl
    | (with_reducible exact Evolves.same ‹_› rfl rfl rfl rfl rfl) | split)

theorem beginEnding_evolves {z : State} (s : State) (h_ : Evolves z s) : Evolves z (beginEnding s) := by
  unfold beginEnding
  repeat' (first
    | intro _ | with_reducible assumption | with_reducible apply cancelQueued_evolves
    | (refine Evolves.hostSame _ ?_ (fun h => h)) | (with_reducible exact Evolves.same ‹_› rfl rfl rfl rfl rfl))

theorem endWorkNow_evolves {z : State} (s : State) (h_ : Evolves z s) : Evolves z (endWorkNow s) := by
  unfold endWorkNow
  repeat' (first
    | intro _ | with_reducible assumption
    | (extract_lets +onlyGivenNames x
       first
       | (refine Evolves.cut (z := z) x ?_ ?_
          rotate_left
          intro _
          clear_value x
          rotate_left
          unfold x
          clear x)
       | clear_value x)
    | with_reducible apply abandonRunning_evolves | (refine Evolves.hostSame _ ?_ (fun h => h))
    | with_reducible apply cancelStitch_evolves | with_reducible apply endAllWork_evolves
    | with_reducible apply State.modObj_evolves | with_reducible apply Evolves.foldl
    | (with_reducible exact Evolves.same ‹_› rfl rfl rfl rfl rfl) | split)

theorem resetWorkBody_evolves {z : State} (h : Hdr) (s : State) (h_ : Evolves z s) : Evolves.reply z
    (resetWorkBody h s) := by
  unfold resetWorkBody
  repeat' (first
    | with_reducible assumption
    | (extract_lets +onlyGivenNames x
       first
       | (refine Evolves.cut (z := z) x ?_ ?_
          rotate_left
          intro _
          clear_value x
          rotate_left
          unfold x
          clear x)
       | clear_value x)
    | with_reducible apply beginEnding_evolves | with_reducible apply endAllWork_evolves
    | with_reducible apply startLong_evolves | with_reducible apply Evolves.replyOk
    | with_reducible apply Evolves.replyWait | split)

theorem runResetWork_evolves {z : State} (h : Hdr) (s : State) (h_ : Evolves z s) : Evolves z (runResetWork h s) := by
  unfold runResetWork
  repeat' (first
    | with_reducible assumption | with_reducible apply serve_evolves | with_reducible apply resetWorkBody_evolves)

theorem endIfIdle_evolves {z : State} (s : State) (h_ : Evolves z s) : Evolves z (endIfIdle s) := by
  unfold endIfIdle
  repeat' (first
    | intro _ | with_reducible assumption
    | (extract_lets +onlyGivenNames x
       first
       | (refine Evolves.cut (z := z) x ?_ ?_
          rotate_left
          intro _
          clear_value x
          rotate_left
          unfold x
          clear x)
       | clear_value x)
    | with_reducible apply endAllWork_evolves | with_reducible apply answerLater_evolves
    | with_reducible apply Evolves.foldl | split)

theorem runUnknownOpcode_evolves {z : State} (h : Hdr) (s : State) (h_ : Evolves z s) : Evolves z
    (runUnknownOpcode h s) := by
  unfold runUnknownOpcode
  repeat' (first
    | with_reducible assumption
    | (extract_lets +onlyGivenNames x
       first
       | (refine Evolves.cut (z := z) x ?_ ?_
          rotate_left
          intro _
          clear_value x
          rotate_left
          unfold x
          clear x)
       | clear_value x)
    | with_reducible apply renewFor_evolves | with_reducible apply answer_evolves | split)

end Sys2Proof.Machine
end

