-- ==== Sys2Proof/Laws/EvolveDiag.lean ====
section
/-! SUPPORT. What the operations of Sys2Proof.Machine.Diag never undo. -/

namespace Sys2Proof.Machine

theorem setPllIdle_evolves {z : State} (us : Nat) (s : State) (h_ : Evolves z s) : Evolves z (setPllIdle us s) := by
  unfold setPllIdle
  repeat' (first
    | intro _ | with_reducible assumption | with_reducible apply State.modPower_evolves
    | (with_reducible exact Evolves.same ‹_› rfl rfl rfl rfl rfl) | split)

theorem selfRefreshAll_evolves {z : State} (on : Bool) (s : State) (h_ : Evolves z s) : Evolves z
    (selfRefreshAll on s) := by
  unfold selfRefreshAll
  repeat' (first
    | intro _ | with_reducible assumption | with_reducible apply State.modDdr_evolves
    | with_reducible apply Evolves.foldl | (with_reducible exact Evolves.same ‹_› rfl rfl rfl rfl rfl))

theorem enterNap_evolves {z : State} (s : State) (h_ : Evolves z s) : Evolves z (enterNap s) := by
  unfold enterNap
  repeat' (first
    | intro _ | with_reducible assumption | with_reducible apply selfRefreshAll_evolves
    | with_reducible apply State.modPower_evolves | (with_reducible exact Evolves.same ‹_› rfl rfl rfl rfl rfl))

theorem powerNapBody_evolves {z : State} (us : Nat) (s : State) (h_ : Evolves z s) : Evolves.reply z
    (powerNapBody us s) := by
  unfold powerNapBody
  repeat' (first
    | with_reducible assumption
    | (extract_lets +onlyGivenNames x
       first
       | (refine Evolves.cut (z := z) x ?_ ?_
          rotate_left
          intro _
          clear_value x
          rotate_left
          unfold x
          clear x)
       | clear_value x)
    | with_reducible apply setPllIdle_evolves | with_reducible apply enterNap_evolves
    | with_reducible apply Evolves.replyOk | with_reducible apply Evolves.replyFail | split)

theorem powerReadyBody_evolves {z : State} (us : Nat) (s : State) (h_ : Evolves z s) : Evolves.reply z
    (powerReadyBody us s) := by
  unfold powerReadyBody
  repeat' (first
    | with_reducible assumption | with_reducible apply setPllIdle_evolves | with_reducible apply Evolves.replyOk
    | with_reducible apply Evolves.replyFail | split)

theorem runPowerStateNap_evolves {z : State} (h : Hdr) (us : Nat) (s : State) (h_ : Evolves z s) : Evolves z
    (runPowerStateNap h us s) := by
  unfold runPowerStateNap
  repeat' (first
    | with_reducible assumption | with_reducible apply serve_evolves | with_reducible apply powerNapBody_evolves)

theorem runPowerStateReady_evolves {z : State} (h : Hdr) (us : Nat) (s : State) (h_ : Evolves z s) : Evolves z
    (runPowerStateReady h us s) := by
  unfold runPowerStateReady
  repeat' (first
    | with_reducible assumption | with_reducible apply serve_evolves | with_reducible apply powerReadyBody_evolves)

theorem logConfigBody_evolves {z : State} (levels : List Nat) (s : State) (h_ : Evolves z s) : Evolves.reply z
    (logConfigBody levels s) := by
  unfold logConfigBody
  repeat' (first
    | intro _ | with_reducible assumption | (refine Evolves.fwSame _ ?_ (fun h => h))
    | with_reducible apply Evolves.replyOk | with_reducible apply Evolves.replyFail
    | (with_reducible exact Evolves.same ‹_› rfl rfl rfl rfl rfl) | split)

theorem runLogConfig_evolves {z : State} (h : Hdr) (levels : List Nat) (s : State) (h_ : Evolves z s) : Evolves z
    (runLogConfig h levels s) := by
  unfold runLogConfig
  repeat' (first
    | with_reducible assumption | with_reducible apply serve_evolves | with_reducible apply logConfigBody_evolves)

theorem traceSetBody_evolves {z : State} (mask : BitVec 256) (s : State) (h_ : Evolves z s) : Evolves.reply z
    (traceSetBody mask s) := by
  unfold traceSetBody
  repeat' (first
    | intro _ | with_reducible assumption | (refine Evolves.fwSame _ ?_ (fun h => h))
    | with_reducible apply Evolves.replyOk | (with_reducible exact Evolves.same ‹_› rfl rfl rfl rfl rfl))

theorem runTraceSetEnable_evolves {z : State} (h : Hdr) (mask : BitVec 256) (s : State) (h_ : Evolves z s)
    : Evolves z (runTraceSetEnable h mask s) := by
  unfold runTraceSetEnable
  repeat' (first
    | intro _ | with_reducible assumption | with_reducible apply serve_evolves
    | with_reducible apply traceSetBody_evolves)

theorem runTraceSetDisable_evolves {z : State} (h : Hdr) (mask : BitVec 256) (s : State) (h_ : Evolves z s)
    : Evolves z (runTraceSetDisable h mask s) := by
  unfold runTraceSetDisable
  repeat' (first
    | intro _ | with_reducible assumption | with_reducible apply serve_evolves
    | with_reducible apply traceSetBody_evolves)

theorem runTraceSetReplace_evolves {z : State} (h : Hdr) (mask : BitVec 256) (s : State) (h_ : Evolves z s)
    : Evolves z (runTraceSetReplace h mask s) := by
  unfold runTraceSetReplace
  repeat' (first
    | with_reducible assumption | with_reducible apply serve_evolves | with_reducible apply traceSetBody_evolves)

theorem measurementsBody_evolves {z : State} (first count : Nat) (s : State) (h_ : Evolves z s) : Evolves.reply z
    (measurementsBody first count s) := by
  unfold measurementsBody
  repeat' (first
    | intro _ | with_reducible assumption
    | (extract_lets +onlyGivenNames x
       first
       | (refine Evolves.cut (z := z) x ?_ ?_
          rotate_left
          intro _
          clear_value x
          rotate_left
          unfold x
          clear x)
       | clear_value x)
    | with_reducible apply Evolves.replyOk | with_reducible apply Evolves.replyFail | split)

theorem runMeasurements_evolves {z : State} (h : Hdr) (first count : Nat) (s : State) (h_ : Evolves z s) : Evolves z
    (runMeasurements h first count s) := by
  unfold runMeasurements
  repeat' (first
    | with_reducible assumption | with_reducible apply serve_evolves | with_reducible apply measurementsBody_evolves)

end Sys2Proof.Machine
end

