-- ==== Sys2Proof/Laws/EvolvePair.lean ====
section
/-! SUPPORT. What the operations of Sys2Proof.Machine.Pair never undo. -/

namespace Sys2Proof.Machine

theorem pairEvent_evolves {z : State} (reason : Nat) (s : State) (h_ : Evolves z s) : Evolves z (pairEvent reason s)
    := by
  unfold pairEvent
  repeat' (first
    | with_reducible assumption | with_reducible apply issueEvent_evolves)

theorem releaseDeferred_evolves {z : State} (d : Deferred) (s : State) (h_ : Evolves z s) :
    Evolves z (releaseDeferred d s) := by
  unfold releaseDeferred
  repeat' (first
    | intro _ | with_reducible assumption
    | with_reducible apply answer_evolves
    | with_reducible apply writeAnswer_evolves
    | with_reducible apply restartOutput_evolves
    | with_reducible apply releaseStitch_evolves
    | with_reducible apply sendMsix_evolves
    | with_reducible apply send_evolves
    | with_reducible apply State.push_evolves
    | with_reducible apply sendDone_evolves
    | with_reducible apply sendDatagram_evolves
    | with_reducible refine Evolves.ofSnd ?_ (by with_reducible assumption)
    | with_reducible refine Evolves.ofOptSnd ?_ (by with_reducible assumption)
    | with_reducible refine Evolves.ofOption ?_ (by with_reducible assumption)
    | with_reducible apply Evolves.some
    | with_reducible apply Evolves.none
    | with_reducible apply Evolves.mkSnd
    | with_reducible apply Evolves.projSnd
    | with_reducible apply Evolves.optSome
    | with_reducible apply Evolves.optNone
    | with_reducible apply Evolves.foldl
    | with_reducible apply Evolves.replyOk
    | with_reducible apply Evolves.replyFail
    | with_reducible apply Evolves.replyCounted
    | with_reducible apply Evolves.replyWait
    | with_reducible apply Evolves.next
    | with_reducible apply Evolves.fault
    | with_reducible apply Evolves.ite
    | (with_reducible exact Evolves.same ‹_› rfl rfl rfl rfl rfl) | split)

theorem refuseDeferred_evolves {z : State} (status : Nat) (d : Deferred) (s : State) (h_ : Evolves z s) : Evolves z
    (refuseDeferred status d s) := by
  unfold refuseDeferred
  repeat' (first
    | intro _ | with_reducible assumption
    | (extract_lets +onlyGivenNames x
       first
       | (refine Evolves.cut (z := z) x ?_ ?_
          rotate_left
          intro _
          clear_value x
          rotate_left
          unfold x
          clear x)
       | clear_value x)
    | with_reducible apply State.modObj_evolves | with_reducible apply writeAnswer_evolves
    | with_reducible apply State.modPair_evolves | with_reducible apply releaseDeferred_evolves
    | (with_reducible exact Evolves.same ‹_› rfl rfl rfl rfl rfl) | split)

theorem releaseAll_evolves {z : State} (s : State) (h_ : Evolves z s) : Evolves z (releaseAll s) := by
  unfold releaseAll
  repeat' (first
    | intro _ | with_reducible assumption
    | (extract_lets +onlyGivenNames x
       first
       | (refine Evolves.cut (z := z) x ?_ ?_
          rotate_left
          intro _
          clear_value x
          rotate_left
          unfold x
          clear x)
       | clear_value x)
    | with_reducible apply releaseDeferred_evolves | with_reducible apply State.modPair_evolves
    | with_reducible apply Evolves.foldl | (with_reducible exact Evolves.same ‹_› rfl rfl rfl rfl rfl) | split)

theorem acknowledged_evolves {z : State} (seq status : Nat) (s : State) (h_ : Evolves z s) : Evolves z
    (acknowledged seq status s) := by
  unfold acknowledged
  repeat' (first
    | intro _ | with_reducible assumption
    | (extract_lets +onlyGivenNames x
       first
       | (refine Evolves.cut (z := z) x ?_ ?_
          rotate_left
          intro _
          clear_value x
          rotate_left
          unfold x
          clear x)
       | clear_value x)
    | with_reducible apply State.modPair_evolves | with_reducible apply refuseDeferred_evolves
    | with_reducible apply releaseDeferred_evolves | with_reducible apply Evolves.foldl
    | (with_reducible exact Evolves.same ‹_› rfl rfl rfl rfl rfl) | split)

theorem leavePair_evolves {z : State} (s : State) (h_ : Evolves z s) : Evolves z (leavePair s) := by
  unfold leavePair
  repeat' (first
    | intro _ | with_reducible assumption | with_reducible apply releaseAll_evolves
    | with_reducible apply State.modPair_evolves | (with_reducible exact Evolves.same ‹_› rfl rfl rfl rfl rfl))

theorem formPair_evolves {z : State} (sess : Handle) (mode own pmode other : Nat) (s : State) (h_ : Evolves z s)
    : Evolves.snd z (formPair sess mode own pmode other s) := by
  unfold formPair
  repeat' (first
    | intro _ | with_reducible assumption
    | (extract_lets +onlyGivenNames x
       first
       | (refine Evolves.cut (z := z) x ?_ ?_
          rotate_left
          intro _
          clear_value x
          rotate_left
          unfold x
          clear x)
       | clear_value x)
    | with_reducible apply State.modPair_evolves | with_reducible apply pairEvent_evolves
    | with_reducible apply Evolves.mkSnd | (with_reducible exact Evolves.same ‹_› rfl rfl rfl rfl rfl) | split)

theorem pairJoinBody_evolves {z : State} (h : Hdr) (mode role : Nat) (s : State) (h_ : Evolves z s)
    : Evolves.reply z (pairJoinBody h mode role s) := by
  unfold pairJoinBody
  repeat' (first
    | intro _ | with_reducible assumption
    | (extract_lets +onlyGivenNames x
       first
       | (refine Evolves.cut (z := z) x ?_ ?_
          rotate_left
          intro _
          clear_value x
          rotate_left
          unfold x
          clear x)
       | clear_value x)
    | with_reducible apply State.push_evolves | with_reducible apply formPair_evolves
    | with_reducible apply State.modPair_evolves | with_reducible apply startLong_evolves
    | with_reducible apply Evolves.replyOk | with_reducible apply Evolves.replyFail
    | with_reducible apply Evolves.replyCounted | with_reducible apply Evolves.replyWait
    | with_reducible refine Evolves.ofSnd ?_ (by with_reducible assumption)
    | with_reducible refine Evolves.ofOptSnd ?_ (by with_reducible assumption)
    | with_reducible refine Evolves.ofOption ?_ (by with_reducible assumption) | with_reducible apply Evolves.projSnd
    | with_reducible apply Evolves.mkSnd | with_reducible apply Evolves.optSome | with_reducible apply Evolves.optNone
    | (with_reducible exact Evolves.same ‹_› rfl rfl rfl rfl rfl) | split)

theorem runPairJoin_evolves {z : State} (h : Hdr) (mode role : Nat) (s : State) (h_ : Evolves z s) : Evolves z
    (runPairJoin h mode role s) := by
  unfold runPairJoin
  repeat' (first
    | with_reducible assumption | with_reducible apply serve_evolves | with_reducible apply pairJoinBody_evolves)

theorem duePairJoinTimeout_evolves {z : State} (s : State) (h_ : Evolves z s) :
    Evolves.outcome z (duePairJoinTimeout s) := by
  unfold duePairJoinTimeout
  repeat' (first
    | intro _ | with_reducible assumption
    | with_reducible apply answerLater_evolves
    | with_reducible apply State.modPair_evolves
    | with_reducible refine Evolves.ofSnd ?_ (by with_reducible assumption)
    | with_reducible refine Evolves.ofOptSnd ?_ (by with_reducible assumption)
    | with_reducible refine Evolves.ofOption ?_ (by with_reducible assumption)
    | with_reducible apply Evolves.mkSnd
    | with_reducible apply Evolves.projSnd
    | with_reducible apply Evolves.optSome
    | with_reducible apply Evolves.optNone
    | with_reducible apply Evolves.foldl
    | with_reducible apply Evolves.replyOk
    | with_reducible apply Evolves.replyFail
    | with_reducible apply Evolves.replyCounted
    | with_reducible apply Evolves.replyWait
    | with_reducible apply Evolves.next
    | with_reducible apply Evolves.fault
    | (with_reducible exact Evolves.same ‹_› rfl rfl rfl rfl rfl) | split)

theorem adoptGens_evolves {z : State} (l : List Handle) (s : State) (h_ : Evolves z s) :
    Evolves z (adoptGens l s) := by
  unfold adoptGens
  repeat' (first
    | intro _ | with_reducible assumption
    | with_reducible apply issued_evolves
    | with_reducible refine Evolves.ofSnd ?_ (by with_reducible assumption)
    | with_reducible refine Evolves.ofOptSnd ?_ (by with_reducible assumption)
    | with_reducible refine Evolves.ofOption ?_ (by with_reducible assumption)
    | with_reducible apply Evolves.mkSnd
    | with_reducible apply Evolves.projSnd
    | with_reducible apply Evolves.optSome
    | with_reducible apply Evolves.optNone
    | with_reducible apply Evolves.foldl
    | with_reducible apply Evolves.replyOk
    | with_reducible apply Evolves.replyFail
    | with_reducible apply Evolves.replyCounted
    | with_reducible apply Evolves.replyWait
    | with_reducible apply Evolves.next
    | with_reducible apply Evolves.fault
    | (with_reducible exact Evolves.same ‹_› rfl rfl rfl rfl rfl) | split)

theorem modReplicaDest_evolves {z : State} (i : Nat) (f : Dest → Dest) (s : State) (h_ : Evolves z s) : Evolves z
    (modReplicaDest i f s) := by
  unfold modReplicaDest
  repeat' (first
    | intro _ | with_reducible assumption | with_reducible apply State.modPair_evolves
    | (with_reducible exact Evolves.same ‹_› rfl rfl rfl rfl rfl))

theorem followBobbin_evolves {z : State} (old : Option Bobbin) (x : Bobbin) (s : State) (h_ : Evolves z s) :
    Evolves z (followBobbin old x s) := by
  unfold followBobbin
  repeat' (first
    | intro _ | with_reducible assumption
    | (extract_lets +onlyGivenNames x
       first
       | (refine Evolves.cut (z := z) x ?_ ?_
          rotate_left
          intro _
          clear_value x
          rotate_left
          unfold x
          clear x)
       | clear_value x)
    | with_reducible apply hubStore_evolves
    | with_reducible apply linkCopy_evolves
    | with_reducible apply forkRecords_evolves
    | with_reducible apply writeHeader_evolves
    | with_reducible refine Evolves.ofSnd ?_ (by with_reducible assumption)
    | with_reducible refine Evolves.ofOptSnd ?_ (by with_reducible assumption)
    | with_reducible refine Evolves.ofOption ?_ (by with_reducible assumption)
    | with_reducible apply Evolves.some
    | with_reducible apply Evolves.none
    | with_reducible apply Evolves.mkSnd
    | with_reducible apply Evolves.projSnd
    | with_reducible apply Evolves.optSome
    | with_reducible apply Evolves.optNone
    | with_reducible apply Evolves.foldl
    | with_reducible apply Evolves.replyOk
    | with_reducible apply Evolves.replyFail
    | with_reducible apply Evolves.replyCounted
    | with_reducible apply Evolves.replyWait
    | with_reducible apply Evolves.next
    | with_reducible apply Evolves.fault
    | with_reducible apply Evolves.ite
    | (with_reducible exact Evolves.same ‹_› rfl rfl rfl rfl rfl) | split)

theorem followPool_evolves {z : State} (old : Option Pool) (p : Pool) (s : State) (h_ : Evolves z s) :
    Evolves z (followPool old p s) := by
  unfold followPool
  repeat' (first
    | intro _ | with_reducible assumption
    | with_reducible apply tagRewrite_evolves
    | with_reducible refine Evolves.ofSnd ?_ (by with_reducible assumption)
    | with_reducible refine Evolves.ofOptSnd ?_ (by with_reducible assumption)
    | with_reducible refine Evolves.ofOption ?_ (by with_reducible assumption)
    | with_reducible apply Evolves.some
    | with_reducible apply Evolves.none
    | with_reducible apply Evolves.mkSnd
    | with_reducible apply Evolves.projSnd
    | with_reducible apply Evolves.optSome
    | with_reducible apply Evolves.optNone
    | with_reducible apply Evolves.foldl
    | with_reducible apply Evolves.replyOk
    | with_reducible apply Evolves.replyFail
    | with_reducible apply Evolves.replyCounted
    | with_reducible apply Evolves.replyWait
    | with_reducible apply Evolves.next
    | with_reducible apply Evolves.fault
    | with_reducible apply Evolves.ite
    | (with_reducible exact Evolves.same ‹_› rfl rfl rfl rfl rfl) | split)

theorem applyObject_evolves {z : State} (r : ObjRec) (s : State) (h_ : Evolves z s) : Evolves z (applyObject r s) := by
  have k : ∀ t, Evolves z t → ∀ o, Evolves z { t with obj := o } := fun _ h _ => Evolves.same h rfl rfl rfl rfl fun h => h
  unfold applyObject
  extract_lets old r seen new t
  have h : Evolves z t := adoptGens_evolves _ _ (State.modPair_evolves _ s h_)
  clear_value t seen new r
  split
  · split
    · exact h
    · exact k _ (followBobbin_evolves _ _ _ (k _ h _)) _
  · exact followPool_evolves _ _ _ h
  · exact h

theorem applyItem_evolves {z : State} (m : MirrorItem) (s : State) (h_ : Evolves z s) : Evolves.snd z (applyItem m s) := by
  cases m with
  | object o =>
    unfold applyItem
    dsimp only
    split
    · exact h_
    · exact applyObject_evolves o s h_
  | checkpoint c os log =>
    exact Evolves.foldl _ _ _ (Evolves.foldl _ _ _ h_ fun s r h => applyObject_evolves r s h)
      fun s x h => hubStore_evolves x.1 x.2 s h
  | accessUnit h au =>
    unfold applyItem
    exact Evolves.mkSnd (State.modPair_evolves _ _ h_)
  | release i seq x => exact modReplicaDest_evolves _ _ _ h_
  | delivery i seq => exact modReplicaDest_evolves _ _ _ h_
  | repost i seq => exact modReplicaDest_evolves _ _ _ h_
  | record sess r =>
    unfold applyItem
    exact Evolves.mkSnd (State.modPair_evolves _ _ h_)
  | contents a bs => exact hubStore_evolves _ _ _ h_
  | reset => exact pairEvent_evolves _ _ (State.modPair_evolves _ _ h_)

theorem wakeFromNap_evolves {z : State} (s : State) (h_ : Evolves z s) : Evolves z (wakeFromNap s) := by
  unfold wakeFromNap
  repeat' (first
    | intro _ | with_reducible assumption | with_reducible apply State.modPower_evolves
    | (with_reducible exact Evolves.same ‹_› rfl rfl rfl rfl rfl) | split)

theorem takeAddresses_evolves {z : State} (s : State) (h_ : Evolves z s) : Evolves z (takeAddresses s) := by
  unfold takeAddresses
  repeat' (first
    | intro _ | with_reducible assumption
    | (extract_lets +onlyGivenNames x
       first
       | (refine Evolves.cut (z := z) x ?_ ?_
          rotate_left
          intro _
          clear_value x
          rotate_left
          unfold x
          clear x)
       | clear_value x)
    | with_reducible apply State.modObj_evolves | with_reducible apply State.push_evolves
    | with_reducible apply Evolves.foldl | (with_reducible exact Evolves.same ‹_› rfl rfl rfl rfl rfl) | split)

theorem resumeEncode_evolves {z : State} (x : Stream) (s : State) (h_ : Evolves z s) :
    Evolves z (resumeEncode x s) := by
  unfold resumeEncode
  repeat' (first
    | intro _ | with_reducible assumption
    | (extract_lets +onlyGivenNames x
       first
       | (refine Evolves.cut (z := z) x ?_ ?_
          rotate_left
          intro _
          clear_value x
          rotate_left
          unfold x
          clear x)
       | clear_value x)
    | with_reducible apply State.modEng_evolves
    | with_reducible apply addJob_evolves
    | with_reducible refine Evolves.ofSnd ?_ (by with_reducible assumption)
    | with_reducible refine Evolves.ofOptSnd ?_ (by with_reducible assumption)
    | with_reducible refine Evolves.ofOption ?_ (by with_reducible assumption)
    | with_reducible apply Evolves.mkSnd
    | with_reducible apply Evolves.projSnd
    | with_reducible apply Evolves.optSome
    | with_reducible apply Evolves.optNone
    | with_reducible apply Evolves.foldl
    | with_reducible apply Evolves.replyOk
    | with_reducible apply Evolves.replyFail
    | with_reducible apply Evolves.replyCounted
    | with_reducible apply Evolves.replyWait
    | with_reducible apply Evolves.next
    | with_reducible apply Evolves.fault
    | (with_reducible exact Evolves.same ‹_› rfl rfl rfl rfl rfl) | split)

theorem shedWork_evolves {z : State} (taken : List Partition) (s : State) (h_ : Evolves z s) : Evolves z
    (shedWork taken s) := by
  unfold shedWork
  repeat' (first
    | intro _ | with_reducible assumption
    | (extract_lets +onlyGivenNames x
       first
       | (refine Evolves.cut (z := z) x ?_ ?_
          rotate_left
          intro _
          clear_value x
          rotate_left
          unfold x
          clear x)
       | clear_value x)
    | with_reducible apply State.modObj_evolves | with_reducible apply cancelStitch_evolves
    | with_reducible apply Evolves.foldl | (with_reducible exact Evolves.same ‹_› rfl rfl rfl rfl rfl) | split)

theorem stopEvacuating_evolves {z : State} (s : State) (h_ : Evolves z s) : Evolves z (stopEvacuating s) := by
  unfold stopEvacuating
  repeat' (first
    | intro _ | with_reducible assumption
    | (extract_lets +onlyGivenNames x
       first
       | (refine Evolves.cut (z := z) x ?_ ?_
          rotate_left
          intro _
          clear_value x
          rotate_left
          unfold x
          clear x)
       | clear_value x)
    | with_reducible apply answerLater_evolves | with_reducible apply State.modPair_evolves
    | with_reducible apply Evolves.foldl | (with_reducible exact Evolves.same ‹_› rfl rfl rfl rfl rfl) | split)

theorem takeOver_evolves {z : State} (kind cause : Nat) (s : State) (h_ : Evolves z s) :
    Evolves z (takeOver kind cause s) := by
  unfold takeOver
  repeat' (first
    | intro _ | with_reducible assumption
    | (extract_lets +onlyGivenNames x
       first
       | (refine Evolves.cut (z := z) x ?_ ?_
          rotate_left
          intro _
          clear_value x
          rotate_left
          unfold x
          clear x)
       | clear_value x)
    | with_reducible apply stopEvacuating_evolves
    | with_reducible apply takeAddresses_evolves
    | with_reducible apply leavePair_evolves
    | with_reducible apply adoptGens_evolves
    | with_reducible apply State.modObj_evolves
    | with_reducible apply resumeEncode_evolves
    | with_reducible apply State.modCtr_evolves
    | with_reducible apply countStitch_evolves
    | with_reducible apply shedWork_evolves
    | with_reducible apply kick_evolves
    | with_reducible apply State.push_evolves
    | with_reducible apply State.modPair_evolves
    | with_reducible apply pairEvent_evolves
    | with_reducible apply issueEvent_evolves
    | with_reducible refine Evolves.ofSnd ?_ (by with_reducible assumption)
    | with_reducible refine Evolves.ofOptSnd ?_ (by with_reducible assumption)
    | with_reducible refine Evolves.ofOption ?_ (by with_reducible assumption)
    | with_reducible apply Evolves.some
    | with_reducible apply Evolves.none
    | with_reducible apply Evolves.mkSnd
    | with_reducible apply Evolves.projSnd
    | with_reducible apply Evolves.optSome
    | with_reducible apply Evolves.optNone
    | with_reducible apply Evolves.foldl
    | with_reducible apply Evolves.replyOk
    | with_reducible apply Evolves.replyFail
    | with_reducible apply Evolves.replyCounted
    | with_reducible apply Evolves.replyWait
    | with_reducible apply Evolves.next
    | with_reducible apply Evolves.fault
    | with_reducible apply Evolves.ite
    | (with_reducible exact Evolves.same ‹_› rfl rfl rfl rfl rfl) | split)

theorem brideLost_evolves {z : State} (s : State) (h_ : Evolves z s) : Evolves z (brideLost s) := by
  unfold brideLost
  repeat' (first
    | intro _ | with_reducible assumption
    | (extract_lets +onlyGivenNames x
       first
       | (refine Evolves.cut (z := z) x ?_ ?_
          rotate_left
          intro _
          clear_value x
          rotate_left
          unfold x
          clear x)
       | clear_value x)
    | with_reducible apply stopEvacuating_evolves | with_reducible apply State.modPair_evolves
    | with_reducible apply pairEvent_evolves | with_reducible apply leavePair_evolves
    | (with_reducible exact Evolves.same ‹_› rfl rfl rfl rfl rfl) | split)

theorem takeWork_evolves {z : State} (kind cause : Nat) (s : State) (h_ : Evolves z s) :
    Evolves z (takeWork kind cause s) := by
  unfold takeWork
  repeat' (first
    | intro _ | with_reducible assumption
    | with_reducible apply signalWake_evolves
    | with_reducible apply State.modPair_evolves
    | with_reducible apply takeOver_evolves
    | with_reducible apply wakeFromNap_evolves
    | with_reducible refine Evolves.ofSnd ?_ (by with_reducible assumption)
    | with_reducible refine Evolves.ofOptSnd ?_ (by with_reducible assumption)
    | with_reducible refine Evolves.ofOption ?_ (by with_reducible assumption)
    | with_reducible apply Evolves.some
    | with_reducible apply Evolves.none
    | with_reducible apply Evolves.mkSnd
    | with_reducible apply Evolves.projSnd
    | with_reducible apply Evolves.optSome
    | with_reducible apply Evolves.optNone
    | with_reducible apply Evolves.foldl
    | with_reducible apply Evolves.replyOk
    | with_reducible apply Evolves.replyFail
    | with_reducible apply Evolves.replyCounted
    | with_reducible apply Evolves.replyWait
    | with_reducible apply Evolves.next
    | with_reducible apply Evolves.fault
    | with_reducible apply Evolves.ite
    | (with_reducible exact Evolves.same ‹_› rfl rfl rfl rfl rfl) | split)

theorem decidePartner_evolves {z : State} (networkStopped : Bool) (s : State) (h_ : Evolves z s) :
    Evolves z (decidePartner networkStopped s) := by
  unfold decidePartner
  repeat' (first
    | intro _ | with_reducible assumption
    | with_reducible apply takeWork_evolves
    | with_reducible apply brideLost_evolves
    | with_reducible refine Evolves.ofSnd ?_ (by with_reducible assumption)
    | with_reducible refine Evolves.ofOptSnd ?_ (by with_reducible assumption)
    | with_reducible refine Evolves.ofOption ?_ (by with_reducible assumption)
    | with_reducible apply Evolves.some
    | with_reducible apply Evolves.none
    | with_reducible apply Evolves.mkSnd
    | with_reducible apply Evolves.projSnd
    | with_reducible apply Evolves.optSome
    | with_reducible apply Evolves.optNone
    | with_reducible apply Evolves.foldl
    | with_reducible apply Evolves.replyOk
    | with_reducible apply Evolves.replyFail
    | with_reducible apply Evolves.replyCounted
    | with_reducible apply Evolves.replyWait
    | with_reducible apply Evolves.next
    | with_reducible apply Evolves.fault
    | with_reducible apply Evolves.ite
    | (with_reducible exact Evolves.same ‹_› rfl rfl rfl rfl rfl) | split)

theorem dueBrideHeartbeatTimeout_evolves {z : State} (networkStopped : Bool) (s : State) (h_ : Evolves z s) :
    Evolves.outcome z (dueBrideHeartbeatTimeout networkStopped s) := by
  unfold dueBrideHeartbeatTimeout
  repeat' (first
    | intro _ | with_reducible assumption
    | with_reducible apply decidePartner_evolves
    | with_reducible refine Evolves.ofSnd ?_ (by with_reducible assumption)
    | with_reducible refine Evolves.ofOptSnd ?_ (by with_reducible assumption)
    | with_reducible refine Evolves.ofOption ?_ (by with_reducible assumption)
    | with_reducible apply Evolves.mkSnd
    | with_reducible apply Evolves.projSnd
    | with_reducible apply Evolves.optSome
    | with_reducible apply Evolves.optNone
    | with_reducible apply Evolves.foldl
    | with_reducible apply Evolves.replyOk
    | with_reducible apply Evolves.replyFail
    | with_reducible apply Evolves.replyCounted
    | with_reducible apply Evolves.replyWait
    | with_reducible apply Evolves.next
    | with_reducible apply Evolves.fault
    | (with_reducible exact Evolves.same ‹_› rfl rfl rfl rfl rfl) | split)

theorem dueMirrorAckTimeout_evolves {z : State} (networkStopped : Bool) (s : State) (h_ : Evolves z s) :
    Evolves.outcome z (dueMirrorAckTimeout networkStopped s) := by
  unfold dueMirrorAckTimeout
  repeat' (first
    | intro _ | with_reducible assumption
    | with_reducible apply decidePartner_evolves
    | with_reducible refine Evolves.ofSnd ?_ (by with_reducible assumption)
    | with_reducible refine Evolves.ofOptSnd ?_ (by with_reducible assumption)
    | with_reducible refine Evolves.ofOption ?_ (by with_reducible assumption)
    | with_reducible apply Evolves.mkSnd
    | with_reducible apply Evolves.projSnd
    | with_reducible apply Evolves.optSome
    | with_reducible apply Evolves.optNone
    | with_reducible apply Evolves.foldl
    | with_reducible apply Evolves.replyOk
    | with_reducible apply Evolves.replyFail
    | with_reducible apply Evolves.replyCounted
    | with_reducible apply Evolves.replyWait
    | with_reducible apply Evolves.next
    | with_reducible apply Evolves.fault
    | (with_reducible exact Evolves.same ‹_› rfl rfl rfl rfl rfl) | split)

theorem startEvacuation_evolves {z : State} (s : State) (h_ : Evolves z s) : Evolves z (startEvacuation s) := by
  unfold startEvacuation
  repeat' (first
    | intro _ | with_reducible assumption | with_reducible apply State.modPair_evolves
    | (with_reducible exact Evolves.same ‹_› rfl rfl rfl rfl rfl))

theorem pairEvacuateBody_evolves {z : State} (h : Hdr) (s : State) (h_ : Evolves z s) : Evolves.reply z
    (pairEvacuateBody h s) := by
  unfold pairEvacuateBody
  repeat' (first
    | intro _ | with_reducible assumption | with_reducible apply startLong_evolves
    | with_reducible apply startEvacuation_evolves | with_reducible apply Evolves.replyFail
    | with_reducible apply Evolves.replyWait | split)

theorem runPairEvacuate_evolves {z : State} (h : Hdr) (s : State) (h_ : Evolves z s) : Evolves z
    (runPairEvacuate h s) := by
  unfold runPairEvacuate
  repeat' (first
    | with_reducible assumption | with_reducible apply serve_evolves | with_reducible apply pairEvacuateBody_evolves)

theorem handOver_evolves {z : State} (msg : BrideMsg) (s : State) (h_ : Evolves z s) : Evolves z (handOver msg s)
    := by
  unfold handOver
  repeat' (first
    | intro _ | with_reducible assumption
    | (extract_lets +onlyGivenNames x
       first
       | (refine Evolves.cut (z := z) x ?_ ?_
          rotate_left
          intro _
          clear_value x
          rotate_left
          unfold x
          clear x)
       | clear_value x)
    | with_reducible apply State.push_evolves | with_reducible apply State.modPair_evolves
    | with_reducible apply pairEvent_evolves | with_reducible apply endWorkNow_evolves
    | with_reducible apply leavePair_evolves | (with_reducible exact Evolves.same ‹_› rfl rfl rfl rfl rfl) | split)

theorem shortPress_evolves {z : State} (s : State) (h_ : Evolves z s) : Evolves z (shortPress s) := by
  unfold shortPress
  repeat' (first
    | intro _ | with_reducible assumption
    | (extract_lets +onlyGivenNames x
       first
       | (refine Evolves.cut (z := z) x ?_ ?_
          rotate_left
          intro _
          clear_value x
          rotate_left
          unfold x
          clear x)
       | clear_value x)
    | with_reducible apply State.modBoard_evolves | with_reducible apply signalWake_evolves
    | (with_reducible exact Evolves.same ‹_› rfl rfl rfl rfl rfl) | split)

end Sys2Proof.Machine
end

