-- ==== Sys2Proof/Laws/EvolveHeld.lean ====
section
/-! SUPPORT. What the operations of Sys2Proof.Machine.Held never undo. -/

namespace Sys2Proof.Machine

theorem runHeld_evolves {z : State} (i : Instr) (s : State) (h_ : Evolves z s) : Evolves z (runHeld i s) := by
  unfold runHeld
  repeat' (first
    | intro _ | with_reducible assumption | with_reducible apply runOpenSession_evolves
    | with_reducible apply runCloseSession_evolves | with_reducible apply runLeaseRenew_evolves
    | with_reducible apply runResync_evolves | with_reducible apply runAdopt_evolves
    | with_reducible apply runResetWork_evolves | with_reducible apply runAudit_evolves
    | with_reducible apply runStreamOpen_evolves | with_reducible apply runStreamClose_evolves
    | with_reducible apply runStreamFeed_evolves | with_reducible apply runFlowSetAdd_evolves
    | with_reducible apply runFlowSetModify_evolves | with_reducible apply runFlowSetRemove_evolves
    | with_reducible apply runFlowSetAddrAdd_evolves | with_reducible apply runFlowSetAddrRemove_evolves
    | with_reducible apply runKeyPicture_evolves | with_reducible apply runEncodeOpen_evolves
    | with_reducible apply runStreamQuery_evolves | with_reducible apply runEyeletPolicy_evolves
    | with_reducible apply runModelLoad_evolves | with_reducible apply runModelUnload_evolves
    | with_reducible apply runModelPinSet_evolves | with_reducible apply runModelPinClear_evolves
    | with_reducible apply runPillowPlanSet_evolves | with_reducible apply runPillowPlanClear_evolves
    | with_reducible apply runStitchPost_evolves | with_reducible apply runStitchCancel_evolves
    | with_reducible apply runClientSetCreate_evolves | with_reducible apply runClientSetModify_evolves
    | with_reducible apply runClientSetRemove_evolves | with_reducible apply runClientStats_evolves
    | with_reducible apply runPartitionSetCreate_evolves | with_reducible apply runPartitionSetModify_evolves
    | with_reducible apply runPartitionSetRemove_evolves | with_reducible apply runBobbinCreate_evolves
    | with_reducible apply runBobbinRelease_evolves | with_reducible apply runPrefixCreate_evolves
    | with_reducible apply runPrefixFork_evolves | with_reducible apply runPoolCreate_evolves
    | with_reducible apply runPoolAlloc_evolves | with_reducible apply runPoolFreeUnref_evolves
    | with_reducible apply runPoolFreeRef_evolves | with_reducible apply runPoolFreeDestroy_evolves
    | with_reducible apply runPoolStats_evolves | with_reducible apply runPagesPostCreate_evolves
    | with_reducible apply runPagesPostAdd_evolves | with_reducible apply runPicotRouteDestSet_evolves
    | with_reducible apply runPicotRouteDestRemove_evolves | with_reducible apply runPicotRouteStreamSet_evolves
    | with_reducible apply runPicotRouteStats_evolves | with_reducible apply runTimeStep_evolves
    | with_reducible apply runTimeRate_evolves | with_reducible apply runTimeUnitClaim_evolves
    | with_reducible apply runTimeUnitRelease_evolves | with_reducible apply runPairJoin_evolves
    | with_reducible apply runPairEvacuate_evolves | with_reducible apply runPairStatus_evolves
    | with_reducible apply runPowerCap_evolves | with_reducible apply runPowerStateNap_evolves
    | with_reducible apply runPowerStateReady_evolves | with_reducible apply runLogConfig_evolves
    | with_reducible apply runTraceSetEnable_evolves | with_reducible apply runTraceSetDisable_evolves
    | with_reducible apply runTraceSetReplace_evolves | with_reducible apply runMeasurements_evolves
    | with_reducible apply runUnknownOpcode_evolves | exact h_ | split)

theorem takeList_evolves {z : State} (v0 : List Instr) (s : State) (h_ : Evolves z s) : Evolves z (takeList v0 s)
    := by
  induction v0 generalizing s with
  | nil =>
    unfold takeList
    repeat' (first
      | intro _ | with_reducible assumption | (refine Evolves.hostSame _ ?_ (fun h => h))
      | with_reducible apply runHeld_evolves | with_reducible refine Evolves.ofSnd ?_ (by with_reducible assumption)
      | with_reducible refine Evolves.ofOptSnd ?_ (by with_reducible assumption) | with_reducible apply Evolves.projSnd
      | with_reducible apply Evolves.mkSnd | split)
  | cons y l ih =>
    unfold takeList
    repeat' (first
      | intro _ | with_reducible assumption | (refine Evolves.hostSame _ ?_ (fun h => h))
      | with_reducible apply runHeld_evolves | with_reducible apply ih
      | with_reducible refine Evolves.ofSnd ?_ (by with_reducible assumption)
      | with_reducible refine Evolves.ofOptSnd ?_ (by with_reducible assumption) | with_reducible apply Evolves.projSnd
      | with_reducible apply Evolves.mkSnd | split)

theorem takeHeld_evolves {z : State} (s : State) (h_ : Evolves z s) : Evolves z (takeHeld s) := by
  unfold takeHeld
  repeat' (first
    | intro _ | with_reducible assumption | with_reducible apply takeList_evolves
    | (refine Evolves.hostSame _ ?_ (fun h => h)) | (with_reducible exact Evolves.same ‹_› rfl rfl rfl rfl rfl))

end Sys2Proof.Machine
end

