-- ==== Sys2Proof/Laws/EvolvePowerStates.lean ====
section
/-! SUPPORT. What the operations of Sys2Proof.Machine.PowerStates never undo. -/

namespace Sys2Proof.Machine

theorem beginSleep_evolves {z : State} (s : State) (h_ : Evolves z s) : Evolves z (beginSleep s) := by
  unfold beginSleep
  repeat' (first
    | intro _ | with_reducible assumption
    | (extract_lets +onlyGivenNames x
       first
       | (refine Evolves.cut (z := z) x ?_ ?_
          rotate_left
          intro _
          clear_value x
          rotate_left
          unfold x
          clear x)
       | clear_value x)
    | with_reducible apply State.modPower_evolves | with_reducible apply beginEnding_evolves
    | (with_reducible exact Evolves.same ‹_› rfl rfl rfl rfl rfl) | split)

theorem sleepIfPending_evolves {z : State} (s : State) (h_ : Evolves z s) : Evolves z (sleepIfPending s) := by
  unfold sleepIfPending
  repeat' (first
    | with_reducible assumption | with_reducible apply beginSleep_evolves | split)

theorem d3hotWrite_evolves {z : State} (s : State) (h_ : Evolves z s) : Evolves z (d3hotWrite s) := by
  unfold d3hotWrite
  repeat' (first
    | intro _ | with_reducible assumption
    | (extract_lets +onlyGivenNames x
       first
       | (refine Evolves.cut (z := z) x ?_ ?_
          rotate_left
          intro _
          clear_value x
          rotate_left
          unfold x
          clear x)
       | clear_value x)
    | with_reducible apply State.modPcie_evolves | with_reducible apply State.modPower_evolves
    | with_reducible apply beginSleep_evolves | (with_reducible exact Evolves.same ‹_› rfl rfl rfl rfl rfl) | split)

theorem savePillows_evolves {z : State} (s : State) (h_ : Evolves z s) :
    Evolves z (savePillows s) := by
  unfold savePillows
  repeat' (first
    | intro _ | with_reducible assumption
    | (extract_lets +onlyGivenNames x
       first
       | (refine Evolves.cut (z := z) x ?_ ?_
          rotate_left
          intro _
          clear_value x
          rotate_left
          unfold x
          clear x)
       | clear_value x)
    | with_reducible apply rangeFinds_evolves
    | with_reducible apply copyRange_evolves
    | with_reducible apply State.modPil_evolves
    | with_reducible refine Evolves.ofSnd ?_ (by with_reducible assumption)
    | with_reducible refine Evolves.ofOptSnd ?_ (by with_reducible assumption)
    | with_reducible refine Evolves.ofOption ?_ (by with_reducible assumption)
    | with_reducible apply Evolves.some
    | with_reducible apply Evolves.none
    | with_reducible apply Evolves.mkSnd
    | with_reducible apply Evolves.projSnd
    | with_reducible apply Evolves.optSome
    | with_reducible apply Evolves.optNone
    | with_reducible apply Evolves.foldl
    | with_reducible apply Evolves.replyOk
    | with_reducible apply Evolves.replyFail
    | with_reducible apply Evolves.replyCounted
    | with_reducible apply Evolves.replyWait
    | with_reducible apply Evolves.next
    | with_reducible apply Evolves.fault
    | with_reducible apply Evolves.ite
    | (refine Evolves.memSame _ ?_ (fun h => h))
    | (with_reducible exact Evolves.same ‹_› rfl rfl rfl rfl rfl) | split)

theorem restorePillows_evolves {z : State} (s : State) (h_ : Evolves z s) :
    Evolves z (restorePillows s) := by
  unfold restorePillows
  repeat' (first
    | intro _ | with_reducible assumption
    | (extract_lets +onlyGivenNames x
       first
       | (refine Evolves.cut (z := z) x ?_ ?_
          rotate_left
          intro _
          clear_value x
          rotate_left
          unfold x
          clear x)
       | clear_value x)
    | with_reducible apply rangeFinds_evolves
    | with_reducible apply copyRange_evolves
    | with_reducible apply State.modPil_evolves
    | with_reducible refine Evolves.ofSnd ?_ (by with_reducible assumption)
    | with_reducible refine Evolves.ofOptSnd ?_ (by with_reducible assumption)
    | with_reducible refine Evolves.ofOption ?_ (by with_reducible assumption)
    | with_reducible apply Evolves.some
    | with_reducible apply Evolves.none
    | with_reducible apply Evolves.mkSnd
    | with_reducible apply Evolves.projSnd
    | with_reducible apply Evolves.optSome
    | with_reducible apply Evolves.optNone
    | with_reducible apply Evolves.foldl
    | with_reducible apply Evolves.replyOk
    | with_reducible apply Evolves.replyFail
    | with_reducible apply Evolves.replyCounted
    | with_reducible apply Evolves.replyWait
    | with_reducible apply Evolves.next
    | with_reducible apply Evolves.fault
    | with_reducible apply Evolves.ite
    | (with_reducible exact Evolves.same ‹_› rfl rfl rfl rfl rfl) | split)

theorem saveGatherer_evolves {z : State} (s : State) (h_ : Evolves z s) : Evolves z (saveGatherer s) :=
  Evolves.evgSame _ h_ fun h =>
    have ⟨h1, _⟩ := (EvgUnit.canonical_iff _).1 h
    (EvgUnit.canonical_iff _).2 ⟨SMap.wf_filter _ h1, SMap.wf_filter _ h1⟩

theorem restoreGatherer_evolves {z : State} (s : State) (h_ : Evolves z s) : Evolves z (restoreGatherer s) := by
  refine Evolves.evgSame _ h_ fun h => ?_
  obtain ⟨h1, h2⟩ := (EvgUnit.canonical_iff _).1 h
  have ho : SMap.wf {} (s.evg.saved.getD []) = true := by
    cases e : s.evg.saved with
    | none => rfl
    | some o => simpa [e] using h2
  refine (EvgUnit.canonical_iff _).2 ⟨?_, rfl⟩
  have hlow : SMap.wfFrom {} 248 ((s.evg.sources.filter fun x => alwaysOn x.1) ++
      (s.evg.saved.getD []).filter fun x => decide (253 < x.1)) = true := by
    refine SMap.wfFrom_append (hi := 254) (SMap.wfFrom_raise (SMap.wf_filter _ h1) ?_) (by omega) ?_
      (SMap.wfFrom_raise (SMap.wf_filter _ ho) ?_)
    · intro c hc
      have := (List.mem_filter.1 hc).2
      simp [alwaysOn] at this
      omega
    · intro c hc
      have := (List.mem_filter.1 hc).2
      simp [alwaysOn] at this
      omega
    · intro c hc
      have := (List.mem_filter.1 hc).2
      simp at this
      omega
  dsimp only
  rw [List.append_assoc]
  refine SMap.wfFrom_append (hi := 248) (SMap.wf_filter _ ho) (by omega) ?_ hlow
  intro c hc
  simpa using (List.mem_filter.1 hc).2

theorem sleepDown_evolves {z : State} (s : State) (h_ : Evolves z s) : Evolves z (sleepDown s) := by
  unfold sleepDown
  refine Evolves.hostSame _ (Evolves.foldl _ _ _ (Evolves.timeSame _ (State.modBoard_evolves _ _ (State.modPower_evolves _ _
    (loseAreas_evolves _ _ _ (selfRefreshAll_evolves _ _ (saveGatherer_evolves _ (savePillows_evolves _ h_))))))
    fun h => ?_) fun _ _ h => State.modCc_evolves _ _ _ h) fun h => h
  split <;> exact h

theorem d0Write_evolves {z : State} (s : State) (h_ : Evolves z s) : Evolves z (d0Write s) := by
  unfold d0Write
  repeat' (first
    | intro _ | with_reducible assumption
    | (extract_lets +onlyGivenNames x
       first
       | (refine Evolves.cut (z := z) x ?_ ?_
          rotate_left
          intro _
          clear_value x
          rotate_left
          unfold x
          clear x)
       | clear_value x)
    | with_reducible apply State.modPcie_evolves | with_reducible apply State.modPower_evolves
    | (with_reducible exact Evolves.same ‹_› rfl rfl rfl rfl rfl) | split)

theorem startFirmware_evolves {z : State} (s : State) (h_ : Evolves z s) : Evolves z (startFirmware s) := by
  unfold startFirmware
  repeat' (first
    | intro _ | with_reducible assumption | with_reducible apply State.modCc_evolves
    | with_reducible apply Evolves.foldl | (with_reducible exact Evolves.same ‹_› rfl rfl rfl rfl rfl))

theorem restart_evolves {z : State} (units : SMap TimeUnit) (s : State)
    (hu : z.canonical = true → SMap.wf {} units = true) (h_ : Evolves z s) : Evolves z (restart units s) := by
  refine ⟨h_.queue, ?_, Nat.le_succ_of_le h_.fresh, h_.version, h_.fuse, fun w => ?_⟩
  · exact h_.out
  · have hs := ((State.canonical_iff s).1 (h_.canonical w)).2.2.2.2.1
    refine (State.canonical_iff _).2 ⟨rfl, rfl, hu w, rfl, ?_, rfl, rfl, rfl, rfl, rfl⟩
    simp only [restart, EvgUnit.canonical, EvgUnit.init, Option.all_none, Bool.and_true] at hs ⊢
    exact SMap.wf_filter _ (by simpa [EvgUnit.canonical] using (Bool.and_eq_true _ _ ▸ hs : _ ∧ _).1)

theorem darkCard_evolves {z : State} (s : State) (h_ : Evolves z s) : Evolves z (darkCard s) := by
  refine Evolves.same (restart_evolves [] s (fun _ => rfl) h_) rfl rfl rfl rfl fun w => ?_
  exact (State.canonical_iff _).2 ⟨rfl, rfl, rfl, rfl, rfl, rfl, rfl, rfl, rfl, rfl⟩

/-- The units that go on in the always-on island are in canonical form. -/
theorem islandUnits_wf {s : State} (h : s.canonical = true) : SMap.wf {} (islandUnits s) = true :=
  SMap.wf_filter _ ((State.canonical_iff s).1 h).2.2.1

theorem mainOff_evolves {z : State} (s : State) (h_ : Evolves z s) : Evolves z (mainOff s) := by
  unfold mainOff
  have h := State.modPower_evolves (fun p => { p with main := false }) s h_
  dsimp only
  split
  · exact restart_evolves _ _ (fun w => islandUnits_wf (h.canonical w)) h
  · exact darkCard_evolves _ h

theorem tripOff_evolves {z : State} (temps : List Int) (s : State) (h_ : Evolves z s) : Evolves z (tripOff temps s)
    := by
  unfold tripOff
  repeat' (first
    | intro _ | with_reducible assumption | with_reducible apply mainOff_evolves
    | with_reducible apply State.modPower_evolves | (with_reducible exact Evolves.same ‹_› rfl rfl rfl rfl rfl))

end Sys2Proof.Machine
end

