-- ==== Sys2Proof/Laws/EvolveBringup.lean ====
section
/-! SUPPORT. What the operations of Sys2Proof.Machine.Bringup never undo. -/

namespace Sys2Proof.Machine

theorem startTraining_evolves {z : State} (s : State) (h_ : Evolves z s) :
    Evolves z (startTraining s) := by
  unfold startTraining
  repeat' (first
    | intro _ | with_reducible assumption
    | with_reducible apply State.modDdr_evolves
    | with_reducible apply State.modPower_evolves
    | with_reducible refine Evolves.ofSnd ?_ (by with_reducible assumption)
    | with_reducible refine Evolves.ofOptSnd ?_ (by with_reducible assumption)
    | with_reducible refine Evolves.ofOption ?_ (by with_reducible assumption)
    | with_reducible apply Evolves.mkSnd
    | with_reducible apply Evolves.projSnd
    | with_reducible apply Evolves.optSome
    | with_reducible apply Evolves.optNone
    | with_reducible apply Evolves.foldl
    | with_reducible apply Evolves.replyOk
    | with_reducible apply Evolves.replyFail
    | with_reducible apply Evolves.replyCounted
    | with_reducible apply Evolves.replyWait
    | with_reducible apply Evolves.next
    | with_reducible apply Evolves.fault
    | (with_reducible exact Evolves.same ‹_› rfl rfl rfl rfl rfl) | split)

theorem startImage_evolves {z : State} (img : List Byte) (k : Fin 4) (s : State) (h_ : Evolves z s) :
    Evolves z (startImage img k s) := by
  have h := State.modPcie_evolves (fun p => { p with doeBusy := false }) _ (startFirmware_evolves _ (Evolves.hostSame (fun h =>
      { h with
        fwVersion := pieceNat img 0x10 4, protoMin := pieceNat img 0x14 1, protoMax := pieceNat img 0x15 1,
        state := .starting })
    (zeroRange_evolves 0x5000800000 0x1800000 _ (Evolves.secSame (fun x =>
      { x with
        securityVersion := max x.securityVersion (pieceNat img 0x0C 4), fwLocked := true, signer := k.val,
        fwDigest := piece img 0x40 32, fwSecurity := pieceNat img 0x0C 4, chainValid := Config.chainValid,
        ownerValid := Config.ownerKeysValid }) h_ (Nat.le_max_left _ _) rfl)) fun h => h))
  exact Evolves.ite (State.modPower_evolves _ _ h) (startTraining_evolves _ h)

theorem bootDone_evolves {z : State} (h : Hdr) (img : List Byte) (bytes : Nat) (s : State) (h_ : Evolves z s) :
    Evolves z (bootDone h img bytes s) := by
  unfold bootDone
  repeat' (first
    | intro _ | with_reducible assumption
    | (extract_lets +onlyGivenNames x
       first
       | (refine Evolves.cut (z := z) x ?_ ?_
          rotate_left
          intro _
          clear_value x
          rotate_left
          unfold x
          clear x)
       | clear_value x)
    | with_reducible apply rawWrite_evolves
    | with_reducible apply writeAnswer_evolves
    | with_reducible apply startImage_evolves
    | with_reducible refine Evolves.ofSnd ?_ (by with_reducible assumption)
    | with_reducible refine Evolves.ofOptSnd ?_ (by with_reducible assumption)
    | with_reducible refine Evolves.ofOption ?_ (by with_reducible assumption)
    | with_reducible apply Evolves.some
    | with_reducible apply Evolves.none
    | with_reducible apply Evolves.mkSnd
    | with_reducible apply Evolves.projSnd
    | with_reducible apply Evolves.optSome
    | with_reducible apply Evolves.optNone
    | with_reducible apply Evolves.foldl
    | with_reducible apply Evolves.replyOk
    | with_reducible apply Evolves.replyFail
    | with_reducible apply Evolves.replyCounted
    | with_reducible apply Evolves.replyWait
    | with_reducible apply Evolves.next
    | with_reducible apply Evolves.fault
    | with_reducible apply Evolves.ite
    | (with_reducible exact Evolves.same ‹_› rfl rfl rfl rfl rfl) | split)

theorem bootServe_evolves {z : State} (h : Hdr) (opcode : Nat) (body : State → State) (s : State) (hbody
    : ∀ x0, Evolves z x0 → Evolves z (body x0)) (h_ : Evolves z s) : Evolves z (bootServe h opcode body s) := by
  unfold bootServe
  repeat' (first
    | intro _ | with_reducible assumption
    | (extract_lets +onlyGivenNames x
       first
       | (refine Evolves.cut (z := z) x ?_ ?_
          rotate_left
          intro _
          clear_value x
          rotate_left
          unfold x
          clear x)
       | clear_value x)
    | (refine Evolves.hostSame _ ?_ (fun h => h)) | with_reducible apply takeOwner_evolves
    | with_reducible apply writeAnswer_evolves | with_reducible apply hbody
    | (with_reducible exact Evolves.same ‹_› rfl rfl rfl rfl rfl) | split)

theorem bootLoadBody_evolves {z : State} (h : Hdr) (entries : List (Nat × Nat)) (bytes : Nat) (image : Option
    (List Byte)) (s : State) (h_ : Evolves z s) : Evolves z (bootLoadBody h entries bytes image s) := by
  unfold bootLoadBody
  repeat' (first
    | intro _ | with_reducible assumption
    | (extract_lets +onlyGivenNames x
       first
       | (refine Evolves.cut (z := z) x ?_ ?_
          rotate_left
          intro _
          clear_value x
          rotate_left
          unfold x
          clear x)
       | clear_value x)
    | with_reducible apply writeAnswer_evolves | with_reducible apply bootDone_evolves
    | with_reducible apply instantReads_evolves | with_reducible apply startReads_evolves
    | (refine Evolves.hostSame _ ?_ (fun h => h)) | (with_reducible exact Evolves.same ‹_› rfl rfl rfl rfl rfl)
    | split)

theorem bootFail_evolves {z : State} (status detail : Nat) (s : State) (h_ : Evolves z s) : Evolves z
    (bootFail status detail s) := by
  unfold bootFail
  repeat' (first
    | intro _ | with_reducible assumption | with_reducible apply writeAnswer_evolves
    | with_reducible apply dropReads_evolves | (refine Evolves.hostSame _ ?_ (fun h => h))
    | (with_reducible exact Evolves.same ‹_› rfl rfl rfl rfl rfl) | split)

theorem dueBootLoadTimeout_evolves {z : State} (s : State) (h_ : Evolves z s) :
    Evolves.outcome z (dueBootLoadTimeout s) := by
  unfold dueBootLoadTimeout
  repeat' (first
    | intro _ | with_reducible assumption
    | with_reducible apply bootFail_evolves
    | with_reducible refine Evolves.ofSnd ?_ (by with_reducible assumption)
    | with_reducible refine Evolves.ofOptSnd ?_ (by with_reducible assumption)
    | with_reducible refine Evolves.ofOption ?_ (by with_reducible assumption)
    | with_reducible apply Evolves.mkSnd
    | with_reducible apply Evolves.projSnd
    | with_reducible apply Evolves.optSome
    | with_reducible apply Evolves.optNone
    | with_reducible apply Evolves.foldl
    | with_reducible apply Evolves.replyOk
    | with_reducible apply Evolves.replyFail
    | with_reducible apply Evolves.replyCounted
    | with_reducible apply Evolves.replyWait
    | with_reducible apply Evolves.next
    | with_reducible apply Evolves.fault
    | (with_reducible exact Evolves.same ‹_› rfl rfl rfl rfl rfl) | split)

theorem bringUpFault_evolves {z : State} (kind unit : Nat) (s : State) (h_ : Evolves z s) : Evolves z
    (bringUpFault kind unit s) := by
  unfold bringUpFault
  repeat' (first
    | intro _ | with_reducible assumption | with_reducible apply takeHeld_evolves
    | with_reducible apply enterFault_evolves | with_reducible apply State.modPower_evolves
    | (with_reducible exact Evolves.same ‹_› rfl rfl rfl rfl rfl))

theorem trainingEnds_evolves {z : State} (r : StepResult) (s : State) (h_ : Evolves z s) : Evolves z
    (trainingEnds r s) := by
  unfold trainingEnds
  repeat' (first
    | intro _ | with_reducible assumption
    | (extract_lets +onlyGivenNames x
       first
       | (refine Evolves.cut (z := z) x ?_ ?_
          rotate_left
          intro _
          clear_value x
          rotate_left
          unfold x
          clear x)
       | clear_value x)
    | with_reducible apply State.modBoard_evolves | with_reducible apply State.modPower_evolves
    | with_reducible apply State.modDdr_evolves | with_reducible apply bringUpFault_evolves
    | with_reducible apply Evolves.foldl | (with_reducible exact Evolves.same ‹_› rfl rfl rfl rfl rfl) | split)

theorem selfTestEnds_evolves {z : State} (r : StepResult) (s : State) (h_ : Evolves z s) : Evolves z
    (selfTestEnds r s) := by
  unfold selfTestEnds
  repeat' (first
    | intro _ | with_reducible assumption
    | (extract_lets +onlyGivenNames x
       first
       | (refine Evolves.cut (z := z) x ?_ ?_
          rotate_left
          intro _
          clear_value x
          rotate_left
          unfold x
          clear x)
       | clear_value x)
    | with_reducible apply zeroRange_evolves | with_reducible apply State.modPil_evolves
    | with_reducible apply State.modPower_evolves | with_reducible apply bringUpFault_evolves
    | with_reducible apply Evolves.foldl | (with_reducible exact Evolves.same ‹_› rfl rfl rfl rfl rfl) | split)

theorem readyReached_evolves {z : State} (r : StepResult) (s : State) (h_ : Evolves z s) : Evolves z
    (readyReached r s) := by
  unfold readyReached
  repeat' (first
    | intro _ | with_reducible assumption
    | (extract_lets +onlyGivenNames x
       first
       | (refine Evolves.cut (z := z) x ?_ ?_
          rotate_left
          intro _
          clear_value x
          rotate_left
          unfold x
          clear x)
       | clear_value x)
    | with_reducible apply State.modPair_evolves | with_reducible apply State.modPower_evolves
    | with_reducible apply setCause_evolves | (refine Evolves.hostSame _ ?_ (fun h => h))
    | with_reducible apply powerLimitEvent_evolves | with_reducible apply sleepIfPending_evolves
    | with_reducible apply takeHeld_evolves | (with_reducible exact Evolves.same ‹_› rfl rfl rfl rfl rfl) | split)

end Sys2Proof.Machine
end

