-- ==== Sys2Proof/Laws/EvolveEndpoint.lean ====
section
/-! SUPPORT. What the operations of Sys2Proof.Machine.Endpoint never undo. -/

namespace Sys2Proof.Machine

theorem readEnds_evolves {z : State} (tag : Nat) (s : State) (h_ : Evolves z s) : Evolves z (readEnds tag s) := by
  unfold readEnds
  repeat' (first
    | intro _ | with_reducible assumption | with_reducible apply State.modPcie_evolves
    | (with_reducible exact Evolves.same ‹_› rfl rfl rfl rfl rfl))

theorem readFails_evolves {z : State} (o : ReadOwner) (status detail : Nat) (s : State) (h_ : Evolves z s)
    : Evolves z (readFails o status detail s) := by
  unfold readFails
  repeat' (first
    | with_reducible assumption
    | (extract_lets +onlyGivenNames x
       first
       | (refine Evolves.cut (z := z) x ?_ ?_
          rotate_left
          intro _
          clear_value x
          rotate_left
          unfold x
          clear x)
       | clear_value x)
    | with_reducible apply bootFail_evolves | with_reducible apply dropReads_evolves
    | with_reducible apply answerLater_evolves | split)

theorem readTimeout_evolves {z : State} (tag : Nat) (s : State) (h_ : Evolves z s) :
    Evolves z (readTimeout tag s) := by
  unfold readTimeout
  repeat' (first
    | intro _ | with_reducible assumption
    | (extract_lets +onlyGivenNames x
       first
       | (refine Evolves.cut (z := z) x ?_ ?_
          rotate_left
          intro _
          clear_value x
          rotate_left
          unfold x
          clear x)
       | clear_value x)
    | with_reducible apply uncorrectableError_evolves
    | with_reducible apply State.useFreshN_evolves
    | with_reducible apply pumpReads_evolves
    | with_reducible apply readFails_evolves
    | with_reducible apply readEnds_evolves
    | with_reducible refine Evolves.ofSnd ?_ (by with_reducible assumption)
    | with_reducible refine Evolves.ofOptSnd ?_ (by with_reducible assumption)
    | with_reducible refine Evolves.ofOption ?_ (by with_reducible assumption)
    | with_reducible apply Evolves.some
    | with_reducible apply Evolves.none
    | with_reducible apply Evolves.mkSnd
    | with_reducible apply Evolves.projSnd
    | with_reducible apply Evolves.optSome
    | with_reducible apply Evolves.optNone
    | with_reducible apply Evolves.foldl
    | with_reducible apply Evolves.replyOk
    | with_reducible apply Evolves.replyFail
    | with_reducible apply Evolves.replyCounted
    | with_reducible apply Evolves.replyWait
    | with_reducible apply Evolves.next
    | with_reducible apply Evolves.fault
    | with_reducible apply Evolves.ite
    | (with_reducible exact Evolves.same ‹_› rfl rfl rfl rfl rfl) | split)

theorem readData_evolves {z : State} (r : OutRead) (data : List Byte) (s : State) (h_ : Evolves z s) : Evolves z
    (readData r data s) := by
  unfold readData
  repeat' (first
    | intro _ | with_reducible assumption
    | (extract_lets +onlyGivenNames x
       first
       | (refine Evolves.cut (z := z) x ?_ ?_
          rotate_left
          intro _
          clear_value x
          rotate_left
          unfold x
          clear x)
       | clear_value x)
    | with_reducible apply bootDone_evolves | (refine Evolves.hostSame _ ?_ (fun h => h))
    | with_reducible apply loadLater_evolves | with_reducible apply setLong_evolves
    | with_reducible apply feedDone_evolves | (with_reducible exact Evolves.same ‹_› rfl rfl rfl rfl rfl) | split)

theorem failedCompletion_evolves {z : State} (st : CplStatus) (header : List Byte) (s : State) (h_ : Evolves z s) :
    Evolves z (failedCompletion st header s) := by
  unfold failedCompletion
  repeat' (first
    | intro _ | with_reducible assumption
    | with_reducible apply unsupported_evolves
    | with_reducible apply statusBit_evolves
    | with_reducible apply poisonedTlp_evolves
    | with_reducible refine Evolves.ofSnd ?_ (by with_reducible assumption)
    | with_reducible refine Evolves.ofOptSnd ?_ (by with_reducible assumption)
    | with_reducible refine Evolves.ofOption ?_ (by with_reducible assumption)
    | with_reducible apply Evolves.some
    | with_reducible apply Evolves.none
    | with_reducible apply Evolves.mkSnd
    | with_reducible apply Evolves.projSnd
    | with_reducible apply Evolves.optSome
    | with_reducible apply Evolves.optNone
    | with_reducible apply Evolves.foldl
    | with_reducible apply Evolves.replyOk
    | with_reducible apply Evolves.replyFail
    | with_reducible apply Evolves.replyCounted
    | with_reducible apply Evolves.replyWait
    | with_reducible apply Evolves.next
    | with_reducible apply Evolves.fault
    | with_reducible apply Evolves.ite
    | (with_reducible exact Evolves.same ‹_› rfl rfl rfl rfl rfl) | split)

theorem readCompletion_evolves {z : State} (tag : Nat) (status : CplStatus) (data header : List Byte) (s : State) (h_ : Evolves z s) :
    Evolves z (readCompletion tag status data header s) := by
  unfold readCompletion
  repeat' (first
    | intro _ | with_reducible assumption
    | (extract_lets +onlyGivenNames x
       first
       | (refine Evolves.cut (z := z) x ?_ ?_
          rotate_left
          intro _
          clear_value x
          rotate_left
          unfold x
          clear x)
       | clear_value x)
    | with_reducible apply uncorrectableError_evolves
    | with_reducible apply State.modPcie_evolves
    | with_reducible apply pumpReads_evolves
    | with_reducible apply readData_evolves
    | with_reducible apply readEnds_evolves
    | with_reducible apply readFails_evolves
    | with_reducible apply failedCompletion_evolves
    | with_reducible refine Evolves.ofSnd ?_ (by with_reducible assumption)
    | with_reducible refine Evolves.ofOptSnd ?_ (by with_reducible assumption)
    | with_reducible refine Evolves.ofOption ?_ (by with_reducible assumption)
    | with_reducible apply Evolves.some
    | with_reducible apply Evolves.none
    | with_reducible apply Evolves.mkSnd
    | with_reducible apply Evolves.projSnd
    | with_reducible apply Evolves.optSome
    | with_reducible apply Evolves.optNone
    | with_reducible apply Evolves.foldl
    | with_reducible apply Evolves.replyOk
    | with_reducible apply Evolves.replyFail
    | with_reducible apply Evolves.replyCounted
    | with_reducible apply Evolves.replyWait
    | with_reducible apply Evolves.next
    | with_reducible apply Evolves.fault
    | with_reducible apply Evolves.ite
    | (with_reducible exact Evolves.same ‹_› rfl rfl rfl rfl rfl) | split)

theorem duePcieCompletionTimeout_evolves {z : State} (tag : Nat) (s : State) (h_ : Evolves z s) :
    Evolves.outcome z (duePcieCompletionTimeout tag s) := by
  unfold duePcieCompletionTimeout
  repeat' (first
    | intro _ | with_reducible assumption
    | with_reducible apply readTimeout_evolves
    | with_reducible refine Evolves.ofSnd ?_ (by with_reducible assumption)
    | with_reducible refine Evolves.ofOptSnd ?_ (by with_reducible assumption)
    | with_reducible refine Evolves.ofOption ?_ (by with_reducible assumption)
    | with_reducible apply Evolves.mkSnd
    | with_reducible apply Evolves.projSnd
    | with_reducible apply Evolves.optSome
    | with_reducible apply Evolves.optNone
    | with_reducible apply Evolves.foldl
    | with_reducible apply Evolves.replyOk
    | with_reducible apply Evolves.replyFail
    | with_reducible apply Evolves.replyCounted
    | with_reducible apply Evolves.replyWait
    | with_reducible apply Evolves.next
    | with_reducible apply Evolves.fault
    | (with_reducible exact Evolves.same ‹_› rfl rfl rfl rfl rfl) | split)

theorem reportLtr_evolves {z : State} (s : State) (h_ : Evolves z s) :
    Evolves z (reportLtr s) := by
  unfold reportLtr
  repeat' (first
    | intro _ | with_reducible assumption
    | with_reducible apply State.modPcie_evolves
    | with_reducible apply State.pushLink_evolves
    | with_reducible refine Evolves.ofSnd ?_ (by with_reducible assumption)
    | with_reducible refine Evolves.ofOptSnd ?_ (by with_reducible assumption)
    | with_reducible refine Evolves.ofOption ?_ (by with_reducible assumption)
    | with_reducible apply Evolves.some
    | with_reducible apply Evolves.none
    | with_reducible apply Evolves.mkSnd
    | with_reducible apply Evolves.projSnd
    | with_reducible apply Evolves.optSome
    | with_reducible apply Evolves.optNone
    | with_reducible apply Evolves.foldl
    | with_reducible apply Evolves.replyOk
    | with_reducible apply Evolves.replyFail
    | with_reducible apply Evolves.replyCounted
    | with_reducible apply Evolves.replyWait
    | with_reducible apply Evolves.next
    | with_reducible apply Evolves.fault
    | with_reducible apply Evolves.ite
    | (with_reducible exact Evolves.same ‹_› rfl rfl rfl rfl rfl) | split)

theorem readsTimeOut_evolves {z : State} (s : State) (h_ : Evolves z s) : Evolves z (readsTimeOut s) := by
  unfold readsTimeOut
  repeat' (first
    | intro _ | with_reducible assumption | with_reducible apply readTimeout_evolves
    | with_reducible apply Evolves.foldl)

theorem dueHostLinkLossTimeout_evolves {z : State} (s : State) (h_ : Evolves z s) :
    Evolves.outcome z (dueHostLinkLossTimeout s) := by
  unfold dueHostLinkLossTimeout
  repeat' (first
    | intro _ | with_reducible assumption
    | (extract_lets +onlyGivenNames x
       first
       | (refine Evolves.cut (z := z) x ?_ ?_
          rotate_left
          intro _
          clear_value x
          rotate_left
          unfold x
          clear x)
       | clear_value x)
    | with_reducible apply State.modPair_evolves
    | with_reducible apply escalate_evolves
    | with_reducible apply abandonRunning_evolves
    | with_reducible apply State.push_evolves
    | with_reducible apply pairEvent_evolves
    | with_reducible apply endWorkNow_evolves
    | with_reducible apply leavePair_evolves
    | with_reducible apply internalError_evolves
    | with_reducible refine Evolves.ofSnd ?_ (by with_reducible assumption)
    | with_reducible refine Evolves.ofOptSnd ?_ (by with_reducible assumption)
    | with_reducible refine Evolves.ofOption ?_ (by with_reducible assumption)
    | with_reducible apply Evolves.mkSnd
    | with_reducible apply Evolves.projSnd
    | with_reducible apply Evolves.optSome
    | with_reducible apply Evolves.optNone
    | with_reducible apply Evolves.foldl
    | with_reducible apply Evolves.replyOk
    | with_reducible apply Evolves.replyFail
    | with_reducible apply Evolves.replyCounted
    | with_reducible apply Evolves.replyWait
    | with_reducible apply Evolves.next
    | with_reducible apply Evolves.fault
    | (with_reducible exact Evolves.same ‹_› rfl rfl rfl rfl rfl) | split)

theorem dropCommands_evolves {z : State} (s : State) (h_ : Evolves z s) : Evolves z (dropCommands s) := by
  unfold dropCommands
  refine Evolves.memSame _ (State.modPair_evolves _ _ (Evolves.hostSame _ h_ fun h => ?_)) fun h => h
  obtain ⟨h1, h0, h2⟩ := (HostUnit.canonical_iff _).1 h
  have key : ∀ (k l : SMap Mailbox), SMap.wf {} l = true → l.all (fun m => SMap.wf 0 m.2.payload) = true →
      SMap.wf {} (k.foldl (fun m e => SMap.modify {} m e.1 fun x => { x with own := false }) l) = true ∧
      (k.foldl (fun m e => SMap.modify {} m e.1 fun x => { x with own := false }) l).all
        (fun m => SMap.wf 0 m.2.payload) = true := by
    intro k
    induction k with
    | nil => exact fun _ h w => ⟨h, w⟩
    | cons e k ih =>
      exact fun _ h w => ih _ (SMap.wf_modify _ _ h)
        (SMap.all_set (fun x : Mailbox => SMap.wf 0 x.payload) w _
          (SMap.get_of_all (fun x : Mailbox => SMap.wf 0 x.payload) rfl w e.1))
  exact (HostUnit.canonical_iff _).2 ⟨(key _ _ h1 h0).1, (key _ _ h1 h0).2, h2⟩

theorem dropAllReads_evolves {z : State} (s : State) (h_ : Evolves z s) : Evolves z (dropAllReads s) := by
  unfold dropAllReads
  repeat' (first
    | intro _ | with_reducible assumption | with_reducible apply State.modPcie_evolves
    | (with_reducible exact Evolves.same ‹_› rfl rfl rfl rfl rfl))

theorem resetStatusWords_evolves {z : State} (s : State) (h_ : Evolves z s) : Evolves z (resetStatusWords s) :=
  Evolves.hostSame _ h_ fun h =>
    have ⟨h1, h0, _⟩ := (HostUnit.canonical_iff _).1 h
    (HostUnit.canonical_iff _).2 ⟨h1, h0, rfl⟩

theorem functionReset_evolves {z : State} (s : State) (h_ : Evolves z s) : Evolves z (functionReset s) := by
  unfold functionReset
  repeat' (first
    | intro _ | with_reducible assumption
    | (extract_lets +onlyGivenNames x
       first
       | (refine Evolves.cut (z := z) x ?_ ?_
          rotate_left
          intro _
          clear_value x
          rotate_left
          unfold x
          clear x)
       | clear_value x)
    | with_reducible apply endWorkNow_evolves | with_reducible apply dropAllReads_evolves
    | with_reducible apply dropCommands_evolves | with_reducible apply resetStatusWords_evolves
    | with_reducible apply State.modPcie_evolves | split)

theorem sendWaiting_evolves {z : State} (w : HostWait) (s : State) (h_ : Evolves z s) :
    Evolves z (sendWaiting w s) := by
  unfold sendWaiting
  dsimp only
  split
  · exact State.pushLink_evolves _ _ h_
  · exact Evolves.ite (State.modPcie_evolves _ _ h_) (State.pushLink_evolves _ _ h_)
  · exact Evolves.ite (State.modPcie_evolves _ _ h_) (finishDone_evolves _ _ h_)
  · exact answerLater_evolves _ _ _ _ _ (State.pushLink_evolves _ _ h_)
  · exact pumpReads_evolves _ (State.modPcie_evolves _ _ h_)

theorem busMasterSet_evolves {z : State} (s : State) (h_ : Evolves z s) :
    Evolves z (busMasterSet s) := by
  unfold busMasterSet
  repeat' (first
    | intro _ | with_reducible assumption
    | (extract_lets +onlyGivenNames x
       first
       | (refine Evolves.cut (z := z) x ?_ ?_
          rotate_left
          intro _
          clear_value x
          rotate_left
          unfold x
          clear x)
       | clear_value x)
    | with_reducible apply pumpReads_evolves
    | with_reducible apply State.modPcie_evolves
    | with_reducible apply sendPendingMsix_evolves
    | with_reducible apply sendWaiting_evolves
    | with_reducible refine Evolves.ofSnd ?_ (by with_reducible assumption)
    | with_reducible refine Evolves.ofOptSnd ?_ (by with_reducible assumption)
    | with_reducible refine Evolves.ofOption ?_ (by with_reducible assumption)
    | with_reducible apply Evolves.some
    | with_reducible apply Evolves.none
    | with_reducible apply Evolves.mkSnd
    | with_reducible apply Evolves.projSnd
    | with_reducible apply Evolves.optSome
    | with_reducible apply Evolves.optNone
    | with_reducible apply Evolves.foldl
    | with_reducible apply Evolves.replyOk
    | with_reducible apply Evolves.replyFail
    | with_reducible apply Evolves.replyCounted
    | with_reducible apply Evolves.replyWait
    | with_reducible apply Evolves.next
    | with_reducible apply Evolves.fault
    | with_reducible apply Evolves.ite
    | (with_reducible exact Evolves.same ‹_› rfl rfl rfl rfl rfl) | split)

end Sys2Proof.Machine
end

