-- ==== Sys2Proof/Laws/EvolveBoard.lean ====
section
/-! SUPPORT. What the operations of Sys2Proof.Machine.Board never undo. -/

namespace Sys2Proof.Machine

theorem settlePorts_evolves {z : State} (s : State) (h_ : Evolves z s) : Evolves z (settlePorts s) := by
  unfold settlePorts
  repeat' (first
    | intro _ | with_reducible assumption | with_reducible apply State.modBoard_evolves
    | (with_reducible exact Evolves.same ‹_› rfl rfl rfl rfl rfl))

theorem pldmServe_evolves {z : State} (t : Transport) (r : PldmReq) (s : State) (h_ : Evolves z s) : Evolves z
    (pldmServe t r s) := by
  unfold pldmServe
  repeat' (first
    | intro _ | with_reducible assumption | with_reducible apply State.push_evolves
    | with_reducible apply State.useFresh_evolves | with_reducible apply State.modBoard_evolves
    | (with_reducible exact Evolves.same ‹_› rfl rfl rfl rfl rfl) | split)

end Sys2Proof.Machine
end

