-- ==== Sys2Proof/Laws/EvolveRegisters.lean ====
section
/-! SUPPORT. What the operations of Sys2Proof.Machine.Registers never undo. -/

namespace Sys2Proof.Machine

theorem runWords_evolves {z : State} (f : Nat → Nat → State → Result) (l : List (Nat × Nat)) (s : State)
    (hf : ∀ o v s, Evolves z s → Evolves.outcome z (f o v s)) (h_ : Evolves z s) :
    Evolves.outcome z (runWords f l s) := by
  induction l generalizing s with
  | nil => exact Evolves.next h_
  | cons c l ih =>
    unfold runWords
    have h1 := hf c.1 c.2 s h_
    cases e : f c.1 c.2 s with
    | next t => exact ih t (h1.next_evolves t e)
    | fault r => exact Evolves.fault _ _
    | refused r => exact ⟨fun t e => by cases e⟩

theorem mboxByte_evolves {z : State} (m off b : Nat) (s : State) (h_ : Evolves z s) :
    Evolves z (mboxByte m off b s) := by
  refine State.modMbox_evolves _ _ _ (fun w => ?_) h_
  have h : ∀ (c : Prop) [Decidable c] (x y : Mailbox), SMap.wf 0 x.payload = true → SMap.wf 0 y.payload = true →
      SMap.wf 0 (if c then x else y).payload = true := by
    intro c _ x y hx hy
    split
    · exact hx
    · exact hy
  repeat' apply h
  all_goals first
    | exact w
    | exact SMap.wf_set _ _ w

theorem mboxWrite_evolves {z : State} (m off size value : Nat) (s : State) (h_ : Evolves z s) : Evolves z
    (mboxWrite m off size value s) := by
  unfold mboxWrite
  repeat' (first
    | intro _ | with_reducible assumption | (refine Evolves.hostSame _ ?_ (fun h => h))
    | with_reducible apply mboxByte_evolves | with_reducible apply Evolves.foldl
    | (with_reducible exact Evolves.same ‹_› rfl rfl rfl rfl rfl) | split)

theorem msixWord_evolves {z : State} (off value : Nat) (s : State) (h_ : Evolves z s) : Evolves z
    (msixWord off value s) := by
  unfold msixWord
  refine sendPendingMsix_evolves _ (Evolves.hostSame _ h_ fun h => ?_)
  obtain ⟨h1, h0, h2⟩ := (HostUnit.canonical_iff _).1 h
  refine (HostUnit.canonical_iff _).2 ⟨h1, h0, ?_⟩
  dsimp only
  exact SMap.wf_modify _ _ h2

theorem bar0Word_evolves {z : State} (off value : Nat) (s : State) (h_ : Evolves z s) :
    Evolves.outcome z (bar0Word off value s) := by
  unfold bar0Word
  repeat' (first
    | intro _ | with_reducible assumption
    | with_reducible apply msixWord_evolves
    | with_reducible apply timeUtcOffsetWrite_evolves
    | with_reducible apply timeCtrlRelease_evolves
    | with_reducible apply timePtpCfgWrite_evolves
    | with_reducible apply b2Write_evolves
    | with_reducible refine Evolves.ofSnd ?_ (by with_reducible assumption)
    | with_reducible refine Evolves.ofOptSnd ?_ (by with_reducible assumption)
    | with_reducible refine Evolves.ofOption ?_ (by with_reducible assumption)
    | with_reducible apply Evolves.some
    | with_reducible apply Evolves.none
    | with_reducible apply Evolves.mkSnd
    | with_reducible apply Evolves.projSnd
    | with_reducible apply Evolves.optSome
    | with_reducible apply Evolves.optNone
    | with_reducible apply Evolves.foldl
    | with_reducible apply Evolves.replyOk
    | with_reducible apply Evolves.replyFail
    | with_reducible apply Evolves.replyCounted
    | with_reducible apply Evolves.replyWait
    | with_reducible apply Evolves.next
    | with_reducible apply Evolves.fault
    | with_reducible apply Evolves.ite
    | (refine Evolves.hostSame _ ?_ (fun h => h))
    | (with_reducible exact Evolves.same ‹_› rfl rfl rfl rfl rfl) | split)

theorem bar0Write_evolves {z : State} (off size value : Nat) (s : State) (h_ : Evolves z s) :
    Evolves.outcome z (bar0Write off size value s) := by
  unfold bar0Write
  repeat' (first
    | intro _ | with_reducible assumption
    | with_reducible apply mboxWrite_evolves
    | with_reducible apply b2Write_evolves
    | with_reducible apply runWords_evolves
    | with_reducible apply bar0Word_evolves
    | with_reducible refine Evolves.ofSnd ?_ (by with_reducible assumption)
    | with_reducible refine Evolves.ofOptSnd ?_ (by with_reducible assumption)
    | with_reducible refine Evolves.ofOption ?_ (by with_reducible assumption)
    | with_reducible apply Evolves.some
    | with_reducible apply Evolves.none
    | with_reducible apply Evolves.mkSnd
    | with_reducible apply Evolves.projSnd
    | with_reducible apply Evolves.optSome
    | with_reducible apply Evolves.optNone
    | with_reducible apply Evolves.foldl
    | with_reducible apply Evolves.replyOk
    | with_reducible apply Evolves.replyFail
    | with_reducible apply Evolves.replyCounted
    | with_reducible apply Evolves.replyWait
    | with_reducible apply Evolves.next
    | with_reducible apply Evolves.fault
    | with_reducible apply Evolves.ite
    | (with_reducible exact Evolves.same ‹_› rfl rfl rfl rfl rfl) | split)

theorem evgCfgWrite_evolves {z : State} (n value : Nat) (s : State) (h_ : Evolves z s) : Evolves.outcome z
    (evgCfgWrite n value s) := by
  unfold evgCfgWrite
  repeat' (first
    | intro _ | with_reducible assumption
    | (extract_lets +onlyGivenNames x
       first
       | (refine Evolves.cut (z := z) x ?_ ?_
          rotate_left
          intro _
          clear_value x
          rotate_left
          unfold x
          clear x)
       | clear_value x)
    | with_reducible apply State.modSrc_evolves | with_reducible apply Evolves.next
    | with_reducible apply Evolves.fault | (with_reducible exact Evolves.same ‹_› rfl rfl rfl rfl rfl) | split)

theorem controlWord_evolves {z : State} (addr value : Nat) (s : State) (h_ : Evolves z s) :
    Evolves.outcome z (controlWord addr value s) := by
  unfold controlWord
  extract_lets o
  clear_value o
  repeat' (first | split | extract_lets c)
  all_goals first
    | with_reducible exact Evolves.fault _ _
    | with_reducible exact Evolves.next h_
    | with_reducible exact Evolves.next (State.modDdr_evolves _ _ _ h_)
    | with_reducible exact Evolves.next (State.modPil_evolves _ _ _ h_)
    | with_reducible exact Evolves.next (Evolves.foldl _ _ _ h_ fun s i h => State.modSrc_evolves _ _ _ h)
    | with_reducible exact evgCfgWrite_evolves _ _ _ h_

theorem cfgByte_evolves {z : State} (off b : Nat) (s : State) (h_ : Evolves z s) : Evolves z (cfgByte off b s) := by
  unfold cfgByte
  repeat' (first
    | intro _ | with_reducible assumption
    | (extract_lets +onlyGivenNames x
       first
       | (refine Evolves.cut (z := z) x ?_ ?_
          rotate_left
          intro _
          clear_value x
          rotate_left
          unfold x
          clear x)
       | clear_value x)
    | with_reducible apply State.modPcie_evolves | with_reducible apply sendPendingMsix_evolves
    | (with_reducible exact Evolves.same ‹_› rfl rfl rfl rfl rfl) | split)

theorem cfgBytes_evolves {z : State} (v0 : Nat) (v1 : List Byte) (s : State) (h_ : Evolves z s) : Evolves z
    (cfgBytes v0 v1 s) := by
  induction v1 generalizing v0 s with
  | nil =>
    unfold cfgBytes
    repeat' (first
      | with_reducible assumption | with_reducible apply cfgByte_evolves
      | with_reducible refine Evolves.ofSnd ?_ (by with_reducible assumption)
      | with_reducible refine Evolves.ofOptSnd ?_ (by with_reducible assumption) | with_reducible apply Evolves.projSnd
      | with_reducible apply Evolves.mkSnd)
  | cons y l ih =>
    unfold cfgBytes
    repeat' (first
      | with_reducible assumption | with_reducible apply cfgByte_evolves | with_reducible apply ih
      | with_reducible refine Evolves.ofSnd ?_ (by with_reducible assumption)
      | with_reducible refine Evolves.ofOptSnd ?_ (by with_reducible assumption) | with_reducible apply Evolves.projSnd
      | with_reducible apply Evolves.mkSnd)

end Sys2Proof.Machine
end

