-- ==== Sys2Proof/Laws/EvolveSecurity.lean ====
section
/-! SUPPORT. What the operations of Sys2Proof.Machine.Security never undo. -/

namespace Sys2Proof.Machine

theorem doeAnswer_evolves {z : State} (bytes : List Byte) (s : State) (h_ : Evolves z s) : Evolves z
    (doeAnswer bytes s) := by
  unfold doeAnswer
  repeat' (first
    | intro _ | with_reducible assumption | with_reducible apply State.push_evolves
    | with_reducible apply State.modPcie_evolves | (with_reducible exact Evolves.same ‹_› rfl rfl rfl rfl rfl))

theorem spdmServe_evolves {z : State} (transport : Transport) (r : SpdmReq) (s : State) (h_ : Evolves z s) :
    Evolves z (spdmServe transport r s) := by
  unfold spdmServe
  repeat' (first
    | intro _ | with_reducible assumption | (refine Evolves.secSame _ ?_ (Nat.le_refl _) rfl)
    | (extract_lets +onlyGivenNames x
       first
       | (refine Evolves.cut (z := z) x ?_ ?_
          rotate_left
          intro _
          clear_value x
          rotate_left
          unfold x
          clear x)
       | clear_value x)
    | with_reducible apply State.useFreshN_evolves
    | with_reducible apply doeAnswer_evolves
    | with_reducible apply State.push_evolves
    | with_reducible refine Evolves.ofSnd ?_ (by with_reducible assumption)
    | with_reducible refine Evolves.ofOptSnd ?_ (by with_reducible assumption)
    | with_reducible refine Evolves.ofOption ?_ (by with_reducible assumption)
    | with_reducible apply Evolves.some
    | with_reducible apply Evolves.none
    | with_reducible apply Evolves.mkSnd
    | with_reducible apply Evolves.projSnd
    | with_reducible apply Evolves.optSome
    | with_reducible apply Evolves.optNone
    | with_reducible apply Evolves.foldl
    | with_reducible apply Evolves.replyOk
    | with_reducible apply Evolves.replyFail
    | with_reducible apply Evolves.replyCounted
    | with_reducible apply Evolves.replyWait
    | with_reducible apply Evolves.next
    | with_reducible apply Evolves.fault
    | with_reducible apply Evolves.ite
    | (with_reducible exact Evolves.same ‹_› rfl rfl rfl rfl rfl) | split)

theorem doeWrite_evolves {z : State} (vendor protocol dwords : Nat) (s : State) (h_ : Evolves z s) : Evolves z
    (doeWrite vendor protocol dwords s) := by
  unfold doeWrite
  repeat' (first
    | intro _ | with_reducible assumption | with_reducible apply State.modPcie_evolves
    | with_reducible apply doeAnswer_evolves | (with_reducible exact Evolves.same ‹_› rfl rfl rfl rfl rfl) | split)

theorem openJtag_evolves {z : State} (s : State) (h_ : Evolves z s) : Evolves z (openJtag s) := by
  have last : ∀ s, Evolves z s → Evolves z
      (((s.modMem fun m => { m with hubPoison := [] }).modHost fun h =>
        { h with state := .fault, faultCode := 0, faultWait := none }).modSec fun x =>
          { x with unlocked := true, unlocking := false }) := fun s h =>
    Evolves.secSame _ (Evolves.hostSame _ (Evolves.memSame _ h fun w => w) fun w => w) (Nat.le_refl _) rfl
  unfold openJtag
  refine last _ (Evolves.foldl _ _ _ (zeroRange_evolves _ _ _ (zeroRange_evolves _ _ _ (ddrZero_evolves _
    (Evolves.foldl _ _ _ h_ fun _ _ h => State.modCc_evolves _ _ _ h)))) fun _ _ h => State.modPil_evolves _ _ _ h)

theorem unlockIfIdle_evolves {z : State} (s : State) (h_ : Evolves z s) : Evolves z (unlockIfIdle s) := by
  unfold unlockIfIdle
  repeat' (first
    | with_reducible assumption | with_reducible apply beginEnding_evolves | with_reducible apply openJtag_evolves
    | split)

end Sys2Proof.Machine
end

