-- ==== Sys2Proof/Laws/EvolveTick.lean ====
section
/-! SUPPORT. What the operations of Sys2Proof.Machine.Tick never undo. -/

namespace Sys2Proof.Machine

/-- The clock's advance leaves the time units alone. -/
theorem clockTick_units (b : Bool) (t : TimeUnitBlock) : (clockTick b t).units = t.units := by
  have h : ∀ f, (clockAdd f t).units = t.units := fun _ => rfl
  unfold clockTick
  split
  · exact h ((12 + t.halfCycle.toNat) * clockIncrement t.rate)
  · exact h _

theorem tickClock_evolves {z : State} (s : State) (h_ : Evolves z s) : Evolves z (tickClock s) := by
  refine Evolves.timeSame _ h_ fun h => ?_
  unfold TimeUnitBlock.canonical at *
  dsimp only
  rw [clockTick_units]
  exact h

theorem tickWatchdogs_evolves {z : State} (s : State) (h_ : Evolves z s) : Evolves z (tickWatchdogs s) := by
  refine State.useFresh_evolves (Evolves.fwSame _ h_ fun h => ?_)
  unfold FwUnit.canonical at *
  dsimp only
  exact SMap.wf_mapVals _ h

theorem tickBusy_evolves {z : State} (s : State) (h_ : Evolves z s) : Evolves z (tickBusy s) := by
  refine State.useFreshN_evolves _ _ (Evolves.fwSame _ h_ fun h => ?_)
  unfold FwUnit.canonical at *
  dsimp only
  exact SMap.wf_mapVals _ h

theorem tickLease_evolves {z : State} (s : State) (h_ : Evolves z s) : Evolves z (tickLease s) := by
  unfold tickLease
  repeat' (first
    | intro _ | with_reducible assumption | (refine Evolves.hostSame _ ?_ (fun h => h))
    | (with_reducible exact Evolves.same ‹_› rfl rfl rfl rfl rfl) | split)

theorem tickCores_evolves {z : State} (s : State) (h_ : Evolves z s) : Evolves z (tickCores s) := by
  refine Evolves.coresSame _ (State.modPower_evolves _ _ h_) fun h => ⟨SMap.wf_mapVals _ h.1, SMap.all_mapVals _ _ h.2 ?_⟩
  intro n c hc
  split
  · exact hc
  · exact hc

theorem tickPanic_evolves {z : State} (s : State) (h_ : Evolves z s) : Evolves z (tickPanic s) := by
  refine Evolves.memSame _ h_ fun h => ?_
  obtain ⟨h1, h2, h3⟩ := (MemUnit.canonical_iff _).1 h
  refine (MemUnit.canonical_iff _).2 ⟨h1, ?_, h3⟩
  dsimp only
  exact SMap.wf_mapVals _ h2

theorem tickEngines_evolves {z : State} (s : State) (h_ : Evolves z s) : Evolves z (tickEngines s) :=
  Evolves.videoSame _ h_ fun h =>
    have ⟨a, b⟩ := (VideoUnit.canonical_iff _).1 h
    (VideoUnit.canonical_iff _).2 ⟨SMap.wf_mapVals (fun _ e => engineTick s.time.tick e) a, b⟩

theorem releaseCut_evolves {z : State} (s : State) (h_ : Evolves z s) :
    Evolves z (releaseCut s) := by
  unfold releaseCut
  repeat' (first
    | intro _ | with_reducible assumption
    | with_reducible apply releasePictures_evolves
    | with_reducible refine Evolves.ofSnd ?_ (by with_reducible assumption)
    | with_reducible refine Evolves.ofOptSnd ?_ (by with_reducible assumption)
    | with_reducible refine Evolves.ofOption ?_ (by with_reducible assumption)
    | with_reducible apply Evolves.some
    | with_reducible apply Evolves.none
    | with_reducible apply Evolves.mkSnd
    | with_reducible apply Evolves.projSnd
    | with_reducible apply Evolves.optSome
    | with_reducible apply Evolves.optNone
    | with_reducible apply Evolves.foldl
    | with_reducible apply Evolves.replyOk
    | with_reducible apply Evolves.replyFail
    | with_reducible apply Evolves.replyCounted
    | with_reducible apply Evolves.replyWait
    | with_reducible apply Evolves.next
    | with_reducible apply Evolves.fault
    | with_reducible apply Evolves.ite
    | (with_reducible exact Evolves.same ‹_› rfl rfl rfl rfl rfl) | split)

theorem idleTick_evolves {z : State} (s : State) (h_ : Evolves z s) :
    Evolves z (idleTick s) := by
  unfold idleTick
  repeat' (first
    | intro _ | with_reducible assumption
    | with_reducible apply reportLtr_evolves
    | with_reducible apply mirrorFlush_evolves
    | with_reducible apply unlockIfIdle_evolves
    | with_reducible apply endIfIdle_evolves
    | with_reducible apply shadowed_evolves
    | with_reducible apply releaseCut_evolves
    | with_reducible apply starveTick_evolves
    | with_reducible apply tickEngines_evolves
    | with_reducible apply settleLinks_evolves
    | with_reducible apply tickPanic_evolves
    | with_reducible apply tickLease_evolves
    | with_reducible apply tickCores_evolves
    | with_reducible apply tickBusy_evolves
    | with_reducible apply tickWatchdogs_evolves
    | with_reducible apply tickClock_evolves
    | with_reducible apply drainStamps_evolves
    | with_reducible apply releaseHeld_evolves
    | with_reducible refine Evolves.ofSnd ?_ (by with_reducible assumption)
    | with_reducible refine Evolves.ofOptSnd ?_ (by with_reducible assumption)
    | with_reducible refine Evolves.ofOption ?_ (by with_reducible assumption)
    | with_reducible apply Evolves.some
    | with_reducible apply Evolves.none
    | with_reducible apply Evolves.mkSnd
    | with_reducible apply Evolves.projSnd
    | with_reducible apply Evolves.optSome
    | with_reducible apply Evolves.optNone
    | with_reducible apply Evolves.foldl
    | with_reducible apply Evolves.replyOk
    | with_reducible apply Evolves.replyFail
    | with_reducible apply Evolves.replyCounted
    | with_reducible apply Evolves.replyWait
    | with_reducible apply Evolves.next
    | with_reducible apply Evolves.fault
    | with_reducible apply Evolves.ite
    | (with_reducible exact Evolves.same ‹_› rfl rfl rfl rfl rfl) | split)

end Sys2Proof.Machine
end

