-- ==== Sys2Proof/Laws/EvolveVector.lean ====
section
/-! SUPPORT. What the operations of Sys2Proof.Machine.Vector never undo. -/

namespace Sys2Proof.Machine

theorem laneArith_evolves {z : State} (c : Slot) (f : LaneFmt) (vd va vb : Nat) (op : Val → Val → Val) (s : State)
    (h_ : Evolves z s) : Evolves z (laneArith c f vd va vb op s) := by
  unfold laneArith
  repeat' (first
    | intro _ | with_reducible assumption | with_reducible apply ComputeCore.lane2_canonical
    | with_reducible apply coreOp_evolves | with_reducible apply Evolves.some | with_reducible apply Evolves.none
    | (exact ComputeCore.canonical_like ‹ComputeCore.canonical _ = true› rfl rfl rfl rfl))

end Sys2Proof.Machine
end

