-- ==== Sys2Proof/Laws/State.lean ====
section
/-! SUPPORT. What each update of the state does to each of its fields: one law per field and update, true by definition, and
what the accessors of numbered units read after an update. -/

namespace Sys2Proof.Machine

@[simp] theorem State.modObj_fields (s : State) (f : Objects → Objects) :
    (s.modObj f).pending = s.pending ∧ (s.modObj f).due = s.due ∧ (s.modObj f).obj = f s.obj ∧
      (s.modObj f).host = s.host ∧ (s.modObj f).pcie = s.pcie ∧ (s.modObj f).time = s.time ∧ (s.modObj f).fw = s.fw ∧
      (s.modObj f).evg = s.evg ∧ (s.modObj f).power = s.power ∧ (s.modObj f).mem = s.mem ∧ (s.modObj f).video = s.video ∧
      (s.modObj f).cores = s.cores ∧ (s.modObj f).ppu = s.ppu ∧ (s.modObj f).pair = s.pair ∧ (s.modObj f).sec = s.sec ∧
      (s.modObj f).board = s.board ∧ (s.modObj f).ctr = s.ctr ∧ (s.modObj f).gens = s.gens ∧
      (s.modObj f).fresh = s.fresh ∧ (s.modObj f).out = s.out :=
  ⟨rfl, rfl, rfl, rfl, rfl, rfl, rfl, rfl, rfl, rfl, rfl, rfl, rfl, rfl, rfl, rfl, rfl, rfl, rfl, rfl⟩

@[simp] theorem State.modHost_fields (s : State) (f : HostUnit → HostUnit) :
    (s.modHost f).pending = s.pending ∧ (s.modHost f).due = s.due ∧ (s.modHost f).obj = s.obj ∧
      (s.modHost f).host = f s.host ∧ (s.modHost f).pcie = s.pcie ∧ (s.modHost f).time = s.time ∧
      (s.modHost f).fw = s.fw ∧ (s.modHost f).evg = s.evg ∧ (s.modHost f).power = s.power ∧ (s.modHost f).mem = s.mem ∧
      (s.modHost f).video = s.video ∧ (s.modHost f).cores = s.cores ∧ (s.modHost f).ppu = s.ppu ∧
      (s.modHost f).pair = s.pair ∧ (s.modHost f).sec = s.sec ∧ (s.modHost f).board = s.board ∧
      (s.modHost f).ctr = s.ctr ∧ (s.modHost f).gens = s.gens ∧ (s.modHost f).fresh = s.fresh ∧
      (s.modHost f).out = s.out :=
  ⟨rfl, rfl, rfl, rfl, rfl, rfl, rfl, rfl, rfl, rfl, rfl, rfl, rfl, rfl, rfl, rfl, rfl, rfl, rfl, rfl⟩

@[simp] theorem State.modPcie_fields (s : State) (f : PcieUnit → PcieUnit) :
    (s.modPcie f).pending = s.pending ∧ (s.modPcie f).due = s.due ∧ (s.modPcie f).obj = s.obj ∧
      (s.modPcie f).host = s.host ∧ (s.modPcie f).pcie = f s.pcie ∧ (s.modPcie f).time = s.time ∧
      (s.modPcie f).fw = s.fw ∧ (s.modPcie f).evg = s.evg ∧ (s.modPcie f).power = s.power ∧ (s.modPcie f).mem = s.mem ∧
      (s.modPcie f).video = s.video ∧ (s.modPcie f).cores = s.cores ∧ (s.modPcie f).ppu = s.ppu ∧
      (s.modPcie f).pair = s.pair ∧ (s.modPcie f).sec = s.sec ∧ (s.modPcie f).board = s.board ∧
      (s.modPcie f).ctr = s.ctr ∧ (s.modPcie f).gens = s.gens ∧ (s.modPcie f).fresh = s.fresh ∧
      (s.modPcie f).out = s.out :=
  ⟨rfl, rfl, rfl, rfl, rfl, rfl, rfl, rfl, rfl, rfl, rfl, rfl, rfl, rfl, rfl, rfl, rfl, rfl, rfl, rfl⟩

@[simp] theorem State.modTime_fields (s : State) (f : TimeUnitBlock → TimeUnitBlock) :
    (s.modTime f).pending = s.pending ∧ (s.modTime f).due = s.due ∧ (s.modTime f).obj = s.obj ∧
      (s.modTime f).host = s.host ∧ (s.modTime f).pcie = s.pcie ∧ (s.modTime f).time = f s.time ∧
      (s.modTime f).fw = s.fw ∧ (s.modTime f).evg = s.evg ∧ (s.modTime f).power = s.power ∧ (s.modTime f).mem = s.mem ∧
      (s.modTime f).video = s.video ∧ (s.modTime f).cores = s.cores ∧ (s.modTime f).ppu = s.ppu ∧
      (s.modTime f).pair = s.pair ∧ (s.modTime f).sec = s.sec ∧ (s.modTime f).board = s.board ∧
      (s.modTime f).ctr = s.ctr ∧ (s.modTime f).gens = s.gens ∧ (s.modTime f).fresh = s.fresh ∧
      (s.modTime f).out = s.out :=
  ⟨rfl, rfl, rfl, rfl, rfl, rfl, rfl, rfl, rfl, rfl, rfl, rfl, rfl, rfl, rfl, rfl, rfl, rfl, rfl, rfl⟩

@[simp] theorem State.modFw_fields (s : State) (f : FwUnit → FwUnit) :
    (s.modFw f).pending = s.pending ∧ (s.modFw f).due = s.due ∧ (s.modFw f).obj = s.obj ∧ (s.modFw f).host = s.host ∧
      (s.modFw f).pcie = s.pcie ∧ (s.modFw f).time = s.time ∧ (s.modFw f).fw = f s.fw ∧ (s.modFw f).evg = s.evg ∧
      (s.modFw f).power = s.power ∧ (s.modFw f).mem = s.mem ∧ (s.modFw f).video = s.video ∧ (s.modFw f).cores = s.cores ∧
      (s.modFw f).ppu = s.ppu ∧ (s.modFw f).pair = s.pair ∧ (s.modFw f).sec = s.sec ∧ (s.modFw f).board = s.board ∧
      (s.modFw f).ctr = s.ctr ∧ (s.modFw f).gens = s.gens ∧ (s.modFw f).fresh = s.fresh ∧ (s.modFw f).out = s.out :=
  ⟨rfl, rfl, rfl, rfl, rfl, rfl, rfl, rfl, rfl, rfl, rfl, rfl, rfl, rfl, rfl, rfl, rfl, rfl, rfl, rfl⟩

@[simp] theorem State.modEvg_fields (s : State) (f : EvgUnit → EvgUnit) :
    (s.modEvg f).pending = s.pending ∧ (s.modEvg f).due = s.due ∧ (s.modEvg f).obj = s.obj ∧ (s.modEvg f).host = s.host ∧
      (s.modEvg f).pcie = s.pcie ∧ (s.modEvg f).time = s.time ∧ (s.modEvg f).fw = s.fw ∧ (s.modEvg f).evg = f s.evg ∧
      (s.modEvg f).power = s.power ∧ (s.modEvg f).mem = s.mem ∧ (s.modEvg f).video = s.video ∧
      (s.modEvg f).cores = s.cores ∧ (s.modEvg f).ppu = s.ppu ∧ (s.modEvg f).pair = s.pair ∧ (s.modEvg f).sec = s.sec ∧
      (s.modEvg f).board = s.board ∧ (s.modEvg f).ctr = s.ctr ∧ (s.modEvg f).gens = s.gens ∧
      (s.modEvg f).fresh = s.fresh ∧ (s.modEvg f).out = s.out :=
  ⟨rfl, rfl, rfl, rfl, rfl, rfl, rfl, rfl, rfl, rfl, rfl, rfl, rfl, rfl, rfl, rfl, rfl, rfl, rfl, rfl⟩

@[simp] theorem State.modPower_fields (s : State) (f : PowerUnit → PowerUnit) :
    (s.modPower f).pending = s.pending ∧ (s.modPower f).due = s.due ∧ (s.modPower f).obj = s.obj ∧
      (s.modPower f).host = s.host ∧ (s.modPower f).pcie = s.pcie ∧ (s.modPower f).time = s.time ∧
      (s.modPower f).fw = s.fw ∧ (s.modPower f).evg = s.evg ∧ (s.modPower f).power = f s.power ∧
      (s.modPower f).mem = s.mem ∧ (s.modPower f).video = s.video ∧ (s.modPower f).cores = s.cores ∧
      (s.modPower f).ppu = s.ppu ∧ (s.modPower f).pair = s.pair ∧ (s.modPower f).sec = s.sec ∧
      (s.modPower f).board = s.board ∧ (s.modPower f).ctr = s.ctr ∧ (s.modPower f).gens = s.gens ∧
      (s.modPower f).fresh = s.fresh ∧ (s.modPower f).out = s.out :=
  ⟨rfl, rfl, rfl, rfl, rfl, rfl, rfl, rfl, rfl, rfl, rfl, rfl, rfl, rfl, rfl, rfl, rfl, rfl, rfl, rfl⟩

@[simp] theorem State.modMem_fields (s : State) (f : MemUnit → MemUnit) :
    (s.modMem f).pending = s.pending ∧ (s.modMem f).due = s.due ∧ (s.modMem f).obj = s.obj ∧ (s.modMem f).host = s.host ∧
      (s.modMem f).pcie = s.pcie ∧ (s.modMem f).time = s.time ∧ (s.modMem f).fw = s.fw ∧ (s.modMem f).evg = s.evg ∧
      (s.modMem f).power = s.power ∧ (s.modMem f).mem = f s.mem ∧ (s.modMem f).video = s.video ∧
      (s.modMem f).cores = s.cores ∧ (s.modMem f).ppu = s.ppu ∧ (s.modMem f).pair = s.pair ∧ (s.modMem f).sec = s.sec ∧
      (s.modMem f).board = s.board ∧ (s.modMem f).ctr = s.ctr ∧ (s.modMem f).gens = s.gens ∧
      (s.modMem f).fresh = s.fresh ∧ (s.modMem f).out = s.out :=
  ⟨rfl, rfl, rfl, rfl, rfl, rfl, rfl, rfl, rfl, rfl, rfl, rfl, rfl, rfl, rfl, rfl, rfl, rfl, rfl, rfl⟩

@[simp] theorem State.modVideo_fields (s : State) (f : VideoUnit → VideoUnit) :
    (s.modVideo f).pending = s.pending ∧ (s.modVideo f).due = s.due ∧ (s.modVideo f).obj = s.obj ∧
      (s.modVideo f).host = s.host ∧ (s.modVideo f).pcie = s.pcie ∧ (s.modVideo f).time = s.time ∧
      (s.modVideo f).fw = s.fw ∧ (s.modVideo f).evg = s.evg ∧ (s.modVideo f).power = s.power ∧
      (s.modVideo f).mem = s.mem ∧ (s.modVideo f).video = f s.video ∧ (s.modVideo f).cores = s.cores ∧
      (s.modVideo f).ppu = s.ppu ∧ (s.modVideo f).pair = s.pair ∧ (s.modVideo f).sec = s.sec ∧
      (s.modVideo f).board = s.board ∧ (s.modVideo f).ctr = s.ctr ∧ (s.modVideo f).gens = s.gens ∧
      (s.modVideo f).fresh = s.fresh ∧ (s.modVideo f).out = s.out :=
  ⟨rfl, rfl, rfl, rfl, rfl, rfl, rfl, rfl, rfl, rfl, rfl, rfl, rfl, rfl, rfl, rfl, rfl, rfl, rfl, rfl⟩

@[simp] theorem State.modCores_fields (s : State) (f : SMap ComputeCore → SMap ComputeCore) :
    (s.modCores f).pending = s.pending ∧ (s.modCores f).due = s.due ∧ (s.modCores f).obj = s.obj ∧
      (s.modCores f).host = s.host ∧ (s.modCores f).pcie = s.pcie ∧ (s.modCores f).time = s.time ∧
      (s.modCores f).fw = s.fw ∧ (s.modCores f).evg = s.evg ∧ (s.modCores f).power = s.power ∧
      (s.modCores f).mem = s.mem ∧ (s.modCores f).video = s.video ∧ (s.modCores f).cores = f s.cores ∧
      (s.modCores f).ppu = s.ppu ∧ (s.modCores f).pair = s.pair ∧ (s.modCores f).sec = s.sec ∧
      (s.modCores f).board = s.board ∧ (s.modCores f).ctr = s.ctr ∧ (s.modCores f).gens = s.gens ∧
      (s.modCores f).fresh = s.fresh ∧ (s.modCores f).out = s.out :=
  ⟨rfl, rfl, rfl, rfl, rfl, rfl, rfl, rfl, rfl, rfl, rfl, rfl, rfl, rfl, rfl, rfl, rfl, rfl, rfl, rfl⟩

@[simp] theorem State.modPpu_fields (s : State) (f : SMap PpuUnit → SMap PpuUnit) :
    (s.modPpu f).pending = s.pending ∧ (s.modPpu f).due = s.due ∧ (s.modPpu f).obj = s.obj ∧ (s.modPpu f).host = s.host ∧
      (s.modPpu f).pcie = s.pcie ∧ (s.modPpu f).time = s.time ∧ (s.modPpu f).fw = s.fw ∧ (s.modPpu f).evg = s.evg ∧
      (s.modPpu f).power = s.power ∧ (s.modPpu f).mem = s.mem ∧ (s.modPpu f).video = s.video ∧
      (s.modPpu f).cores = s.cores ∧ (s.modPpu f).ppu = f s.ppu ∧ (s.modPpu f).pair = s.pair ∧ (s.modPpu f).sec = s.sec ∧
      (s.modPpu f).board = s.board ∧ (s.modPpu f).ctr = s.ctr ∧ (s.modPpu f).gens = s.gens ∧
      (s.modPpu f).fresh = s.fresh ∧ (s.modPpu f).out = s.out :=
  ⟨rfl, rfl, rfl, rfl, rfl, rfl, rfl, rfl, rfl, rfl, rfl, rfl, rfl, rfl, rfl, rfl, rfl, rfl, rfl, rfl⟩

@[simp] theorem State.modPair_fields (s : State) (f : PairUnit → PairUnit) :
    (s.modPair f).pending = s.pending ∧ (s.modPair f).due = s.due ∧ (s.modPair f).obj = s.obj ∧
      (s.modPair f).host = s.host ∧ (s.modPair f).pcie = s.pcie ∧ (s.modPair f).time = s.time ∧ (s.modPair f).fw = s.fw ∧
      (s.modPair f).evg = s.evg ∧ (s.modPair f).power = s.power ∧ (s.modPair f).mem = s.mem ∧
      (s.modPair f).video = s.video ∧ (s.modPair f).cores = s.cores ∧ (s.modPair f).ppu = s.ppu ∧
      (s.modPair f).pair = f s.pair ∧ (s.modPair f).sec = s.sec ∧ (s.modPair f).board = s.board ∧
      (s.modPair f).ctr = s.ctr ∧ (s.modPair f).gens = s.gens ∧ (s.modPair f).fresh = s.fresh ∧
      (s.modPair f).out = s.out :=
  ⟨rfl, rfl, rfl, rfl, rfl, rfl, rfl, rfl, rfl, rfl, rfl, rfl, rfl, rfl, rfl, rfl, rfl, rfl, rfl, rfl⟩

@[simp] theorem State.modSec_fields (s : State) (f : SecUnit → SecUnit) :
    (s.modSec f).pending = s.pending ∧ (s.modSec f).due = s.due ∧ (s.modSec f).obj = s.obj ∧ (s.modSec f).host = s.host ∧
      (s.modSec f).pcie = s.pcie ∧ (s.modSec f).time = s.time ∧ (s.modSec f).fw = s.fw ∧ (s.modSec f).evg = s.evg ∧
      (s.modSec f).power = s.power ∧ (s.modSec f).mem = s.mem ∧ (s.modSec f).video = s.video ∧
      (s.modSec f).cores = s.cores ∧ (s.modSec f).ppu = s.ppu ∧ (s.modSec f).pair = s.pair ∧ (s.modSec f).sec = f s.sec ∧
      (s.modSec f).board = s.board ∧ (s.modSec f).ctr = s.ctr ∧ (s.modSec f).gens = s.gens ∧
      (s.modSec f).fresh = s.fresh ∧ (s.modSec f).out = s.out :=
  ⟨rfl, rfl, rfl, rfl, rfl, rfl, rfl, rfl, rfl, rfl, rfl, rfl, rfl, rfl, rfl, rfl, rfl, rfl, rfl, rfl⟩

@[simp] theorem State.modBoard_fields (s : State) (f : BoardUnit → BoardUnit) :
    (s.modBoard f).pending = s.pending ∧ (s.modBoard f).due = s.due ∧ (s.modBoard f).obj = s.obj ∧
      (s.modBoard f).host = s.host ∧ (s.modBoard f).pcie = s.pcie ∧ (s.modBoard f).time = s.time ∧
      (s.modBoard f).fw = s.fw ∧ (s.modBoard f).evg = s.evg ∧ (s.modBoard f).power = s.power ∧
      (s.modBoard f).mem = s.mem ∧ (s.modBoard f).video = s.video ∧ (s.modBoard f).cores = s.cores ∧
      (s.modBoard f).ppu = s.ppu ∧ (s.modBoard f).pair = s.pair ∧ (s.modBoard f).sec = s.sec ∧
      (s.modBoard f).board = f s.board ∧ (s.modBoard f).ctr = s.ctr ∧ (s.modBoard f).gens = s.gens ∧
      (s.modBoard f).fresh = s.fresh ∧ (s.modBoard f).out = s.out :=
  ⟨rfl, rfl, rfl, rfl, rfl, rfl, rfl, rfl, rfl, rfl, rfl, rfl, rfl, rfl, rfl, rfl, rfl, rfl, rfl, rfl⟩

@[simp] theorem State.modCtr_fields (s : State) (f : CardCounters → CardCounters) :
    (s.modCtr f).pending = s.pending ∧ (s.modCtr f).due = s.due ∧ (s.modCtr f).obj = s.obj ∧ (s.modCtr f).host = s.host ∧
      (s.modCtr f).pcie = s.pcie ∧ (s.modCtr f).time = s.time ∧ (s.modCtr f).fw = s.fw ∧ (s.modCtr f).evg = s.evg ∧
      (s.modCtr f).power = s.power ∧ (s.modCtr f).mem = s.mem ∧ (s.modCtr f).video = s.video ∧
      (s.modCtr f).cores = s.cores ∧ (s.modCtr f).ppu = s.ppu ∧ (s.modCtr f).pair = s.pair ∧ (s.modCtr f).sec = s.sec ∧
      (s.modCtr f).board = s.board ∧ (s.modCtr f).ctr = f s.ctr ∧ (s.modCtr f).gens = s.gens ∧
      (s.modCtr f).fresh = s.fresh ∧ (s.modCtr f).out = s.out :=
  ⟨rfl, rfl, rfl, rfl, rfl, rfl, rfl, rfl, rfl, rfl, rfl, rfl, rfl, rfl, rfl, rfl, rfl, rfl, rfl, rfl⟩

@[simp] theorem State.modGens_fields (s : State) (f : SMap Nat → SMap Nat) :
    (s.modGens f).pending = s.pending ∧ (s.modGens f).due = s.due ∧ (s.modGens f).obj = s.obj ∧
      (s.modGens f).host = s.host ∧ (s.modGens f).pcie = s.pcie ∧ (s.modGens f).time = s.time ∧ (s.modGens f).fw = s.fw ∧
      (s.modGens f).evg = s.evg ∧ (s.modGens f).power = s.power ∧ (s.modGens f).mem = s.mem ∧
      (s.modGens f).video = s.video ∧ (s.modGens f).cores = s.cores ∧ (s.modGens f).ppu = s.ppu ∧
      (s.modGens f).pair = s.pair ∧ (s.modGens f).sec = s.sec ∧ (s.modGens f).board = s.board ∧
      (s.modGens f).ctr = s.ctr ∧ (s.modGens f).gens = f s.gens ∧ (s.modGens f).fresh = s.fresh ∧
      (s.modGens f).out = s.out :=
  ⟨rfl, rfl, rfl, rfl, rfl, rfl, rfl, rfl, rfl, rfl, rfl, rfl, rfl, rfl, rfl, rfl, rfl, rfl, rfl, rfl⟩

@[simp] theorem State.useFresh_fields (s : State)  :
    (s.useFresh).pending = s.pending ∧ (s.useFresh).due = s.due ∧ (s.useFresh).obj = s.obj ∧ (s.useFresh).host = s.host ∧
      (s.useFresh).pcie = s.pcie ∧ (s.useFresh).time = s.time ∧ (s.useFresh).fw = s.fw ∧ (s.useFresh).evg = s.evg ∧
      (s.useFresh).power = s.power ∧ (s.useFresh).mem = s.mem ∧ (s.useFresh).video = s.video ∧
      (s.useFresh).cores = s.cores ∧ (s.useFresh).ppu = s.ppu ∧ (s.useFresh).pair = s.pair ∧ (s.useFresh).sec = s.sec ∧
      (s.useFresh).board = s.board ∧ (s.useFresh).ctr = s.ctr ∧ (s.useFresh).gens = s.gens ∧
      (s.useFresh).fresh = s.fresh + 1 ∧ (s.useFresh).out = s.out :=
  ⟨rfl, rfl, rfl, rfl, rfl, rfl, rfl, rfl, rfl, rfl, rfl, rfl, rfl, rfl, rfl, rfl, rfl, rfl, rfl, rfl⟩

@[simp] theorem State.useFreshN_fields (s : State) (n : Nat) :
    (s.useFreshN n).pending = s.pending ∧ (s.useFreshN n).due = s.due ∧ (s.useFreshN n).obj = s.obj ∧
      (s.useFreshN n).host = s.host ∧ (s.useFreshN n).pcie = s.pcie ∧ (s.useFreshN n).time = s.time ∧
      (s.useFreshN n).fw = s.fw ∧ (s.useFreshN n).evg = s.evg ∧ (s.useFreshN n).power = s.power ∧
      (s.useFreshN n).mem = s.mem ∧ (s.useFreshN n).video = s.video ∧ (s.useFreshN n).cores = s.cores ∧
      (s.useFreshN n).ppu = s.ppu ∧ (s.useFreshN n).pair = s.pair ∧ (s.useFreshN n).sec = s.sec ∧
      (s.useFreshN n).board = s.board ∧ (s.useFreshN n).ctr = s.ctr ∧ (s.useFreshN n).gens = s.gens ∧
      (s.useFreshN n).fresh = s.fresh + n ∧ (s.useFreshN n).out = s.out :=
  ⟨rfl, rfl, rfl, rfl, rfl, rfl, rfl, rfl, rfl, rfl, rfl, rfl, rfl, rfl, rfl, rfl, rfl, rfl, rfl, rfl⟩

@[simp] theorem State.push_fields (s : State) (m : OutMsg) :
    (s.push m).pending = s.pending ∧ (s.push m).due = s.due ∧ (s.push m).obj = s.obj ∧ (s.push m).host = s.host ∧
      (s.push m).pcie = s.pcie ∧ (s.push m).time = s.time ∧ (s.push m).fw = s.fw ∧ (s.push m).evg = s.evg ∧
      (s.push m).power = s.power ∧ (s.push m).mem = s.mem ∧ (s.push m).video = s.video ∧ (s.push m).cores = s.cores ∧
      (s.push m).ppu = s.ppu ∧ (s.push m).pair = s.pair ∧ (s.push m).sec = s.sec ∧ (s.push m).board = s.board ∧
      (s.push m).ctr = s.ctr ∧ (s.push m).gens = s.gens ∧ (s.push m).fresh = s.fresh ∧ (s.push m).out = s.out ++ [m] :=
  ⟨rfl, rfl, rfl, rfl, rfl, rfl, rfl, rfl, rfl, rfl, rfl, rfl, rfl, rfl, rfl, rfl, rfl, rfl, rfl, rfl⟩

/-! ## Numbered units -/

@[simp] theorem State.modCore_fields (s : State) (n : Nat) (f : ComputeCore → ComputeCore) :
    (s.modCore n f).pending = s.pending ∧ (s.modCore n f).due = s.due ∧ (s.modCore n f).obj = s.obj ∧
      (s.modCore n f).host = s.host ∧ (s.modCore n f).pcie = s.pcie ∧ (s.modCore n f).time = s.time ∧
      (s.modCore n f).fw = s.fw ∧ (s.modCore n f).evg = s.evg ∧ (s.modCore n f).power = s.power ∧
      (s.modCore n f).mem = s.mem ∧ (s.modCore n f).video = s.video ∧ (s.modCore n f).ppu = s.ppu ∧
      (s.modCore n f).pair = s.pair ∧ (s.modCore n f).sec = s.sec ∧ (s.modCore n f).board = s.board ∧
      (s.modCore n f).ctr = s.ctr ∧ (s.modCore n f).gens = s.gens ∧ (s.modCore n f).fresh = s.fresh ∧
      (s.modCore n f).out = s.out :=
  ⟨rfl, rfl, rfl, rfl, rfl, rfl, rfl, rfl, rfl, rfl, rfl, rfl, rfl, rfl, rfl, rfl, rfl, rfl, rfl⟩

theorem State.modCore_same (s : State) (n : Nat) (f : ComputeCore → ComputeCore) (h : SMap.wf {} s.cores = true) :
    (s.modCore n f).core n = f (s.core n) := SMap.get_set_same h n _

theorem State.modCore_other (s : State) {n k : Nat} (f : ComputeCore → ComputeCore) (h : SMap.wf {} s.cores = true) (hk : k ≠ n) :
    (s.modCore n f).core k = s.core k := SMap.get_set_other h hk _

@[simp] theorem State.modMbox_fields (s : State) (n : Nat) (f : Mailbox → Mailbox) :
    (s.modMbox n f).pending = s.pending ∧ (s.modMbox n f).due = s.due ∧ (s.modMbox n f).obj = s.obj ∧
      (s.modMbox n f).pcie = s.pcie ∧ (s.modMbox n f).time = s.time ∧ (s.modMbox n f).fw = s.fw ∧
      (s.modMbox n f).evg = s.evg ∧ (s.modMbox n f).power = s.power ∧ (s.modMbox n f).mem = s.mem ∧
      (s.modMbox n f).video = s.video ∧ (s.modMbox n f).cores = s.cores ∧ (s.modMbox n f).ppu = s.ppu ∧
      (s.modMbox n f).pair = s.pair ∧ (s.modMbox n f).sec = s.sec ∧ (s.modMbox n f).board = s.board ∧
      (s.modMbox n f).ctr = s.ctr ∧ (s.modMbox n f).gens = s.gens ∧ (s.modMbox n f).fresh = s.fresh ∧
      (s.modMbox n f).out = s.out :=
  ⟨rfl, rfl, rfl, rfl, rfl, rfl, rfl, rfl, rfl, rfl, rfl, rfl, rfl, rfl, rfl, rfl, rfl, rfl, rfl⟩

theorem State.modMbox_same (s : State) (n : Nat) (f : Mailbox → Mailbox) (h : SMap.wf {} s.host.mboxes = true) :
    (s.modMbox n f).mbox n = f (s.mbox n) := SMap.get_set_same h n _

theorem State.modMbox_other (s : State) {n k : Nat} (f : Mailbox → Mailbox) (h : SMap.wf {} s.host.mboxes = true) (hk : k ≠ n) :
    (s.modMbox n f).mbox k = s.mbox k := SMap.get_set_other h hk _

@[simp] theorem State.modCc_fields (s : State) (n : Nat) (f : ControlCore → ControlCore) :
    (s.modCc n f).pending = s.pending ∧ (s.modCc n f).due = s.due ∧ (s.modCc n f).obj = s.obj ∧
      (s.modCc n f).host = s.host ∧ (s.modCc n f).pcie = s.pcie ∧ (s.modCc n f).time = s.time ∧
      (s.modCc n f).evg = s.evg ∧ (s.modCc n f).power = s.power ∧ (s.modCc n f).mem = s.mem ∧
      (s.modCc n f).video = s.video ∧ (s.modCc n f).cores = s.cores ∧ (s.modCc n f).ppu = s.ppu ∧
      (s.modCc n f).pair = s.pair ∧ (s.modCc n f).sec = s.sec ∧ (s.modCc n f).board = s.board ∧
      (s.modCc n f).ctr = s.ctr ∧ (s.modCc n f).gens = s.gens ∧ (s.modCc n f).fresh = s.fresh ∧
      (s.modCc n f).out = s.out :=
  ⟨rfl, rfl, rfl, rfl, rfl, rfl, rfl, rfl, rfl, rfl, rfl, rfl, rfl, rfl, rfl, rfl, rfl, rfl, rfl⟩

theorem State.modCc_same (s : State) (n : Nat) (f : ControlCore → ControlCore) (h : SMap.wf {} s.fw.cores = true) :
    (s.modCc n f).cc n = f (s.cc n) := SMap.get_set_same h n _

theorem State.modCc_other (s : State) {n k : Nat} (f : ControlCore → ControlCore) (h : SMap.wf {} s.fw.cores = true) (hk : k ≠ n) :
    (s.modCc n f).cc k = s.cc k := SMap.get_set_other h hk _

@[simp] theorem State.modSrc_fields (s : State) (n : Nat) (f : EvgSource → EvgSource) :
    (s.modSrc n f).pending = s.pending ∧ (s.modSrc n f).due = s.due ∧ (s.modSrc n f).obj = s.obj ∧
      (s.modSrc n f).host = s.host ∧ (s.modSrc n f).pcie = s.pcie ∧ (s.modSrc n f).time = s.time ∧
      (s.modSrc n f).fw = s.fw ∧ (s.modSrc n f).power = s.power ∧ (s.modSrc n f).mem = s.mem ∧
      (s.modSrc n f).video = s.video ∧ (s.modSrc n f).cores = s.cores ∧ (s.modSrc n f).ppu = s.ppu ∧
      (s.modSrc n f).pair = s.pair ∧ (s.modSrc n f).sec = s.sec ∧ (s.modSrc n f).board = s.board ∧
      (s.modSrc n f).ctr = s.ctr ∧ (s.modSrc n f).gens = s.gens ∧ (s.modSrc n f).fresh = s.fresh ∧
      (s.modSrc n f).out = s.out :=
  ⟨rfl, rfl, rfl, rfl, rfl, rfl, rfl, rfl, rfl, rfl, rfl, rfl, rfl, rfl, rfl, rfl, rfl, rfl, rfl⟩

theorem State.modSrc_same (s : State) (n : Nat) (f : EvgSource → EvgSource) (h : SMap.wf {} s.evg.sources = true) :
    (s.modSrc n f).src n = f (s.src n) := SMap.get_set_same h n _

theorem State.modSrc_other (s : State) {n k : Nat} (f : EvgSource → EvgSource) (h : SMap.wf {} s.evg.sources = true) (hk : k ≠ n) :
    (s.modSrc n f).src k = s.src k := SMap.get_set_other h hk _

@[simp] theorem State.modDdr_fields (s : State) (n : Nat) (f : DdrChannel → DdrChannel) :
    (s.modDdr n f).pending = s.pending ∧ (s.modDdr n f).due = s.due ∧ (s.modDdr n f).obj = s.obj ∧
      (s.modDdr n f).host = s.host ∧ (s.modDdr n f).pcie = s.pcie ∧ (s.modDdr n f).time = s.time ∧
      (s.modDdr n f).fw = s.fw ∧ (s.modDdr n f).evg = s.evg ∧ (s.modDdr n f).power = s.power ∧
      (s.modDdr n f).video = s.video ∧ (s.modDdr n f).cores = s.cores ∧ (s.modDdr n f).ppu = s.ppu ∧
      (s.modDdr n f).pair = s.pair ∧ (s.modDdr n f).sec = s.sec ∧ (s.modDdr n f).board = s.board ∧
      (s.modDdr n f).ctr = s.ctr ∧ (s.modDdr n f).gens = s.gens ∧ (s.modDdr n f).fresh = s.fresh ∧
      (s.modDdr n f).out = s.out :=
  ⟨rfl, rfl, rfl, rfl, rfl, rfl, rfl, rfl, rfl, rfl, rfl, rfl, rfl, rfl, rfl, rfl, rfl, rfl, rfl⟩

theorem State.modDdr_same (s : State) (n : Nat) (f : DdrChannel → DdrChannel) (h : SMap.wf {} s.mem.ddr = true) :
    (s.modDdr n f).ddr n = f (s.ddr n) := SMap.get_set_same h n _

theorem State.modDdr_other (s : State) {n k : Nat} (f : DdrChannel → DdrChannel) (h : SMap.wf {} s.mem.ddr = true) (hk : k ≠ n) :
    (s.modDdr n f).ddr k = s.ddr k := SMap.get_set_other h hk _

@[simp] theorem State.modEng_fields (s : State) (n : Nat) (f : VideoEngine → VideoEngine) :
    (s.modEng n f).pending = s.pending ∧ (s.modEng n f).due = s.due ∧ (s.modEng n f).obj = s.obj ∧
      (s.modEng n f).host = s.host ∧ (s.modEng n f).pcie = s.pcie ∧ (s.modEng n f).time = s.time ∧
      (s.modEng n f).fw = s.fw ∧ (s.modEng n f).evg = s.evg ∧ (s.modEng n f).power = s.power ∧
      (s.modEng n f).mem = s.mem ∧ (s.modEng n f).cores = s.cores ∧ (s.modEng n f).ppu = s.ppu ∧
      (s.modEng n f).pair = s.pair ∧ (s.modEng n f).sec = s.sec ∧ (s.modEng n f).board = s.board ∧
      (s.modEng n f).ctr = s.ctr ∧ (s.modEng n f).gens = s.gens ∧ (s.modEng n f).fresh = s.fresh ∧
      (s.modEng n f).out = s.out :=
  ⟨rfl, rfl, rfl, rfl, rfl, rfl, rfl, rfl, rfl, rfl, rfl, rfl, rfl, rfl, rfl, rfl, rfl, rfl, rfl⟩

theorem State.modEng_same (s : State) (n : Nat) (f : VideoEngine → VideoEngine) (h : SMap.wf {} s.video.engines = true) :
    (s.modEng n f).eng n = f (s.eng n) := SMap.get_set_same h n _

theorem State.modEng_other (s : State) {n k : Nat} (f : VideoEngine → VideoEngine) (h : SMap.wf {} s.video.engines = true) (hk : k ≠ n) :
    (s.modEng n f).eng k = s.eng k := SMap.get_set_other h hk _

@[simp] theorem State.modScl_fields (s : State) (n : Nat) (f : ScalerUnit → ScalerUnit) :
    (s.modScl n f).pending = s.pending ∧ (s.modScl n f).due = s.due ∧ (s.modScl n f).obj = s.obj ∧
      (s.modScl n f).host = s.host ∧ (s.modScl n f).pcie = s.pcie ∧ (s.modScl n f).time = s.time ∧
      (s.modScl n f).fw = s.fw ∧ (s.modScl n f).evg = s.evg ∧ (s.modScl n f).power = s.power ∧
      (s.modScl n f).mem = s.mem ∧ (s.modScl n f).cores = s.cores ∧ (s.modScl n f).ppu = s.ppu ∧
      (s.modScl n f).pair = s.pair ∧ (s.modScl n f).sec = s.sec ∧ (s.modScl n f).board = s.board ∧
      (s.modScl n f).ctr = s.ctr ∧ (s.modScl n f).gens = s.gens ∧ (s.modScl n f).fresh = s.fresh ∧
      (s.modScl n f).out = s.out :=
  ⟨rfl, rfl, rfl, rfl, rfl, rfl, rfl, rfl, rfl, rfl, rfl, rfl, rfl, rfl, rfl, rfl, rfl, rfl, rfl⟩

theorem State.modScl_same (s : State) (n : Nat) (f : ScalerUnit → ScalerUnit) (h : SMap.wf {} s.video.scalers = true) :
    (s.modScl n f).scl n = f (s.scl n) := SMap.get_set_same h n _

theorem State.modScl_other (s : State) {n k : Nat} (f : ScalerUnit → ScalerUnit) (h : SMap.wf {} s.video.scalers = true) (hk : k ≠ n) :
    (s.modScl n f).scl k = s.scl k := SMap.get_set_other h hk _

@[simp] theorem State.modPil_fields (s : State) (n : Nat) (f : Pillow → Pillow) :
    (s.modPil n f).pending = s.pending ∧ (s.modPil n f).due = s.due ∧ (s.modPil n f).obj = s.obj ∧
      (s.modPil n f).host = s.host ∧ (s.modPil n f).pcie = s.pcie ∧ (s.modPil n f).time = s.time ∧
      (s.modPil n f).fw = s.fw ∧ (s.modPil n f).evg = s.evg ∧ (s.modPil n f).power = s.power ∧
      (s.modPil n f).video = s.video ∧ (s.modPil n f).cores = s.cores ∧ (s.modPil n f).ppu = s.ppu ∧
      (s.modPil n f).pair = s.pair ∧ (s.modPil n f).sec = s.sec ∧ (s.modPil n f).board = s.board ∧
      (s.modPil n f).ctr = s.ctr ∧ (s.modPil n f).gens = s.gens ∧ (s.modPil n f).fresh = s.fresh ∧
      (s.modPil n f).out = s.out :=
  ⟨rfl, rfl, rfl, rfl, rfl, rfl, rfl, rfl, rfl, rfl, rfl, rfl, rfl, rfl, rfl, rfl, rfl, rfl, rfl⟩

theorem State.modPil_same (s : State) (n : Nat) (f : Pillow → Pillow) (h : SMap.wf {} s.mem.pil = true) :
    (s.modPil n f).pil n = f (s.pil n) := SMap.get_set_same h n _

theorem State.modPil_other (s : State) {n k : Nat} (f : Pillow → Pillow) (h : SMap.wf {} s.mem.pil = true) (hk : k ≠ n) :
    (s.modPil n f).pil k = s.pil k := SMap.get_set_other h hk _

@[simp] theorem State.modTu_fields (s : State) (n : Nat) (f : TimeUnit → TimeUnit) :
    (s.modTu n f).pending = s.pending ∧ (s.modTu n f).due = s.due ∧ (s.modTu n f).obj = s.obj ∧
      (s.modTu n f).host = s.host ∧ (s.modTu n f).pcie = s.pcie ∧ (s.modTu n f).fw = s.fw ∧ (s.modTu n f).evg = s.evg ∧
      (s.modTu n f).power = s.power ∧ (s.modTu n f).mem = s.mem ∧ (s.modTu n f).video = s.video ∧
      (s.modTu n f).cores = s.cores ∧ (s.modTu n f).ppu = s.ppu ∧ (s.modTu n f).pair = s.pair ∧
      (s.modTu n f).sec = s.sec ∧ (s.modTu n f).board = s.board ∧ (s.modTu n f).ctr = s.ctr ∧
      (s.modTu n f).gens = s.gens ∧ (s.modTu n f).fresh = s.fresh ∧ (s.modTu n f).out = s.out :=
  ⟨rfl, rfl, rfl, rfl, rfl, rfl, rfl, rfl, rfl, rfl, rfl, rfl, rfl, rfl, rfl, rfl, rfl, rfl, rfl⟩

theorem State.modTu_same (s : State) (n : Nat) (f : TimeUnit → TimeUnit) (h : SMap.wf {} s.time.units = true) :
    (s.modTu n f).tu n = f (s.tu n) := SMap.get_set_same h n _

theorem State.modTu_other (s : State) {n k : Nat} (f : TimeUnit → TimeUnit) (h : SMap.wf {} s.time.units = true) (hk : k ≠ n) :
    (s.modTu n f).tu k = s.tu k := SMap.get_set_other h hk _

end Sys2Proof.Machine
end

