-- ==== Sys2Proof/Laws/TakenCommands.lean ====
section
/-! SUPPORT. What the path of a mailbox command can do, said once: the request's way to the card, the OWNER write, the
checks, the command's own part, and the answer. -/

namespace Sys2Proof.Machine

/-! ## The request's way to the card (R614, R616, R617) -/

theorem hostAccess_reached {posted : Bool} {f : State → State} {s : State} (hl : s.pcie.linkUp = true) (hm : s.pcie.mse = true)
    (hd : s.pcie.d3hot = false) : hostAccess posted f s = f s.linkActive := by
  simp [hostAccess, hl, hm, hd]

theorem hostAccess_down {posted : Bool} {f : State → State} {s : State} (hl : s.pcie.linkUp = false) :
    hostAccess posted f s = s := by
  simp [hostAccess, hl]

theorem hostAccess_unsupported {posted : Bool} {f : State → State} {s : State} (hl : s.pcie.linkUp = true)
    (h : s.pcie.mse = false ∨ s.pcie.d3hot = true) : hostAccess posted f s = unsupported posted s.linkActive := by
  rcases h with h | h <;> simp [hostAccess, hl, h]

/-! ## The OWNER write (R540, R693, R768) -/

theorem ownerWrite_owned {h : Hdr} {op : Nat} {i : Instr} {run : State → State} {s : State}
    (ho : (s.mbox h.mbox).own = true) :
    ownerWrite h op i run s = s.modHost fun x => { x with discards := satAdd32 x.discards 1 } := by
  simp [ownerWrite, ho]

theorem ownerWrite_unlocked {h : Hdr} {op : Nat} {i : Instr} {run : State → State} {s : State}
    (ho : (s.mbox h.mbox).own = false) (hu : s.sec.unlocked = true) :
    ownerWrite h op i run s = takeOwner h op s := by
  have e : (takeOwner h op s).sec = s.sec := rfl
  simp [ownerWrite, ho, e, hu]

theorem holding_takeOwner (h : Hdr) (op : Nat) (s : State) : holding (takeOwner h op s) = holding s := rfl

theorem ownerWrite_run {h : Hdr} {op : Nat} {i : Instr} {run : State → State} {s : State}
    (ho : (s.mbox h.mbox).own = false) (hu : s.sec.unlocked = false) (hh : holding s = false ∨ s.host.state = .fault) :
    ownerWrite h op i run s = run (takeOwner h op s) := by
  have e : (takeOwner h op s).sec = s.sec := rfl
  have e2 : (takeOwner h op s).host.state = s.host.state := rfl
  rcases hh with hh | hh <;> simp [ownerWrite, ho, e, e2, hu, hh, holding_takeOwner]

theorem takeOwner_mbox {h : Hdr} {op : Nat} {s : State} (hw : SMap.wf {} s.host.mboxes = true) :
    ((takeOwner h op s).mbox h.mbox).own = true ∧ ((takeOwner h op s).mbox h.mbox).seq = h.seq ∧
      ∀ m, m ≠ h.mbox → (takeOwner h op s).mbox m = s.mbox m := by
  refine ⟨?_, ?_, fun m hm => State.modMbox_other s _ hw hm⟩ <;>
    simp [takeOwner, State.modMbox_same s h.mbox _ hw]

/-! ## The checks (R574) -/

/-- A command of an open session that takes part, in order, passes the checks before its own. -/
theorem precheck_session {k : CmdKind} {h : Hdr} {len : Nat} {s : State} {x : Session} (hk : k.sessionless = false)
    (hr : s.host.state = .ready) (he : s.host.ending = false) (hp : s.pair.mode = 0) (hh : h.headerReserved = false)
    (hb : h.bodyReserved = false) (hl : h.length = len) (hm : h.length ≤ 4032) (hs : findSession s h.session = some x)
    (hx : x.held = false) (hv : h.version = x.proto) : precheck k h len s = none := by
  simp [precheck, resetting, hk, hr, he, hp, hh, hb, hs, hx, hv, ← hl, Nat.not_lt.mpr hm]

/-! ## The answer (R541, R736) -/

theorem mirrorFlush_alone {s : State} (hp : s.pair.mode = 0) : mirrorFlush s = s := by
  simp [mirrorFlush, healthy, hp]

theorem answer_alone {h : Hdr} {st d : Nat} {resp : List Byte} {before : Objects} {s : State} (hp : s.pair.mode = 0) :
    answer h st d resp before s = writeAnswer h st d resp s := by
  simp [answer, mirrorFlush_alone hp, mustWait, healthy, hp]

/-- What a command that passes the checks comes to, on a card in no pair. -/
theorem serve_passed {k : CmdKind} {h : Hdr} {len : Nat} {body : State → Reply} {s : State}
    (hc : precheck k h len (renewFor h s) = none) :
    serve k h len body s =
      match body (renewFor h s) with
      | .ok t r => answer h stOk 0 r (renewFor h s).obj t
      | .fail st d r => answer h st d r (renewFor h s).obj (renewFor h s)
      | .counted t st d r => answer h st d r (renewFor h s).obj t
      | .wait t => mirrorFlush t := by
  unfold serve
  cases hb : body (renewFor h s) <;> simp only [hc, hb]

theorem serve_refused {k : CmdKind} {h : Hdr} {len : Nat} {body : State → Reply} {s : State} {st : Nat}
    (hc : precheck k h len (renewFor h s) = some st) :
    serve k h len body s = answer h st 0 [] (renewFor h s).obj (renewFor h s) := by
  simp only [serve, hc]

/-- The payload after an answer reads as the response. -/
theorem payload_get (resp : List Byte) (n : Nat) {p : SMap Byte} (hw : SMap.wf 0 p = true) :
    let q := ((List.range' n resp.length).zip resp).foldl (fun p x => SMap.set 0 p x.1 x.2) p
    SMap.wf 0 q = true ∧ (∀ i, i < resp.length → SMap.get 0 q (n + i) = resp.getD i 0) ∧
      ∀ i, (i < n ∨ n + resp.length ≤ i) → SMap.get 0 q i = SMap.get 0 p i := by
  induction resp generalizing n p with
  | nil => exact ⟨hw, fun i hi => absurd hi (by simp), fun _ _ => rfl⟩
  | cons b l ih =>
    obtain ⟨h1, h2, h3⟩ := ih (n + 1) (SMap.wf_set n b hw)
    simp only [List.length_cons, List.range'_succ, List.zip_cons_cons, List.foldl_cons]
    refine ⟨h1, fun i hi => ?_, fun i hi => ?_⟩
    · cases i with
      | zero => exact (h3 n (.inl (Nat.lt_succ_self n))).trans (SMap.get_set_same hw n b)
      | succ i =>
        have := h2 i (by omega)
        rw [show n + (i + 1) = n + 1 + i by omega, this]
        rfl
    · rw [h3 i (by omega), SMap.get_set_other hw (by omega)]

/-- What an MSI-X message can do: send it or set its pending bit. -/
theorem sendMsix_cases (v : Nat) (s : State) :
    ∃ (p : List Nat) (o : Nat × List OutMsg), sendMsix v s = { s with
      host := { s.host with pba := p }, pcie := { s.pcie with linkState := o.1 }, out := o.2 } ∧
      ((o.1 = s.pcie.linkState ∧ o.2 = s.out) ∨ (o.1 = 0 ∧ o.2 = s.out ++ [.msix v])) := by
  unfold sendMsix
  split
  · exact ⟨s.host.pba, (s.pcie.linkState, s.out), rfl, .inl ⟨rfl, rfl⟩⟩
  · split
    · exact ⟨s.host.pba, (0, s.out ++ [.msix v]), rfl, .inr ⟨rfl, rfl⟩⟩
    · split
      · exact ⟨s.host.pba, (s.pcie.linkState, s.out), rfl, .inl ⟨rfl, rfl⟩⟩
      · exact ⟨s.host.pba ++ [v], (s.pcie.linkState, s.out), rfl, .inl ⟨rfl, rfl⟩⟩

theorem renewFor_fields (h : Hdr) (s : State) : ∃ l, renewFor h s = { s with host := { s.host with leaseLeft := l } } := by
  unfold renewFor
  split
  · exact ⟨s.host.leaseLeft, rfl⟩
  · split
    · exact ⟨s.host.leaseLeft, rfl⟩
    · exact ⟨_, rfl⟩

/-- Everything an answer can do (R541). -/
theorem writeAnswer_spec {h : Hdr} {st d : Nat} {resp : List Byte} {s : State} (hw : SMap.wf {} s.host.mboxes = true)
    (hp : SMap.wf 0 (s.mbox h.mbox).payload = true) :
    let t := writeAnswer h st d resp s
    (t.mbox h.mbox).own = false ∧ (t.mbox h.mbox).seq = (s.mbox h.mbox).seq ∧ (t.mbox h.mbox).status = st ∧
      (t.mbox h.mbox).detail = d ∧ (t.mbox h.mbox).length = resp.length ∧
      (∀ i, i < resp.length → SMap.get 0 (t.mbox h.mbox).payload i = resp.getD i 0) ∧
      (∀ m, m ≠ h.mbox → t.mbox m = s.mbox m) ∧ (t.out = s.out ∨ (h.irq = true ∧ t.out = s.out ++ [.msix h.vector])) ∧
      ∃ mb p l k, t = { s with
        host := { s.host with
          mboxes := mb, pba := p, leaseLeft := l, long := s.host.long.filter fun x => !decide (x.hdr.mbox = h.mbox) }
        pcie := { s.pcie with linkState := k }, out := t.out } := by
  intro t
  obtain ⟨-, hpay, -⟩ := payload_get resp 0 hp
  simp only [Nat.zero_add, ← List.range_eq_range'] at hpay
  let f : Mailbox → Mailbox := fun m =>
    { m with
      payload := ((List.range resp.length).zip resp).foldl (fun p x => SMap.set 0 p x.1 x.2) m.payload
      length := resp.length, status := st, detail := d, own := false }
  have hs : (s.modMbox h.mbox f).mbox h.mbox = f (s.mbox h.mbox) := State.modMbox_same s _ _ hw
  have ho : ∀ m, m ≠ h.mbox → (s.modMbox h.mbox f).mbox m = s.mbox m := fun m hm => State.modMbox_other s f hw hm
  obtain ⟨l, hl⟩ := renewFor_fields h ((s.modMbox h.mbox f).modHost fun x =>
    { x with long := x.long.filter fun l => !decide (l.hdr.mbox = h.mbox) })
  have ht : t = if h.irq then sendMsix h.vector (renewFor h ((s.modMbox h.mbox f).modHost fun x =>
    { x with long := x.long.filter fun l => !decide (l.hdr.mbox = h.mbox) })) else renewFor h
      ((s.modMbox h.mbox f).modHost fun x =>
    { x with long := x.long.filter fun l => !decide (l.hdr.mbox = h.mbox) }) := rfl
  rw [hl] at ht
  have key : ∃ p k, t = { s with
      host := { s.host with
        mboxes := (s.modMbox h.mbox f).host.mboxes, pba := p, leaseLeft := l
        long := s.host.long.filter fun x => !decide (x.hdr.mbox = h.mbox) }
      pcie := { s.pcie with linkState := k }, out := t.out } ∧
        (t.out = s.out ∨ (h.irq = true ∧ t.out = s.out ++ [.msix h.vector])) := by
    cases hi : h.irq with
    | false =>
      rw [hi] at ht
      refine ⟨s.host.pba, s.pcie.linkState, ?_, .inl (by rw [ht]; rfl)⟩
      rw [ht]
      rfl
    | true =>
      rw [hi] at ht
      simp only [if_true] at ht
      obtain ⟨p, o, e, c⟩ := sendMsix_cases h.vector { (s.modMbox h.mbox f).modHost (fun x =>
        { x with long := x.long.filter fun l => !decide (l.hdr.mbox = h.mbox) }) with
          host := { ((s.modMbox h.mbox f).modHost (fun x =>
            { x with long := x.long.filter fun l => !decide (l.hdr.mbox = h.mbox) })).host with leaseLeft := l } }
      rw [e] at ht
      refine ⟨p, o.1, by rw [ht]; rfl, ?_⟩
      rcases c with c | c
      · exact .inl (by rw [ht]; exact c.2)
      · exact .inr ⟨rfl, by rw [ht]; exact c.2⟩
  obtain ⟨p, k, e, hout⟩ := key
  have hm : ∀ m, t.mbox m = (s.modMbox h.mbox f).mbox m := by intro m; rw [e]; rfl
  refine ⟨?_, ?_, ?_, ?_, ?_, ?_, fun m hm' => (hm m).trans (ho m hm'), hout, _, p, l, k, e⟩ <;>
    simp only [hm, hs, f]
  exact hpay

/-! ## Deadlines (R653) -/

/-- With no arrival that bears on it waiting, a deadline has its effect at once. -/
theorem atDeadline_now {d : Instr} {run : State → Result} {s : State} (h : mustDefer d s = false) :
    atDeadline d run s = run s := by
  simp [atDeadline, h]

/-- While an arrival that bears on it waits, a deadline changes nothing but the list of deferred deadlines. -/
theorem atDeadline_later {d : Instr} {run : State → Result} {s : State} (h : mustDefer d s = true) :
    atDeadline d run s = .next { s with due := s.due ++ [d] } := by
  simp [atDeadline, h]

/-- With nothing waiting no deadline is deferred. -/
theorem mustDefer_empty {d : Instr} {s : State} (h : s.pending = []) (hd : s.due = []) : mustDefer d s = false := by
  simp [mustDefer, h, hd]

end Sys2Proof.Machine
end

