-- ==== Sys2Proof/WellFormed.lean ====
section
/-! DEFINITION. Well-formed commands: every operand lies in the range that its field's width gives it. What a field may hold
within that width is checked by the command itself. -/

namespace Sys2Proof

/-- A number fits a field of `b` bits. -/
def fits (b x : Nat) : Bool := decide (x < 2 ^ b)

/-- A mailbox header: mailboxes 0 to 31, and the boot mailbox as 32 (Table 18-3). -/
def Hdr.wf (h : Hdr) : Bool :=
  decide (h.mbox ≤ 32) && fits 16 h.seq && fits 8 h.vector && fits 32 h.length && fits 8 h.version

/-- A bundle slot: core 0 to 127, a bundle of a code block (Table 6-5 gives 14 bits to a bundle's number). -/
def Slot.wf (c : Slot) : Bool := fits 7 c.core && fits 14 c.bundle

/-- A DRAIN slot (Table 6-4). -/
def DrainOp.wf (d : DrainOp) : Bool := fits 2 d.array && fits 5 d.dreg && fits 5 d.qreg

/-- A `STITCH_POST` request gives all 16 length registers (Table 16-3). -/
def StitchReq.wf (r : StitchReq) : Bool := decide (r.len.length = 16)

/-- A `PARTITION_SET` request gives four granules of each kind (Table 16-1). -/
def PartReq.wf (p : PartReq) : Bool := decide (p.modelG0.length = 4) && decide (p.workG0.length = 4)

/-- What a bring-up step reports names existing channels or stacks, two cages, and a rate and a width that a port may have
(R598). -/
def StepResult.wf (r : StepResult) : Bool :=
  (r.failed.all fun c => decide (c < 4)) && decide (r.modules.length = 2) && decide (1 ≤ r.portRate ∧ r.portRate ≤ 6) &&
    [1, 2, 4, 8, 16].contains r.portLanes

/-- A TLP's header as AER logs it has at most 16 bytes (R614). -/
def headerFits (header : List Byte) : Bool := decide (header.length ≤ 16)

/-- The command's operands fit their fields. -/
def Instr.wf (i : Instr) : Bool :=
  match i with
  | .openSession h flags leaseMs _ => Hdr.wf h && fits 8 flags && fits 32 leaseMs
  | .closeSession h => Hdr.wf h
  | .leaseRenew h leaseMs => Hdr.wf h && fits 32 leaseMs
  | .resync h buffer size => Hdr.wf h && fits 64 buffer && fits 32 size
  | .adopt h snapshot leaseMs _ => Hdr.wf h && fits 64 snapshot && fits 32 leaseMs
  | .resetWork h => Hdr.wf h
  | .audit h => Hdr.wf h
  | .streamOpen h _ _ => Hdr.wf h
  | .streamClose h _ => Hdr.wf h
  | .streamFeed h _ _ _ => Hdr.wf h
  | .flowSetAdd h _ => Hdr.wf h
  | .flowSetModify h _ => Hdr.wf h
  | .flowSetRemove h _ => Hdr.wf h
  | .flowSetAddrAdd h _ => Hdr.wf h
  | .flowSetAddrRemove h _ => Hdr.wf h
  | .keyPicture h _ => Hdr.wf h
  | .encodeOpen h _ => Hdr.wf h
  | .streamQuery h _ => Hdr.wf h
  | .eyeletPolicy h _ output fit maxAge marginPct =>
    Hdr.wf h && fits 8 output && fits 8 fit && fits 16 maxAge && fits 8 marginPct
  | .modelLoad h _ total _ => Hdr.wf h && fits 64 total
  | .modelUnload h _ => Hdr.wf h
  | .modelPinSet h _ _ => Hdr.wf h
  | .modelPinClear h _ _ => Hdr.wf h
  | .pillowPlanSet h kind stackMask g0 count =>
    Hdr.wf h && fits 8 kind && fits 8 stackMask && fits 16 g0 && fits 16 count
  | .pillowPlanClear h kind stackMask g0 count =>
    Hdr.wf h && fits 8 kind && fits 8 stackMask && fits 16 g0 && fits 16 count
  | .stitchPost h r => Hdr.wf h && StitchReq.wf r
  | .stitchCancel h id => Hdr.wf h && fits 64 id
  | .clientSetCreate h classes weight => Hdr.wf h && fits 8 classes && fits 16 weight
  | .clientSetModify h _ classes weight => Hdr.wf h && fits 8 classes && fits 16 weight
  | .clientSetRemove h _ => Hdr.wf h
  | .clientStats h _ => Hdr.wf h
  | .partitionSetCreate h p => Hdr.wf h && PartReq.wf p
  | .partitionSetModify h p => Hdr.wf h && PartReq.wf p
  | .partitionSetRemove h p => Hdr.wf h && PartReq.wf p
  | .bobbinCreate h layout _ _ maxPos _ => Hdr.wf h && fits 8 layout && fits 32 maxPos
  | .bobbinRelease h _ => Hdr.wf h
  | .prefixCreate h _ => Hdr.wf h
  | .prefixFork h _ p => Hdr.wf h && fits 32 p
  | .poolCreate h space bufLog2 flags count stackMask regionOffset =>
    Hdr.wf h && fits 8 space && fits 8 bufLog2 && fits 8 flags && fits 32 count && fits 8 stackMask && fits 64 regionOffset
  | .poolAlloc h _ => Hdr.wf h
  | .poolFreeUnref h _ => Hdr.wf h
  | .poolFreeRef h _ => Hdr.wf h
  | .poolFreeDestroy h _ => Hdr.wf h
  | .poolStats h _ => Hdr.wf h
  | .pagesPostCreate h kind vector _ => Hdr.wf h && fits 8 kind && fits 8 vector
  | .pagesPostAdd h _ _ => Hdr.wf h
  | .picotRouteDestSet h _ => Hdr.wf h
  | .picotRouteDestRemove h dest => Hdr.wf h && fits 16 dest
  | .picotRouteStreamSet h _ => Hdr.wf h
  | .picotRouteStats h dest => Hdr.wf h && fits 16 dest
  | .timeStep h _ _ => Hdr.wf h
  | .timeRate h _ => Hdr.wf h
  | .timeUnitClaim h unit function connector periodNs _ =>
    Hdr.wf h && fits 8 unit && fits 8 function && fits 8 connector && fits 32 periodNs
  | .timeUnitRelease h _ => Hdr.wf h
  | .pairJoin h mode role => Hdr.wf h && fits 8 mode && fits 8 role
  | .pairEvacuate h => Hdr.wf h
  | .pairStatus h => Hdr.wf h
  | .powerCap h capW => Hdr.wf h && fits 16 capW
  | .powerStateNap h pllIdleUs => Hdr.wf h && fits 32 pllIdleUs
  | .powerStateReady h pllIdleUs => Hdr.wf h && fits 32 pllIdleUs
  | .logConfig h levels => Hdr.wf h && decide (levels.length = 4)
  | .traceSetEnable h _ => Hdr.wf h
  | .traceSetDisable h _ => Hdr.wf h
  | .traceSetReplace h _ => Hdr.wf h
  | .measurements h first count => Hdr.wf h && fits 16 first && fits 16 count
  | .unknownOpcode h opcode => Hdr.wf h && fits 16 opcode
  | .bootLoad h _ imageBytes _ => Hdr.wf h && fits 32 imageBytes
  | .bootQuery h => Hdr.wf h
  | .loadw c array _ fmt areg sreg _ => Slot.wf c && fits 2 array && fits 8 fmt && fits 5 areg && fits 5 sreg
  | .pass c array _ _ fmt areg sreg => Slot.wf c && fits 2 array && fits 8 fmt && fits 5 areg && fits 5 sreg
  | .stream c array _ _ fmt areg sreg _ => Slot.wf c && fits 2 array && fits 8 fmt && fits 5 areg && fits 5 sreg
  | .clear c array _ => Slot.wf c && fits 2 array
  | .rowEntry core array group _ _ _ => fits 7 core && fits 2 array && fits 2 group
  | .drainPlain c d => Slot.wf c && DrainOp.wf d
  | .drainAdd c d => Slot.wf c && DrainOp.wf d
  | .drainPair c d => Slot.wf c && DrainOp.wf d
  | .drainStart core array _ _ _ _ _ _ withheld _ => fits 7 core && fits 2 array && decide (withheld.length ≤ 32)
  | .vadd c _ vd va vb => Slot.wf c && fits 5 vd && fits 5 va && fits 5 vb
  | .vsub c _ vd va vb => Slot.wf c && fits 5 vd && fits 5 va && fits 5 vb
  | .vmul c _ vd va vb => Slot.wf c && fits 5 vd && fits 5 va && fits 5 vb
  | .vfma c _ vd va vb vc => Slot.wf c && fits 5 vd && fits 5 va && fits 5 vb && fits 5 vc
  | .vmin c _ vd va vb => Slot.wf c && fits 5 vd && fits 5 va && fits 5 vb
  | .vmax c _ vd va vb => Slot.wf c && fits 5 vd && fits 5 va && fits 5 vb
  | .vcmp c _ vd va vb cond => Slot.wf c && fits 5 vd && fits 5 va && fits 5 vb && fits 2 cond
  | .vsel c _ vd va vb vc => Slot.wf c && fits 5 vd && fits 5 va && fits 5 vb && fits 5 vc
  | .vbcast c _ vd _ => Slot.wf c && fits 5 vd
  | .vcvt c _ vd va target part => Slot.wf c && fits 5 vd && fits 5 va && fits 8 target && fits 2 part
  | .vexp2 c _ vd va => Slot.wf c && fits 5 vd && fits 5 va
  | .vlog2 c _ vd va => Slot.wf c && fits 5 vd && fits 5 va
  | .vrcp c _ vd va => Slot.wf c && fits 5 vd && fits 5 va
  | .vrsqrt c _ vd va => Slot.wf c && fits 5 vd && fits 5 va
  | .vtanh c _ vd va => Slot.wf c && fits 5 vd && fits 5 va
  | .vsigm c _ vd va => Slot.wf c && fits 5 vd && fits 5 va
  | .vgelu c _ vd va => Slot.wf c && fits 5 vd && fits 5 va
  | .vsilu c _ vd va => Slot.wf c && fits 5 vd && fits 5 va
  | .vtwosum c vd va vb => Slot.wf c && fits 5 vd && fits 5 va && fits 5 vb
  | .vrsum c _ vd va => Slot.wf c && fits 5 vd && fits 5 va
  | .vrmax c _ vd va => Slot.wf c && fits 5 vd && fits 5 va
  | .vsort32 c vd va => Slot.wf c && fits 5 vd && fits 5 va
  | .vld c vd areg => Slot.wf c && fits 5 vd && fits 5 areg
  | .vst c va areg => Slot.wf c && fits 5 va && fits 5 areg
  | .vgather c _ vd vb areg => Slot.wf c && fits 5 vd && fits 5 vb && fits 5 areg
  | .hrowget c array _ _ vd => Slot.wf c && fits 2 array && fits 5 vd
  | .hrowset c array _ _ va => Slot.wf c && fits 2 array && fits 5 va
  | .loop c level _ count endBundle => Slot.wf c && fits 2 level && fits 16 count && fits 14 endBundle
  | .jump c target => Slot.wf c && fits 14 target
  | .knot c k => Slot.wf c && fits 4 k
  | .knotRelease _ k late => fits 4 k && decide (late.length ≤ 128)
  | .ltest c lreg target imm => Slot.wf c && fits 4 lreg && fits 14 target && fits 24 imm
  | .tskip c entry => Slot.wf c && fits 10 entry
  | .rowmask c array lreg base _ => Slot.wf c && fits 2 array && fits 4 lreg && fits 24 base
  | .arset c ar addr => Slot.wf c && fits 5 ar && fits 23 addr
  | .arstride c ar _ => Slot.wf c && fits 5 ar
  | .aradd c ar _ => Slot.wf c && fits 5 ar
  | .arlen c ar lreg _ => Slot.wf c && fits 5 ar && fits 4 lreg
  | .end_ c => Slot.wf c
  | .coreFinish core _ => fits 7 core
  | .shStart c sh desc => Slot.wf c && fits 1 sh && fits 16 desc
  | .shWait c sh q => Slot.wf c && fits 1 sh && fits 4 q
  | .shuttleDescriptorBegin core sh => fits 7 core && fits 1 sh
  | .shuttleRunMove core sh _ => fits 7 core && fits 1 sh
  | .shuttleDescriptorComplete core sh _ _ => fits 7 core && fits 1 sh
  | .ppuBoxdec stack _ => fits 2 stack
  | .ppuNms stack _ => fits 2 stack
  | .ppuTopk stack _ => fits 2 stack
  | .ppuIou stack _ => fits 2 stack
  | .ppuAssign stack _ => fits 2 stack
  | .ppuJobEnd stack => fits 2 stack
  | .computeUncorrectableError core _ => fits 7 core
  | .decodeEngineTakeJob engine => fits 4 engine
  | .decodeSliceEnd engine _ _ _ => fits 4 engine
  | .decodePictureEnd engine _ _ _ => fits 4 engine
  | .scalerStripStart unit => fits 3 unit
  | .scalerStripEnd unit => fits 3 unit
  | .encodeEngineTakePicture engine => fits 2 engine
  | .encodePictureEnd engine => fits 2 engine
  | .ddrRefreshDue channel _ => fits 2 channel
  | .refreshManagementDue channel bank => fits 2 channel && fits 6 bank
  | .ddrPanicEnter channel level => fits 2 channel && fits 7 level
  | .ddrPanicExit channel level _ => fits 2 channel && fits 7 level
  | .ddrAlert channel _ _ => fits 2 channel
  | .dqsOscillatorTracking channel => fits 2 channel
  | .zqCalibration channel => fits 2 channel
  | .patrolScrubRead _ unit _ => fits 2 unit
  | .dieLinkCrcError link _ => fits 3 link
  | .b2BaseWrite offset size value => fits 3 offset && decide (size ≤ 8) && fits 64 value
  | .collectorAddressRefresh _ mac => mac.all (fits 48)
  | .bar2Write _ _ poison _ => poison.all headerFits
  | .unsupportedRequest _ _ header => headerFits header
  | .registerWrite _ _ _ _ poison => poison.all headerFits
  | .resizableBarSizeWrite value => fits 6 value
  | .mcRtCfgWrite channel value => fits 2 channel && fits 32 value
  | .timeCtrlRelease value => fits 32 value
  | .timePtpCfgWrite value => fits 32 value
  | .timeUtcOffsetWrite value => fits 32 value
  | .tuCaptureSecRead unit _ => fits 2 unit
  | .timeUnitOutputEdge unit => fits 2 unit
  | .ccWdogKick core => fits 2 core
  | .watchdogExpiry core => fits 2 core
  | .controlCoreException core _ _ => fits 2 core
  | .edgeSourceArrival source => fits 9 source
  | .levelSourceAssert source => fits 9 source
  | .evgEnter core source => fits 2 core && fits 9 source
  | .evgDone core source _ => fits 2 core && fits 9 source
  | .evgRaise source => fits 9 source
  | .thermalSample temps => decide (temps.length = 5)
  | .voltageLoopAdjust stack _ _ => fits 2 stack
  | .pcieReadCompletion tag _ _ header => fits 14 tag && headerFits header
  | .pcieCompletionTimeout tag => fits 14 tag
  | .bringUpStepComplete r => StepResult.wf r
  | .qsfpPresenceChange cage _ => fits 1 cage
  | .ethernetLinkChange port _ => fits 3 port
  | .doeObjectWrite vendor protocol _ => fits 16 vendor && fits 8 protocol
  | .jtagUnlockResponse key _ => fits 2 key
  | .brideLaneLoss lane => fits 3 lane
  | .partnerPairJoin mode role serial => fits 8 mode && fits 8 role && fits 64 serial
  | .ddrAlertClear channel => fits 2 channel
  | .controlCoreResume core => fits 2 core
  | .streamFeedTimeout _ | .modelPinApply _ | .pairJoinTimeout | .bootLoadTimeout | .leaseExpiry
  | .dispatchDecision _ | .stitchSlotBind _ | .modelResidencyCopyDone _ | .stitchCycleZero _
  | .stitchTimeout _ _ | .frameReceive _ | .jitterGapDeadline _ | .sliceHeaderParse _ _ | .pictureAbandon _
  | .picotPageFlush _ | .completionPageFlush _ | .healthPicotTimer
  | .tagRewriteComplete _ _ | .bar2Read _ _ _ | .timeNowSecRead _ | .timeTxqPopRead _ | .ptpDelayReqSend _ _ | .holdoverTimeout
  | .timeConnectorEdge | .bootCoreWatchdogExpiry | .powerSample _ _ | .powerControlTick | .pllIdleStop
  | .d3hotWrite | .sleepEntry | .d0Write | .sleepWakeComplete _ | .busMasterEnableClear | .busMasterEnableSet
  | .linkIdleL1Entry | .functionLevelReset | .perstAssert | .perstDeassert | .pcieLinkDown
  | .hostLinkLossTimeout | .auxPowerApply | .mainPowerLoss | .input12v2x6Rise _ | .serviceShortPress
  | .serviceLongPress _ | .doeAbort | .spdmRequest _ _ | .mctpPldmRequest _ _ | .locateEffecterWrite _
  | .smbusArp _ | .jtagChallengeRead | .brideHeartbeatSend | .networkHeartbeatSend | .brideHeartbeatTimeout _
  | .mirrorItemReceive _ _ | .mirrorAckReceive _ _ | .mirrorAckTimeout _ | .partnerFaultReport _
  | .partnerTakeoverDetected | .brideCableReconnect _ | .pairSyncComplete | .evacuationHandover
  | .auditPeriodic | .pcieLinkUp | .brideHeartbeatReceive | .napWakeComplete | .prefixCopyComplete _
  | .auxPowerLoss | .outputPulseEnd => true

end Sys2Proof
end

