-- ==== Sys2Proof/Tests/Slice0.lean ====
section
/-! SUPPORT. Tests: ill-formed commands that the checks refuse, states that meet the statements' hypotheses, and a few
commands on small states, their results taken from the manual's tables. -/

namespace Sys2Proof.Tests

open Sys2Proof.Machine Sys2Proof.Claims

/-! ## Helpers -/

/-- A header in mailbox `m`, of session `se`. -/
def hd (m : Nat) (se : Handle) (len version : Nat) : Hdr :=
  ⟨m, 7, false, 0, se, len, false, version, false⟩

/-- A core slot. -/
def at_ (core bundle : Nat) : Slot := { core := core, bundle := bundle, last := true }

/-! ## Ill-formed commands are refused -/

theorem smoke_mailbox : Instr.wf (.audit (hd 33 0 0 1)) = false := by decide
theorem smoke_seq : Instr.wf (.audit { hd 0 0 0 1 with seq := 65536 }) = false := by decide
theorem smoke_vector : Instr.wf (.audit { hd 0 0 0 1 with vector := 256 }) = false := by decide
theorem smoke_length : Instr.wf (.audit (hd 0 0 (2 ^ 32) 1)) = false := by decide
theorem smoke_version : Instr.wf (.audit (hd 0 0 8 256)) = false := by decide
theorem smoke_flags : Instr.wf (.openSession (hd 0 0 16 1) 256 0 [1]) = false := by decide
theorem smoke_core : Instr.wf (.jump (at_ 128 0) 0) = false := by decide
theorem smoke_bundle : Instr.wf (.jump (at_ 0 16384) 0) = false := by decide
theorem smoke_target : Instr.wf (.jump (at_ 0 0) 16384) = false := by decide
theorem smoke_array : Instr.wf (.clear (at_ 0 0) 4 false) = false := by decide
theorem smoke_register : Instr.wf (.vadd (at_ 0 0) .fp32 32 0 0) = false := by decide
theorem smoke_cond : Instr.wf (.vcmp (at_ 0 0) .fp32 0 0 0 4) = false := by decide
theorem smoke_drain : Instr.wf (.drainPlain (at_ 0 0) ⟨4, false, false, false, false, 0, 0⟩) = false := by decide
theorem smoke_drain_register : Instr.wf (.drainAdd (at_ 0 0) ⟨0, false, false, false, false, 32, 0⟩) = false := by decide
theorem smoke_knot : Instr.wf (.knot (at_ 0 0) 16) = false := by decide
theorem smoke_loop_level : Instr.wf (.loop (at_ 0 0) 4 false 1 0) = false := by decide
theorem smoke_lreg : Instr.wf (.ltest (at_ 0 0) 16 0 0) = false := by decide
theorem smoke_address : Instr.wf (.arset (at_ 0 0) 0 (2 ^ 23)) = false := by decide
theorem smoke_shuttle : Instr.wf (.shStart (at_ 0 0) 2 0) = false := by decide
theorem smoke_stack : Instr.wf (.ppuNms 4 []) = false := by decide
theorem smoke_engine : Instr.wf (.decodeEngineTakeJob 16) = false := by decide
theorem smoke_encode_engine : Instr.wf (.encodeEngineTakePicture 4) = false := by decide
theorem smoke_scaler : Instr.wf (.scalerStripStart 8) = false := by decide
theorem smoke_channel : Instr.wf (.zqCalibration 4) = false := by decide
theorem smoke_link : Instr.wf (.dieLinkCrcError 8 false) = false := by decide
theorem smoke_source : Instr.wf (.edgeSourceArrival 512) = false := by decide
theorem smoke_control_core : Instr.wf (.ccWdogKick 4) = false := by decide
theorem smoke_tag : Instr.wf (.pcieCompletionTimeout 16384) = false := by decide
theorem smoke_bar_size : Instr.wf (.resizableBarSizeWrite 64) = false := by decide
theorem smoke_temps : Instr.wf (.thermalSample [0, 0, 0, 0]) = false := by decide
theorem smoke_levels : Instr.wf (.logConfig (hd 0 0 8 1) [0, 0, 0]) = false := by decide
theorem smoke_cage : Instr.wf (.qsfpPresenceChange 2 none) = false := by decide
theorem smoke_port : Instr.wf (.ethernetLinkChange 8 true) = false := by decide
theorem smoke_step_channel : StepResult.wf { failed := [4] } = false := by decide
theorem smoke_step_modules : StepResult.wf { modules := [none] } = false := by decide
theorem smoke_stitch_lengths :
    StitchReq.wf ⟨0, 0, 0, 0, 0, 0, 0, 0, 0, List.replicate 15 0, [], [], []⟩ = false := by decide
theorem smoke_partition_granules : PartReq.wf ⟨0, 0, 0, 1, 0, 0, [0, 0, 0], [0, 0, 0, 0]⟩ = false := by decide
set_option maxRecDepth 4000 in
theorem smoke_late : Instr.wf (.knotRelease 0 0 (List.replicate 129 0)) = false := by decide
theorem smoke_key : Instr.wf (.jtagUnlockResponse 4 []) = false := by decide
theorem smoke_header : Instr.wf (.unsupportedRequest .outsideBars true (List.replicate 17 0)) = false := by decide
theorem smoke_mac : Instr.wf (.collectorAddressRefresh 0 (some (2 ^ 48))) = false := by decide
theorem smoke_base : Instr.wf (.b2BaseWrite 8 4 0) = false := by decide
theorem smoke_port_rate : StepResult.wf { portRate := 7 } = false := by decide
theorem smoke_port_lanes : StepResult.wf { portLanes := 3 } = false := by decide
theorem smoke_wellformed : Instr.wf (.audit (hd 32 0 8 1)) = true := by decide

/-! ## States -/

/-- A card that has reached READY, with its link up, alone. -/
def up : State := { State.reset with
  host := { HostUnit.init with state := .ready, protoMin := 1, protoMax := 1, fwVersion := 5 }
  pcie := { PcieUnit.init with linkUp := true, mse := true, bme := true, perst := false }
  power := { PowerUnit.init with state := 1, bringUp := 8, pll := true, vdd := [600, 600, 600, 600] }
  fw := { FwUnit.init with cores := [(0, { run := 1 }), (1, { run := 1 }), (2, { run := 1 }), (3, { run := 1 })] }
  mem := { MemUnit.init with
    lost := [], ddr := [(0, { state := 2 }), (1, { state := 2 }), (2, { state := 2 }), (3, { state := 2 })]
    pil := [(0, { pass := true }), (1, { pass := true }), (2, { pass := true }), (3, { pass := true })] } }

/-- Its session. -/
def ses : Handle := Handle.make 1 1 0
/-- The session's record. -/
def ses0 : Session := ⟨ses, 1, true, false⟩
/-- The card with that session. -/
def us : State := { up with obj := { sessions := [ses0] } }
/-- A header of the session in mailbox 3. -/
def h8 (n : Nat) : Hdr := hd 3 ses n 1
/-- A header of a command that names no session. -/
def h0 (n : Nat) : Hdr := hd 3 0 n 1
/-- The card with other objects. -/
def withObj (f : Objects → Objects) : State := { us with obj := f us.obj }

theorem reached_of {s : State} (p : s.pcie.linkUp = true ∧ s.pcie.mse = true ∧ s.pcie.d3hot = false) : Reached s :=
  ⟨p.1, p.2.1, p.2.2⟩

theorem taken_of {h : Hdr} {len : Nat} {s : State} (x : Session)
    (p : s.canonical = true ∧ (s.pcie.linkUp = true ∧ s.pcie.mse = true ∧ s.pcie.d3hot = false) ∧
      (s.mbox h.mbox).own = false ∧ s.sec.unlocked = false ∧ (s.power.state = 1 ∨ s.power.state = 2) ∧ (s.cc 0).run = 1 ∧
      s.host.state = .ready ∧ s.host.ending = false ∧ s.pair.mode = 0 ∧
      (h.headerReserved = false ∧ h.bodyReserved = false ∧ h.length = len ∧ h.length ≤ 4032) ∧
      findSession s h.session = some x ∧ x.held = false ∧ h.version = x.proto) : Taken false h len s := by
  obtain ⟨a, b, c, d, e, f, g, i, j, k, l, m, n⟩ := p
  exact ⟨a, reached_of b, c, d, e, f, g, i, j, k, ⟨x, l, m, n⟩⟩

theorem taken_free {h : Hdr} {len : Nat} {s : State}
    (p : s.canonical = true ∧ (s.pcie.linkUp = true ∧ s.pcie.mse = true ∧ s.pcie.d3hot = false) ∧
      (s.mbox h.mbox).own = false ∧ s.sec.unlocked = false ∧ (s.power.state = 1 ∨ s.power.state = 2) ∧ (s.cc 0).run = 1 ∧
      s.host.state = .ready ∧ s.host.ending = false ∧ s.pair.mode = 0 ∧
      (h.headerReserved = false ∧ h.bodyReserved = false ∧ h.length = len ∧ h.length ≤ 4032) ∧
      h.version = 1 ∧ h.session = 0 ∧ findSession s 0 = none) : Taken true h len s := by
  obtain ⟨a, b, c, d, e, f, g, i, j, k, l, m, n⟩ := p
  exact ⟨a, reached_of b, c, d, e, f, g, i, j, k, ⟨l, m, n⟩⟩

theorem up_canonical : up.canonical = true := by decide

/-- A command of the session in mailbox 3, of every length that the tests use, is taken, whatever the objects. -/
theorem taken_obj (f : Objects → Objects) (n : Nat) (hn : n ≤ 4032) (hs : (f us.obj).sessions = [ses0]) :
    Taken false (h8 n) n (withObj f) :=
  taken_of ses0 ⟨up_canonical, ⟨rfl, rfl, rfl⟩, rfl, rfl, .inl rfl, rfl, rfl, rfl, rfl, ⟨rfl, rfl, rfl, hn⟩,
    (congrArg (fun l => l.find? fun x => decide (x.handle = ses)) hs).trans rfl, rfl, rfl⟩

/-- With no channel in FAULT and no line lost, memory is clean. -/
theorem clean_of {s : State} (a : s.mem.latent = []) (b : s.mem.poison = []) (c : s.mem.hubPoison = [])
    (d : s.mem.scratchPoison = []) (e : s.mem.pil = up.mem.pil) (f : s.mem.ddr = up.mem.ddr) : CleanMemory s where
  latent := a
  ddr := b
  hub := c
  scratch := d
  pillow k := by
    simp only [State.pil, e]
    rcases k with _ | _ | _ | _ | k <;> rfl
  channels c := by
    simp only [State.ddr, f]
    rcases c with _ | _ | _ | _ | c <;> exact of_decide_eq_true rfl
theorem us_clean : CleanMemory us := clean_of rfl rfl rfl rfl rfl rfl

theorem taken_us (n : Nat) (hn : n ≤ 4032) : Taken false (h8 n) n us := taken_obj id n hn rfl

/-- A shuttle descriptor that moves 64 bytes within core 1's scratch. -/
def dsc : Desc :=
  { form := 1, gate := false, srcSlot := false, dstSlot := false, slot := 0, src := BitVec.ofNat 64 (scratchAt 1 0x1000)
    dst := BitVec.ofNat 64 (scratchAt 1 0x1020), count0 := 64, count1 := 1, count2 := 1, sstride1 := 0, sstride2 := 0
    dstride1 := 0, dstride2 := 0, gateBase := 0, gateStep := 0, lenDim := 0, lenReg := 0 }
/-- A bobbin layout. -/
def lay : BobbinLayout := ⟨1, 32, 1, false, 16, 4, 2, 0, 1000⟩

/-! ## States that meet the statements' hypotheses: the block as a whole -/

/-- A card with a command waiting. -/
def waiting : State := { us with pending := [.ccWdogKick 0] }

theorem witness_StepRunsFront : step waiting = exec (.ccWdogKick 0) us := rfl

theorem witness_IdleStepIsOneTick :
    State.reset.pending = [] ∧ ticking { State.reset with power := { PowerUnit.init with aux := false, main := false } } = false ∧
      ticking State.reset = true ∧ State.reset.host.ending = false ∧ State.reset.sec.unlocking = false ∧
      State.reset.pair.mode = 0 ∧ State.reset.due = [] ∧ State.reset.canonical = true := by decide
theorem witness_IdleStepIsOneTick_deadline :
    { us with pending := [.ccWdogKick 0] }.pending.any (precedes (.watchdogExpiry 0)) = true ∧
      { us with due := [.watchdogExpiry 0] }.due = .watchdogExpiry 0 :: [] := ⟨by decide, rfl⟩

theorem witness_StepKeepsCanonical : waiting.canonical = true ∧ ∃ t, step waiting = .next t := ⟨up_canonical, _, rfl⟩
theorem witness_FusesStand : ∃ t, step waiting = .next t := ⟨_, rfl⟩
theorem witness_StepOnlyAppends : ∃ t, step waiting = .next t := ⟨_, rfl⟩

/-- The card with mailboxes 0, 3, 31 and the boot mailbox owned by the card. -/
def owned : State := { us with host := { us.host with
  mboxes := [(0, { own := true }), (3, { own := true }), (31, { own := true }), (32, { own := true })] } }

theorem witness_OwnedMailboxDiscards :
    Reached owned ∧ headerOf (.audit (h0 8)) = some (h0 8) ∧ (owned.mbox 0).own = true ∧ (owned.mbox 3).own = true ∧
      (owned.mbox 31).own = true ∧ (owned.mbox 32).own = true ∧ 0 < 32 ∧ 31 < 32 ∧ 4095 < 4096 :=
  ⟨⟨rfl, rfl, rfl⟩, rfl, by decide⟩
theorem witness_OwnedMailboxDiscards_unlocked :
    Reached { us with sec := { us.sec with unlocked := true } } ∧ headerOf (.audit (h0 8)) = some (h0 8) ∧
      (us.mbox 3).own = false := ⟨⟨rfl, rfl, rfl⟩, rfl, rfl⟩

/-- The card before READY. -/
def before (x : HevState) : State := { us with host := { us.host with state := x } }

theorem witness_HeldBeforeReady :
    headerOf (.audit (h0 8)) = some (h0 8) ∧ (h0 8).mbox < 32 ∧ Reached (before .rom) ∧ Reached (before .starting) ∧
      ((before .rom).mbox 3).own = false ∧ us.sec.unlocked = false ∧ us.power.state ≠ 3 :=
  ⟨rfl, by decide, ⟨rfl, rfl, rfl⟩, ⟨rfl, rfl, rfl⟩, rfl, rfl, by decide⟩

theorem witness_UnsupportedRequests :
    (headerOf (.audit (h0 8))).isSome = true ∧ State.reset.pcie.linkUp = false ∧
      (us.pcie.linkUp = true ∧ { us.pcie with mse := false }.mse = false ∧ { us.pcie with d3hot := true }.d3hot = true) := by
  decide

theorem witness_FaultAnswersWrongState :
    headerOf (.resetWork (h0 8)) = some (h0 8) ∧ (h0 8).mbox < 32 ∧ servedInFault (.resetWork (h0 8)) = false ∧
      (before .fault).canonical = true ∧ Reached (before .fault) ∧ ((before .fault).mbox 3).own = false ∧
      (before .fault).sec.unlocked = false ∧ (before .fault).host.state = .fault ∧ (before .fault).pair.mode = 0 :=
  ⟨rfl, by decide, rfl, up_canonical, ⟨rfl, rfl, rfl⟩, rfl, rfl, rfl, rfl⟩

/-- The card, orphaned. -/
def orphan : State := before .orphaned

theorem witness_OrphanedAnswers :
    headerOf (.leaseRenew (h8 8) 0) = some (h8 8) ∧ (h8 8).mbox < 32 ∧ opcodeUnknown (.leaseRenew (h8 8) 0) = false ∧
      orphan.canonical = true ∧ Reached orphan ∧ (orphan.mbox 3).own = false ∧ orphan.sec.unlocked = false ∧
      orphan.host.state = .orphaned ∧ orphan.host.ending = false ∧ orphan.power.state < 3 ∧ (orphan.cc 0).run = 1 ∧
      orphan.pair.mode = 0 ∧ servedOrphaned (.leaseRenew (h8 8) 0) = false :=
  ⟨rfl, by decide, rfl, up_canonical, ⟨rfl, rfl, rfl⟩, rfl, rfl, rfl, rfl, by decide, rfl, rfl, rfl⟩
theorem witness_OrphanedAnswers_reserved :
    headerOf (.audit { h0 8 with headerReserved := true }) = some { h0 8 with headerReserved := true } ∧
      { h0 8 with headerReserved := true }.headerReserved = true := ⟨rfl, rfl⟩

/-! ## The event gatherer and the control cores -/

/-- Control core 0 with source 7 edge, source 9 level, at the priorities given; `n` of source 7 is pending. -/
def gath (n : Nat) : State := { us with evg := { us.evg with
  sources := [(7, { count := n, priority := 3, mask := false }), (9, { level := true, pendLevel := true, priority := 2 })] } }
/-- The same with source `k` on the stack of core 0. -/
def pushed (k : Nat) : State := { gath 2 with evg := { (gath 2).evg with prio := [(0, [(k, 3, 2)])] } }

theorem witness_EdgeArrival :
    (gath 255).canonical = true ∧ (gath 254).canonical = true ∧
      (∀ n ∈ [0, 7, 240, 248, 253, 256, 383], Gathered (gath 255) n) ∧ ((gath 255).src 7).level = false ∧
      ((gath 255).src 383).level = false ∧ ((gath 255).src 7).count = 255 := by
  refine ⟨by decide, by decide, ?_, by decide⟩
  intro n hn
  simp only [List.mem_cons, List.not_mem_nil, or_false] at hn
  rcases hn with rfl | rfl | rfl | rfl | rfl | rfl | rfl <;> exact ⟨by omega, .inr (by decide), .inl rfl⟩
theorem witness_LevelAssert : (gath 0).canonical = true ∧ Gathered (gath 0) 9 ∧ ((gath 0).src 9).level = true :=
  ⟨by decide, ⟨by omega, .inr (by decide), .inl rfl⟩, rfl⟩

theorem witness_EnterAndDone :
    (gath 2).canonical = true ∧ ((gath 2).cc 0).run = 1 ∧ Gathered (gath 2) 7 ∧ ((gath 2).src 7).target = 0 ∧
      ((gath 2).src 7).pend = true ∧ (stackOf (gath 2) 0).length < 8 ∧
      ∀ e, (stackOf (gath 2) 0).head? = some e → e.2.1 ≤ ((gath 2).src 7).priority :=
  ⟨by decide, rfl, ⟨by omega, .inr (by decide), .inl rfl⟩, rfl, rfl, by decide, fun _ h => nomatch h⟩
theorem witness_EnterAndDone_done :
    (pushed 7).canonical = true ∧ (pushed 9).canonical = true ∧ ((pushed 7).cc 0).run = 1 ∧
      stackOf (pushed 7) 0 = [(7, 3, 2)] ∧ stackOf (pushed 9) 0 = [(9, 3, 2)] ∧ ((pushed 7).src 7).level = false ∧
      ((pushed 9).src 9).level = true ∧ ((pushed 9).src 9).pendLevel = true := by decide

theorem witness_ControlCoreRestart :
    (pushed 7).canonical = true ∧ ((pushed 7).cc 0).run = 1 ∧ ((pushed 7).cc 3).run = 1 ∧
      (∀ e, (stackOf (pushed 7) 0).head? = some e → e.1 ≠ 9) ∧ 384 ≤ 384 ∧ 4 ≤ 4 ∧ 6 ≤ 6 ∧ (pushed 7).pending = [] ∧
      (pushed 7).due = [] := by
  refine ⟨by decide, rfl, rfl, ?_, by omega, by omega, by omega, rfl, rfl⟩
  intro e h
  cases h
  decide
/-- The card with no session, control core 1 in restart. -/
def restarted : State := { up with fw := { up.fw with
  cores := [(0, { run := 3 }), (1, { run := 3 }), (2, { run := 1 }), (3, { run := 3 })] } }
/-- The card with its boot core running. -/
def served4 : State := { up with fw := { up.fw with cores := up.fw.cores ++ [(4, { run := 1 })] } }
theorem witness_ControlCoreFaultAndResume :
    up.canonical = true ∧ up.host.state = .ready ∧ up.pair.mode = 0 ∧ up.obj.sessions = [] ∧ (up.cc 3).run = 1 ∧
      (served4.cc 4).run = 1 ∧ up.power.state < 6 ∧ up.pending = [] ∧ up.due = [] ∧ restarted.canonical = true ∧
      (restarted.cc 0).run = 3 ∧ (restarted.cc 1).run = 3 ∧ (restarted.cc 3).run = 3 ∧
      restarted.fw.heldComplete = [] ∧ restarted.fw.heldDispatch = [] ∧ restarted.host.held = [] ∧
      restarted.fw.waiting3 = [] ∧ restarted.obj.flows = [] := by decide

/-! ## Device memory -/

/-- The card with channel 0 as given. -/
def ddr0 (d : DdrChannel) : State := { up with mem := { up.mem with ddr := [(0, d)] } }

theorem witness_DdrRefreshAndPanic :
    (ddr0 { state := 2, panic := true, refOutstanding := 8 }).canonical = true ∧
      ((ddr0 { state := 2, panic := true, refOutstanding := 8 }).ddr 0).state = 2 ∧
      ((ddr0 { state := 2, panic := true, refOutstanding := 8 }).ddr 0).selfRefresh = false ∧
      ((ddr0 { state := 2, panic := true, refOutstanding := 8 }).ddr 0).alert = false ∧
      (ddr0 { state := 2, alert := true, panic := true, refOutstanding := 8 }).canonical = true ∧
      ((ddr0 { state := 2, alert := true, panic := true, refOutstanding := 8 }).ddr 0).alert = true ∧
      8 ≤ ((ddr0 { state := 2, alert := true, panic := true, refOutstanding := 8 }).ddr 0).refOutstanding ∧
      ((ddr0 { state := 2, alert := true }).ddr 0).panic = false ∧ 63 < 64 ∧
      24 < ((ddr0 { state := 2 }).ddr 0).panicPct ∧ (ddr0 { state := 2, panic := true }).canonical = true ∧
      min 100 (((ddr0 { state := 2, panic := true }).ddr 0).panicPct + 12) ≤ 37 := by decide
theorem witness_DdrAlertReplays :
    up.canonical = true ∧ (up.ddr 3).state = 2 ∧ (up.ddr 3).selfRefresh = false ∧ (up.ddr 3).alert = false ∧
      (ddr0 { state := 2, alert := true, consecutive := 2 }).canonical = true ∧
      ((ddr0 { state := 2, alert := true, consecutive := 2 }).ddr 0).consecutive + 1 < 4 ∧
      (ddr0 { state := 2, alert := true, consecutive := 3 }).canonical = true ∧
      ((ddr0 { state := 2, alert := true, consecutive := 3 }).ddr 0).alert = true ∧
      4 ≤ ((ddr0 { state := 2, consecutive := 3 }).ddr 0).consecutive + 1 ∧
      (ddr0 { state := 2, alert := true, consecutive := 3 }).host.state = .ready ∧
      (ddr0 { state := 2, alert := true, consecutive := 3 }).obj.sessions = [] := by decide
theorem witness_PatrolScrub :
    up.canonical = true ∧ (up.ddr 0).state = 2 ∧ (up.ddr 0).selfRefresh = false ∧ (up.ddr 0).alert = false ∧
      (up.ddr 0).scrubAddr < 0x800000000 ∧ up.mem.latent = [] ∧
      (up.pil 3).poison.length < 64 ∧ (up.pil 3).scrubAddr < 0x30000000 := by decide

/-- The tags of a buffer of 4 KiB, still being written. -/
def rewr : TagExtent :=
  { first := 0, count := 64, pool := 1, gen := 2, pending := true, owner := Handle.make 6 1 0, buffer := 0 }
/-- The card with a die link one resend before the last. -/
def links (n : Nat) : State := { up with ctr := { up.ctr with linkRetries := [(5, n)] } }
theorem witness_DieLinksAndTags :
    up.canonical = true ∧ 7 < 8 ∧ up.ctr.linksDown.contains 7 = false ∧ SMap.get 0 (links 2).ctr.linkRetries 5 < 3 ∧
      3 ≤ SMap.get 0 (links 3).ctr.linkRetries 5 ∧ (links 3).ctr.linksDown.contains 5 = false ∧
      (links 3).host.state = .ready ∧ (links 3).obj.partitions = [] ∧
      { up with mem := { up.mem with tags := [rewr] } }.mem.tags = [] ++ rewr :: [] ∧ rewr.pending = true ∧
      rewr.waiter = none ∧ up.obj.streams = [] ∧ up.obj.items = [] ∧ up.obj.bobbins = [] := by decide

/-! ## The registers and time -/

theorem witness_HostRegisterWrites :
    31 < 2 ^ 32 ∧ 32 < 2 ^ 32 ∧ 255 < 2 ^ 32 ∧ Reached us ∧ us.pcie.linkUp = true ∧ us.canonical = true ∧
      100 + 256 * 400 < 2 ^ 20 ∧ (100 + 256 * 400) / 128 % 2 = 0 ∧ 10 ≤ (100 + 256 * 400) / 256 :=
  ⟨by decide, by decide, by decide, ⟨rfl, rfl, rfl⟩, rfl, up_canonical, by decide, by decide, by decide⟩
theorem witness_DeviceMemoryThroughBar2 :
    Reached us ∧ us.canonical = true ∧ us.pcie.barSize = 19 ∧ (2 ^ 39 - 1) + 1 ≤ 2 ^ 39 ∧ 2 ^ 39 < 2 ^ 39 + 1 ∧
      pillowBase % 64 + [1#8].length ≤ 64 ∧ us.obj.stitches = [] ∧ us.mem.latent = [] ∧ areaOf pillowBase ≠ .ddr ∧
      (areaOf pillowBase).shared = true ∧ areaOf 64 = .ddr ∧ (us.ddr (channelOf 64)).state ≠ 3 ∧ poisoned us 64 = false :=
  ⟨⟨rfl, rfl, rfl⟩, up_canonical, rfl, by decide, by decide, by decide, rfl, rfl, by decide, by decide, by decide, by decide,
    by decide⟩
theorem witness_DeviceMemoryThroughBar2_lost :
    us.host.state = .ready ∧ us.pair.mode = 0 ∧ (ddr0 { state := 3 }).obj.sessions = [] ∧ up.obj.partitions = [] ∧
      areaOf 0 = .ddr ∧ ((ddr0 { state := 3 }).ddr (channelOf 0)).state = 3 := by decide

/-- The card with one stamp in the queue and unit 2 holding the connector's input, the last edge having come at tick 75. -/
def stamps : State := { us with
  time := { us.time with
    txq := [⟨1, 1, 0, ⟨5, 6⟩⟩], ptpCfg := 1, tick := 100, ns := 500000001
    units := [(0, { claimed := true, function := 1, connector := true }),
      (2, { claimed := true, function := 2, connector := true })] }
  board := { us.board with lastEdge := some 75 } }
theorem witness_TimeReads :
    Reached stamps ∧ stamps.canonical = true ∧ servoActive stamps = false ∧ stamps.time.txq = [⟨1, 1, 0, ⟨5, 6⟩⟩] ∧
      us.time.txq = [] := ⟨⟨rfl, rfl, rfl⟩, by decide⟩
theorem witness_TimeRegisterWrites :
    Reached us ∧ ptpCfgOk (BitVec.ofNat 32 1) = true ∧ BitVec.ofNat 32 1 ≠ us.time.ptpCfg ∧ 1 / 128 % 2 = 0 ∧
      128 / 128 % 2 = 1 ∧ 2 ^ 24 ≤ 2 ^ 24 ∧ servoActive us = false ∧ us.time.sync = 0 := ⟨⟨rfl, rfl, rfl⟩, by decide⟩
theorem witness_TimeEdges :
    stamps.canonical = true ∧ stamps.time.ptpCfg.getLsbD 0 = true ∧ stamps.time.ptpCfg.getLsbD 1 = false ∧
      (stamps.cc 3).run = 1 ∧ (stamps.tu 0).isOutput = true ∧ (stamps.tu 0).connector = true ∧
      claimWaits 0 stamps = false ∧ (stamps.tu 1).isOutput = false ∧ connectorInput us = none ∧
      connectorInput stamps = some 2 ∧ stamps.board.lastEdge = some 75 ∧ 75 + 25 ≤ stamps.time.tick ∧
      (stamps.tu 2).function = 2 ∧ stamps.time.ns ≠ 500000000 := by decide
theorem witness_TimeEdges_close : { stamps with time := { stamps.time with tick := 99 } }.time.tick < 75 + 25 := by decide

/-! ## Power, bring-up, the endpoint -/

theorem witness_PowerControlMillisecond : up.obj.sessions = [] := rfl
theorem witness_ThermalRequests :
    up.power.main = true ∧ up.power.state < 6 ∧ hottest [1520, 1520, 1520, 1520, 1520] = 1520 ∧
      beyondLimit { up.power with temps := [1759, 1759, 1759, 1759, 1759] } = false ∧
      hottest [1759, 1759, 1759, 1759, 1759] < 1760 ∧ 1760 ≤ hottest [1760, 0, 0, 0, 0] ∧ up.power.aux = true := by decide
/-- The card with another power state and host state. -/
def powered (k : Nat) (x : HevState) : State := { up with
  power := { up.power with state := k }, host := { up.host with state := x } }
theorem witness_VoltageAndPll :
    up.power.vdd.length = 4 ∧ up.obj.sessions = [] ∧ voltageOk up.power.vdd 0 750 = true ∧
      listSet up.power.vdd 0 750 = [750, 600, 600, 600] ∧
      beyondLimit { up.power with vdd := [750, 600, 600, 600], vBeyond := false } = false ∧
      beyondLimit { up.power with vdd := [750, 600, 600, 600], vBeyond := atBound [750, 600, 600, 600] 0 } = true ∧
      beyondLimit { up.power with temps := [1700, 0, 0, 0, 0], vBeyond := false } = true ∧ up.power.unbalanced = false ∧
      (powered 1 .ready).obj.stitches = [] ∧ up.pending = [] ∧ up.due = [] := by decide

theorem witness_SleepAndNap :
    up.canonical = true ∧ up.pcie.linkUp = true ∧ up.host.state ≠ .fault ∧ up.obj.sessions = [] ∧
      (powered 4 .ready).power.state = 4 ∧ (powered 4 .ready).host.ending = false ∧ (powered 4 .ready).obj.stitches = [] ∧
      stacksEmpty (powered 4 .ready) = true ∧ (powered 4 .ready).mem.latent = [] ∧ (powered 5 .starting).fw.waiting3 = [] ∧
      (powered 5 .starting).pair.wakeFor = none ∧ (powered 5 .starting).host.state = .starting ∧
      (powered 5 .starting).host.held = [] ∧ (powered 5 .starting).power.d3Pending = false ∧
      (powered 5 .ready).host.state = .ready := by decide
theorem witness_PowerAndPerst :
    State.reset.canonical = true ∧ up.power.aux = true ∧ up.power.main = true ∧ State.reset.pcie.perst = true ∧
      { up.power with main := false }.main = false := by decide

/-- The card at bring-up step `n`. -/
def step_ (n : Nat) : State := { State.reset with
  pcie := { PcieUnit.init with perst := false }, power := { PowerUnit.init with bringUp := n } }
theorem witness_BringUp :
    (∀ n ∈ [0, 3, 4, 5, 6, 7], (step_ n).canonical = true ∧ (step_ n).pcie.perst = false ∧ (step_ n).power.main = true ∧
      (step_ n).power.trip = false ∧ (step_ n).power.bringUp = n ∧ (step_ n).host.held = [] ∧ (step_ n).obj.sessions = [] ∧
      (step_ n).power.d3Pending = false ∧ 300 ≤ (step_ n).power.advertised + 75) ∧
      ({} : StepResult).failed = [] ∧ 10000 ≤ ({ inputMv := 10000 } : StepResult).inputMv ∧
      ({ inputMv := 9999 } : StepResult).inputMv < 10000 ∧ 11040 < 11041 ∧ (step_ 2).power.bringUp = 2 ∧
      ({ failed := [3] } : StepResult).failed = [3] := by decide

/-- The boot ROM's card, with its link up. -/
def rom : State := { up with host := { HostUnit.init with state := .rom } }
/-- A header of the boot mailbox. -/
def hb (n : Nat) : Hdr := hd 32 0 n 1
/-- The same with a load in flight and one read of it. -/
def loading (n : Nat) : State := { rom with
  host := { rom.host with boot := some ⟨hb 32, [(0x10000, 4096)], 4096, List.replicate n none⟩, mboxes := [(32, { own := true, seq := 7 })] }
  pcie := { rom.pcie with reads := [⟨0, .boot, 0, 0x10000, 1, []⟩] } }
theorem witness_BootMailbox :
    rom.canonical = true ∧ rom.pair.mode = 0 ∧ (hb 8).mbox = 32 ∧ Reached rom ∧ (rom.mbox 32).own = false ∧
      rom.sec.unlocked = false ∧ rom.host.state = .rom ∧ (hb 8).session = 0 ∧ (hb 8).version = 1 ∧ (hb 8).length = 8 ∧
      rom.host.boot = none :=
  ⟨by decide, rfl, rfl, ⟨rfl, rfl, rfl⟩, rfl, rfl, rfl, rfl, rfl, rfl, rfl⟩
theorem witness_BootMailbox_load : bootRequestOk (hb 32) [(0x10000, 4096)] 4096 = true := by decide
theorem witness_BootMailbox_later :
    Reached up ∧ (up.mbox 32).own = false ∧ up.sec.unlocked = false ∧ up.host.state ≠ .rom ∧ up.host.state ≠ .orphaned ∧
      (loading 2).canonical = true ∧ ((loading 2).host.boot.map (·.hdr)) = some (hb 32) ∧ ((loading 2).mbox 32).seq = 7 ∧
      (loading 2).host.state ≠ .orphaned ∧ (loading 2).pending = [] ∧ (loading 2).due = [] ∧ up.host.boot = none :=
  ⟨⟨rfl, rfl, rfl⟩, by decide⟩
/-- The card with a message and a page's write that wait for Bus Master Enable. -/
def deferred : State := { up with pcie := { up.pcie with
  bme := false, waiting := [.msg (.msix 3), .page 5 (.hostWrite 0x2000 [1, 2] false)] } }
/-- A load with a read of three bytes of which two have come. -/
def partial_ : State := { loading 1 with pcie := { rom.pcie with reads := [⟨0, .boot, 0, 0x10000, 3, [7, 8]⟩] } }
theorem witness_BusMasterAndReads :
    (loading 2).canonical = true ∧ (loading 2).pcie.linkUp = true ∧ up.host.pba = [] ∧ up.pcie.queued = [] ∧
      (∀ r, r ∈ (loading 2).pcie.reads → r.tag ≠ 9) ∧ (loading 2).pcie.reads = [⟨0, .boot, 0, 0x10000, 1, []⟩] ∧
      (loading 2).host.boot = some ⟨hb 32, [(0x10000, 4096)], 4096, [none, none]⟩ ∧ [5#8].length = 1 ∧
      gotAll (gotPiece [none, none] 0 [5#8]) = none ∧ (loading 2).pcie.queued = [] ∧ (loading 2).pcie.cplDisable = false ∧
      ((loading 2).mbox 32).seq = (hb 32).seq ∧ (loading 2).pending = [] ∧ (loading 2).due = [] ∧ [5#8] ≠ [] ∧
      (∀ w, w ∈ deferred.pcie.waiting → (∃ m, w = .msg m) ∨ ∃ h m, w = .page h m) ∧ deferred.host.state ≠ .orphaned := by
  refine ⟨by decide, rfl, rfl, rfl, by decide, rfl, rfl, rfl, rfl, rfl, rfl, rfl, rfl, rfl, by decide, ?_, by decide⟩
  intro w hw
  simp only [deferred, List.mem_cons, List.not_mem_nil, or_false] at hw
  rcases hw with rfl | rfl
  · exact .inl ⟨_, rfl⟩
  · exact .inr ⟨_, _, rfl⟩
theorem witness_BusMasterAndReads_orphaned :
    { deferred with host := { up.host with state := .orphaned } }.host.state = .orphaned ∧ up.pcie.linkUp = true ∧
      (∀ r, r ∈ partial_.pcie.reads → r.tag = 0 → CplStatus.ok = .ok ∧ ([1#8, 2#8] = [] ∨ r.length < r.got.length + 2)) ∧
      partial_.pcie.reads = [⟨0, .boot, 0, 0x10000, 3, [7, 8]⟩] ∧ 1 + 1 < 3 := by decide

/-- The card with ASPM L1. -/
def aspm : State := { up with pcie := { up.pcie with l1Enable := true, l12Enable := true, ltrEnable := true, ltr := some 100000 } }
/-- The card in a pair that is not in sync, its link down. -/
def lonely : State := { up with pair := { up.pair with mode := 1 }, pcie := { up.pcie with linkUp := false } }
theorem witness_LinkAndLease :
    aspm.canonical = true ∧ aspm.pcie.linkUp = true ∧ aspm.pcie.l1Enable = true ∧ up.pcie.reads = [] ∧
      up.host.state = .ready ∧ up.pcie.perst = false ∧ up.power.main = true ∧ up.power.trip = false ∧
      up.power.bringUp ≠ 0 ∧ lonely.canonical = true ∧ lonely.pcie.linkUp = false ∧ lonely.pair.mode ≠ 0 ∧
      lonely.pair.inSync = false ∧ lonely.pair.hostLost = false ∧ lonely.host.state ≠ .fault ∧
      lonely.obj.sessions = [] ∧ up.obj.stitches = [] ∧ up.pair.mode = 0 ∧
      aspm.pcie.ltr.isSome = true ∧ up.pcie.queued = [] ∧ lonely.pending = [] ∧ lonely.due = [] ∧
      { up.host with leaseLeft := some 0 }.leaseLeft = some 0 ∧
      sessionCommand { up with host := { up.host with leaseLeft := some 0 } } = false := by decide

/-! ## The board, management, security and the pair -/

/-- The card with a usable module in cage 0. -/
def caged : State := { up with board := { up.board with modules := [some ⟨true, 1, false⟩, none] } }
theorem witness_ButtonAndCages :
    up.power.aux = true ∧ up.power.state < 6 ∧ up.pair.evacuating = false ∧ (powered 6 .starting).power.state = 6 ∧
      { up.pcie with pmeEnable := true }.pmeEnable = true ∧ 1 < 2 ∧ 7 < 8 ∧ 7 ≤ up.power.bringUp ∧ up.power.main = true ∧
      portUsable caged 0 = true := by decide
theorem witness_Management :
    up.power.main = true ∧ 1 ≤ up.power.state ∧ (powered 3 .ready).power.state ≤ 3 ∧ up.sec.unlocked = false ∧
      { up.board with smbusAddr := some 5 }.smbusAddr.isSome = true ∧ up.pcie.linkUp = true ∧
      { up.pcie with doeBusy := false }.doeBusy = false ∧ up.pcie.doeError = false ∧ up.power.state < 6 ∧ 1024 ≤ 1024 ∧
      2 ≠ 1 ∧ (up.cc 3).run = 1 ∧ (restarted.cc 3).run ≠ 1 ∧ (restarted.cc 3).run ≠ 2 ∧ restarted.pcie.linkUp = true ∧
      { up.sec with spdm := [0, 0, 3] }.spdm.getD 2 0 = 3 := by decide
theorem witness_DebugUnlock :
    up.canonical = true ∧ up.power.main = true ∧ up.pcie.perst = false ∧ up.power.state < 6 ∧ up.sec.unlocked = false ∧
      up.sec.unlocking = false ∧ up.pair.mode = 0 ∧ up.pair.evacuating = false ∧ up.obj.sessions = [] ∧
      up.obj.stitches = [] ∧ up.host.long = [] ∧ unlockOk up 0 [] = false := by decide

/-- The card in a healthy pair of four lanes, its partner holding one session. -/
def paired : State := { up with pair := { up.pair with
  mode := 1, inSync := true, lanes := 4, replica := { sessions := [ses0] }, sendSeq := 3, ackSeq := 2 } }
/-- The card with a network address, as its partner has on the same port. -/
def networked : State := { paired with
  obj := { paired.obj with addrs := [⟨7, 5, 1⟩] }
  pair := { paired.pair with replica := { addrs := [⟨7, 5, 2⟩] } } }
/-- An answer that waits for the partner's acknowledgement. -/
def awaiting : State := { paired with
  host := { paired.host with mboxes := [(3, { own := true, seq := 7 })] }
  pair := { paired.pair with waiting := [(3, .answer (h8 8) 0 0 [] [])] } }
/-- A join that waits. -/
def joining_ : State := { up with
  host := { up.host with long := [.pairJoin (h8 8) 1 0], mboxes := [(3, { own := true, seq := 7 })] } }
theorem witness_PairTraffic :
    paired.canonical = true ∧ paired.pair.mode ≠ 0 ∧ (paired.cc 3).run = 1 ∧ paired.host.state ≠ .fault ∧
      paired.power.state < 6 ∧ 4 ≤ paired.pair.lanes ∧ networked.obj.addrs = [⟨7, 5, 1⟩] ∧
      networked.pair.replica.addrs = [⟨7, 5, 2⟩] ∧ paired.power.state ≠ 3 ∧ awaiting.canonical = true ∧
      awaiting.pair.waiting = [(3, .answer (h8 8) 0 0 [] [])] ∧ (awaiting.mbox 3).seq = (h8 8).seq ∧ 3 ≤ 3 ∧ 2 < 3 ∧
      { up.pair with lanes := 4 }.mode = 0 ∧ up.pair.ownJoin = none ∧ joining_.canonical = true ∧
      joining_.host.long = [.pairJoin (h8 8) 1 0] ∧ (joining_.mbox 3).seq = 7 ∧ lonely.pair.inSync = false ∧
      lonely.obj.sessions = [] ∧ joining_.pending = [] ∧ joining_.due = [] := by decide
theorem witness_PairLoss :
    paired.pending = [] ∧ paired.due = [] ∧ paired.obj.sessions = [] ∧ paired.pair.waiting = [] ∧ paired.host.long = [] ∧ paired.pair.mode ≠ 0 ∧
      paired.host.state = .ready ∧ paired.pair.inSync = true ∧ paired.pair.ackSeq < paired.pair.sendSeq ∧
      paired.power.state < 6 ∧ paired.pair.replica = { sessions := [ses0] } := by decide
/-- The card evacuating, all of its work mirrored. -/
def leaving : State := { paired with pair := { paired.pair with evacuating := true, ackSeq := 3 } }
theorem witness_PairLoss_handover :
    leaving.pair.evacuating = true ∧ leaving.obj.stitches = [] ∧
      (∀ p, p ∈ leaving.obj.partitions → p.running = none) ∧ leaving.pair.sendSeq ≤ leaving.pair.ackSeq ∧
      leaving.host.state = .ready ∧ leaving.obj.sessions = [] ∧ leaving.pair.waiting = [] ∧ leaving.host.long = [] := by
  decide
/-- The card with a count out of balance. -/
def unbalanced_ : State := { up with ctr := { up.ctr with posted := 1 } }
set_option maxRecDepth 20000 in
theorem witness_PairLoss_audit :
    (up.cc 0).run = 1 ∧ imbalanced up = [] ∧ imbalanced unbalanced_ ≠ [] ∧ unbalanced_.host.state = .ready ∧
      unbalanced_.pair.mode = 0 ∧ unbalanced_.obj.sessions = [] := by decide

/-! ## Mailbox commands -/

theorem witness_SessionCommands :
    (h0 16).mbox < 32 ∧ Taken true (h0 16) 16 us ∧ 1 < 2 ∧ leaseOk 0 = true ∧ leaseOk 100 = true ∧
      versionsOk [1] = true ∧ commonVersion us [1] = some 1 ∧ us.obj.sessions.length < 16 ∧ Taken false (h8 8) 8 us ∧
      us.obj = { sessions := [ses0] } ∧ us.host.long = [] :=
  ⟨by decide, taken_free ⟨up_canonical, ⟨rfl, rfl, rfl⟩, rfl, rfl, .inl rfl, rfl, rfl, rfl, rfl, by decide, rfl, rfl, rfl⟩,
    by decide, by decide, by decide, by decide, by decide, by decide, taken_us 8 (by decide), rfl, rfl⟩

/-- The card with a snapshot taken and its session held. -/
def snapped : State := { us with host := { us.host with snapshot := 1 }, obj := { sessions := [{ ses0 with held := true }] } }
theorem witness_RecoveryCommands :
    Taken true (h0 24) 24 us ∧ (deferred.pcie.bme = false) ∧ 1 ≤ 2 ^ 26 ∧ 2 ^ 26 % 4096 = 0 ∧ us.pcie.bme = true ∧ Taken true (h0 8) 8 us ∧
      us.obj = { sessions := [ses0] } ∧ us.host.long = [] :=
  ⟨taken_free ⟨up_canonical, ⟨rfl, rfl, rfl⟩, rfl, rfl, .inl rfl, rfl, rfl, rfl, rfl, by decide, rfl, rfl, rfl⟩, rfl,
    by decide, by decide, rfl,
    taken_free ⟨up_canonical, ⟨rfl, rfl, rfl⟩, rfl, rfl, .inl rfl, rfl, rfl, rfl, rfl, by decide, rfl, rfl, rfl⟩, rfl, rfl⟩
theorem leBytes_length (n v : Nat) : (leBytes n v).length = n := by
  induction n generalizing v with
  | zero => rfl
  | succ n ih => simp [leBytes, ih]
theorem directory_length (l : List (Nat × Nat × List (List Byte))) (n : Nat) :
    (summaryDirectory n l).length = 16 * l.length := by
  induction l generalizing n with
  | nil => rfl
  | cons a l ih => simp [summaryDirectory, leBytes_length, zeroBytes, ih]; omega
theorem entries_length {α : Type} (f : α → List Byte) (n : Nat) (hf : ∀ x, (f x).length = n) (l : List α) :
    (l.map f).flatten.length = n * l.length := by
  induction l with
  | nil => rfl
  | cons a l ih => simp [hf, Nat.mul_add] at ih ⊢; omega
theorem summary_length (n : Nat) (s : State) :
    (summary n s).length = 224 + (16 * s.obj.sessions.length + 32 * (ownedHandles s.obj).length +
      48 * s.obj.streams.length + (32 * s.obj.stitches.length + 32 * (heldRecords s).length) + 48 * (ledgers s).length +
      32 + 64 * (heldEvents s).length + 32 + 32 * s.obj.dests.length + 32 * s.obj.pageSets.length) := by
  simp only [summary, summarySections, List.length_append, List.map_cons, List.map_nil, List.flatten_cons, List.flatten_nil,
    List.length_nil, directory_length, leBytes_length, zeroBytes, List.length_replicate, List.length_cons, List.flatten_append]
  rw [entries_length _ 16, entries_length _ 32, entries_length _ 48, entries_length _ 32, entries_length _ 32,
    entries_length _ 48, entries_length _ 64, entries_length _ 32, entries_length _ 32]
  all_goals first | (intro x; simp [leBytes_length, ledgerEntry, EventRec.bytes, zeroBytes, List.range_succ]) | skip
  simp [pairStatus, leBytes_length, zeroBytes]; omega
theorem summary_bound (x a b : Nat) (hx : x = 224 + (16 * 1 + 32 * b + 48 * 0 + (32 * 0 + 32 * 0) + 48 * a + 32 + 64 * 0 + 32 +
    32 * 0 + 32 * 0)) (ha : a ≤ 1000) (hb : b ≤ 1) : x ≤ 2 ^ 26 := by omega
theorem witness_RecoveryCommands_size : (summary (us.host.snapshot + 1) us).length ≤ 2 ^ 26 := by
  have h2 : heldRecords us = [] := by decide +kernel
  have h3 : heldEvents us = [] := by decide +kernel
  refine summary_bound _ (ledgers us).length (ownedHandles us.obj).length ?_ (by decide +kernel) (by decide +kernel)
  rw [summary_length, h2, h3, show us.obj.sessions.length = 1 from rfl, show us.obj.streams.length = 0 from rfl,
    show us.obj.stitches.length = 0 from rfl, show us.obj.dests.length = 0 from rfl,
    show us.obj.pageSets.length = 0 from rfl, List.length_nil, List.length_nil]
set_option maxRecDepth 20000 in
theorem witness_RecoveryCommands_audit : imbalanced us = [] := by decide
theorem witness_RecoveryCommands_adopt :
    Taken true (h0 24) 24 { snapped with host := { snapped.host with state := .ready } } ∧ snapped.host.state = .ready ∧
      snapped.obj = { sessions := [{ ses0 with held := true }] } ∧ snapped.host.snapshot = 1 ∧ versionsOk [1] = true ∧
      [1].contains ses0.proto = true ∧ snapped.host.causeEnable = 0 :=
  ⟨taken_free ⟨up_canonical, ⟨rfl, rfl, rfl⟩, rfl, rfl, .inl rfl, rfl, rfl, rfl, rfl, by decide, rfl, rfl, rfl⟩, rfl, rfl,
    rfl, by decide, by decide, rfl⟩

/-- A pool of two buffers of 4 KiB. -/
def pool (space : Nat) (bufs : SMap Buf) : Pool :=
  { handle := Handle.make 6 1 0, session := ses, space := space, bufLog2 := 12, arena := false, count := 16, stackMask := 0
    base := if space = 2 then 0 else hubBase, regionOffset := 0, bufs := bufs, lowFree := 16 }
/-- The card with that pool. -/
def pooled (p : Pool) : State := withObj fun o => { o with pools := [p] }
theorem witness_PoolCommands :
    Taken false (h8 24) 24 us ∧ 3 ≠ 1 ∧ poolFieldsOk 3 12 0 16 0 0 = true ∧ us.obj.pools.length < 64 ∧
      (newHandle us 6).index < 64 ∧ (placeExtent us 3 (2 ^ 12) (16 * 2 ^ 12)).isSome = true ∧ (placeExtent us 2 (2 ^ 12) (16 * 2 ^ 12)).isSome = true :=
  ⟨taken_us 24 (by decide), by decide⟩
theorem witness_PoolCommands_alloc :
    Taken false (h8 8) 8 (pooled (pool 3 [])) ∧ Taken false (h8 8) 8 (pooled (pool 2 [])) ∧ (pool 3 []).handle.type = 6 ∧
      (pool 3 []).session = ses ∧ firstFree (pool 3 []).bufs 0 < (pool 3 []).count ∧ (pool 2 []).bufLog2 ≤ 22 :=
  ⟨taken_obj _ 8 (by decide) rfl, taken_obj _ 8 (by decide) rfl, by decide⟩
/-- A pool whose last buffer is allocated. -/
def used : Pool := pool 3 [(15, { allocated := true, count := 1 })]
theorem witness_PoolCommands_free :
    Taken false (h8 24) 24 (pooled used) ∧ checkBuf used ⟨used.handle, 1, used.addrOf 15⟩ true = .ok 15 ∧
      checkBuf used ⟨used.handle, 1, used.addrOf 15⟩ false = .ok 15 ∧ (pool 3 []).inUse = false ∧
      Taken false (h8 24) 24 (pooled (pool 3 [])) :=
  ⟨taken_obj _ 24 (by decide) rfl, rfl, rfl, by decide, taken_obj _ 24 (by decide) rfl⟩

/-- A `PARTITION_SET` request for quad 0, with its granules in the regions of `planned`. -/
def partReq (h : Handle) : PartReq := ⟨2, 10, h, 1, 10, 100, [0, 65535, 65535, 65535], [10, 65535, 65535, 65535]⟩
/-- The card with regions for models and work on stack 0. -/
def planned : State := withObj fun o => { o with regions := [⟨1, 1, 0, 10, ses⟩, ⟨2, 1, 10, 10, ses⟩] }
theorem witness_PlanPartitionsClients :
    Taken false (h8 8) 8 us ∧ planFieldsOk 1 1 0 10 = true ∧ planInFlight us 1 0 10 = false ∧
      (us.obj.regions.any fun r => regionMeets r 1 0 10) = false ∧
      Taken false (h8 8) 8 (withObj fun o => { o with regions := [⟨1, 1, 0, 10, ses⟩] }) :=
  ⟨taken_us 8 (by decide), by decide, by decide, by decide, taken_obj _ 8 (by decide) rfl⟩

/-- A partition of quad 0. -/
def part : Partition :=
  { handle := Handle.make 11 1 0, session := ses, quads := 1, sliceMs := 2, beBoundMs := 10, lcCapMs := 10, timeoutMs := 100
    modelG0 := [0, 65535, 65535, 65535], workG0 := [10, 65535, 65535, 65535] }
/-- A client. -/
def client : Client := { handle := Handle.make 7 1 0, session := ses, classes := 1, weight := 1 }
theorem witness_PlanPartitionsClients_partition :
    Taken false (h8 48) 48 planned ∧ partLimitsOk (partReq 0) = true ∧ quadsOk 1 = true ∧
      regionsOk planned (partOf (newHandle planned 11) ses (partReq 0)) = true ∧
      partTaken planned (partOf (newHandle planned 11) ses (partReq 0)) = false ∧
      Taken false (h8 48) 48 (withObj fun o => { o with partitions := [part] }) ∧ part.handle.type = 11 ∧
      (partReq part.handle).partition = part.handle ∧ (partReq part.handle).modelG0 = part.modelG0 ∧
      (partReq part.handle).workG0 = part.workG0 ∧ part.posted = part.completed + part.cancelled :=
  ⟨taken_obj _ 48 (by decide) rfl, by decide, by decide, by decide, by decide, taken_obj _ 48 (by decide) rfl, by decide⟩
theorem witness_PlanPartitionsClients_client :
    Taken false (h8 16) 16 us ∧ 1 ≤ 1 ∧ 3 ≤ 3 ∧ 16 ≤ 16 ∧ us.obj.clients.length < 256 ∧
      Taken false (h8 16) 16 (withObj fun o => { o with clients := [client] }) ∧ client.handle.type = 7 ∧
      client.session = ses ∧ Taken false (h8 8) 8 (withObj fun o => { o with clients := [client] }) :=
  ⟨taken_us 16 (by decide), by decide, by decide, by decide, by decide, taken_obj _ 16 (by decide) rfl, by decide, rfl,
    taken_obj _ 8 (by decide) rfl⟩

/-- A model of one quad that needs no memory. -/
def model : Model :=
  { handle := Handle.make 3 1 0, session := ses, modelId := 1, digest := [], quads := 1, nStacks := 1, lcEligible := true
    replaySafe := true, pillowRo := 0, pillowRw := 0, ddrRo := 0, ddrRw := 0, hubRw := 0, stitchCycles := 1000
    roles := [0, 0, 0, 0], entries := [(0, 0, 0)], code := [(0, List.replicate 128 1)]
    descs := [(0, [dsc])], places := [], relocs := [], lens := [], skips := [(0, [⟨1, false, 2, 20, 5⟩])], templates := []
    knots := [15, 15, 7], layouts := [lay], emitPlace := none, vocab := [], slotsNeeded := 0, ddrBase := 0, ddrBytes := 0
    order := 1 }
/-- A stitch request for it. -/
def stitchReq : StitchReq :=
  { cls := 0, entry := 0, flags := 0, partition := part.handle, model := model.handle, client := client.handle, seed := 5
    tag := 9, vector := 0, len := List.replicate 16 0, slots := [], leaves := [], joins := [] }
/-- A stitch of it. -/
def stitch : Stitch := { id := 7, session := ses, req := stitchReq, joinHandles := [] }
/-- The card with the model, the client and the partition given. -/
def modelled (p : Partition) (l : List Stitch) : State :=
  withObj fun o => { o with models := [model], clients := [client], partitions := [p], stitches := l }
theorem witness_ModelsAndPosts :
    Taken false (h8 32) (0x10 + 16 * [(0x10000, 2 ^ 31)].length) us ∧ (∀ e, e ∈ [(0x10000, 2 ^ 31)] → 1 ≤ e.2 ∧ e.2 ≤ 2 ^ 31) ∧
      us.obj.models.length < 256 ∧ Taken false (h8 8) 8 (withObj fun o => { o with models := [model] }) ∧
      model.handle.type = 3 ∧ model.session = ses ∧ Taken false (h8 16) 16 (modelled part []) ∧ part.handle.type = 11 :=
  ⟨taken_us 32 (by decide), by decide, by decide, taken_obj _ 8 (by decide) rfl, by decide, rfl,
    taken_obj _ 16 (by decide) rfl, by decide⟩
/-- A pin that waits for its idle partition. -/
def pinning : State := { modelled { part with pins := [(h8 16, model.handle)] } [] with
  host := { us.host with
    long := [.modelPin (h8 16) model.handle part.handle false], mboxes := [(3, { own := true, seq := 7 })] } }
theorem witness_ModelsAndPosts_pin :
    pinning.canonical = true ∧ pinning.pair.mode = 0 ∧
      pinning.obj.partitions = [{ part with pins := [(h8 16, model.handle)] }] ∧ part.running = none ∧
      pinning.host.long = [.modelPin (h8 16) model.handle part.handle false] ∧ (pinning.mbox 3).seq = (h8 16).seq := by
  decide
theorem witness_ModelsAndPosts_post :
    Taken false (h8 stitchReq.size) stitchReq.size (modelled part []) ∧ stitchReq.joins = [] ∧
      postHandles (modelled part []) ses stitchReq = none ∧ findPart (modelled part []) stitchReq.partition = some part ∧
      findModel (modelled part []) stitchReq.model = some model ∧
      findClient (modelled part []) stitchReq.client = some client ∧ part.suspended = false ∧
      postFieldsOk (modelled part []) part model stitchReq = true ∧
      postLimits (modelled part []) part model client stitchReq = (none, none) ∧
      bobbinChecks (modelled part []) stitchReq = none ∧ (withPlaces (modelled part []) part model).isSome = true :=
  ⟨taken_obj _ _ (by decide) rfl, by decide⟩
theorem witness_ModelsAndPosts_cancel :
    Taken false (h8 16) 16 (modelled part [stitch]) ∧ stitch.phase = .queued ∧ stitch.session = ses ∧
      stitch.joinHandles = [] ∧ part.handle = stitch.req.partition ∧ (modelled part [stitch]).obj.pageSets = [] ∧
      (modelled part [stitch]).host.causeEnable = 0 ∧ stitch.req.flags % 2 = 0 ∧
      (modelled part [stitch]).pair.failover = none :=
  ⟨taken_obj _ 16 (by decide) rfl, by decide⟩

/-- An arena in hub SRAM. -/
def arena (bufs : SMap Buf) : Pool := { pool 3 bufs with bufLog2 := 21, arena := true }
/-- The card with arena, model and bobbins. -/
def bobbins (bufs : SMap Buf) (l : List Bobbin) : State :=
  withObj fun o => { o with pools := [arena bufs], models := [model], bobbins := l }
/-- A bobbin at granule 0 of the arena, with three committed steps. -/
def bob : Bobbin :=
  { handle := Handle.make 4 1 0, session := ses, model := model.handle, layoutIdx := 0, layout := lay
    arena := (arena []).handle, g0 := 0, granules := 1, gen := 1, maxPos := 100, pos := 3 }
set_option maxRecDepth 20000 in
theorem witness_BobbinCommands :
    CleanMemory us ∧ (bobbins [] []).obj.bobbins = [] ∧ (arena []).space = 3 ∧
      ((checkCreate (bobbins [] []) ses 0 model.handle (arena []).handle 100 0 (newHandle (bobbins [] []) 4)).toOption.any
        fun b => (firstRun (arena []).bufs (b.layout.run b.maxPos) (arena []).count 0).isSome) = true :=
  ⟨us_clean, by decide⟩
theorem witness_BobbinCommands_taken :
    Taken false (h8 24) 24 (bobbins [] []) ∧ Taken false (h8 8) 8 (bobbins [(0, { allocated := true })] [bob]) ∧
      bob.isPrefix = false ∧ bob.posted = false ∧ bob.handle.type = 4 ∧ bob.session = ses ∧ bob.preparing = false ∧
      bob.link = none ∧ bob.pos ≠ 0 ∧ (arena []).handle = bob.arena ∧ (arena []).space ≠ 2 :=
  ⟨taken_obj _ 24 (by decide) rfl, taken_obj _ 8 (by decide) rfl, by decide⟩
theorem witness_BobbinCommands_fork :
    Taken false (h8 16) 16 (bobbins [] [{ bob with link := some 77, linkLen := 3 }]) ∧
      { bob with link := some 77, linkLen := 3 }.link.isSome = true ∧ 3 ≤ { bob with linkLen := 3 }.linkLen ∧
      { bob with link := some 77, linkLen := 3 }.preparing = false ∧ (Handle.make 4 1 0) ≠ Handle.make 5 1 0 ∧
      { bob with copying := 1 }.rewriting = false ∧ { bob with copying := 1 }.copying = 1 :=
  ⟨taken_obj _ 16 (by decide) rfl, by decide⟩

/-- A page set of a kind, with one page posted. -/
def pages (k : Nat) : PageSet :=
  { handle := Handle.make 8 1 0, session := ses, kind := k, vector := 255, posted := [0x10000], postedCount := 1 }
/-- A route request for page destination 31. -/
def route (h : Handle) : RouteReq := ⟨31, 1, h, (pages 2).handle, 10000, 0, 0, 255, 0, 0, 0, 60000, 0, 0⟩
/-- Destination 31. -/
def dest : Dest := { id := 31, session := ses, req := route 0, produced := 5, delivered := 4, dropped := [0, 1, 0, 0, 0] }
/-- The card with page set and destinations. -/
def dests (l : List Dest) : State := withObj fun o => { o with pageSets := [pages 2], dests := l }
theorem witness_PagesAndRoutes :
    us.obj.heldRecs = [] ∧ us.host.events = [] ∧
      Taken false (h8 24) (roundUp 8 (16 + 8 * [0x10000].length)) us ∧ us.obj.pageSets = [] ∧ 255 < 256 ∧
      pageAddrsOk [0x10000] = true ∧ dedup [0x10000] = [0x10000] ∧
      Taken false (h8 24) 24 (withObj fun o => { o with pageSets := [pages 1] }) ∧ (pages 1).handle.type = 8 ∧
      (pages 1).session = ses ∧ (pages 1).kind ≠ 2 ∧ (pages 1).posted.length + [0x20000].length ≤ 4096 :=
  ⟨rfl, rfl, taken_us 24 (by decide), rfl, by decide, by decide, by decide, taken_obj _ 24 (by decide) rfl, by decide⟩
theorem witness_PagesAndRoutes_dest :
    Taken false (h8 80) 80 (dests []) ∧ Taken false (h8 80) 80 (dests [dest]) ∧ (pages 2).kind = 2 ∧ (route 0).kind = 1 ∧
      (route 0).dest < 32 ∧ 10 ≤ (route 0).flushUs ∧ (route 0).flushUs ≤ 10000 ∧ dest.fill = 0 ∧ dest.sent = [] ∧
      (destLedger dest).balanced = true ∧ (route 0).orderMask < 256 ∧ (route 0).healthMs ≤ 60000 ∧
      (dests [dest]).obj.routes = [] ∧ (dests [dest]).obj.heldPicots = [] :=
  ⟨taken_obj _ 80 (by decide) rfl, taken_obj _ 80 (by decide) rfl, by decide⟩

/-- The card with its clock set. -/
def clocked : State := { us with time := { us.time with sec := 100, ns := 999999999 } }
/-- A claim of unit 0. -/
def claim : UnitClaim := ⟨Handle.make 9 1 0, ses, 0, 1, true, 0, ⟨3, 0⟩⟩
theorem witness_TimeCommands :
    servedByHost clocked ∧ clocked.time.sync = 0 ∧ clocked.obj.flows = [] ∧ stepFits clocked (-5 * 1000000000 + -7) = true ∧
      stepFits clocked (5 * 1000000000 + 999999999) = true ∧ (clocked.tu 3).claimed = false ∧ 3 < 4 ∧ claim.handle.type = 9 ∧
      claim.session = ses := ⟨rfl, by decide⟩
theorem witness_TimeCommands_taken :
    Taken false (h8 24) 24 clocked ∧ Taken false (h8 16) 16 clocked ∧
      Taken false (h8 8) 8 (withObj fun o => { o with units := [claim] }) ∧
      servedByHost (withObj fun o => { o with units := [claim] }) :=
  ⟨taken_of ses0 ⟨by decide, ⟨rfl, rfl, rfl⟩, rfl, rfl, .inl rfl, rfl, rfl, rfl, rfl, by decide, rfl, rfl, rfl⟩,
    taken_of ses0 ⟨by decide, ⟨rfl, rfl, rfl⟩, rfl, rfl, .inl rfl, rfl, rfl, rfl, rfl, by decide, rfl, rfl, rfl⟩,
    taken_obj _ 8 (by decide) rfl, rfl⟩

/-- The card with an authenticated partner on four lanes. -/
def bridged (mode : Nat) : State := { us with pair := { us.pair with
  mode := mode, inSync := decide (mode ≠ 0), lanes := 4, authenticated := true, mirrored := us.obj } }
theorem witness_ControlCommands :
    Taken false (h8 8) 8 us ∧ 300 ≤ 300 ∧ 600 % 25 = 0 ∧ us.power.state = 1 ∧ us.obj.streams = [] ∧ us.obj.stitches = [] ∧
      10 ≤ 10 ∧ 1000000 ≤ 1000000 ∧ 7 ≤ 7 ∧ 1 ≤ 80 ∧ Taken false (h8 40) 40 us :=
  ⟨taken_us 8 (by decide), by decide, by decide, rfl, rfl, rfl, by decide, by decide, by decide, by decide,
    taken_us 40 (by decide)⟩
theorem witness_ControlCommands_pair :
    Taken false (h8 8) 8 (bridged 0) ∧ 4 ≤ (bridged 0).pair.lanes ∧ (bridged 0).pair.authenticated = true ∧
      (bridged 0).pair.partnerJoin = none ∧ (bridged 0).host.long = [] ∧
      Taken false (h8 8) 8 { bridged 1 with pair := { (bridged 1).pair with mode := 0 } } ∧ (bridged 1).pair.mode ≠ 0 ∧
      (bridged 1).pair.inSync = true ∧ Objects.diff (bridged 1).pair.mirrored (bridged 1).obj = [] :=
  ⟨taken_of ses0 ⟨up_canonical, ⟨rfl, rfl, rfl⟩, rfl, rfl, .inl rfl, rfl, rfl, rfl, rfl, by decide, rfl, rfl, rfl⟩,
    by decide, rfl, rfl, rfl,
    taken_of ses0 ⟨up_canonical, ⟨rfl, rfl, rfl⟩, rfl, rfl, .inl rfl, rfl, rfl, rfl, rfl, by decide, rfl, rfl, rfl⟩,
    by decide, rfl, by decide⟩

/-! ## Streams, flows and stitches -/

/-- A DDR pool of 64 buffers of 4 MiB. -/
def vpool : Pool := { pool 2 [] with bufLog2 := 22, count := 64, lowFree := 64 }
/-- A decode declaration. -/
def decl (source : Nat) : DecodeDecl :=
  { codec := 1, chroma := 0, bitDepth := 8, dpbDepth := 3, maxWidth := 640, maxHeight := 480, bitRate := 1000000
    picRate := 30000, outBufs := 3, source := source, pool := vpool.handle }
/-- An output descriptor. -/
def outDesc (kind : Nat) : OutputDesc :=
  { kind := kind, outFmt := 1, matrix := 0, flags := 0, filter := 0, s2d := if kind = 1 then 1 else 0, levels := 1, depth := 4, outW := 320
    outH := 240, cropX := 0, cropY := 0, cropW := 0, cropH := 0, factors := List.replicate 5 0, packRows := 0
    mean := [0, 0, 0], rstd := [0, 0, 0], pool := vpool.handle, packRow := 0 }
theorem witness_StreamCommands_open :
    Taken false (h8 (64 + 64 * [outDesc 1].length)) (64 + 64 * [outDesc 1].length) (pooled vpool) ∧
      (decl 2).fieldsOk = true ∧ findPool (pooled vpool) (decl 2).pool = some vpool ∧ vpool.space = 2 ∧
      firstStatus (checkPool (pooled vpool) (decl 2).pool ses ::
        [outDesc 1].map fun o => checkPool (pooled vpool) o.pool ses) = none ∧ vpool.arena = false ∧
      max (decl 2).outBytes (decl 2).refBytes ≤ vpool.bufBytes ∧ (pooled vpool).obj.streams.length < 1024 ∧
      (decl 2).dpbDepth + 1 + (decl 2).outBufs ≤ vpool.free ∧ [outDesc 1].length ≤ 8 ∧
      privateFits (pooled vpool) (262144 + max 4194304 ((decl 2).bitRate / 4)) = true ∧
      ([outDesc 1].all fun o => o.fieldsOk &&
        outputFits (pooled vpool) o ([outDesc 1].any fun q => decide (q.kind = 3))) = true :=
  ⟨taken_obj _ _ (by decide) rfl, by decide⟩
/-- A decode stream with an EYELETS output. -/
def str : Stream :=
  { handle := Handle.make 2 1 0, session := ses, decl := decl 1, outputs := [{ desc := outDesc 3 }] }
/-- The card with pool and stream. -/
def streamed (x : Stream) : State := withObj fun o => { o with pools := [vpool], streams := [x] }
/-- An encode declaration. -/
def encDecl : EncodeDecl :=
  { codec := 2, bitDepth := 8, rcMode := 1, source := str.handle, width := 640, height := 480, target := 1000000
    peak := 1000000, vbvMs := 1000, qpI := 0, qpP := 0, gopLen := 30, bFrames := 0, pictureStep := 1, pool := vpool.handle }
theorem witness_StreamCommands_encode :
    Taken false (h8 40) 40 (streamed str) ∧ findStream (streamed str) encDecl.source = some str ∧
      findPool (streamed str) encDecl.pool = some vpool ∧ encDecl.source.type = 2 ∧ str.session = ses ∧
      checkPool (streamed str) encDecl.pool ses = none ∧ encDecl.fieldsOk str.decl.bitDepth = true ∧ str.enc = none ∧
      4 ≤ vpool.free ∧ encDecl.rawBytes ≤ vpool.bufBytes :=
  ⟨taken_obj _ 40 (by decide) rfl, by decide⟩
theorem witness_StreamCommands_quiet :
    Taken false (h8 8) 8 (streamed str) ∧ (streamed str).obj.streams = [str] ∧ str.handle.type = 2 ∧
      Quiet str (streamed str) ∧ Taken false (h8 16) 16 (streamed str) ∧ str.outputs[0]? = some { desc := outDesc 3 } ∧
      (outDesc 3).kind = 3 :=
  ⟨taken_obj _ 8 (by decide) rfl, rfl, by decide, ⟨rfl, ⟨rfl, rfl, rfl, rfl, rfl, rfl⟩, ⟨rfl, rfl, rfl⟩, by decide⟩,
    taken_obj _ 16 (by decide) rfl, rfl, rfl⟩
/-- The encode half of a stream. -/
def enc : EncodeState := { decl := encDecl, bufs := [] }
/-- A source picture that is ready. -/
def srcPic : EncodePic := { frame := 3, capture := ⟨1, 0⟩, quality := {}, ready := true, scaling := false }
/-- A picture that encode engine 3 began at tick 0. -/
def encWork (key : Bool) : EncodeWork := ⟨3, srcPic, key, 0, 0, 0, 0⟩
theorem witness_StreamCommands_key :
    Taken false (h8 8) 8 (streamed { str with enc := some enc }) ∧ enc.decl.codec ≠ 5 ∧ enc.pics = [] ∧ enc.working = [] ∧
      { encDecl with codec := 5, pictureStep := 0 }.codec = 5 ∧ { encDecl with codec := 5, pictureStep := 0 }.pictureStep = 0 ∧
      enc.thumbs < 16 ∧ us.host.long = [] ∧ { enc with working := [encWork true] }.working = encWork true :: [] ∧
      (encWork true).tick = us.time.tick ∧ (encWork true).key = true ∧ (encWork false).tick ≠ 1 :=
  ⟨taken_obj _ 8 (by decide) rfl, by decide⟩

/-- A flow request of the stream. -/
def flowReq (flow stream : Handle) : FlowReq :=
  { port := 1, key := 1, flow := flow, stream := stream, vlan := 0xFFFF, dstPort := 5000, ssrc := 77, encap := 1, payload := 1
    pt := 96, flags := 0, jitterMs := 50, tsProgram := 0, clockRate := 90000, dstAddr := 0xC0A80001, srcAddr := 0 }
/-- A card address. -/
def addrReq : FlowReq :=
  { port := 1, key := 0, flow := 0, stream := 0, vlan := 5, dstPort := 0, ssrc := 0, encap := 0, payload := 0, pt := 0
    flags := 0, jitterMs := 0, tsProgram := 0, clockRate := 0, dstAddr := 0xC0A80001, srcAddr := 0 }
/-- A flow of the stream, packet 9 having left. -/
def flow : Flow :=
  { handle := Handle.make 10 1 0, session := ses, req := flowReq 0 str.handle, bufBytes := 70000, lastOut := some 9
    highest := some 9 }
/-- The card with stream and flow. -/
def flowing (x : Stream) (f : Flow) : State := { (withObj fun o => { o with pools := [vpool], streams := [x], flows := [f] }) with
  board := { us.board with portsUp := List.replicate 8 true } }
theorem witness_FlowCommands :
    Taken false (h8 80) 80 (streamed str) ∧ (flowReq 0 str.handle).flags.testBit 1 = false ∧
      flowFieldsOk (flowReq 0 str.handle) = true ∧ findStream (streamed str) str.handle = some str ∧
      str.decl.source = 1 ∧ (flowReq 0 str.handle).payload = str.decl.codec ∧
      privateFits (streamed str) (jitterBytes str.decl.bitRate 50) = true ∧
      Taken false (h8 80) 80 (withObj fun o => { o with streams := [str], flows := [flow] }) ∧ flow.handle.type = 10 ∧
      flowFieldsOk (flowReq flow.handle 0) = true ∧
      { flowReq flow.handle 0 with stream := flow.req.stream, flow := flow.req.flow } =
        { flow.req with
          pt := (flowReq flow.handle 0).pt, flags := (flowReq flow.handle 0).flags
          jitterMs := (flowReq flow.handle 0).jitterMs, tsProgram := (flowReq flow.handle 0).tsProgram } ∧
      flow.held = [] ∧ flow.outbox = [] ∧ flow.open_ = none ∧ us.obj.groups = groupsOf flow.req flow.handle ∧
      unusedFieldsOk (some 1) (flowReq flow.handle 0) = true ∧
      unusedFieldsOk (some 1) { flowReq flow.handle 0 with payload := 2 } = false ∧ us.host.long = [] :=
  ⟨taken_obj _ 80 (by decide) rfl, by decide, by decide, by decide, rfl, rfl, by decide, taken_obj _ 80 (by decide) rfl,
    by decide⟩
theorem witness_FlowCommands_addr :
    Taken false (h8 80) 80 us ∧ addrReq.flags.testBit 1 = false ∧ addrFieldsOk addrReq = true ∧ us.obj.addrs = [] ∧
      Taken false (h8 80) 80 (withObj fun o => { o with addrs := [⟨1, 5, 0xC0A80001⟩] }) ∧
      ptpEnabled (withObj fun o => { o with addrs := [⟨1, 5, 0xC0A80001⟩] }) = false :=
  ⟨taken_us 80 (by decide), by decide, by decide, rfl, taken_obj _ 80 (by decide) rfl, by decide⟩
/-- The stream's flow with JOIN in its group. -/
def joined : Flow := { flow with req := { flow.req with flags := 2, dstAddr := 0xE0000101 } }
theorem witness_FlowCommands_join :
    flowFieldsOk joined.req = true ∧ joined.req.flags.testBit 1 = true ∧
      groupsOf joined.req joined.handle = [⟨1, 0xFFFF, 0xE0000101, 0, joined.handle⟩] := by decide
/-- A host feed of 700 bytes. -/
def feed : FeedReq :=
  { container := 3, flags := 0, stream := str.handle, anchor := ⟨5, 0⟩, timescale := 90000, anchorTs := 0
    entries := [(0x10000, 700)] }
/-- A host-fed stream with `n` bytes used of 1,000. -/
def fedStream (n : Nat) : Stream :=
  { str with decl := decl 2, feedBytes := 1000, aus := [⟨⟨1, 0⟩, false, false, n⟩] }
theorem witness_FlowCommands_feed :
    (fedStream 301).handle = feed.stream ∧ feed.stream.type = 2 ∧ feedFieldsOk feed = true ∧
      (fedStream 301).container = none ∧ (fedStream 301).enc = none ∧ (fedStream 301).decl.source = 2 ∧
      feed.total ≤ (fedStream 301).feedBytes ∧ roundUp 8 (48 + 16 * feed.entries.length) = 64 ∧
      Taken false (h8 64) 64 (streamed (fedStream 301)) ∧ Taken false (h8 64) 64 (streamed (fedStream 300)) ∧
      (fedStream 301).feedBytes < (fedStream 301).feedUsed + feed.total ∧
      (fedStream 300).feedUsed + feed.total ≤ (fedStream 300).feedBytes ∧ us.pcie.bme = true ∧ us.pcie.reads = [] ∧
      us.pcie.queued = [] ∧ us.pending = [] ∧ us.due = [] ∧
      (requestsOf us feed.entries).length ≤ (tagSpace us.pcie).2 :=
  ⟨rfl, by decide, by decide, rfl, rfl, rfl, by decide, by decide, taken_obj _ 64 (by decide) rfl,
    taken_obj _ 64 (by decide) rfl, by decide⟩

theorem witness_StitchLife :
    part.running = none ∧ part.pins = [] ∧ part.suspended = false ∧ part.holder = none ∧
      dispatchStopped (modelled part [stitch]) = false ∧ ((modelled part [stitch]).cc 0).run = 1 ∧
      stitch.phase = .queued ∧ stitch.req.cls = 0 ∧ isEligible (modelled part [stitch]) stitch = true ∧
      stitch.req.leaves = [] ∧ us.pending = [] ∧ us.due = [] := by decide
/-- The partition with the stitch selected, and with the model resident too. -/
def busy (resident : Bool) : Partition :=
  { part with running := some 7, residents := if resident then [⟨model.handle, 0, 1, false, 3, none⟩] else [] }
theorem sole_of (r : Bool) (t : Stitch) (ht : t.id = 7 ∧ t.req = stitchReq ∧ t.replayed = false ∧ t.joinHandles = [] ∧ t.items = []) :
    Sole (busy r) t model (modelled (busy r) [t]) := by
  obtain ⟨a, b, c, d, e⟩ := ht
  exact ⟨up_canonical, clean_of rfl rfl rfl rfl rfl rfl, ⟨rfl, by rw [a]; rfl⟩, ⟨rfl, by rw [b]; rfl, c⟩, ⟨rfl, by rw [b]; rfl, rfl⟩,
    ⟨by rw [b]; rfl, by rw [b]; rfl, d, rfl, e⟩, rfl, rfl⟩
/-- The stitch in a phase. -/
def phased (p : StitchPhase) : Stitch := { stitch with phase := p, lens := List.replicate 16 0 }
theorem witness_StitchLife_start :
    Sole (busy true) (phased .joining) model (modelled (busy true) [phased .joining]) ∧
      Sole (busy true) (phased .copying) model (modelled (busy true) [phased .copying]) ∧
      Sole (busy true) (phased .starting) model (modelled (busy true) [phased .starting]) ∧
      ((busy true).residents.any fun r => decide (r.model = model.handle)) = true ∧
      ((busy false).residents.all fun r => !decide (r.model = model.handle)) = true :=
  ⟨sole_of _ _ ⟨rfl, rfl, rfl, rfl, rfl⟩, sole_of _ _ ⟨rfl, rfl, rfl, rfl, rfl⟩, sole_of _ _ ⟨rfl, rfl, rfl, rfl, rfl⟩,
    by decide, by decide⟩
/-- The model with one granule of constants, and the card with the regions for it. -/
def granuled : Model := { model with pillowRo := 2 ^ 20 }
theorem witness_StitchLife_copy :
    granuled.granules ≠ 0 ∧
      (makeResident (busy false) granuled false
        (withObj fun o => { o with
          models := [granuled], partitions := [busy false], stitches := [phased .joining]
          regions := [⟨1, 1, 0, 10, ses⟩, ⟨2, 1, 10, 10, ses⟩] })).isSome = true := by decide
theorem witness_StitchLife_timeout :
    Sole (busy true) (phased .running) model (modelled (busy true) [phased .running]) ∧ (phased .running).stop = none ∧
      (us.cc 0).run = 1 ∧ us.fw.heldComplete = [] ∧ us.host.faultWait = none ∧ us.host.ending = false ∧
      (phased .running).req.flags % 2 = 0 ∧ us.obj.pageSets = [] ∧ (busy true).holder = none ∧ us.obj.heldPicots = [] :=
  ⟨sole_of _ _ ⟨rfl, rfl, rfl, rfl, rfl⟩, by decide⟩

/-! ## Ingest, video and picots -/

/-- RTP packet `seq`. -/
def packet (seq : Nat) : RtpPacket := ⟨77, seq, 1234567, 96, false, 1200, false, []⟩
/-- A frame that carries it. -/
def frame (seq : Nat) : Frame :=
  { port := 1, ingress := ⟨5, 100⟩, tags := 0, vlan := 0xFFFF, fragment := false, ipOptions := false, extHeader := false
    udp := true, ipv6 := false, cksum := .valid, src := 1, dst := 0xC0A80001, srcPort := 4, dstPort := 5000
    body := .rtp (packet seq), bytes := [] }
/-- The flow at the end of its sequence numbers. -/
def wrapping : Flow := { flow with lastOut := some 65535, highest := some 65535 }
theorem witness_IngestEvents_packet :
    str.handle = wrapping.req.stream ∧ (flowing str wrapping).board.portsUp.getD 1 false = true ∧
      (flowing str wrapping).host.state ≠ .fault ∧ unparsed (frame 0) = false ∧
      matchFlow (flowing str wrapping) (frame 0) (some 77) = some wrapping ∧ wrapping.req.encap = 1 ∧
      wrapping.req.key = 1 ∧ (packet 0).pt = wrapping.req.pt ∧ (packet 0).malformed = false ∧
      (packet 0).marker = false ∧ wrapping.held = [] ∧ wrapping.open_ = none ∧
      wrapping.outbox = [] ∧ coreServes (flowing str wrapping) str.handle = true ∧
      extendSeq (some 65535) (packet 0).seq = 65535 + 1 ∧ (packet 0).bytes ≤ wrapping.bufBytes := by decide
/-- Packet 14, held. -/
def heldPacket : HeldPacket := ⟨14, ⟨5, 100⟩, ⟨5, 50000100⟩, 1200, 1234567, false, []⟩
theorem witness_IngestEvents_gap :
    { flow with held := [heldPacket] }.held = [heldPacket] ∧ heldPacket.marker = false ∧ flow.lastOut = some 9 ∧
      9 + 1 < heldPacket.seq ∧ us.pending = [] ∧ us.due = [] ∧ coreServes us str.handle = true ∧
      reachedNow { us with time := { us.time with sec := 5, ns := 50000100 } } heldPacket.release = true := by decide
/-- An access unit. -/
def au : AccessUnit := ⟨⟨4, 0⟩, false, false, 5000⟩
/-- The first slice of a random access point. -/
def slice : SliceParse :=
  { first := true, last := false, codec := 1, profile := .high, level := 40, features := [], chroma := 0, bitDepth := 8
    width := 640, height := 480, dpb := 3, rap := .cra, rasl := false, output := true, reorder := 2, shift := 0, refs := []
    keeps := [], fullRange := false, matrixCoeffs := 1, showExisting := none, rows := 100, damaged := false
    filterAcross := true }
theorem witness_IngestEvents_slice :
    { str with aus := [au] }.aus = au :: [] ∧ str.enc = none ∧ str.parsing = 0 ∧ str.parse = .waitRap ∧ str.pics = [] ∧
      (us.cc (parseCore str.handle)).run = 1 ∧ slice.first = true ∧ slice.last = false ∧
      limitFault str.decl slice = none ∧ slice.rap ≠ .none ∧ slice.codec ≠ 4 ∧ slice.showExisting = none ∧
      shadowing us = false := by decide

/-- A buffer. -/
def buf : BufRef := ⟨vpool.handle, 1, 0⟩
/-- A picture of two slices. -/
def pic (p : PicPhase) : Picture :=
  { newPicture str.handle au slice 3 with slices := [⟨100, false, true⟩, ⟨380, true, true⟩], phase := p, allParsed := true }
theorem witness_VideoEvents_decode :
    (us.eng 15).run = 0 ∧ 15 < 16 ∧ us.host.state ≠ .fault ∧ str.preparing = 0 ∧ (pic (.queued 5)).phase = .queued 5 ∧
      (pic (.queued 5)).started = false ∧ (pic (.queued 5)).outputFlag = true ∧ (pic (.queued 5)).reorder ≠ 0 ∧ (pic (.queued 5)).place = 0 ∧
      us.mem.latent = [] ∧ us.due = [] ∧
      (∀ d, d < 16 → (us.eng d).run = 2 → (us.eng d).stream ≠ str.handle) ∧ { str with outBufs := [(buf, none)] }.outBufs = [(buf, none)] ∧
      (pic (.onEngine 3)).decoded + 1 < (pic (.onEngine 3)).slices.length ∧
      (pic (.onEngine 3)).slices[(pic (.onEngine 3)).decoded]? = some ⟨100, false, true⟩ ∧
      (pic (.onEngine 3)).periodCycles + str.decl.budget ≤ str.decl.budget ∧
      { pic (.onEngine 3) with outputFlag := false }.outputFlag = false ∧ (pic (.onEngine 3)).forwarded = false ∧
      (pic (.onEngine 3)).allParsed = true ∧
      (pic (.onEngine 3)).slices.length = { pic (.onEngine 3) with decoded := 1 }.decoded + 1 ∧
      { pic (.onEngine 3) with started := true }.started = true ∧ us.pending = [] ∧
      (pic (.onEngine 3)).startTick + 6250000 ≤ { us with time := { us.time with tick := 6250000 } }.time.tick := by decide
/-- The inactive card of a pair, its partner holding the stream. -/
def shadow : State := { us with pair := { us.pair with
  mode := 1, inSync := true, role := 2, replica := { streams := [{ str with pics := [pic (.onEngine 3)] }] } } }
theorem witness_VideoEvents_shadow :
    shadowing shadow = true ∧ (∃ w, exec (.scalerStripStart 8) (enterShadow shadow) = .next w) ∧ shadow.pending = [] ∧ shadow.due = [] :=
  ⟨by decide, ⟨_, rfl⟩, rfl, rfl⟩
theorem witness_VideoEvents_encode :
    3 < 4 ∧ (us.eng (16 + 3)).run = 0 ∧ eligible { str with enc := some { enc with pics := [srcPic] } } = some (srcPic, 0, true, 0, 0) ∧
      srcPic.base = 0 ∧ { enc with working := [encWork true] }.working = [encWork true] ∧ (encWork true).engine = 3 := by
  decide
/-- A scaler job of two strips. -/
def job : ScalerJob :=
  { order := 5, item := 0, stream := str.handle, output := 0, frame := 3, buf := buf, desc := outDesc 1, marginPct := 0
    fit := 0, cuts := [], strips := [⟨0, 0, 0, 15, 100, 10, 10⟩, ⟨0, 0, 16, 31, 100, 10, 10⟩], unit := some 7 }
theorem witness_VideoEvents_scaler :
    7 < 8 ∧ (us.scl 7).job = none ∧ job.unit = some 7 ∧ job.running = false ∧
      stripReady (withObj fun o => { o with
        streams := [{ str with pics := [{ pic (.onEngine 3) with progress := 10 }] }], jobs := [job] }) job = true ∧
      { us with video := { us.video with scalers := [(7, { job := some 5 })] } }.canonical = true ∧
      ({ us with video := { us.video with scalers := [(7, { job := some 5 })] } }.scl 7).job = some job.order ∧
      { job with running := true }.running = true ∧ job.ended = false ∧ job.strips.tail ≠ [] := by decide

theorem witness_VideoEvents_clean : CleanMemory (streamed str) := clean_of rfl rfl rfl rfl rfl rfl

/-- A picot of SEQUENCE `n`. -/
def picot (n : Nat) : Picot :=
  { type := 1, more := false, unordered := false, quality := {}, stream := str.handle, capture := ⟨1, 2⟩, seq := n, frame := 3
    completion := ⟨1, 3⟩, payload := List.replicate 20 7 }
/-- Destination 31 filling a page. -/
def filling : Dest := { dest with filling := [picot 5, picot 6], fill := 208, pageAddr := 0x40000, pageSeq := 2 }
theorem witness_PicotEvents :
    us.pcie.bme = true ∧ us.pair.mode = 0 ∧ us.host.state ≠ .orphaned ∧ (pages 2).handle = filling.req.pageSet ∧
      filling.req.kind = 1 ∧ mayPlace (dests [filling]) filling = true ∧ filling.queue = [] ∧
      us.pending = [] ∧ us.due = [] ∧ filling.since ≠ { us.time with tick := 9 }.tick ∧
      (pages 1).since ≠ { us.time with tick := 9 }.tick ∧ filling.filling = picot 5 :: [picot 6] ∧ (pages 1).kind = 1 ∧ (pages 1).posted = 0x10000 :: [] ∧
      { pages 1 with fill := 64 }.fill ≠ 0 ∧ pagesStopped us ses = false ∧ us.obj.heldRecs = [] ∧ us.host.events = [] := by
  decide
/-- Destination 31 as datagrams. -/
def datagrams : Dest := { dest with req := { route 0 with kind := 2, datagram := 512 } }
theorem witness_PicotEvents_health :
    (us.cc 3).run = 1 ∧ ((findRoute us 0).map (·.healthMs)).getD 1000 ≠ 0 ∧ storeUsed us + 96 ≤ 2 ^ 28 ∧
      { picot 0 with unordered := true }.unordered = true ∧ (picot 0).size ≤ datagrams.largest ∧ (⟨0, 31, 255, 60000⟩ : Route).dest = datagrams.id ∧
      mayPlace (dests [datagrams]) datagrams = false ∧ datagrams.req.kind ≠ 1 ∧ datagrams.queue = [] := by decide

/-! ## Cores -/

/-- Core 1 at bundle 3 of the stitch. -/
def core : ComputeCore :=
  { run := 1, bundle := 3, issue := 3, ars := [(2, (0x1000, 64)), (4, (0x2000, 256))]
    vregs := [(1, List.replicate 256 3#8)], store := some (model.handle, 0), rng := 12345 }
/-- The card running the stitch on core 1. -/
def running (k : ComputeCore) : State := { modelled (busy true) [phased .running] with cores := [(1, k)] }
theorem issues_of (last : Bool) : Issues { core := 1, bundle := 3, last := last } (busy true) (phased .running) model (running core) :=
  ⟨by decide, by cases last <;> decide, by cases last <;> decide, by cases last <;> decide,
    .inr (by cases last <;> decide +kernel), rfl⟩
theorem witness_VectorOperations :
    Issues { core := 1, bundle := 3, last := true } (busy true) (phased .running) model (running core) ∧
      (((running core).core 1).vreg 1).length = 256 ∧
      (((running core).core 1).array 3).flight = none :=
  ⟨issues_of _, by decide +kernel, by decide⟩
/-- An operation of 32 rows in flight, its groups at the rows given. -/
def flight (next : List Nat) : InFlight :=
  { op :=
      { isStream := false, hoop := true, mode := .i8, fmt := 1, n := 32, addr := 0x1000, stride := 64, scales := none
        mask := none }
    issue := 2, next := next }
/-- A PAIR drain that waits. -/
def drain : DrainReq :=
  { form := 2, hoop := true, zero := true, softmaxDiv := false, toVector := false, daddr := 0x3000, dstride := 4096, vbase := 2
    qaddr := 0x5000, issue := 2, seed := 1 }
theorem witness_ArrayOperations :
    Issues { core := 1, bundle := 3, last := false } (busy true) (phased .running) model (running core) ∧
      (((running core).core 1).array 2).flight = none ∧ (((running core).core 1).array 2).drain = none ∧
      (((running core).core 1).array 2).draining = none :=
  ⟨issues_of _, by decide, by decide, by decide⟩
/-- Its groups' rows and those that the column groups have taken. -/
def flown (next cols : List Nat) : Array4 := { flight := some { flight next with cols := cols } }
theorem witness_ArrayOperations_row :
    (∀ x ∈ [flown [0, 0, 0, 0] [0, 0, 0, 0], flown [24, 31, 31, 31] [24, 24, 24, 24], flown [32, 31, 32, 32] [31, 31, 31, 31]],
      (running (core.modArray 2 fun _ => x)).canonical = true ∧
      coreStitch (running (core.modArray 2 fun _ => x)) 1 = some (busy true, phased .running, model)) ∧
      (flight []).issue < core.issue ∧ 31 < (flight []).op.n ∧ 31 < 24 + 8 ∧
      (∀ h, h < 4 → (flown [24, 32, 31, 31] [24, 24, 24, 24]).mayTake { flight [24, 32, 31, 31] with cols := [24, 24, 24, 24] } h =
        false) ∧
      (∀ h, h < 4 → h ≠ 1 → 31 < [32, 31, 32, 32].getD h 0) ∧
      (∀ h, h < 4 → (flown [32, 32, 32, 32] [31, 31, 31, 31]).rowHeld { flight [32, 32, 32, 32] with cols := [31, 31, 31, 31] } 31 h =
        false) ∧ (flown [32, 32, 32, 32] [31, 31, 31, 31]).draining = none := by decide
theorem witness_ArrayOperations_drain :
    (running (core.modArray 2 fun x => { x with drain := some drain })).canonical = true ∧
      coreStitch (running (core.modArray 2 fun x => { x with drain := some drain })) 1 =
        some (busy true, phased .running, model) ∧ drain.form = 2 ∧ drain.toVector = false ∧
      ((core.modArray 2 fun x => { x with drain := some drain }).array 2).draining = none ∧ drain.issue < core.issue ∧
      ((core.modArray 2 fun x => { x with drain := some drain }).array 2).quiet drain.hoop drain.issue = true ∧
      replays (phased .running) model = false := by decide

theorem witness_SequencingAndShuttles :
    Issues { core := 1, bundle := 3, last := true } (busy true) (phased .running) model (running core) ∧ 0 < 1 ∧
      (phased .running).lens.getD 15 0 = 0 ∧ (skipEntry (running core) model 1 0).isSome = true ∧
      (((running core).core 1).queue 1).length < 16 ∧ coreDesc (busy true) model 1 0 = some dsc :=
  ⟨issues_of _, by decide⟩
/-- Cores 0 to 2 at knot 2. -/
def knotted : State := { running core with
  cores := [(0, { run := 1, bundle := 5, knot := some 2 }), (1, { run := 1, bundle := 5, knot := some 2 }),
    (2, { run := 1, bundle := 5, knot := some 2 })] }
theorem witness_SequencingAndShuttles_knot :
    knotted.canonical = true ∧ (phased .running).phase = .running ∧ findPart knotted part.handle = some (busy true) ∧
      (busy true).running.bind (findStitch knotted) = some (phased .running) ∧
      findModel knotted (phased .running).req.model = some model ∧ knotMembers (busy true) model 2 ≠ [] ∧
      ((knotMembers (busy true) model 2).all fun n => knotReady knotted (busy true) (phased .running) n 2) = true := by
  decide
theorem witness_SequencingAndShuttles_finish :
    (running { core with run := 3 }).canonical = true ∧
      coreStitch (running { core with run := 3 }) 1 = some (busy true, phased .running, model) ∧
      ((running { core with run := 3 }).core 1).quiet = true ∧
      (phased .running).finished.contains ((busy true).coreIndex 1) = false ∧
      ((busy true).cores.any fun j =>
        (busy true).coreIndex j ≠ (busy true).coreIndex 1 && !(phased .running).finished.contains ((busy true).coreIndex j)) =
        true := by decide
/-- A shuttle's job: not begun, begun, or moved. -/
def shJob (begun : Bool) (moved : Nat) : ShuttleJob :=
  { index := 0, desc := dsc, begun := begun, count1 := if begun then 1 else 0, count2 := if begun then 1 else 0, moved := moved }
/-- The card with it at shuttle 0 of core 1. -/
def shuttling (j : ShuttleJob) : State := running { core with sh0 := [j] }
theorem witness_SequencingAndShuttles_shuttle :
    (shuttling (shJob false 0)).canonical = true ∧
      coreStitch (shuttling (shJob false 0)) 1 = some (busy true, phased .running, model) ∧
      ((shuttling (shJob false 0)).core 1).queue 0 = shJob false 0 :: [] ∧ (phased .running).stop = none ∧
      dsc.form ≠ 5 ∧ dsc.lenDim = 0 ∧ dsc.count1 ≠ 0 ∧ dsc.count2 ≠ 0 ∧ dsc.srcSlot = false ∧ dsc.dstSlot = false ∧
      (shJob true 1).ended = true := by decide
/-- The card after the move's accesses, which find nothing. -/
def reached : State :=
  accessPieces true (reachPieces (busy true) dsc.dst.toNat 64)
    (accessPieces false (reachPieces (busy true) dsc.src.toNat 64) (shuttling (shJob true 0)))
theorem witness_SequencingAndShuttles_move :
    ((shuttling (shJob true 0)).core 1).queue 0 = shJob true 0 :: [] ∧ dsc.form = 1 ∧ (shJob true 0).moved = 0 ∧
      dsc.gate = false ∧ ptrOk (busy true) dsc.src.toNat 64 = true ∧ ptrOk (busy true) dsc.dst.toNat 64 = true ∧
      tagged reached dsc.src.toNat 64 = 64 ∧ tagged reached dsc.dst.toNat 64 = 64 ∧
      ((reachPieces (busy true) dsc.src.toNat 64).all fun x => !poisoned reached x.1) = true ∧
      dropsPiece [] reached (reachPieces (busy true) dsc.dst.toNat 64) = false ∧
      (upset [] (shuttling (shJob true 0))).mem.latent = [] := by decide

/-- A post-processing job of core 1, at its scratch. -/
def ppuJob (done : Bool) : PpuJob :=
  { core := 1, shuttle := 0, latencyCritical := false, addr := scratchAt 1 0x6000, started := true, done := done, quads := 1 }
/-- The card running it on stack 0; its descriptor gives operation `op` of `n` inputs and K = 1, results going to scratch. -/
def posted (op n : Nat) (done : Bool) : State := { running core with
  ppu := [(0, { jobs := [ppuJob done] })]
  mem := (piecesWrite [] [(scratchAt 1 0x6000, 64)]
    (leBytes 2 op ++ leBytes 2 n ++ leBytes 2 1 ++ leBytes 10 0 ++ leBytes 8 (scratchAt 1 0x7000) ++
      leBytes 8 (scratchAt 1 0x7400) ++ leBytes 8 (scratchAt 1 0x8000) ++ leBytes 8 (scratchAt 1 0x9000) ++
      leBytes 16 0) us).mem }
/-- The hypotheses of an operation: the descriptor's, and that the job may reach all that it names. -/
def PpuReady (op n : Nat) : Bool :=
  let s := posted op n false
  let j := ppuJob false
  let q := jobReach j
  let o := PpuOp.parse (reachRead s q j.addr 64)
  let rs := PpuOp.results o n ((o.reads n).map fun x => reachRead s q x.1 x.2)
  let lines (l : List (Nat × Nat)) := (l.map fun x => reachPieces q x.1 x.2).flatten
  let ins := [(j.addr, 64)] ++ (if o.counted then [(o.in1, 4)] else []) ++ o.reads n
  let outs := [(o.out, rs.flatten.length), (o.outn, 4)]
  let z := accessPieces true (lines outs) (accessPieces false (lines ins) s)
  s.canonical && decide (runningJob s 0 = some j) && decide (o.op = op) &&
    decide (n = if o.counted then min o.n (leNat (reachRead s q o.in1 4)) else o.n) &&
    ((ins ++ outs).all fun x => (reachStop z q x).isNone) && (badPieces z (lines ins)).isEmpty && !dropsPiece [] z (lines outs) &&
    decide (tagged s j.addr 64 = 64) && (upset [] s).mem.latent.isEmpty
theorem witness_PostProcessing_topk : PpuReady 3 2 = true := by decide +kernel
theorem witness_PostProcessing_others : ([1, 2, 4, 5].all fun op => PpuReady op 0) = true := by decide +kernel
theorem witness_PostProcessing_end :
    (posted 3 0 true).canonical = true ∧ runningJob (posted 3 0 true) 0 = some (ppuJob true) ∧
      (ppuJob true).left = false := by decide +kernel
theorem witness_PostProcessing_error :
    Sole (busy true) (phased .running) model (modelled (busy true) [phased .running]) ∧
      coreStitch (modelled (busy true) [phased .running]) 1 = some (busy true, phased .running, model) ∧
      (phased .running).stop = none ∧ us.fw.heldComplete = [] ∧ (phased .running).rerun = false :=
  ⟨sole_of _ _ ⟨rfl, rfl, rfl, rfl, rfl⟩, by decide⟩

/-! ## A few commands on small states -/

/-- A field of the next state. -/
def after {α : Type} (c : Instr) (s : State) (f : State → α) : Option α :=
  match exec c s with
  | .next t => some (f t)
  | _ => none

/-- R676: at COUNT 255 an arrival adds 1 to EXCESS and not to COUNT. -/
theorem test_edge_excess :
    after (.edgeSourceArrival 7) (gath 255) (fun t => ((t.src 7).count, (t.src 7).excess, (t.src 7).total)) =
      some (255, 1, 1) := by decide
/-- R540: a write to a mailbox whose OWN is 1 is counted. -/
theorem test_discard : after (.audit (h0 8)) owned (fun t => t.host.discards) = some 1 := by decide
/-- R6, Table 18-7: HEV.CAUSE has five bits, which a 1 clears. -/
theorem test_cause_clear :
    after (.registerWrite .bar0 0x310004 4 5 none) { us with host := { us.host with cause := 7 } } (fun t => t.host.cause) =
      some 2 := by decide
/-- R171: addresses wrap at 8 MiB. -/
theorem test_aradd_wraps :
    after (.aradd { core := 1, bundle := 3, last := true } 2 (-0x1001)) (running core) (fun t => (t.core 1).addr 2) =
      some 0x7FFFFF := by decide +kernel
/-- R191: a core arrives at a knot as its `KNOT` bundle issues. -/
theorem test_knot_arrives :
    after (.knot { core := 1, bundle := 3, last := true } 15) (running core) (fun t => (t.core 1).knot) = some (some 15) := by
  decide +kernel
/-- R349: panic ends at PANIC_PCT + 12. -/
theorem test_panic_stays :
    after (.ddrPanicExit 0 36 false) (ddr0 { state := 2, panic := true }) (fun t => (t.ddr 0).panic) = some true := by decide
theorem test_panic_ends :
    after (.ddrPanicExit 0 37 false) (ddr0 { state := 2, panic := true }) (fun t => (t.ddr 0).panic) = some false := by decide
/-- Table 21-5: TIME.UTC_OFFSET is signed. -/
theorem test_utc_offset :
    after (.timeUtcOffsetWrite 0xFFFF) us (fun t => t.time.utcOffset) = some (-1) := by decide
/-- FP32 sums are rounded once to nearest, ties to even: 2^24 + 1 is 2^24. -/
theorem test_add_rounds : fadd 0x4B800000 0x3F800000 = 0x4B800000 := by decide
/-- The error of that sum is 1 (R110). -/
theorem test_two_sum : twoSum 0x4B800000 0x3F800000 = (0x4B800000, 0x3F800000) := by decide
/-- The example after Table 11-5. -/
theorem test_ddr_example :
    channelOf 0x0712345678 = 1 ∧ channelLocal 0x0712345678 = 0x1C48D1678 ∧
      ddrPlace 0x1C48D1678 = ⟨56, 1, 12, 1, 2, 28963⟩ ∧ (ddrPlace 0x1C48D1678).deviceColumn = 192 := by decide
/-- R25: traffic between diagonally opposite stacks passes the stack after its source. -/
theorem test_diagonal : linkPath false 0 2 = [0, 1, 2] ∧ linkPath false 3 1 = [3, 0, 1] := by decide
/-- R653: an arrival of the deadline's tick that waits is taken before the deadline. -/
theorem test_deadline_defers :
    after (.watchdogExpiry 0) waiting (fun t => (t.due, (t.cc 0).run)) = some ([.watchdogExpiry 0], 1) := by decide
/-- The example after R475: layout of an EYELETS item of 128 x 128 in BF16, and the cycles of a strip (R464). -/
theorem test_eyelets_example :
    let o : OutputDesc := { outDesc 3 with outFmt := 0x30, outW := 128, outH := 128 }
    o.planeStride (128, 128) = 32832 ∧ o.eyeletBytes = 98560 ∧ o.itemBytes true = 6312256 ∧
      (⟨0, 0, 0, 15, 2048, 0, 752⟩ : Strip).cycles = 1088 := by decide

end Sys2Proof.Tests
end

section
/-! SUPPORT. What a request of the host to a register can do, said once: its way to the card, the words of the register regions,
the errors that AER reports, and what a block of registers reads. -/

namespace Sys2Proof.Machine

open Sys2Proof.Claims

/-! ## The request's way to a register (R614, R616, R617) -/

theorem barAccess_reached {posted : Bool} {f : State → Result} {s : State} (h : Reached s) :
    barAccess posted f s = f (active s) := by
  obtain ⟨hl, hm, hd⟩ := h
  simp [barAccess, hl, hm, hd, active, State.linkActive, State.modPcie]

theorem cfgAccess_up {f : State → Result} {s : State} (h : s.pcie.linkUp = true) : cfgAccess f s = f (active s) := if_pos h

/-! ## Words of the register regions (R6, R606) -/

/-- The bits above the low `k` of a 32-bit word are all clear exactly when the word is below `2 ^ k`. -/
theorem reservedHit_low {k v : Nat} (hk : k ≤ 32) (hv : v < 2 ^ 32) : reservedHit (2 ^ k - 1) v = decide (2 ^ k ≤ v) := by
  have hpow : 2 ^ k ≤ 2 ^ 32 := Nat.pow_le_pow_right (by omega) hk
  have hpos : 0 < 2 ^ k := Nat.two_pow_pos k
  have hbit : ∀ i, (v &&& (2 ^ 32 - 1 - (2 ^ k - 1))).testBit i = (v.testBit i && (decide (i < 32) && decide (k ≤ i))) := by
    intro i
    rw [show 2 ^ 32 - 1 - (2 ^ k - 1) = 2 ^ 32 - (2 ^ k - 1 + 1) by omega, Nat.testBit_and,
      Nat.testBit_two_pow_sub_succ (by omega), Nat.testBit_two_pow_sub_one]
    simp only [← Nat.not_lt, decide_not]
  simp only [reservedHit, decide_eq_decide]
  constructor
  · intro hne
    refine Nat.le_of_not_lt fun hlt => hne (Nat.eq_of_testBit_eq fun i => ?_)
    rw [hbit, Nat.zero_testBit]
    by_cases hi : k ≤ i
    · rw [Nat.testBit_lt_two_pow (Nat.lt_of_lt_of_le hlt (Nat.pow_le_pow_right (by omega) hi))]
      rfl
    · simp [hi]
  · intro hle heq
    obtain ⟨i, hi, hvi⟩ := Nat.exists_ge_and_testBit_of_ge_two_pow hle
    have hi32 : i < 32 := by
      refine Nat.lt_of_not_le fun h => ?_
      rw [Nat.testBit_lt_two_pow (Nat.lt_of_lt_of_le hv (Nat.pow_le_pow_right (by omega) h))] at hvi
      exact absurd hvi (by decide)
    have := hbit i
    rw [heq, hvi] at this
    simp [hi, hi32] at this

/-- One word written alone. -/
theorem runWords_single (f : Nat → Nat → State → Result) (o v : Nat) (s : State) : runWords f [(o, v)] s = f o v s := by
  cases h : f o v s <;> simp [runWords, h]

/-- A 4-byte write into the register regions of BAR0 is a write of the word there. -/
theorem registerWrite_word {off v : Nat} {s : State} (hr : Reached s) (ho : 0x200000 ≤ off) (ha : off % 4 = 0)
    (hv : v < 2 ^ 32) : exec (.registerWrite .bar0 off 4 v none) s = bar0Word off v (active s) := by
  have hw : bar0Write off 4 v (active s) = bar0Word off v (active s) := by
    rw [bar0Write, if_neg (by omega), if_neg (by omega), if_neg (by omega), if_pos ⟨.inl rfl, ha⟩]
    rw [writeWords, if_neg (by decide), Nat.mod_eq_of_lt hv, runWords_single]
  exact (barAccess_reached hr).trans hw

/-- A poisoned write into BAR0 is discarded and logged, wherever it goes (R615). -/
theorem registerWrite_poisoned {off size v : Nat} {header : List Byte} {s : State} (hr : Reached s) :
    exec (.registerWrite .bar0 off size v (some header)) s = .next (poisonedTlp header (active s)) :=
  barAccess_reached (f := fun s => .next (poisonedTlp header s)) hr

theorem bar0Word_cause {v : Nat} {s : State} (hv : v < 2 ^ 32) : bar0Word 0x310004 v s =
    if 32 ≤ v then .fault (.undefinedEffect 6)
    else .next { s with host := { s.host with cause := s.host.cause &&& ~~~(BitVec.ofNat 32 v) } } := by
  have hm : reservedHit 0x1F v = decide (32 ≤ v) := reservedHit_low (k := 5) (by omega) hv
  simp [bar0Word, hm, State.modHost]

theorem bar0Word_causeEnable {v : Nat} {s : State} (hv : v < 2 ^ 32) : bar0Word 0x310008 v s =
    if 32 ≤ v then .fault (.undefinedEffect 6)
    else .next { s with host := { s.host with causeEnable := BitVec.ofNat 32 v } } := by
  have hm : reservedHit 0x1F v = decide (32 ≤ v) := reservedHit_low (k := 5) (by omega) hv
  simp [bar0Word, hm, State.modHost]

theorem bar0Word_vector {v : Nat} {s : State} (hv : v < 2 ^ 32) : bar0Word 0x31000C v s =
    if 256 ≤ v then .fault (.undefinedEffect 6) else .next { s with host := { s.host with vector := v } } := by
  have hm : reservedHit 0xFF v = decide (256 ≤ v) := reservedHit_low (k := 8) (by omega) hv
  simp [bar0Word, hm, State.modHost]

theorem bar0Word_utcOffset (v : Nat) (s : State) : bar0Word 0x300014 v s = timeUtcOffsetWrite v s := by simp [bar0Word]

theorem bar0Word_timeCtrl (v : Nat) (s : State) : bar0Word 0x300018 v s = timeCtrlRelease v s := by simp [bar0Word]

theorem bar0Word_ptpCfg (v : Nat) (s : State) : bar0Word 0x30001C v s = timePtpCfgWrite v s := by simp [bar0Word]

/-! ## B2.BASE, the BAR size and MC.RT_CFG (R362, R536, R604, R605) -/

theorem b2Write_whole (b : Nat) (s : State) : b2Write 0 8 b s =
    if s.pcie.barSize = 14 ∧ b % 2 ^ 34 = 0 ∧ b ≤ 0x7C00000000 then .next { s with host := { s.host with b2Base := b } }
    else .next s := by
  simp [b2Write, State.modHost]

/-- A write of the low half of B2.BASE is the whole write that keeps the other half. -/
theorem b2Write_low {v : Nat} (s : State) (hv : v < 2 ^ 32) :
    b2Write 0 4 v s = b2Write 0 8 (s.host.b2Base / 2 ^ 32 * 2 ^ 32 + v) s := by
  have hmod : v % 4294967296 = v := Nat.mod_eq_of_lt hv
  simp [b2Write, hmod]

/-- The same of the high half. -/
theorem b2Write_high {v : Nat} (s : State) (hv : v < 2 ^ 32) :
    b2Write 4 4 v s = b2Write 0 8 (s.host.b2Base % 2 ^ 32 + v * 2 ^ 32) s := by
  have hmod : v % 4294967296 = v := Nat.mod_eq_of_lt hv
  simp [b2Write, hmod]

theorem b2BaseWrite_reached {off size v : Nat} {s : State} (hr : Reached s) :
    exec (.b2BaseWrite off size v) s = b2Write off size v (active s) := barAccess_reached hr

theorem modDdr_onlyChannel {c : Nat} {s : State} (f : DdrChannel → DdrChannel) (hc : s.canonical = true) :
    OnlyChannel c s (s.modDdr c f) ∧ (s.modDdr c f).ddr c = f (s.ddr c) := by
  obtain ⟨-, hddr, -⟩ := (MemUnit.canonical_iff _).1 ((State.canonical_iff s).1 hc).1
  exact ⟨⟨rfl, rfl, fun d hd => State.modDdr_other s f hddr hd⟩, State.modDdr_same s c f hddr⟩

theorem onlyChannel_refl (c : Nat) (s : State) : OnlyChannel c s s := ⟨rfl, rfl, fun _ _ => rfl⟩

/-! ## Errors that AER reports (R600, R614, R615) -/

/-- Between `s` and `t` an error has been reported: error messages may have gone out, and status bits that say so have changed. -/
structure ErrorReported (s t : State) : Prop where
  rest : t = { s with
    pcie := { s.pcie with corr := t.pcie.corr, status := t.pcie.status, devStatus := t.pcie.devStatus }, out := t.out }
  out : ∃ l : List Nat, t.out = s.out ++ l.map .errorMessage

theorem ErrorReported.refl (s : State) : ErrorReported s s := ⟨rfl, [], by simp⟩

theorem ErrorReported.trans {a b c : State} (h : ErrorReported a b) (k : ErrorReported b c) : ErrorReported a c := by
  obtain ⟨hr, l, hl⟩ := h
  obtain ⟨kr, m, hm⟩ := k
  refine ⟨?_, l ++ m, by rw [hm, hl]; simp⟩
  rw [kr, hr]

theorem statusBit_reported (bit : Nat) (s : State) : ErrorReported s (statusBit bit s) := ⟨rfl, [], by simp [statusBit]⟩

theorem deviceStatus_reported (bits : Nat) (s : State) : ErrorReported s (deviceStatus bits s) :=
  ⟨rfl, [], by simp [deviceStatus]⟩

theorem errorMessage_reported (level : Nat) (s : State) : ErrorReported s (errorMessage level s) := by
  have hpush : ∀ u : State, ErrorReported u (u.push (.errorMessage level)) := fun u => ⟨rfl, [level], rfl⟩
  have hserr : ErrorReported s (if s.pcie.serrEnable && decide (level ≠ 0) then statusBit 14 s else s) := by
    split
    · exact statusBit_reported 14 s
    · exact .refl s
  unfold errorMessage
  dsimp only
  split
  · exact hserr.trans (hpush _)
  · exact hserr

theorem correctableError_reported (bit : Nat) (s : State) : ErrorReported s (correctableError bit s) := by
  have hcorr : ErrorReported s (s.modPcie fun p => { p with corr := p.corr ||| BitVec.ofNat 32 (2 ^ bit) }) :=
    ⟨rfl, [], by simp⟩
  unfold correctableError
  dsimp only
  split
  · exact hcorr.trans (deviceStatus_reported 1 _)
  · exact (hcorr.trans (deviceStatus_reported 1 _)).trans (errorMessage_reported 0 _)

/-- The state once an uncorrectable error stands in AER's status and log, before it is reported. -/
def errorStands (bit : Nat) (header : List Byte) (s : State) : State :=
  (logHeader bit header s).modPcie fun p => { p with uncorr := p.uncorr ||| BitVec.ofNat 32 (2 ^ bit) }

/-- An uncorrectable error stands in AER's status and log, and is then reported by its severity. -/
theorem uncorrectableError_reported (bit : Nat) (advisory : Bool) (header : List Byte) (s : State) :
    ErrorReported (errorStands bit header s) (uncorrectableError bit advisory header s) := by
  have hmsg : ∀ (m : Bool) (level : Nat) (u : State), ErrorReported u (if m then u else errorMessage level u) := by
    intro m level u
    split
    · exact .refl u
    · exact errorMessage_reported level u
  unfold uncorrectableError
  dsimp only
  split
  · exact (deviceStatus_reported _ _).trans (hmsg _ 2 _)
  · split
    · exact (deviceStatus_reported _ _).trans (correctableError_reported _ _)
    · exact (deviceStatus_reported _ _).trans (hmsg _ 1 _)

theorem errorStands_fields (bit : Nat) (header : List Byte) (s : State) :
    errorStands bit header s = { s with pcie := { s.pcie with
      uncorr := s.pcie.uncorr ||| BitVec.ofNat 32 (2 ^ bit)
      firstError := (errorStands bit header s).pcie.firstError
      headerLog := (errorStands bit header s).pcie.headerLog } } ∧
    ((errorStands bit header s).pcie.firstError, (errorStands bit header s).pcie.headerLog) =
      if s.pcie.uncorrMask.getLsbD bit || s.pcie.uncorr.getLsbD s.pcie.firstError then (s.pcie.firstError, s.pcie.headerLog)
      else (bit, header) := by
  unfold errorStands logHeader
  split <;> exact ⟨rfl, rfl⟩

/-- A poisoned TLP is logged as Poisoned TLP Received (bit 12), with Detected Parity Error in the Status register. -/
theorem poisonedTlp_logged (header : List Byte) (s : State) :
    let t := poisonedTlp header s
    t = { s with pcie := t.pcie, out := t.out } ∧ t.pcie.uncorr = s.pcie.uncorr ||| 0x1000#32 ∧
      t.pcie.status.getLsbD 15 = true ∧
      (t.pcie.firstError, t.pcie.headerLog) =
        if s.pcie.uncorrMask.getLsbD 12 || s.pcie.uncorr.getLsbD s.pcie.firstError then
          (s.pcie.firstError, s.pcie.headerLog)
        else (12, header) := by
  intro t
  have hparity : t.pcie.status.getLsbD 15 = true := by simp [t, poisonedTlp, statusBit]
  obtain ⟨hrest, -⟩ : ErrorReported (errorStands 12 header s) t :=
    (uncorrectableError_reported 12 true header s).trans (statusBit_reported 15 _)
  obtain ⟨hstands, hlog⟩ := errorStands_fields 12 header s
  refine ⟨?_, (congrArg (·.pcie.uncorr) hrest).trans (congrArg (·.pcie.uncorr) hstands), hparity, ?_⟩
  · rw [hrest, hstands]
  · rw [← hlog, hrest]

/-! ## What a block of registers reads (R5, R606) -/

theorem leBytes_eq_map (n v : Nat) : leBytes n v = (List.range n).map fun i => BitVec.ofNat 8 (v / 256 ^ i) := by
  induction n generalizing v with
  | zero => rfl
  | succ n ih =>
    rw [leBytes, ih, List.range_succ_eq_map]
    simp [Nat.pow_succ', Nat.div_div_eq_div_mul]

@[simp] theorem blockByte_nil (i : Nat) : blockByte [] i = 0 := rfl

/-- A byte of the block's first register. -/
theorem blockByte_here {o n v i : Nat} {l : List RegField} (h1 : o ≤ i) (h2 : i < o + n) :
    blockByte ((o, n, v) :: l) i = BitVec.ofNat 8 (v / 256 ^ (i - o)) := by
  simp [blockByte, h1, h2]

/-- A byte outside the block's first register is one of the others. -/
theorem blockByte_skip {o n v i : Nat} {l : List RegField} (h : i < o ∨ o + n ≤ i) :
    blockByte ((o, n, v) :: l) i = blockByte l i := by
  have hno : (decide (o ≤ i) && decide (i < o + n)) = false := by
    rcases h with h | h <;> simp [Nat.not_le.2, Nat.not_lt.2, h]
  simp [blockByte, hno]

/-- A block whose bytes from `o` on are those of a value reads that value. -/
theorem blockWord_eq {f : Nat → Byte} {o n v : Nat}
    (h : ∀ i, i < n → f (o + i) = BitVec.ofNat 8 (v / 256 ^ i)) : ((List.range n).map fun i => f (o + i)) = leBytes n v := by
  rw [leBytes_eq_map]
  exact List.map_congr_left fun i hi => h i (List.mem_range.1 hi)

/-- A word of the register region reads as the bytes there. -/
theorem registerRead_bar0 {o : Nat} (s : State) (ha : o % 4 = 0) :
    registerRead .bar0 o 4 s = (List.range 4).map fun i => bar0Byte s (o + i) := by
  simp [registerRead, ha]

theorem bar0Byte_hev {i : Nat} (s : State) (h : i < 0x1000) : bar0Byte s (0x310000 + i) = blockByte (hevBlock s) i := by
  simp (disch := omega) only [bar0Byte, if_neg, if_pos, Nat.add_sub_cancel_left]

theorem bar0Byte_time {i : Nat} (s : State) (h : i < 0x100) : bar0Byte s (0x300000 + i) = blockByte (timeBlock s) i := by
  simp (disch := omega) only [bar0Byte, if_neg, if_pos, Nat.add_sub_cancel_left]

theorem controlByte_mc {c i : Nat} (s : State) (hc : c < 4) (hi : i < 0x10000) :
    controlByte s (0x200000 + 0x10000 * c + i) = blockByte (mcBlock s c) i := by
  have hunit : (0x200000 + 0x10000 * c + i - 0x200000) / 0x10000 = c ∧
      (0x200000 + 0x10000 * c + i - 0x200000) % 0x10000 = i := by omega
  simp (disch := omega) only [controlByte, if_neg, if_pos, unitByte, hunit.1, hunit.2]

/-- A register of the host event block reads its value. -/
theorem registerRead_hev {o v : Nat} {s : State} (ho : o + 4 ≤ 0x1000) (ha : o % 4 = 0)
    (h : ∀ i, i < 4 → blockByte (hevBlock s) (o + i) = BitVec.ofNat 8 (v / 256 ^ i)) :
    registerRead .bar0 (0x310000 + o) 4 s = leBytes 4 v := by
  rw [registerRead_bar0 s (by omega)]
  refine blockWord_eq fun i hi => ?_
  rw [Nat.add_assoc, bar0Byte_hev s (by omega), h i hi]

/-- A register of the card clock reads its value. -/
theorem registerRead_time {o v : Nat} {s : State} (ho : o + 4 ≤ 0x100) (ha : o % 4 = 0)
    (h : ∀ i, i < 4 → blockByte (timeBlock s) (o + i) = BitVec.ofNat 8 (v / 256 ^ i)) :
    registerRead .bar0 (0x300000 + o) 4 s = leBytes 4 v := by
  rw [registerRead_bar0 s (by omega)]
  refine blockWord_eq fun i hi => ?_
  rw [Nat.add_assoc, bar0Byte_time s (by omega), h i hi]

/-- A register of a memory controller reads its value. -/
theorem registerRead_mc {c o v : Nat} (s : State) (hc : c < 4) (ho : o + 4 ≤ 0x10000)
    (h : ∀ i, i < 4 → blockByte (mcBlock s c) (o + i) = BitVec.ofNat 8 (v / 256 ^ i)) :
    registerRead .control (0x6000200000 + 0x10000 * c + o) 4 s = leBytes 4 v := by
  have hread : registerRead .control (0x6000200000 + 0x10000 * c + o) 4 s =
      (List.range 4).map fun i => controlByte s (0x200000 + 0x10000 * c + o + i) := by
    rw [registerRead, show 0x6000200000 + 0x10000 * c + o - 0x6000000000 = 0x200000 + 0x10000 * c + o by omega]
  rw [hread]
  refine blockWord_eq fun i hi => ?_
  rw [Nat.add_assoc, controlByte_mc s hc (by omega), h i hi]

/-- A byte of a register that the tables of configuration space give. -/
theorem cfgByteRead_field {s : State} {i o n v : Nat}
    (h : (cfgBlock s).find? (fun r => decide (r.1 ≤ i) && decide (i < r.1 + r.2.1)) = some (o, n, v)) :
    cfgByteRead s i = BitVec.ofNat 8 (v / 256 ^ (i - o)) := by
  have hany : (cfgBlock s).any (fun r => decide (r.1 ≤ i) && decide (i < r.1 + r.2.1)) = true :=
    by
    rw [← List.isSome_find?, h]
    rfl
  simp only [cfgByteRead, hany, if_true, blockByte, h]

end Sys2Proof.Machine
end

section
/-! SUPPORT. O22: the writes and reads of the registers of BAR0, BAR2 and the configuration space, each clause from the laws of its
register. -/

namespace Sys2Proof.Machine

open Sys2Proof.Claims

/-- MC.RT_CFG written with no reserved bit set: both fields are taken when they are in range. -/
theorem mcRtCfgWrite_channel {c v : Nat} {s : State} (hc : c < 4) (hcan : s.canonical = true) (hr : v / 128 % 2 = 0)
    (hv : v < 2 ^ 20) :
    ∃ t, exec (.mcRtCfgWrite c v) s = .next t ∧ OnlyChannel c s t ∧
      t.ddr c =
        if 1 ≤ v % 128 ∧ v % 128 ≤ 100 ∧ 10 ≤ v / 256 ∧ v / 256 ≤ 400 then
          { s.ddr c with panicPct := v % 128, ageCap := v / 256 }
        else s.ddr c := by
  have hage : v / 256 % 4096 = v / 256 := by omega
  have hexec : exec (.mcRtCfgWrite c v) s =
      if 1 ≤ v % 128 ∧ v % 128 ≤ 100 ∧ 10 ≤ v / 256 ∧ v / 256 ≤ 400 then
        .next (s.modDdr c fun d => { d with panicPct := v % 128, ageCap := v / 256 })
      else .next s := by
    change execMcRtCfgWrite c v s = _
    unfold execMcRtCfgWrite
    dsimp only
    rw [if_neg (by omega), if_neg (by omega), hage]
  rw [hexec]
  split
  · exact ⟨_, rfl, modDdr_onlyChannel _ hcan⟩
  · exact ⟨s, rfl, onlyChannel_refl c s, rfl⟩

theorem registerRead_causeEnable (s : State) : registerRead .bar0 0x310008 4 s = leBytes 4 s.host.causeEnable.toNat := by
  refine registerRead_hev (o := 0x08) (by omega) (by omega) fun i hi => ?_
  rw [hevBlock]
  simp (disch := omega) only [blockByte_skip, blockByte_here, Nat.add_sub_cancel_left]

theorem registerRead_vector (s : State) : registerRead .bar0 0x31000C 4 s = leBytes 4 s.host.vector := by
  refine registerRead_hev (o := 0x0C) (by omega) (by omega) fun i hi => ?_
  rw [hevBlock]
  simp (disch := omega) only [blockByte_skip, blockByte_here, Nat.add_sub_cancel_left]

theorem registerRead_discards (s : State) : registerRead .bar0 0x310018 4 s = leBytes 4 s.host.discards := by
  refine registerRead_hev (o := 0x18) (by omega) (by omega) fun i hi => ?_
  rw [hevBlock]
  simp (disch := omega) only [blockByte_skip, blockByte_here, Nat.add_sub_cancel_left]

/-- The bytes after the last register of the host event block are reserved. -/
theorem registerRead_hevReserved (s : State) : registerRead .bar0 0x310028 4 s = zeroBytes 4 := by
  refine registerRead_hev (o := 0x28) (v := 0) (by omega) (by omega) fun i hi => ?_
  rw [hevBlock]
  simp (disch := omega) only [blockByte_skip, blockByte_nil, Nat.zero_div, BitVec.ofNat_eq_ofNat]

/-- TIME.CTRL is write-only. -/
theorem registerRead_timeCtrl (s : State) : registerRead .bar0 0x300018 4 s = zeroBytes 4 := by
  refine registerRead_time (o := 0x18) (v := 0) (by omega) (by omega) fun i hi => ?_
  rw [timeBlock]
  simp (disch := omega) only [blockByte_skip, blockByte_nil, Nat.zero_div, BitVec.ofNat_eq_ofNat]

theorem registerRead_ptpCfg (s : State) : registerRead .bar0 0x30001C 4 s = leBytes 4 s.time.ptpCfg.toNat := by
  refine registerRead_time (o := 0x1C) (by omega) (by omega) fun i hi => ?_
  rw [timeBlock]
  simp (disch := omega) only [blockByte_skip, blockByte_here, Nat.add_sub_cancel_left]

theorem registerRead_rtCfg {c : Nat} (s : State) (hc : c < 4) :
    registerRead .control (0x6000200000 + 0x10000 * c + 8) 4 s =
      leBytes 4 ((s.ddr c).panicPct + 256 * (s.ddr c).ageCap) := by
  refine registerRead_mc s hc (by omega) fun i hi => ?_
  rw [mcBlock]
  simp (disch := omega) only [blockByte_skip, blockByte_here, Nat.add_sub_cancel_left]

/-- The card has no INTx. -/
theorem registerRead_interruptPin (s : State) : registerRead .config 0x3D 1 s = [0] :=
  congrArg (fun b => [b]) (cfgByteRead_field (s := s) (i := 0x3D) (o := 0x3D) (n := 1) (v := 0) rfl)

theorem registerRead_barSize (s : State) :
    registerRead .config 0x281 1 s = leBytes 1 s.pcie.barSize := by
  have hbyte : cfgByteRead s 0x281 = BitVec.ofNat 8 ((2 + 2 ^ 5 + 2 ^ 8 * s.pcie.barSize) / 256 ^ (0x281 - 0x280)) :=
    cfgByteRead_field (n := 4) rfl
  have hfield : (2 + 2 ^ 5 + 2 ^ 8 * s.pcie.barSize) / 256 ^ (0x281 - 0x280) = s.pcie.barSize := by omega
  rw [hfield] at hbyte
  exact congrArg (fun b => [b]) hbyte

/-- Settles O22: each write by the laws of its register, each read by the block that holds the register. -/
theorem hostRegisterWrites : Obligations.HostRegisterWrites := by
  unfold Obligations.HostRegisterWrites
  intro s v hv
  refine ⟨fun hr => ?_, fun hl => cfgAccess_up hl, fun c hc hcan hres h20 => mcRtCfgWrite_channel hc hcan hres h20,
    fun _ => ?_, registerRead_vector _, registerRead_discards _, fun c hc _ _ => registerRead_rtCfg s hc,
    registerRead_timeCtrl s, registerRead_ptpCfg s, registerRead_hevReserved s, registerRead_interruptPin s,
    fun _ => registerRead_barSize s⟩
  · refine ⟨(registerWrite_word hr (by omega) rfl hv).trans (bar0Word_cause hv),
      (registerWrite_word hr (by omega) rfl hv).trans (bar0Word_causeEnable hv),
      (registerWrite_word hr (by omega) rfl hv).trans (bar0Word_vector hv),
      fun b => (b2BaseWrite_reached hr).trans (b2Write_whole b _), ?_, ?_, fun off size header => ?_⟩
    · rw [b2BaseWrite_reached hr, b2BaseWrite_reached hr]
      exact b2Write_low (active s) hv
    · rw [b2BaseWrite_reached hr, b2BaseWrite_reached hr]
      exact b2Write_high (active s) hv
    · exact ⟨_, registerWrite_poisoned hr, poisonedTlp_logged header (active s)⟩
  · refine (registerRead_causeEnable _).trans ?_
    rw [BitVec.toNat_ofNat, Nat.mod_eq_of_lt hv]

end Sys2Proof.Machine
end

section
/-! SUPPORT. O25: the clock's writable registers and its holdover (R633, R636, R641, R643). -/

namespace Sys2Proof.Machine

open Sys2Proof.Claims

theorem timeCtrlRelease_reached {v : Nat} {s : State} (hr : Reached s) :
    exec (.timeCtrlRelease v) s = timeCtrlRelease v (active s) := barAccess_reached hr

theorem timePtpCfgWrite_reached {v : Nat} {s : State} (hr : Reached s) :
    exec (.timePtpCfgWrite v) s = timePtpCfgWrite v (active s) := barAccess_reached hr

theorem timeUtcOffsetWrite_reached {v : Nat} {s : State} (hr : Reached s) :
    exec (.timeUtcOffsetWrite v) s = timeUtcOffsetWrite v (active s) := barAccess_reached hr

/-- Bit 7 of TIME.PTP_CFG, which is reserved. -/
theorem ptpCfg_bit7 (v : Nat) : (BitVec.ofNat 32 v).getLsbD 7 = decide (v / 128 % 2 = 1) := by
  rw [BitVec.getLsbD_ofNat, Nat.testBit_eq_decide_div_mod_eq]
  rfl

/-- A value of TIME.PTP_CFG with a one in a reserved bit has no defined effect (R6). -/
theorem timePtpCfgWrite_reserved {v : Nat} {s : State} (h : v / 128 % 2 = 1 ∨ 2 ^ 24 ≤ v) :
    timePtpCfgWrite v s = .fault (.undefinedEffect 6) := by
  refine if_pos ?_
  rw [ptpCfg_bit7, Bool.or_eq_true, decide_eq_true_iff, decide_eq_true_iff]
  exact h

/-- A valid value of TIME.PTP_CFG that differs from the present one is stored and releases the clock; where it differs in more than
LOG_DREQ no master stays selected. -/
theorem timePtpCfgWrite_defined {v : Nat} {s : State} (hres : v / 128 % 2 = 0) (hv : v < 2 ^ 24) :
    timePtpCfgWrite v s =
      if ptpCfgOk (BitVec.ofNat 32 v) = true ∧ BitVec.ofNat 32 v ≠ s.time.ptpCfg then
        .next { s with time :=
          if (BitVec.ofNat 32 v ^^^ s.time.ptpCfg) &&& 0xFFFF#32 = 0#32 then
            { s.time with ptpCfg := BitVec.ofNat 32 v, sync := 0 }
          else
            { s.time with
              ptpCfg := BitVec.ofNat 32 v, sync := 0, gmId := 0, gmLast := 0, master := none, masters := [] } }
      else .next s := by
  have hdef : ¬ ((BitVec.ofNat 32 v).getLsbD 7 || decide (2 ^ 24 ≤ v)) = true := by
    rw [ptpCfg_bit7, Bool.or_eq_true, decide_eq_true_iff, decide_eq_true_iff]
    omega
  unfold timePtpCfgWrite
  dsimp only
  rw [if_neg hdef]
  by_cases hset : ptpCfgOk (BitVec.ofNat 32 v) = true ∧ BitVec.ofNat 32 v ≠ s.time.ptpCfg
  · have hgo : ¬ (ptpCfgOk (BitVec.ofNat 32 v) = false ∨ BitVec.ofNat 32 v = s.time.ptpCfg) := by
      rintro (h | h)
      · exact Bool.noConfusion (hset.1.symm.trans h)
      · exact hset.2 h
    rw [if_neg hgo, if_pos hset]
    by_cases hsame : (BitVec.ofNat 32 v ^^^ s.time.ptpCfg) &&& 0xFFFF#32 = 0#32
    · rw [if_pos hsame]
      exact if_pos hsame
    · rw [if_neg hsame]
      exact if_neg hsame
  · have hskip : ptpCfgOk (BitVec.ofNat 32 v) = false ∨ BitVec.ofNat 32 v = s.time.ptpCfg := by
      cases hok : ptpCfgOk (BitVec.ofNat 32 v) with
      | false => exact .inl rfl
      | true => exact .inr (Decidable.of_not_not fun hne => hset ⟨hok, hne⟩)
    rw [if_pos hskip, if_neg hset]

/-- TIME.UTC_OFFSET is signed. -/
theorem timeUtcOffsetWrite_signed (v : Nat) (s : State) : timeUtcOffsetWrite v s =
    if 2 ^ 16 ≤ v then .fault (.undefinedEffect 6)
    else if servoActive s = true then .next s
    else .next { s with
      time := { s.time with utcOffset := if v < 2 ^ 15 then (v : Int) else (v : Int) - 2 ^ 16 } } := by
  unfold timeUtcOffsetWrite
  split
  · rfl
  · have hint : (BitVec.ofNat 16 v).toInt = if v < 2 ^ 15 then (v : Int) else (v : Int) - 2 ^ 16 := by
      rw [BitVec.toInt_eq_toNat_cond, BitVec.toNat_ofNat]
      omega
    rw [hint]
    rfl

/-- The announce timeout, with nothing waiting that comes before it. -/
theorem holdoverTimeout_now {s : State} (hp : s.pending = []) (hd : s.due = []) :
    exec .holdoverTimeout s = dueHoldoverTimeout s := atDeadline_now (mustDefer_empty hp hd)

/-- LOCKED becomes HOLDOVER, and the card servo drops the master that fell silent. -/
theorem dueHoldoverTimeout_eq (s : State) : dueHoldoverTimeout s = .next { s with
    time :=
      let t := { s.time with sync := if s.time.sync = 1 then 2 else s.time.sync }
      if servoActive s then
        { t with gmId := 0, master := none, masters := t.masters.filter fun m => decide (some m.sender ≠ t.master) }
      else t } := by
  have hsync : (if s.time.sync = 1 then { s.time with sync := 2 } else s.time) =
      { s.time with sync := if s.time.sync = 1 then 2 else s.time.sync } := by
    split <;> rfl
  simp only [dueHoldoverTimeout, dropMaster, State.modTime, hsync]
  split <;> rfl

/-- Settles O25: each register's write by its law on the state that the request leaves active, the timeout by its own. -/
theorem timeRegisterWrites : Obligations.TimeRegisterWrites := by
  unfold Obligations.TimeRegisterWrites
  intro s v
  refine ⟨fun hr => ⟨timeCtrlRelease_reached hr,
      fun hv hres => (timePtpCfgWrite_reached hr).trans (timePtpCfgWrite_defined hres hv),
      fun h _ => (timePtpCfgWrite_reached hr).trans (timePtpCfgWrite_reserved h),
      (timeUtcOffsetWrite_reached hr).trans (timeUtcOffsetWrite_signed v _), fun hv => ⟨?_, ?_, ?_⟩⟩,
    fun hp hd => (holdoverTimeout_now hp hd).trans (dueHoldoverTimeout_eq s)⟩
  · rw [registerWrite_word hr (by omega) rfl hv, bar0Word_utcOffset, timeUtcOffsetWrite_reached hr]
  · rw [registerWrite_word hr (by omega) rfl hv, bar0Word_timeCtrl, timeCtrlRelease_reached hr]
  · rw [registerWrite_word hr (by omega) rfl hv, bar0Word_ptpCfg, timePtpCfgWrite_reached hr]

end Sys2Proof.Machine
end

section
/-! SUPPORT. What the pair's messages rest on, said once: the answer that a mailbox holds, an event on a card without sessions, and
heartbeats (R541, R556, R736, R740). -/

namespace Sys2Proof.Machine

open Sys2Proof.Claims

/-! ## Answers (R541, R736) -/

/-- The payload of every mailbox is in canonical form. -/
theorem mbox_payload_wf {s : State} (h : s.host.canonical = true) (m : Nat) : SMap.wf 0 (s.mbox m).payload = true := by
  obtain ⟨-, hpay, -⟩ := (HostUnit.canonical_iff _).1 h
  exact SMap.get_of_all (fun x : Mailbox => SMap.wf 0 x.payload) rfl hpay m

/-- An answer written at once is the command's answer. Of the rest only the host interface and the link have changed. -/
theorem writeAnswer_answered {h : Hdr} {st d : Nat} {resp : List Byte} {s : State} (hc : s.host.canonical = true)
    (hseq : (s.mbox h.mbox).seq = h.seq) :
    let t := writeAnswer h st d resp s
    Answered h st d resp s t ∧ t.obj = s.obj ∧ t.pair = s.pair ∧
      t.host.long = s.host.long.filter fun x => !decide (x.hdr.mbox = h.mbox) := by
  obtain ⟨hmb, -, -⟩ := (HostUnit.canonical_iff _).1 hc
  obtain ⟨own, seq, status, detail, length, payload, others, out, mb, p, l, k, hrest⟩ :=
    writeAnswer_spec (st := st) (d := d) (resp := resp) hmb (mbox_payload_wf hc h.mbox)
  refine ⟨⟨own, seq.trans hseq, status, detail, length, payload, others, out⟩, ?_, ?_, ?_⟩ <;> rw [hrest]

/-- An answer is one to a state as well that has the same mailboxes and has sent the same. -/
theorem answered_of_same {h : Hdr} {st d : Nat} {resp : List Byte} {s u t : State} (k : Answered h st d resp u t)
    (hm : u.host = s.host) (ho : u.out = s.out) : Answered h st d resp s t :=
  ⟨k.own, k.seq, k.status, k.detail, k.length, k.payload,
    fun m hne => (k.others m hne).trans (by rw [State.mbox, State.mbox, hm]), ho ▸ k.out⟩

/-- A claim's answer that has waited changes nothing but its time unit. -/
theorem restartOutput_fields (resp : List Byte) (s : State) :
    (restartOutput resp s).host = s.host ∧ (restartOutput resp s).out = s.out ∧ (restartOutput resp s).obj = s.obj ∧
      (restartOutput resp s).pair = s.pair := by
  unfold restartOutput
  split <;> exact ⟨rfl, rfl, rfl, rfl⟩

/-- A deferred answer that is released is the command's answer. -/
theorem releaseDeferred_answered {h : Hdr} {st d : Nat} {resp : List Byte} {undo : List ObjRec} {s : State}
    (hc : s.host.canonical = true) (hseq : (s.mbox h.mbox).seq = h.seq) :
    let t := releaseDeferred (.answer h st d resp undo) s
    Answered h st d resp s t ∧ t.obj = s.obj ∧ t.pair = s.pair := by
  obtain ⟨hhost, hout, hobj, hpair⟩ := restartOutput_fields resp s
  have hseq' : ((restartOutput resp s).mbox h.mbox).seq = h.seq := by rw [State.mbox, hhost]; exact hseq
  obtain ⟨hans, hobj', hpair', -⟩ := writeAnswer_answered (st := st) (d := d) (resp := resp) (hhost ▸ hc) hseq'
  exact ⟨answered_of_same hans hhost hout, hobj'.trans hobj, hpair'.trans hpair⟩

/-! ## Events (R556, R558) -/

/-- A bit of HEV.CAUSE that is set changes nothing of the host interface but HEV.CAUSE and pending vectors, and of the rest only the
link and what has left the card. -/
theorem setCause_fields (bit : Nat) (s : State) : ∃ c p k o, setCause bit s = { s with
    host := { s.host with cause := c, pba := p }, pcie := { s.pcie with linkState := k }, out := o } := by
  unfold setCause
  split
  · exact ⟨s.host.cause, s.host.pba, s.pcie.linkState, s.out, rfl⟩
  · dsimp only
    split
    · obtain ⟨p, o, hmsix, -⟩ := sendMsix_cases s.host.vector
        (s.modHost fun h => { h with cause := h.cause ||| BitVec.ofNat 32 (2 ^ bit) })
      exact ⟨s.host.cause ||| BitVec.ofNat 32 (2 ^ bit), p, o.1, o.2, hmsix⟩
    · exact ⟨s.host.cause ||| BitVec.ofNat 32 (2 ^ bit), s.host.pba, s.pcie.linkState, s.out, rfl⟩

/-- The event store keeps its newest event, whatever it loses. -/
theorem trimEvents_getLast? (now : CardTime) (store : List StoredEvent) :
    (trimEvents now store).getLast? = store.getLast? := by
  unfold trimEvents
  split
  · rfl
  · rename_i hlong
    match store, hlong with
    | [], hlong => rfl
    | [_], hlong => rfl
    | [_, _], hlong => simp at hlong
    | a :: b :: c :: rest, _ =>
      simp only [List.getLast?_cons_cons]
      split
      · rfl
      · split <;> rfl

/-- Without sessions the event store keeps everything. -/
theorem drainEvents_noSessions {s : State} (h : s.obj.sessions = []) : drainEvents s = s := by
  have hall : eventSessions s = [] := by simp [eventSessions, h]
  have hkeep : (s.host.events.filter fun e => ([] : List Handle).isEmpty || !([] : List Handle).all fun h => e.2.contains h) =
      s.host.events := List.filter_eq_self.2 fun _ _ => rfl
  rw [drainEvents, hall]
  exact congrArg (fun l => s.modHost fun x => { x with events := l }) hkeep

/-- An event on a card without sessions stands last in the store; objects and the pair are as they were. -/
theorem issueEvent_noSessions {code source : Nat} {args : List Nat} {s : State} (h : s.obj.sessions = []) :
    let t := issueEvent code source args s
    t.obj = s.obj ∧ t.pair = s.pair ∧
      t.host.events.getLast? = some (⟨code, source, s.now, (args ++ [0, 0, 0, 0]).take 4⟩, []) := by
  let e : EventRec := ⟨code, source, s.now, (args ++ [0, 0, 0, 0]).take 4⟩
  let u : State := s.modHost fun x => { x with events := s.host.events ++ [(e, [])] }
  have hne : u.host.events ≠ [] := List.append_ne_nil_of_right_ne_nil _ (List.cons_ne_nil _ _)
  have hissue : issueEvent code source args s =
      setCause causeEvent (u.modHost fun x => { x with events := trimEvents s.now x.events }) := by
    have hdrain : drainEvents u = u := drainEvents_noSessions h
    change (if (drainEvents u).host.events = [] then drainEvents u else setCause causeEvent
      ((drainEvents u).modHost fun x => { x with events := trimEvents (drainEvents u).now x.events })) = _
    rw [hdrain, if_neg hne]
    rfl
  obtain ⟨c, p, k, o, hset⟩ :=
    setCause_fields causeEvent (u.modHost fun x => { x with events := trimEvents s.now x.events })
  intro t
  have ht : t = _ := hissue.trans hset
  refine ⟨by rw [ht]; rfl, by rw [ht]; rfl, ?_⟩
  rw [ht]
  exact (trimEvents_getLast? s.now (s.host.events ++ [(e, [])])).trans (List.getLast?_concat ..)

/-! ## Mirror items, acknowledgements and joins (R11, R731, R735, R736) -/

theorem mirrorFlush_fields (s : State) :
    (mirrorFlush s).obj = s.obj ∧ (mirrorFlush s).pair.mode = s.pair.mode ∧
      (mirrorFlush s).pair.inSync = s.pair.inSync := by
  unfold mirrorFlush
  split
  · split <;> exact ⟨rfl, rfl, rfl⟩
  · exact ⟨rfl, rfl, rfl⟩

/-- A session of the partner joins the replica, and its GEN is kept. -/
theorem applyItem_session (x : Session) (s : State) : applyItem (.object (.session x)) s =
    (stOk, issued x.handle (s.modPair fun p => { p with replica := { p.replica with
      sessions := upsert (fun (y : Session) => y.handle) x p.replica.sessions } })) := by
  have hfits : replicaFits s (.session x) = true := rfl
  have hfollow : ∀ o tick, Objects.follow o tick (.session x) = o.apply (.session x) := fun _ _ => rfl
  simp [applyItem, hfits, applyObject, ObjRec.received, adoptGens, hfollow, pruneRecords, Objects.apply]
  rfl

theorem wakeFromNap_awake {s : State} (h : s.power.state ≠ 3) : wakeFromNap s = s := if_neg h

/-- The header of the only long command, a `PAIR_JOIN`. -/
theorem joinHdr_single {s : State} {h : Hdr} {m r : Nat} (hl : s.host.long = [.pairJoin h m r]) : joinHdr s = some h := by
  simp [joinHdr, hl]

/-- The only output that waits goes when the partner acknowledges its item. -/
theorem acknowledged_releases {s : State} {n seq : Nat} {d : Deferred} (hw : s.pair.waiting = [(n, d)]) (hn : n ≤ seq) :
    acknowledged seq 0 s = releaseDeferred d { s with pair := { s.pair with
      ackSeq := max s.pair.ackSeq seq, waiting := []
      checkpoints := s.pair.checkpoints.filter fun c => decide (seq < c.1) } } := by
  have hgo : (s.pair.waiting.filter fun w => decide (w.1 ≤ seq)) = [(n, d)] := by simp [hw, hn]
  have hstay : (s.pair.waiting.filter fun w => !decide (w.1 ≤ seq)) = [] := by simp [hw, hn]
  simp [acknowledged, hgo, hstay, State.modPair]

/-- It goes on waiting when the partner acknowledges an earlier item. -/
theorem acknowledged_waits {s : State} {n seq : Nat} {d : Deferred} (hw : s.pair.waiting = [(n, d)]) (hn : seq < n) :
    acknowledged seq 0 s = { s with pair := { s.pair with
      ackSeq := max s.pair.ackSeq seq
      checkpoints := s.pair.checkpoints.filter fun c => decide (seq < c.1) } } := by
  have hgo : (s.pair.waiting.filter fun w => decide (w.1 ≤ seq)) = [] := by simp [hw, hn]
  have hstay : (s.pair.waiting.filter fun w => !decide (w.1 ≤ seq)) = s.pair.waiting := by simp [hw, hn]
  simp [acknowledged, hgo, hstay, State.modPair]

/-! ## Heartbeats (R740) -/

/-- A walk over the numbers below `n` of which only number `p` does anything. -/
theorem foldl_range_at {σ : Type} {f : σ → Nat → σ} {a b : σ} {p : Nat} (ha : ∀ k, k ≠ p → f a k = a) (hp : f a p = b)
    (hb : ∀ k, k ≠ p → f b k = b) (n : Nat) : (List.range n).foldl f a = if p < n then b else a := by
  induction n with
  | zero => rfl
  | succ n ih =>
    rw [List.range_succ, List.foldl_append, ih, List.foldl_cons, List.foldl_nil]
    rcases Nat.lt_trichotomy p n with h | rfl | h
    · rw [if_pos h, if_pos (by omega), hb n (by omega)]
    · rw [if_neg (by omega), if_pos (by omega), hp]
    · rw [if_neg (by omega), if_neg (by omega), ha n (by omega)]

/-- With one address on each card, both of one port, one heartbeat datagram goes out. -/
theorem networkHeartbeatSend_single {s : State} {a b : CardAddr} (hbeat : beating s = true) (ha : s.obj.addrs = [a])
    (hb : s.pair.replica.addrs = [b]) (hport : a.port = b.port) (hlt : a.port < 8) :
    execNetworkHeartbeatSend s = .next (s.push (.frame a.port a.vlan (.heartbeat a.addr b.addr))) := by
  have hother : ∀ k, k ≠ a.port → ([a].find? fun x => decide (x.port = k)) = none := by
    intro k hk
    simp [hk.symm]
  rw [execNetworkHeartbeatSend, if_pos hbeat,
    foldl_range_at (p := a.port) (b := s.push (.frame a.port a.vlan (.heartbeat a.addr b.addr))) ?_ ?_ ?_, if_pos hlt]
  · intro k hk
    simp [firstAddr, ha, hother k hk]
  · simp [firstAddr, ha, hb, hport]
  · intro k hk
    simp [firstAddr, ha, hother k hk]

end Sys2Proof.Machine
end

section
/-! SUPPORT. O40: heartbeats, mirroring, and forming a pair (R730 to R740). -/

namespace Sys2Proof.Machine

open Sys2Proof.Claims

theorem beating_of {s : State} (hm : s.pair.mode ≠ 0) (hc : (s.cc 3).run = 1) (hf : s.host.state ≠ .fault)
    (hp : s.power.state < 6) : beating s = true := by
  simp [beating, hm, hc, hf, hp]

theorem brideHeartbeatSend_beating {s : State} (hb : beating s = true) (hl : 4 ≤ s.pair.lanes) :
    exec .brideHeartbeatSend s = .next { s with out := s.out ++ [.bride .heartbeat] } := if_pos ⟨hb, hl⟩

/-- A mirrored session joins the replica, its GEN is kept, and the item is acknowledged. -/
theorem mirrorItemReceive_session {s : State} (hm : s.pair.mode ≠ 0) (hf : s.host.state ≠ .fault)
    (hn : s.power.state ≠ 3) (seq : Nat) (x : Session) :
    exec (.mirrorItemReceive seq (.object (.session x))) s = .next { s with
      pair := { s.pair with replica := { s.pair.replica with
        sessions := upsert (fun (y : Session) => y.handle) x s.pair.replica.sessions } }
      gens := (issued x.handle s).gens
      out := s.out ++ [.bride (.ack seq 0)] } := by
  change execMirrorItemReceive seq (.object (.session x)) s = _
  unfold execMirrorItemReceive
  rw [if_neg (by simp [hm, hf]), wakeFromNap_awake hn, applyItem_session]
  rfl

/-- The partner acknowledges the item that the only waiting answer waits for, or a later one: the answer goes. -/
theorem mirrorAckReceive_releases {s : State} {h : Hdr} {n seq st d : Nat} {resp : List Byte} {undo : List ObjRec}
    (hc : s.host.canonical = true) (hm : s.pair.mode ≠ 0) (hw : s.pair.waiting = [(n, .answer h st d resp undo)])
    (hseq : (s.mbox h.mbox).seq = h.seq) (hn : n ≤ seq) :
    ∃ t, exec (.mirrorAckReceive seq 0) s = .next t ∧ Answered h st d resp s t ∧ t.pair.waiting = [] ∧
      t.pair.ackSeq = max s.pair.ackSeq seq ∧ t.obj = s.obj := by
  let u : State := { s with pair := { s.pair with
    ackSeq := max s.pair.ackSeq seq, waiting := []
    checkpoints := s.pair.checkpoints.filter fun c => decide (seq < c.1) } }
  obtain ⟨hans, hobj, hpair⟩ :=
    releaseDeferred_answered (st := st) (d := d) (resp := resp) (undo := undo) (s := u) hc hseq
  refine ⟨_, (if_neg hm).trans (congrArg _ (acknowledged_releases hw hn)), answered_of_same hans rfl rfl, ?_, ?_, hobj⟩ <;>
    rw [hpair]

/-- It acknowledges an earlier item: the answer goes on waiting. -/
theorem mirrorAckReceive_waits {s : State} {n seq : Nat} {d : Deferred} (hm : s.pair.mode ≠ 0)
    (hw : s.pair.waiting = [(n, d)]) (hn : seq < n) :
    ∃ t, exec (.mirrorAckReceive seq 0) s = .next t ∧ t = { s with pair := t.pair } ∧
      t.pair.waiting = s.pair.waiting ∧ t.pair.ackSeq = max s.pair.ackSeq seq :=
  ⟨_, (if_neg hm).trans (congrArg _ (acknowledged_waits hw hn)), rfl, rfl, rfl⟩

theorem brideLaneLoss_counted {s : State} {l : Nat} (hl : l < 8) :
    exec (.brideLaneLoss l) s = .next { s with pair := { s.pair with lanes := s.pair.lanes - 1 } } :=
  if_neg (Nat.not_le.2 hl)

/-- Outside a pair a reconnected cable retrains its lanes and nothing else. -/
theorem brideCableReconnect_alone {s : State} (hm : s.pair.mode = 0) (n : Nat) :
    exec (.brideCableReconnect n) s = .next { s with pair := { s.pair with lanes := min n 8 } } := by
  change execBrideCableReconnect n s = _
  unfold execBrideCableReconnect
  rw [if_pos hm]
  rfl

/-- The partner's join is remembered while this card has asked for none. -/
theorem partnerPairJoin_remembered {s : State} (hm : s.pair.mode = 0) (hl : 4 ≤ s.pair.lanes)
    (hf : s.host.state ≠ .fault) (ho : s.pair.ownJoin = none) (m r serial : Nat) :
    exec (.partnerPairJoin m r serial) s = .next { s with
      pair := { s.pair with partnerSerial := serial, partnerJoin := some (m, r, s.time.tick) } } := by
  change execPartnerPairJoin m r serial s = _
  unfold execPartnerPairJoin
  rw [if_neg (by simp [hm, hf, Nat.not_lt.2 hl])]
  simp [ho, State.modPair]

/-- A join that waited in vain answers ST_PARTNER_ABSENT. -/
theorem pairJoinTimeout_absent {s : State} {h : Hdr} {m r : Nat} (hc : s.host.canonical = true) (hm : s.pair.mode = 0)
    (hl : s.host.long = [.pairJoin h m r]) (hseq : (s.mbox h.mbox).seq = h.seq) (hp : s.pending = []) (hd : s.due = []) :
    ∃ t, exec .pairJoinTimeout s = .next t ∧ Answered h 16 0 [] s t ∧ t.pair = { s.pair with ownJoin := none } ∧
      t.host.long = [] := by
  let u : State := { s with pair := { s.pair with ownJoin := none } }
  have hexec : exec .pairJoinTimeout s = .next (writeAnswer h 16 0 [] u) := by
    refine (atDeadline_now (mustDefer_empty hp hd)).trans ?_
    rw [duePairJoinTimeout, joinHdr_single hl]
    exact congrArg _ (answer_alone (s := u) hm)
  obtain ⟨hans, -, hpair, hlong⟩ :=
    writeAnswer_answered (st := 16) (d := 0) (resp := []) (s := u) hc hseq
  refine ⟨_, hexec, answered_of_same hans rfl rfl, hpair, hlong.trans ?_⟩
  simp [u, hl, LongCmd.hdr]

/-- The end of the copy puts the pair in sync, which a PAIR_STATE event of reason 2 says. -/
theorem pairSyncComplete_inSync {s : State} (hm : s.pair.mode ≠ 0) (hs : s.pair.inSync = false)
    (ho : s.obj.sessions = []) :
    ∃ t, exec .pairSyncComplete s = .next t ∧ t.pair.inSync = true ∧ t.pair.mode = s.pair.mode ∧ t.obj = s.obj ∧
      ∃ e, t.host.events.getLast? = some e ∧ e.1.code = 5 ∧ e.1.args.getD 2 0 = 2 := by
  let u : State := s.modPair fun p => { p with inSync := true }
  obtain ⟨hobj, hmode, hsync⟩ := mirrorFlush_fields u
  obtain ⟨tobj, tpair, tlast⟩ := issueEvent_noSessions (code := evPairState) (source := 0)
    (args := [pairCode (mirrorFlush u), (mirrorFlush u).pair.mode, rsInSync, (mirrorFlush u).pair.partnerSerial])
    (s := mirrorFlush u) (by rw [hobj]; exact ho)
  exact ⟨_, if_neg (by simp [hm, hs]), (congrArg (·.inSync) tpair).trans hsync, (congrArg (·.mode) tpair).trans hmode,
    tobj.trans hobj, _, tlast, rfl, rfl⟩

/-- Settles O40: each message of the pair by its law, on the card that the clause describes. -/
theorem pairTraffic : Obligations.PairTraffic := by
  unfold Obligations.PairTraffic
  intro s hcan
  obtain ⟨-, hc, -⟩ := (State.canonical_iff s).1 hcan
  refine ⟨fun hm h3 hf hp => ⟨brideHeartbeatSend_beating (beating_of hm h3 hf hp),
      fun a b ha hb hport hlt => networkHeartbeatSend_single (beating_of hm h3 hf hp) ha hb hport hlt⟩,
    rfl, fun hm hf hn seq x => mirrorItemReceive_session hm hf hn seq x,
    fun hm seq n h st d resp undo hw hseq =>
      ⟨mirrorAckReceive_releases hc hm hw hseq, mirrorAckReceive_waits hm hw⟩,
    fun l hl => brideLaneLoss_counted hl, brideCableReconnect_alone, partnerPairJoin_remembered,
    fun hm h m r hl hseq hp hd => pairJoinTimeout_absent hc hm hl hseq hp hd, pairSyncComplete_inSync⟩

end Sys2Proof.Machine
end

section
/-! SUPPORT. What one idle tick rests on, said once: how a map reads after all its values changed, what each part of the tick
touches, and the deadlines that wait for its end. -/

namespace Sys2Proof

/-- A map in canonical form reads at every key as the changed value, when the change keeps the default. -/
theorem SMap.get_mapVals {α : Type} [DecidableEq α] {d : α} {m : SMap α} {lo : Nat} {f : Nat → α → α}
    (h : SMap.wfFrom d lo m = true) (hf : ∀ n, f n d = d) (n : Nat) :
    SMap.get d (SMap.mapVals d f m) n = f n (SMap.get d m n) := by
  induction m generalizing lo with
  | nil => exact (hf n).symm
  | cons c m ih =>
    obtain ⟨k, v⟩ := c
    obtain ⟨-, -, hm⟩ := SMap.wfFrom_cons.1 h
    have hcons : SMap.mapVals d f ((k, v) :: m) =
        if f k v = d then SMap.mapVals d f m else (k, f k v) :: SMap.mapVals d f m := by
      by_cases hd : f k v = d <;> simp [SMap.mapVals, hd]
    have hbelow : ∀ i, i < k + 1 → SMap.get d (SMap.mapVals d f m) i = d := fun i hi =>
      SMap.get_below (SMap.wfFrom_mapVals f hm) hi
    rw [hcons]
    rcases Nat.lt_trichotomy n k with hn | rfl | hn
    · have hne : k ≠ n := by omega
      split <;> simp [SMap.get, hne, hn, hf, hbelow n (by omega)]
    · split
      next hd => simp [SMap.get, hbelow n (by omega), hd]
      next => simp [SMap.get]
    · have hne : k ≠ n := by omega
      have hge : ¬ n < k := by omega
      split <;> simp [SMap.get, hne, hge, ih hm]

namespace Machine

/-! ## Deadlines that wait (R653) -/

/-- The effect of every deadline can be deferred. -/
theorem exec_deadline {d : Instr} (hd : isDeadline d = true) (s : State) :
    ∃ run, exec d s = atDeadline d run s := by
  cases d
  case jitterGapDeadline | pictureAbandon | dispatchDecision | leaseExpiry | streamFeedTimeout | pairJoinTimeout |
      bootLoadTimeout | pcieCompletionTimeout | stitchTimeout | holdoverTimeout | watchdogExpiry | bootCoreWatchdogExpiry |
      brideHeartbeatTimeout | mirrorAckTimeout | hostLinkLossTimeout | pllIdleStop | picotPageFlush |
      completionPageFlush => exact ⟨_, rfl⟩
  all_goals cases hd

/-- A deadline that an arrival in the queue precedes waits for the end of the tick. -/
theorem exec_preceded {d : Instr} {s : State} (h : s.pending.any (precedes d) = true) :
    exec d s = .next { s with due := s.due ++ [d] } := by
  obtain ⟨a, -, ha⟩ := List.any_eq_true.1 h
  have hd : isDeadline d = true := by
    unfold precedes at ha
    exact (Bool.and_eq_true_iff.1 ha).1
  have hdefer : mustDefer d s = true := by simp [mustDefer, List.any_append, h]
  obtain ⟨run, hrun⟩ := exec_deadline hd s
  exact hrun.trans (atDeadline_later hdefer)

theorem step_due {s : State} {d : Instr} {l : List Instr} (hp : s.pending = []) (hd : s.due = d :: l) :
    step s = exec d { s with due := l } := by
  unfold step
  rw [hp, hd]

theorem step_idle {s : State} (hp : s.pending = []) (hd : s.due = []) : step s = .next (idleTick s) := by
  unfold step
  rw [hp, hd]

/-! ## What each part of a tick touches -/

/-- Firmware's reading of the transmit queue leaves the clock alone. -/
theorem drainStamps_eq (s : State) :
    ∃ r x q, drainStamps s = s.modTime fun t => { t with read := r, txqSec := x, txq := q } := by
  unfold drainStamps
  split
  · exact ⟨_, _, _, rfl⟩
  · exact ⟨s.time.read, s.time.txqSec, s.time.txq, rfl⟩

/-- The lease's countdown changes nothing but what is left of it. -/
theorem tickLease_eq (s : State) : ∃ l, tickLease s = s.modHost fun h => { h with leaseLeft := l } := by
  unfold tickLease
  split
  · exact ⟨s.host.leaseLeft, rfl⟩
  · exact ⟨_, rfl⟩

/-- The count of starved cycles lies in the video units. -/
theorem starveTick_eq (s : State) : ∃ v, starveTick s = s.modVideo fun _ => v := by
  unfold starveTick
  induction List.range 8 generalizing s with
  | nil => exact ⟨s.video, rfl⟩
  | cons u l ih =>
    rw [List.foldl_cons]
    split
    · obtain ⟨v, hv⟩ := ih (s.modScl u fun x => { x with starved := x.starved + 40 })
      exact ⟨v, hv⟩
    · exact ih s

/-- The clock's advance leaves TIME.TICK alone. -/
theorem clockTick_tick (powered : Bool) (t : TimeUnitBlock) : (clockTick powered t).tick = t.tick := by
  cases powered <;> simp [clockTick, clockAdd]

/-- A core counts cycles of the compute clock while it runs a pricking. -/
def countCycles (n : Nat) (c : ComputeCore) : ComputeCore := if c.counting then { c with cycles := c.cycles + n } else c

/-- Each core counts the tick's cycles of the compute clock, stretched by the power step (R33, R208). -/
theorem tickCores_core {s : State} (h : SMap.wf {} s.cores = true) (n : Nat) :
    (tickCores s).core n = countCycles ((s.power.corePhase + 960) / (16 + s.power.step)) (s.core n) :=
  SMap.get_mapVals (f := fun _ => countCycles ((s.power.corePhase + 960) / (16 + s.power.step))) h (fun _ => rfl) n

/-! ## The latency that the card tolerates (R621) -/

/-- The latency depends on the objects and the power state alone. -/
theorem ltrNs_congr {s t : State} (ho : t.obj = s.obj) (hs : t.power.state = s.power.state) : ltrNs t = ltrNs s := by
  simp [ltrNs, ho, hs]

/-- A latency other than the one last reported is due for a report. -/
def ltrDue (s : State) : Bool :=
  s.pcie.linkUp && s.pcie.ltrEnable && !s.pcie.d3hot && decide (s.pcie.ltr ≠ some (ltrNs s))

theorem reportLtr_eq (s : State) :
    reportLtr s = { s with
      pcie := if ltrDue s then { s.pcie with ltr := some (ltrNs s), linkState := 0 } else s.pcie
      out := if ltrDue s then s.out ++ [.ltr (ltrNs s)] else s.out } := by
  unfold reportLtr ltrDue
  split <;> rfl

/-! ## The tick of a card that nothing else is due on -/

/-- The clocks and countdowns of a tick, in their order. -/
def tickUnits (s : State) : State :=
  tickEngines <| settleLinks <| tickPanic <| tickLease <| tickCores <| tickBusy <| tickWatchdogs <| tickClock <|
    drainStamps s

/-- Nothing but the clock is due at the end of a tick: no work ends, no unlock waits, there is no pair, no stream with
eyelets and no picot to release. -/
structure OnlyClocks (s : State) : Prop where
  ending : s.host.ending = false
  unlocking : s.sec.unlocking = false
  alone : s.pair.mode = 0
  picots : s.obj.heldPicots = []
  eyelets : (s.obj.streams.all fun x => !x.hasEyelets) = true

theorem shadowed_alone {s : State} (f : State → State) (h : s.pair.mode = 0) : shadowed f s = f s := by
  simp [shadowed, shadowing, h]

theorem releaseHeld_none {s : State} (h : s.obj.heldPicots = []) : releaseHeld s = s := by
  simp [releaseHeld, h]

theorem releaseCut_none {s : State} (h : (s.obj.streams.all fun x => !x.hasEyelets) = true) : releaseCut s = s := by
  have hnone : s.obj.streams.filter (·.hasEyelets) = [] := by simpa using h
  simp [releaseCut, hnone]

theorem endIfIdle_none {s : State} (h : s.host.ending = false) : endIfIdle s = s := by
  simp [endIfIdle, h]

theorem unlockIfIdle_none {s : State} (h : s.sec.unlocking = false) : unlockIfIdle s = s := by
  simp [unlockIfIdle, h]

/-- What the clocks and countdowns of a tick leave as it is, and what they do to time, power and the compute cores. -/
structure ClocksMoved (s t : State) : Prop where
  obj : t.obj = s.obj
  ppu : t.ppu = s.ppu
  pair : t.pair = s.pair
  sec : t.sec = s.sec
  pcie : t.pcie = s.pcie
  out : t.out = s.out
  cells : t.mem.cells = s.mem.cells
  lost : t.mem.lost = s.mem.lost
  host : ∃ l, t.host = { s.host with leaseLeft := l }
  time : ∃ r x q, t.time = { clockTick (decide (s.power.state < 6)) { s.time with read := r, txqSec := x, txq := q } with
    tick := if s.pcie.perst then s.time.tick else s.time.tick + 1 }
  power : t.power = (tickCores s).power
  cores : t.cores = (tickCores s).cores

theorem tickUnits_moved (s : State) : ClocksMoved s (tickUnits s) := by
  obtain ⟨r, x, q, hdrain⟩ := drainStamps_eq s
  unfold tickUnits
  rw [hdrain]
  obtain ⟨l, hlease⟩ := tickLease_eq (tickCores <| tickBusy <| tickWatchdogs <| tickClock <|
    s.modTime fun t => { t with read := r, txqSec := x, txq := q })
  rw [hlease]
  refine ⟨?_, ?_, ?_, ?_, ?_, ?_, ?_, ?_, ⟨l, ?_⟩, ⟨r, x, q, ?_⟩, ?_, ?_⟩ <;>
    simp [tickEngines, settleLinks, tickPanic, tickCores, tickBusy, tickWatchdogs, tickClock, clockTick_tick]

theorem ClocksMoved.modVideo {s t : State} (h : ClocksMoved s t) (f : VideoUnit → VideoUnit) :
    ClocksMoved s (t.modVideo f) :=
  ⟨h.obj, h.ppu, h.pair, h.sec, h.pcie, h.out, h.cells, h.lost, h.host, h.time, h.power, h.cores⟩

/-- With neither auxiliary nor main power no clock runs. -/
theorem idleTick_off {s : State} (h : ticking s = false) : idleTick s = s := by
  simp [idleTick, h]

/-- On a card with nothing else due, a tick moves the clocks and then reports the latency. -/
theorem idleTick_onlyClocks {s : State} (h : OnlyClocks s) (ht : ticking s = true) :
    ∃ u, idleTick s = reportLtr u ∧ ClocksMoved s u := by
  have hunits := tickUnits_moved s
  obtain ⟨v, hstarve⟩ := starveTick_eq (tickUnits s)
  have hmoved : ClocksMoved s (starveTick (tickUnits s)) := by
    rw [hstarve]
    exact hunits.modVideo _
  obtain ⟨l, hhost⟩ := hmoved.host
  have hending : (starveTick (tickUnits s)).host.ending = false := by
    rw [hhost]
    exact h.ending
  have hcut : shadowed releaseCut (shadowed starveTick (tickUnits s)) = starveTick (tickUnits s) := by
    rw [shadowed_alone starveTick (by rw [hunits.pair, h.alone]), shadowed_alone releaseCut (by rw [hmoved.pair, h.alone]),
      releaseCut_none (by rw [hmoved.obj, h.eyelets])]
  refine ⟨_, ?_, hmoved⟩
  calc idleTick s
      = reportLtr (mirrorFlush (unlockIfIdle (endIfIdle
          (shadowed releaseCut (shadowed starveTick (tickUnits (releaseHeld s))))))) := by
        rw [idleTick, if_pos ht, tickUnits]
    _ = reportLtr (starveTick (tickUnits s)) := by
      rw [releaseHeld_none h.picots, hcut, endIfIdle_none hending, unlockIfIdle_none (by rw [hmoved.sec, h.unlocking]),
        mirrorFlush_alone (by rw [hmoved.pair, h.alone])]

theorem ClocksMoved.ltrNs {s t : State} (h : ClocksMoved s t) : ltrNs t = ltrNs s :=
  ltrNs_congr h.obj (congrArg (·.state) h.power)

theorem ClocksMoved.ltrDue {s t : State} (h : ClocksMoved s t) : ltrDue t = ltrDue s := by
  unfold Machine.ltrDue
  rw [h.ltrNs, h.pcie]

theorem ClocksMoved.tick {s t : State} (h : ClocksMoved s t) :
    t.time.tick = if s.pcie.perst then s.time.tick else s.time.tick + 1 := by
  obtain ⟨r, x, q, htime⟩ := h.time
  rw [htime]

/-- The card clock advances by 12 and 13 cycles of the time clock in turn, or by 40 ns where there is none (R630, R631). -/
theorem ClocksMoved.now {s t : State} (h : ClocksMoved s t) : (t.time.sec, t.time.ns, t.time.frac) =
    (let n := if s.power.state < 6 then (12 + s.time.halfCycle.toNat) * clockIncrement s.time.rate else 40 * 2 ^ 48
     let f := s.time.frac + n
     let ns := s.time.ns + f / 2 ^ 48
     ((s.time.sec + ns / 1000000000) % 2 ^ 48, ns % 1000000000, f % 2 ^ 48)) := by
  obtain ⟨r, x, q, htime⟩ := h.time
  rw [htime]
  by_cases hs : s.power.state < 6 <;> simp [clockTick, clockAdd, hs]

theorem ClocksMoved.halfCycle {s t : State} (h : ClocksMoved s t) (hs : s.power.state < 6) :
    t.time.halfCycle = !s.time.halfCycle := by
  obtain ⟨r, x, q, htime⟩ := h.time
  rw [htime]
  simp [clockTick, hs]

theorem ClocksMoved.core {s t : State} (h : ClocksMoved s t) (hw : SMap.wf {} s.cores = true) (n : Nat) :
    t.core n = countCycles ((s.power.corePhase + 960) / (16 + s.power.step)) (s.core n) :=
  (congrArg (fun m => SMap.get ({} : ComputeCore) m n) h.cores).trans (tickCores_core hw n)

theorem ClocksMoved.mboxes {s t : State} (h : ClocksMoved s t) : t.host.mboxes = s.host.mboxes := by
  obtain ⟨l, hhost⟩ := h.host
  rw [hhost]

/-! ## The step (O2) -/

/-- Settles O2: what an arrival precedes is deferred, what was deferred runs next, and with nothing left a tick moves the
clocks and reports the latency. -/
theorem idleStepIsOneTick : Obligations.IdleStepIsOneTick := by
  unfold Obligations.IdleStepIsOneTick
  refine ⟨fun _ _ h => exec_preceded h, fun _ _ _ hp hd => step_due hp hd, fun s hp hd hcan => ⟨fun hoff => ?_, ?_⟩⟩
  · rw [step_idle hp hd, idleTick_off hoff]
  · intro hon hend hunlock hpair hpicots heyelets report
    obtain ⟨-, -, -, -, -, -, hcores, -, -, -⟩ := (State.canonical_iff s).1 hcan
    obtain ⟨u, htick, hu⟩ := idleTick_onlyClocks ⟨hend, hunlock, hpair, hpicots, heyelets⟩ hon
    have hreport : ltrDue s = report := rfl
    rw [reportLtr_eq, hu.ltrDue, hu.ltrNs, hu.pcie, hu.out, hreport] at htick
    exact ⟨_, (step_idle hp hd).trans (congrArg _ htick), hu.tick, hu.now, hu.halfCycle, hu.core hcores, hu.power, hu.obj,
      hu.ppu, hu.cells, hu.lost, hu.mboxes, hu.pair, hu.sec, rfl, rfl⟩

end Machine
end Sys2Proof
end

section
/-! SUPPORT. An operation of a bundle that can issue, said once: the checks before it pass, and what it gives its core becomes the
core with the operation issued (R125, R161, R190, R191, R207). -/

namespace Sys2Proof

/-! ## Sparse maps with equal contents -/

section
variable {α : Type} [DecidableEq α] {d : α}

omit [DecidableEq α] in
theorem SMap.get_cons_same (k : Nat) (v : α) (m : SMap α) : SMap.get d ((k, v) :: m) k = v := by simp [SMap.get]

omit [DecidableEq α] in
theorem SMap.get_cons_below {k n : Nat} (v : α) (m : SMap α) (h : n < k) : SMap.get d ((k, v) :: m) n = d := by
  rw [SMap.get, if_neg (by omega), if_pos h]

omit [DecidableEq α] in
theorem SMap.get_cons_above {k n : Nat} (v : α) (m : SMap α) (h : k < n) :
    SMap.get d ((k, v) :: m) n = SMap.get d m n := by
  rw [SMap.get, if_neg (by omega), if_neg (by omega)]

/-- Maps in canonical form that read alike at every key are the same map. -/
theorem SMap.ext_from {a b : SMap α} {lo lo' : Nat} (ha : SMap.wfFrom d lo a = true) (hb : SMap.wfFrom d lo' b = true)
    (h : ∀ n, SMap.get d a n = SMap.get d b n) : a = b := by
  induction a generalizing b lo lo' with
  | nil =>
    match b with
    | [] => rfl
    | (k, v) :: b =>
      have hk := h k
      rw [SMap.get_cons_same] at hk
      exact absurd hk.symm (SMap.wfFrom_cons.1 hb).2.1
  | cons x a ih =>
    obtain ⟨k, v⟩ := x
    obtain ⟨-, hv, ha⟩ := SMap.wfFrom_cons.1 ha
    match b with
    | [] =>
      have hk := h k
      rw [SMap.get_cons_same] at hk
      exact absurd hk hv
    | (j, w) :: b =>
      obtain ⟨-, hw, hb⟩ := SMap.wfFrom_cons.1 hb
      have hj := h j
      have hk := h k
      rw [SMap.get_cons_same] at hj hk
      rcases Nat.lt_trichotomy k j with hlt | rfl | hlt
      · rw [SMap.get_cons_below _ _ hlt] at hk
        exact absurd hk hv
      · rw [SMap.get_cons_same] at hk
        have htail : ∀ n, SMap.get d a n = SMap.get d b n := fun n => by
          by_cases hn : k < n
          · have hnk := h n
            rwa [SMap.get_cons_above _ _ hn, SMap.get_cons_above _ _ hn] at hnk
          · rw [SMap.get_below ha (by omega), SMap.get_below hb (by omega)]
        rw [hk, ih ha hb htail]
      · rw [SMap.get_cons_below _ _ hlt] at hj
        exact absurd hj.symm hw

/-- A map in canonical form in which a key takes the value that it has. -/
theorem SMap.set_get_self {m : SMap α} (h : SMap.wf d m = true) (n : Nat) : SMap.set d m n (SMap.get d m n) = m :=
  SMap.ext_from (SMap.wf_set n _ h) h fun k => by
    rw [SMap.get_set h]
    split
    next hk => rw [hk]
    next => rfl

/-- Of two values that a key takes in turn the second stays. -/
theorem SMap.set_set {m : SMap α} (h : SMap.wf d m = true) (n : Nat) (x y : α) :
    SMap.set d (SMap.set d m n x) n y = SMap.set d m n y :=
  SMap.ext_from (SMap.wf_set n y (SMap.wf_set n x h)) (SMap.wf_set n y h) fun k => by
    rw [SMap.get_set (SMap.wf_set n x h), SMap.get_set h, SMap.get_set h]
    split <;> rfl

/-- Two changes of one value in turn are one change. -/
theorem SMap.modify_modify {m : SMap α} (h : SMap.wf d m = true) (n : Nat) (f g : α → α) :
    SMap.modify d (SMap.modify d m n f) n g = SMap.modify d m n fun x => g (f x) := by
  rw [SMap.modify, SMap.modify, SMap.get_set_same h, SMap.set_set h]
  rfl

end

/-- A core that stands at a bundle with an operation passes none. -/
theorem ComputeCore.skipEmpty_of_full {code : List Byte} {k : ComputeCore} (h : bundleEmpty code k.bundle = false) (n : Nat) :
    k.skipEmpty code n = k := by
  cases n with
  | zero => rfl
  | succ n => rw [ComputeCore.skipEmpty, h, if_neg Bool.false_ne_true]

namespace Machine

open Sys2Proof.Claims

theorem State.canonical_cores {s : State} (h : s.canonical = true) : SMap.wf {} s.cores = true :=
  have ⟨_, _, _, _, _, _, hcores, _, _, _⟩ := (State.canonical_iff s).1 h
  hcores

/-- The bytes, the channels and the pillows of a canonical state's memory. -/
theorem State.canonical_mem {s : State} (h : s.canonical = true) :
    Memory.wf s.mem.cells = true ∧ SMap.wf {} s.mem.ddr = true ∧ SMap.wf {} s.mem.pil = true :=
  have ⟨hmem, _⟩ := (State.canonical_iff s).1 h
  (MemUnit.canonical_iff _).1 hmem

/-- A change that gives a core what it is changes nothing. -/
theorem State.modCore_self {s : State} (h : SMap.wf {} s.cores = true) {n : Nat} {f : ComputeCore → ComputeCore}
    (hf : f (s.core n) = s.core n) : s.modCore n f = s := by
  have hcores : SMap.modify {} s.cores n f = s.cores := by
    rw [SMap.modify, show f (SMap.get {} s.cores n) = SMap.get {} s.cores n from hf, SMap.set_get_self h]
  exact congrArg (fun m => { s with cores := m }) hcores

/-- Two changes of one core in turn are one change. -/
theorem State.modCore_modCore {s : State} (h : SMap.wf {} s.cores = true) (n : Nat) (f g : ComputeCore → ComputeCore) :
    (s.modCore n f).modCore n g = s.modCore n fun k => g (f k) :=
  congrArg (fun m => { s with cores := m }) (SMap.modify_modify h n f g)

/-- A core's change is a `CoreIs`. -/
theorem coreIs_modCore {s : State} (h : SMap.wf {} s.cores = true) (n : Nat) (f : ComputeCore → ComputeCore) :
    CoreIs n (f (s.core n)) s (s.modCore n f) :=
  ⟨State.modCore_same s n f h, fun _ hj => State.modCore_other s f h hj⟩

/-- The stitch of a core is the one of its id. -/
theorem findStitch_of_coreStitch {s : State} {n : Nat} {p : Partition} {t : Stitch} {m : Model}
    (h : coreStitch s n = some (p, t, m)) : findStitch s t.id = some t := by
  unfold coreStitch at h
  split at h
  · cases h
  · split at h
    · cases h
    · rename_i hx
      split at h
      · cases h
      · split at h
        · cases h
          obtain ⟨id, -, hid⟩ := Option.bind_eq_some_iff.1 hx
          have hxid : t.id = id := by simpa using List.find?_some hid
          rwa [hxid]
        · cases h

/-- The end of a bundle, of a stitch that is not stopping. -/
theorem closeBundle_going {v : State} {n : Nat} {p : Partition} {t : Stitch} (h : findStitch v t.id = some t)
    (hgo : t.stop = none) :
    closeBundle n p t.id v = v.modCore n fun k => { k with mid := false, issue := k.issue + 1 } := by
  have hfind : (findStitch (v.modCore n fun k => { k with mid := false, issue := k.issue + 1 }) t.id).bind (·.stop) = none :=
    (congrArg (fun x : Option Stitch => x.bind (·.stop)) h).trans hgo
  unfold closeBundle
  dsimp only
  rw [hfind]

end Machine

namespace Claims

open Sys2Proof.Machine

section
variable {c : Slot} {p : Partition} {t : Stitch} {m : Model} {s : State}

/-- The core stands at its bundle already. -/
theorem Issues.passEmpty_eq (h : Issues c p t m s) : passEmpty c.core s = s := by
  obtain ⟨hbundle, hfull⟩ := h.bundle
  unfold passEmpty
  rw [h.stitch]
  dsimp only
  rw [if_pos h.run.1]
  refine State.modCore_self (State.canonical_cores h.canonical) (ComputeCore.skipEmpty_of_full ?_ _)
  rw [hbundle, hfull]

/-- The operation can issue. -/
theorem Issues.issuing_eq (h : Issues c p t m s) : issuing s c = some (p, t, m) := by
  obtain ⟨hrun, hknot, hdrain, hreplay⟩ := h.run
  have hready : ((s.core c.core).mid || bundleReady (s.core c.core) (bundleAt (codeOf p m c.core) c.bundle)) = true := by
    simpa using h.ready
  unfold issuing
  dsimp only
  rw [if_pos ⟨hrun, hreplay, hknot, h.bundle.1, hdrain⟩, h.stitch]
  dsimp only
  rw [if_pos hready]

/-- An operation that gives a state with the stitch as it was issues on its core. -/
theorem Issues.slotOp_eq (h : Issues c p t m s) {f : Partition → Stitch → Model → State → Option State} {v : State}
    (hf : f p t m s = some v) (hobj : v.obj = s.obj) (hv : SMap.wf {} v.cores = true) :
    slotOp c f s = correctedBy c.corrected (v.modCore c.core (issuedOp c)) := by
  have hfind : findStitch v t.id = some t := by
    rw [findStitch, hobj]
    exact findStitch_of_coreStitch h.stitch
  unfold slotOp
  dsimp only
  rw [h.passEmpty_eq, h.issuing_eq]
  dsimp only
  rw [hf]
  dsimp only
  let w : State := correctedBy c.corrected v
  have hcomm : correctedBy c.corrected (v.modCore c.core fun k => { k with late := k.late + c.held }) =
      w.modCore c.core fun k => { k with late := k.late + c.held } := rfl
  have hw : SMap.wf {} w.cores = true := hv
  have hsame : ∀ g, findStitch (w.modCore c.core g) t.id = some t := fun _ => hfind
  rw [hcomm]
  split
  next hlast =>
    rw [State.modCore_modCore hw, closeBundle_going (hsame _) h.going, State.modCore_modCore hw]
    exact congrArg (w.modCore c.core) (funext fun k => by rw [issuedOp, if_pos hlast]; rfl)
  next hmore =>
    rw [State.modCore_modCore hw]
    exact congrArg (w.modCore c.core) (funext fun k => by rw [issuedOp, if_neg hmore])

/-- An operation that changes only its core, as the state stands, makes that core. -/
theorem Issues.makes_slot (h : Issues c p t m s) {i : Instr} {f : Partition → Stitch → Model → State → Option State}
    {g : ComputeCore → ComputeCore} {k : ComputeCore} (hexec : exec i s = .next (slotOp c f s))
    (hf : f p t m s = some (s.modCore c.core g)) (hk : g (s.core c.core) = k) : Makes i c k s := by
  have hwf := State.canonical_cores h.canonical
  have hslot := h.slotOp_eq hf rfl (SMap.wf_modify _ _ hwf)
  rw [State.modCore_modCore hwf] at hslot
  refine ⟨_, hexec.trans (congrArg _ hslot), rfl, ?_⟩
  subst hk
  exact coreIs_modCore hwf c.core fun k => issuedOp c (g k)

/-- An operation that changes its core by a function makes what that gives. -/
theorem Issues.makes_core (h : Issues c p t m s) {i : Instr} {g : ComputeCore → ComputeCore} {k : ComputeCore}
    (hexec : exec i s = .next (coreOp c g s)) (hk : g (s.core c.core) = k) : Makes i c k s :=
  h.makes_slot hexec rfl hk

end

end Claims
end Sys2Proof
end

section
/-! SUPPORT. O57: the vector operations (R110, R131, R172 to R176, R274, R276, R279, R795), and the scratch bytes that VST
writes. -/

namespace Sys2Proof.Machine

open Sys2Proof.Claims

/-! ## Bytes of scratch (R171) -/

/-- A write to scratch changes bytes of memory and which of them are open, nothing else. -/
theorem scratchWrite_eq (core : Nat) (bs : List Byte) : ∀ (o : Nat) (s : State), ∃ cells lost,
    scratchWrite core o bs s = { s with mem := { s.mem with cells := cells, lost := lost } } := by
  induction bs with
  | nil => exact fun _ s => ⟨s.mem.cells, s.mem.lost, rfl⟩
  | cons b bs ih => exact fun o s => ih (o + 1) (rawWrite (scratchAt core o) [b] s)

/-- Offsets less than 8 MiB apart name different bytes of a core's scratch. -/
theorem scratchAt_inj {core o i j : Nat} (hi : i < scratchBytes) (hj : j < scratchBytes)
    (h : scratchAt core (o + i) = scratchAt core (o + j)) : i = j := by
  simp only [scratchAt, scratchBytes] at *
  omega

/-- A byte that a write to scratch does not name reads as before. -/
theorem memByte_scratchWrite_other {core : Nat} {bs : List Byte} {x : Nat} : ∀ {o : Nat} {s : State},
    Memory.wf s.mem.cells = true → (∀ i, i < bs.length → x ≠ scratchAt core (o + i)) →
    memByte (scratchWrite core o bs s) x = memByte s x := by
  induction bs with
  | nil => exact fun _ _ => rfl
  | cons b bs ih =>
    intro o s hwf hx
    have hfirst : x ≠ scratchAt core o := hx 0 (Nat.succ_pos _)
    have hrest : ∀ i, i < bs.length → x ≠ scratchAt core (o + 1 + i) := fun i hi => by
      rw [Nat.add_assoc, Nat.add_comm 1 i]
      exact hx (i + 1) (Nat.succ_lt_succ hi)
    rw [scratchWrite, ih (rawWrite_wf _ _ hwf) hrest, memByte_rawWrite hwf, if_neg]
    simp only [List.length_cons, List.length_nil]
    omega

/-- Bytes written to scratch read as written, when they are no more than it holds. -/
theorem memByte_scratchWrite_at {core : Nat} {bs : List Byte} : ∀ {o i : Nat} {s : State},
    Memory.wf s.mem.cells = true → bs.length ≤ scratchBytes → i < bs.length →
    memByte (scratchWrite core o bs s) (scratchAt core (o + i)) = bs.getD i 0 := by
  induction bs with
  | nil => exact fun _ _ hi => absurd hi (Nat.not_lt_zero _)
  | cons b bs ih =>
    intro o i s hwf hlen hi
    rw [List.length_cons] at hlen hi
    rw [scratchWrite]
    cases i with
    | zero =>
      have hnot : ∀ j, j < bs.length → scratchAt core (o + 0) ≠ scratchAt core (o + 1 + j) := fun j hj heq => by
        rw [Nat.add_assoc] at heq
        have := scratchAt_inj (by decide) (by omega) heq
        omega
      rw [memByte_scratchWrite_other (rawWrite_wf _ _ hwf) hnot, memByte_rawWrite hwf, if_pos (by simp)]
      simp
    | succ i =>
      rw [show o + (i + 1) = o + 1 + i by omega, ih (rawWrite_wf _ _ hwf) (by omega) (by omega)]
      rfl

/-! ## Operations that are more than one function of the core (R172, R174, R175, R279) -/

section
variable {c : Slot} {p : Partition} {t : Stitch} {m : Model} {s : State}

/-- HROWSET is not held for rows where it writes another field than SCALE or no operation is under way (R279). -/
theorem hrowset_makes {array : Nat} {hoop : Bool} {f : RowField}
    {va : Nat} (h : Issues c p t m s) (hfree : f ≠ .scale ∨ ((s.core c.core).array array).flight = none) :
    Makes (.hrowset c array hoop f va) c ((s.core c.core).modArray array fun x =>
      x.setRows hoop f ((List.range 32).map fun i => (s.core c.core).lane32 va i)) s := by
  refine h.makes_slot (g := fun k => k.modArray array fun x =>
      x.setRows hoop f ((List.range 32).map fun i => k.lane32 va i)) rfl (if_neg ?_) rfl
  rintro ⟨hscale, hdue⟩
  obtain hf | hnone := hfree
  · exact hf hscale
  · rw [hnone] at hdue
    exact Bool.false_ne_true hdue

/-- VST changes 256 bytes of scratch (R172). -/
theorem vst_writes {va areg : Nat} (h : Issues c p t m s)
    (hlen : ((s.core c.core).vreg va).length = 256) :
    let k := s.core c.core
    let a := k.addr areg
    ∃ u, exec (.vst c va areg) s = .next u ∧ u = { correctedBy c.corrected s with cores := u.cores, mem := u.mem } ∧
      u.mem = { s.mem with cells := u.mem.cells, lost := u.mem.lost } ∧ CoreIs c.core (issuedOp c k) s u ∧
      (∀ i, i < 256 → memByte u (scratchAt c.core (a + i)) = (k.vreg va).getD i 0) ∧
      ∀ b, (∀ i, i < 256 → b ≠ scratchAt c.core (a + i)) → memByte u b = memByte s b := by
  intro k a
  have hwf := (State.canonical_mem h.canonical).1
  have hcores := State.canonical_cores h.canonical
  let v := scratchWrite c.core a (k.vreg va) s
  obtain ⟨cells, lost, hv⟩ : ∃ cells lost, v = { s with mem := { s.mem with cells := cells, lost := lost } } :=
    scratchWrite_eq c.core (k.vreg va) a s
  have hexec : exec (.vst c va areg) s = .next (correctedBy c.corrected (v.modCore c.core (issuedOp c))) :=
    congrArg Host.Outcome.next (h.slotOp_eq (v := v) rfl (by rw [hv]) (by rw [hv]; exact hcores))
  refine ⟨_, hexec, ?_, ?_, ?_, fun i hi => ?_, fun b hb => ?_⟩
  · rw [hv]
    rfl
  · rw [hv]
    rfl
  · rw [hv]
    exact coreIs_modCore hcores c.core (issuedOp c)
  · exact memByte_scratchWrite_at (s := s) hwf (by rw [hlen]; decide) (by rw [hlen]; exact hi)
  · exact memByte_scratchWrite_other (s := s) hwf (by rw [hlen]; exact hb)

/-- The functions of one lane, computed in FP32 and rounded once. -/
theorem laneFunction_makes {f : LaneFmt} {vd va : Nat}
    (h : Issues c p t m s) : ∀ i g, (i, g) ∈ [(Instr.vexp2 c f vd va, vexp2Fp32), (.vlog2 c f vd va, vlog2Fp32),
      (.vrcp c f vd va, vrcpFp32), (.vrsqrt c f vd va, vrsqrtFp32), (.vtanh c f vd va, vtanhFp32), (.vsigm c f vd va, vsigmFp32),
      (.vgelu c f vd va, vgeluFp32), (.vsilu c f vd va, vsiluFp32)] →
    Makes i c ((s.core c.core).lane1 f vd va g) s := by
  intro i g hi
  have hexec : exec i s = .next (coreOp c (fun k => k.lane1 f vd va g) s) := by
    simp only [List.mem_cons, Prod.mk.injEq, List.not_mem_nil, or_false] at hi
    obtain ⟨rfl, rfl⟩ | ⟨rfl, rfl⟩ | ⟨rfl, rfl⟩ | ⟨rfl, rfl⟩ | ⟨rfl, rfl⟩ | ⟨rfl, rfl⟩ | ⟨rfl, rfl⟩ | ⟨rfl, rfl⟩ := hi <;> rfl
  exact h.makes_core hexec rfl

/-- VBCAST puts one encoding into every lane. -/
theorem vbcast_makes {f : LaneFmt} {vd : Nat}
    (h : Issues c p t m s) (imm : W32) :
    Makes (.vbcast c f vd imm) c
      ((s.core c.core).setVreg vd (f.pack ((List.range f.lanes).map fun _ => LaneFmt.imm f imm))) s := by
  have hlanes : (List.range f.lanes).map (fun _ => LaneFmt.imm f imm) = List.replicate f.lanes (LaneFmt.imm f imm) := by
    rw [List.map_const', List.length_range]
  rw [hlanes]
  exact h.makes_core rfl rfl

/-- VSORT32 sorts each of the two groups of 32 lanes. -/
theorem vsort32_makes {vd va : Nat} (h : Issues c p t m s) :
    let k := s.core c.core
    let r := ((List.range 2).map fun g => sortLanes ((List.range 32).map fun i => (k.lane32 va (32 * g + i), i))).flatten
    Makes (.vsort32 c vd va) c (k.setPair vd (r.map fun x => (cleanFp32 x.1).toNat) (r.map (·.2))) s := by
  intro k r
  let group (g : Nat) := sortLanes ((List.range 32).map fun i => (k.lane32 va (32 * g + i), i))
  have hr : r = group 0 ++ group 1 := congrArg (group 0 ++ ·) (List.append_nil (group 1))
  rw [hr]
  exact h.makes_core rfl rfl

end

/-- Settles O57: what each operation gives its core, by what an operation that issues makes of it. -/
theorem vectorOperations : Obligations.VectorOperations := by
  unfold Obligations.VectorOperations
  intro c p t m s h
  refine ⟨fun f vd va vb vc => ⟨?vadd, ?vsub, ?vmul, ?vfma, ?vmin, ?vmax, ?eq, ?lt, ?le, ?vsel, fun imm => ?vbcast,
    fun target part => ?vcvt, laneFunction_makes h, ?vrsum, ?vrmax⟩,
    fun vd va vb areg => ⟨?vtwosum, ?vsort32, ?vld, fun f => ?vgather, fun hlen => ?vst,
      fun array hoop f => ⟨?hrowget, fun hfree => ?hrowset⟩⟩⟩
  case vbcast => exact vbcast_makes h imm
  case vsort32 => exact vsort32_makes h
  case vst => exact vst_writes h hlen
  case hrowset => exact hrowset_makes h hfree
  case vld | vgather => exact h.makes_slot rfl rfl rfl
  all_goals exact h.makes_core rfl rfl

end Sys2Proof.Machine
end

section
/-! SUPPORT. Accesses to lines in which no error lies, said once: they change memory and use free values, as the memory alone
decides (R17, R342 to R344, R357). -/

namespace Sys2Proof.Machine

open Sys2Proof.Claims

/-- State `w` with the memory of `z`, and the free values that `z` has used. -/
def withMemory (w z : State) : State := { w with mem := z.mem, fresh := z.fresh }

/-! ## Where no error lies an access finds none -/

theorem eccFinding_clean (a : Nat) (s : State) : eccFinding a .clean s = s := by
  unfold eccFinding
  cases areaOf a <;> rfl

theorem latentAt_quiet {s : State} (h : s.mem.latent = []) (a : Nat) : latentAt s a = .clean := by
  rw [latentAt, h]
  rfl

theorem badTags_quiet {s : State} (h : s.mem.latent = []) (ps : List (Nat × Nat)) : badTags s ps = [] := by
  have hnone : (ps.filter fun x => decide (x.1 < ddrEnd) && decide (latentAt s x.1 = .tagDouble)) = [] :=
    List.filter_eq_nil_iff.2 fun x _ => by simp [latentAt_quiet h]
  rw [badTags, hnone, List.map_nil]

/-- Errors that come to lie in no line change nothing. -/
theorem upset_quiet {ecc : List (Nat × EccFinding)} {s : State} (h : (upset ecc s).mem.latent = []) :
    upset ecc s = s ∧ s.mem.latent = [] := by
  obtain ⟨hecc, hlatent⟩ := List.append_eq_nil_iff.1 h
  refine ⟨?_, hlatent⟩
  rw [upset, hecc]
  rfl

/-- No rewrite under way is settled by the access. -/
theorem settleLine_same {line : Nat} {s : State}
    (h : settleTags (fun i => Config.freeBool (s.fresh + i)) line 0 s.mem.tags = s.mem.tags) :
    settleLine line s = s.useFreshN s.mem.tags.length := if_pos h

/-- A rewrite under way has reached the line. -/
theorem settleLine_reached {line : Nat} {s : State}
    (h : settleTags (fun i => Config.freeBool (s.fresh + i)) line 0 s.mem.tags ≠ s.mem.tags) :
    settleLine line s = (s.modMem fun m =>
      { m with
        tags := settleTags (fun i => Config.freeBool (s.fresh + i)) line 0 s.mem.tags
        poison := m.poison.filter (· != line) }).useFreshN s.mem.tags.length := if_neg h

theorem settleLine_withMemory (line : Nat) (w z : State) :
    settleLine line (withMemory w z) = withMemory w (settleLine line z) := by
  by_cases h : settleTags (fun i => Config.freeBool (z.fresh + i)) line 0 z.mem.tags = z.mem.tags
  · rw [settleLine_same (s := withMemory w z) h, settleLine_same h]
    rfl
  · rw [settleLine_reached (s := withMemory w z) h, settleLine_reached h]
    rfl

theorem settleLine_latent (line : Nat) (s : State) : (settleLine line s).mem.latent = s.mem.latent := by
  by_cases h : settleTags (fun i => Config.freeBool (s.fresh + i)) line 0 s.mem.tags = s.mem.tags
  · rw [settleLine_same h]
    rfl
  · rw [settleLine_reached h]
    rfl

/-- What an access does to a line in which no error lies. -/
theorem accessLine_quiet {s : State} (h : s.mem.latent = []) (whole : Bool) (a : Nat) :
    accessLine whole a s =
      if faulted s a then s
      else if a < ddrEnd then settleLine (a / 64) (s.modDdr (channelOf a) (DdrChannel.order (.line (channelLocal a)))) else s := by
  have hlist : s.mem.latent.filter (fun x => decide (x.1 ≠ a / 64)) = s.mem.latent := by rw [h, List.filter_nil]
  have hfilter : (s.modMem fun m => { m with latent := m.latent.filter fun x => decide (x.1 ≠ a / 64) }) = s :=
    congrArg (fun l => { s with mem := { s.mem with latent := l } }) hlist
  have hfound : foundBy whole .clean = .clean := rfl
  unfold accessLine
  dsimp only
  rw [hfilter, latentAt_quiet h, hfound, eccFinding_clean]

theorem accessLine_latent {s : State} (h : s.mem.latent = []) (whole : Bool) (a : Nat) :
    (accessLine whole a s).mem.latent = [] := by
  rw [accessLine_quiet h]
  split
  · exact h
  · split
    · exact (settleLine_latent _ _).trans h
    · exact h

theorem accessLine_withMemory (w : State) {z : State} (h : z.mem.latent = []) (whole : Bool) (a : Nat) :
    accessLine whole a (withMemory w z) = withMemory w (accessLine whole a z) := by
  have hfault : faulted (withMemory w z) a = faulted z a := rfl
  rw [accessLine_quiet (s := withMemory w z) h, accessLine_quiet h, hfault]
  split
  · rfl
  · split
    · exact settleLine_withMemory _ w (z.modDdr _ _)
    · rfl

theorem accessPieces_latent {write : Bool} {ps : List (Nat × Nat)} {s : State} (h : s.mem.latent = []) :
    (accessPieces write ps s).mem.latent = [] := by
  induction ps generalizing s with
  | nil => exact h
  | cons p ps ih => exact ih (accessLine_latent h _ _)

/-- Accesses to lines in which no error lies change the memory, and use free values, as the memory decides. -/
theorem accessPieces_withMemory {write : Bool} {ps : List (Nat × Nat)} (w : State) {z : State} (h : z.mem.latent = []) :
    accessPieces write ps (withMemory w z) = withMemory w (accessPieces write ps z) := by
  induction ps generalizing z with
  | nil => rfl
  | cons p ps ih =>
    have hstep := accessLine_withMemory w h (write && decide (p.2 = 64)) p.1
    exact (congrArg (accessPieces write ps) hstep).trans (ih (accessLine_latent h _ _))

/-! ## Writes, reads and traffic -/

theorem unpoisonLine_withMemory (a : Nat) (w z : State) : unpoisonLine a (withMemory w z) = withMemory w (unpoisonLine a z) := by
  unfold unpoisonLine
  cases areaOf a <;> rfl

theorem pieceWrite_withMemory (a : Nat) (bs : List Byte) (w z : State) :
    pieceWrite a bs (withMemory w z) = withMemory w (pieceWrite a bs z) := by
  have hfault : faulted (withMemory w z) a = faulted z a := rfl
  have hpoison : poisoned (withMemory w z) a = poisoned z a := rfl
  unfold pieceWrite
  rw [hfault, hpoison]
  split
  · rfl
  · split
    · exact unpoisonLine_withMemory a w (rawWrite a bs z)
    · split <;> rfl

/-- A write changes the memory, as the memory decides. -/
theorem piecesWrite_withMemory (bad : List Nat) (ps : List (Nat × Nat)) (bs : List Byte) (w z : State) :
    piecesWrite bad ps bs (withMemory w z) = withMemory w (piecesWrite bad ps bs z) := by
  induction ps generalizing bs z with
  | nil => rfl
  | cons p ps ih =>
    rw [piecesWrite, piecesWrite, ← ih]
    split
    · rfl
    · rw [pieceWrite_withMemory]

theorem tagged_withMemory (w z : State) (ptr n : Nat) : tagged (withMemory w z) ptr n = tagged z ptr n := by
  have hmatch : ∀ pool gen ps, matching (withMemory w z) pool gen ps = matching z pool gen ps := fun pool gen ps => by
    induction ps with
    | nil => rfl
    | cons p ps ih =>
      rw [matching, matching, ih]
      rfl
  rw [tagged, tagged, hmatch]

theorem reachStop_withMemory (w z : State) (p : Partition) (x : Nat × Nat) :
    reachStop (withMemory w z) p x = reachStop z p x := by
  rw [reachStop, reachStop, tagged_withMemory]

/-- Traffic over the die links changes their credits and nothing else. -/
theorem carry_eq (node : Nat) (out : Bool) (ps : List (Nat × Nat)) (s : State) :
    carry node out ps s = { s with ctr := { s.ctr with links := (carry node out ps s).ctr.links } } := by
  induction ps generalizing s with
  | nil => rfl
  | cons p ps ih => exact ih (carryLine node out p.1 s)

end Sys2Proof.Machine
end

section
/-! SUPPORT. The post-processing units (R197 to R204): the running job of a unit, and what carrying it out comes to when its pointers
reach what they name and no error lies there. -/

namespace Sys2Proof

/-- The running job of a list whose running jobs have changed and run on. -/
theorem find?_started_map (l : List PpuJob) {f : PpuJob → PpuJob} (hf : ∀ j, (f j).started = j.started) :
    (l.filterMap fun j => if j.started then some (f j) else some j).find? (·.started) = (l.find? (·.started)).map f := by
  induction l with
  | nil => rfl
  | cons j l ih =>
    cases hj : j.started with
    | true =>
      have hfj : (f j).started = true := (hf j).trans hj
      simp [hj, hfj]
    | false => simpa [hj] using ih

/-- The jobs that are left once the running ones are gone. -/
theorem filterMap_started_none (l : List PpuJob) :
    (l.filterMap fun j => if j.started then none else some j) = l.filter fun j => !j.started := by
  induction l with
  | nil => rfl
  | cons j l ih =>
    rw [List.filterMap_cons, List.filter_cons]
    cases hj : j.started with
    | true => exact ih
    | false => exact congrArg (j :: ·) ih

namespace Machine

open Sys2Proof.Claims

theorem State.canonical_ppu {s : State} (h : s.canonical = true) : SMap.wf {} s.ppu = true :=
  have ⟨_, _, _, _, _, _, _, _, hppu, _⟩ := (State.canonical_iff s).1 h
  hppu

/-! ## The unit's jobs (R197) -/

/-- A unit that runs a job starts none. -/
theorem PpuUnit.startNext_running {u : PpuUnit} (h : u.jobs.any (·.started) = true) : PpuUnit.startNext u = u := if_pos h

/-- The running job changes and runs on. -/
theorem runningJob_modJob {s : State} {k : Nat} {j : PpuJob} {f : PpuJob → PpuJob} (hwf : SMap.wf {} s.ppu = true)
    (hj : runningJob s k = some j) (hf : ∀ j, (f j).started = j.started) :
    runningJob (modJob k (fun j => some (f j)) s) k = some (f j) := by
  let l := (PpuUnit.startNext (SMap.get {} s.ppu k)).jobs
  let l' := l.filterMap fun j => if j.started then some (f j) else some j
  have hfind : l'.find? (·.started) = some (f j) := (find?_started_map l hf).trans (congrArg (Option.map f) hj)
  have hruns : l'.any (·.started) = true :=
    List.any_eq_true.2 ⟨f j, List.mem_of_find?_eq_some hfind, List.find?_some hfind⟩
  have hunit : SMap.get {} (modJob k (fun j => some (f j)) s).ppu k = PpuUnit.startNext { jobs := l' } :=
    SMap.get_set_same hwf k _
  rw [runningJob, hunit, PpuUnit.startNext_running (u := { jobs := l' }) hruns,
    PpuUnit.startNext_running (u := { jobs := l' }) hruns]
  exact hfind

/-- The running job leaves its unit, which starts the next. -/
theorem ppu_modJob_none {s : State} (hwf : SMap.wf {} s.ppu = true) (k : Nat) :
    SMap.get {} (modJob k (fun _ => none) s).ppu k = PpuUnit.startNext
      { jobs := (PpuUnit.startNext (SMap.get {} s.ppu k)).jobs.filter fun x => !x.started } := by
  rw [← filterMap_started_none]
  exact SMap.get_set_same hwf k _

theorem ppu_modJob_other {s : State} (hwf : SMap.wf {} s.ppu = true) {k e : Nat} (he : e ≠ k) (f : PpuJob → Option PpuJob) :
    SMap.get {} (modJob k f s).ppu e = SMap.get {} s.ppu e := SMap.get_set_other hwf he _

/-! ## A job is carried out (R17, R199, R326) -/

/-- Physical pieces of what a job's pointers name. -/
def reachLines (p : Partition) (l : List (Nat × Nat)) : List (Nat × Nat) := (l.map fun x => reachPieces p x.1 x.2).flatten

theorem reachLines_def (p : Partition) (l : List (Nat × Nat)) :
    reachLines p l = (l.map fun x => reachPieces p x.1 x.2).flatten := rfl

theorem ptrOk_of_reachStop {s : State} {p : Partition} {x : Nat × Nat} (h : (reachStop s p x).isNone = true) :
    ptrOk p x.1 x.2 = true := by
  unfold reachStop at h
  split at h
  · cases h
  next hok => simpa using hok

/-- Pointers that all reach what they name. -/
theorem filter_ptrOk {s : State} {p : Partition} {l : List (Nat × Nat)} (h : ∀ x ∈ l, (reachStop s p x).isNone = true) :
    (l.filter fun x => ptrOk p x.1 x.2) = l :=
  List.filter_eq_self.2 fun x hx => ptrOk_of_reachStop (h x hx)

/-- A job without poison writes its results. -/
theorem closePpuJob_clean {p : Partition} {owner : Option (Partition × Stitch × Model)} {k : Nat} {o : PpuOp}
    {rs : List (List Byte)} {ins outs : List (Nat × Nat)} {lostTags : List Nat} {s : State} (hbad : badPieces s (reachLines p ins) = [])
    (hlost : dropsPiece lostTags s (reachLines p outs) = false) :
    closePpuJob p owner k o rs ins outs lostTags s =
      writeResults lostTags p o rs (modJob k (fun j => some { j with done := true }) s) := by
  have hb : badPieces s (ins.map fun x => reachPieces p x.1 x.2).flatten = [] := hbad
  have hl : dropsPiece lostTags s (outs.map fun x => reachPieces p x.1 x.2).flatten = false := hlost
  have hgo : (owner.bind fun x => poisonRerun x.1 x.2.1 x.2.2 [] (modJob k (fun j => some { j with done := true }) s)) = none := by
    cases owner <;> rfl
  unfold closePpuJob
  dsimp only
  rw [hb, hl, hgo]
  rfl

/-- Results change the memory, as the memory decides. -/
theorem writeResults_withMemory (lostTags : List Nat) (p : Partition) (o : PpuOp) (rs : List (List Byte)) (w z : State) :
    writeResults lostTags p o rs (withMemory w z) = withMemory w (writeResults lostTags p o rs z) := by
  unfold writeResults
  dsimp only
  rw [piecesWrite_withMemory, piecesWrite_withMemory]

/-- What the results of a job leave in memory. -/
theorem writeResults_eq (p : Partition) (o : PpuOp) (rs : List (List Byte)) (s : State) :
    writeResults [] p o rs s = piecesWrite [] (reachPieces p o.outn 4) (leBytes 4 rs.length)
      (piecesWrite [] (reachPieces p o.out rs.flatten.length) rs.flatten s) := rfl

/-- Traffic of a job changes the credits of die links and nothing else. -/
theorem carry_carry_eq (k : Nat) (ins outs : List (Nat × Nat)) (s : State) :
    carry k true outs (carry k false ins s) = { s with ctr := (carry k true outs (carry k false ins s)).ctr } := by
  conv => lhs; rw [carry_eq, carry_eq k false]
  conv => rhs; rw [carry_eq, carry_eq k false]

/-- The accesses of a job whose lines hold no error: they find none, and the traffic that they make on the die links changes nothing
of what they do. -/
theorem jobAccesses_quiet {s : State} (h : s.mem.latent = []) (k : Nat) (ins outs : List (Nat × Nat)) :
    let w := carry k true outs (carry k false ins s)
    badTags (accessPieces false ins w) outs = [] ∧
      accessPieces true outs (accessPieces false ins w) = withMemory w (accessPieces true outs (accessPieces false ins s)) := by
  intro w
  have hw : w = withMemory w s := by
    have hcarry : w = { s with ctr := w.ctr } := carry_carry_eq k ins outs s
    rw [hcarry]
    rfl
  have hread : accessPieces false ins w = withMemory w (accessPieces false ins s) :=
    (congrArg (accessPieces false ins) hw).trans (accessPieces_withMemory w h)
  have hlatent : (accessPieces false ins s).mem.latent = [] := accessPieces_latent h
  rw [hread]
  exact ⟨badTags_quiet hlatent outs, accessPieces_withMemory w hlatent⟩

/-- The running job that is due writes the results of its operation, when its pointers reach what they name and no error or poison
lies there. -/
theorem runJob_quiet {s : State} {k : Nat} {j : PpuJob} {op n : Nat} {ecc : List (Nat × EccFinding)} {q : Partition} {o : PpuOp}
    {rs : List (List Byte)} {ins outs : List (Nat × Nat)} {w z : State} (hj : runningJob s k = some j) (hdone : j.done = false)
    (hecc : (upset ecc s).mem.latent = []) (htag : tagged s j.addr 64 = 64) (hq : jobReach j = q)
    (ho : PpuOp.parse (reachRead s q j.addr 64) = o) (hop : o.op = op)
    (hn : (if o.counted then min o.n (leNat (reachRead s q o.in1 4)) else o.n) = n)
    (hrs : PpuOp.results o n ((o.reads n).map fun x => reachRead s q x.1 x.2) = rs)
    (hins : [(j.addr, 64)] ++ ((if o.counted then [(o.in1, 4)] else []) ++ o.reads n) = ins)
    (houts : [(o.out, rs.flatten.length), (o.outn, 4)] = outs)
    (hw : carry k true (reachLines q outs) (carry k false (reachLines q ins) s) = w)
    (hz : accessPieces true (reachLines q outs) (accessPieces false (reachLines q ins) s) = z)
    (hreach : ∀ x ∈ ins ++ outs, (reachStop z q x).isNone = true) (hbad : badPieces z (reachLines q ins) = [])
    (hlost : dropsPiece [] z (reachLines q outs) = false) :
    runJob op k ecc s = withMemory (modJob k (fun j => some { j with done := true }) w) (writeResults [] q o rs z) := by
  obtain ⟨hupset, hquiet⟩ := upset_quiet hecc
  obtain ⟨htags, haccess⟩ := jobAccesses_quiet hquiet k (reachLines q ins) (reachLines q outs)
  rw [hw] at htags haccess
  rw [hz] at haccess
  have hfind : ((ins ++ outs).find? fun x => (reachStop (withMemory w z) q x).isSome) = none :=
    List.find?_eq_none.2 fun x hx => by
      rw [reachStop_withMemory, Option.isNone_iff_eq_none.1 (hreach x hx)]
      exact Bool.false_ne_true
  have hinsOk : (ins.filter fun x => ptrOk q x.1 x.2) = ins :=
    filter_ptrOk fun x hx => hreach x (List.mem_append_left _ hx)
  have houtsOk : (outs.filter fun x => ptrOk q x.1 x.2) = outs :=
    filter_ptrOk fun x hx => hreach x (List.mem_append_right _ hx)
  have hstale : decide (tagged s j.addr 64 < 64) = false := by rw [htag]; rfl
  unfold runJob
  rw [hj]
  dsimp only
  rw [hq, ho, hstale, if_neg (by simp [hdone, hop])]
  simp only [Bool.false_eq_true, if_false]
  rw [hn, hrs, hins, houts, hinsOk, houtsOk, hupset]
  rw [← reachLines_def, ← reachLines_def, hw, htags, haccess, hfind]
  dsimp only
  rw [closePpuJob_clean (s := withMemory w z) hbad hlost]
  exact writeResults_withMemory [] q o rs (modJob k (fun j => some { j with done := true }) w) z

/-- What the unit's operation changes: memory, the unit, and what its accesses used (R197, R199). -/
theorem runJob_quiet_changes {s w z : State} {k : Nat} {j : PpuJob} {q : Partition} {o : PpuOp} {rs : List (List Byte)}
    (hcan : s.canonical = true) (hj : runningJob s k = some j) (hw : w = { s with ctr := w.ctr }) :
    let u := withMemory (modJob k (fun j => some { j with done := true }) w) (writeResults [] q o rs z)
    u = { s with mem := u.mem, ppu := u.ppu, fresh := u.fresh, ctr := w.ctr } ∧
      u.mem = (piecesWrite [] (reachPieces q o.outn 4) (leBytes 4 rs.length)
        (piecesWrite [] (reachPieces q o.out rs.flatten.length) rs.flatten z)).mem ∧
      runningJob u k = some { j with done := true } ∧ ∀ e, e ≠ k → SMap.get {} u.ppu e = SMap.get {} s.ppu e := by
  intro u
  have hppu : w.ppu = s.ppu := by rw [hw]
  have hwf : SMap.wf {} w.ppu = true := hppu ▸ State.canonical_ppu hcan
  have hrunning : runningJob w k = some j := by rw [runningJob, hppu]; exact hj
  have hmem : u.mem = (writeResults [] q o rs z).mem := rfl
  refine ⟨?_, hmem.trans (congrArg State.mem (writeResults_eq q o rs z)), runningJob_modJob hwf hrunning fun _ => rfl,
    fun e he => ?_⟩
  · have hrest : u = { w with mem := u.mem, ppu := u.ppu, fresh := u.fresh } := rfl
    rw [hrest, hw]
  · rw [← hppu]
    exact ppu_modJob_other hwf he _

/-- The command of an operation carries out the running job, when it is of that operation. -/
theorem exec_ppuOperation {i : Instr} {op k : Nat} {ecc : List (Nat × EccFinding)} (s : State)
    (h : (i, op) ∈ [(Instr.ppuBoxdec k ecc, 1), (.ppuNms k ecc, 2), (.ppuTopk k ecc, 3), (.ppuIou k ecc, 4),
      (.ppuAssign k ecc, 5)]) : exec i s = .next (runJob op k ecc s) := by
  simp only [List.mem_cons, Prod.mk.injEq, List.not_mem_nil, or_false] at h
  obtain ⟨rfl, rfl⟩ | ⟨rfl, rfl⟩ | ⟨rfl, rfl⟩ | ⟨rfl, rfl⟩ | ⟨rfl, rfl⟩ := h <;> rfl

/-- The end of a job that is done (R197). -/
theorem exec_ppuJobEnd {s : State} {k : Nat} {j : PpuJob} (hj : runningJob s k = some j) (hdone : j.done = true) :
    exec (.ppuJobEnd k) s = .next (if j.left then modJob k (fun _ => none) s
      else modHead j.core j.shuttle (fun d => { d with ppuDone := true }) (modJob k (fun _ => none) s)) := by
  have hnot : ¬ j.done = false := by simp [hdone]
  change execPpuJobEnd k s = _
  unfold execPpuJobEnd
  rw [hj]
  dsimp only
  rw [if_neg hnot]

end Machine
end Sys2Proof
end

section
/-! SUPPORT. A contained fault on a card in no pair, said once: its event may go into the pages of the sessions that receive events,
the fault is counted, and AER reports a Corrected Internal Error; nothing else changes (R554, R556, R725). -/

namespace Sys2Proof.Machine

/-- Between `s` and `t` records have gone into completion pages, and pages to the host. -/
structure RecordsPlaced (s t : State) : Prop where
  rest : t = { s with obj := t.obj, host := t.host, pcie := t.pcie, out := t.out }
  obj : t.obj = { s.obj with pageSets := t.obj.pageSets }
  pcie : t.pcie = { s.pcie with linkState := t.pcie.linkState, waiting := t.pcie.waiting }

theorem RecordsPlaced.refl (s : State) : RecordsPlaced s s := ⟨rfl, rfl, rfl⟩

theorem RecordsPlaced.trans {a b c : State} (h : RecordsPlaced a b) (k : RecordsPlaced b c) : RecordsPlaced a c where
  rest := by rw [k.rest, h.rest]
  obj := by rw [k.obj, h.obj]
  pcie := by rw [k.pcie, h.pcie]

theorem RecordsPlaced.pair {s t : State} (h : RecordsPlaced s t) : t.pair = s.pair := by rw [h.rest]

/-- What waits for a partner waits for none on a card in no pair. -/
theorem healthy_alone {s : State} (h : s.pair.mode = 0) : healthy s = false := by simp [healthy, h]

theorem modHost_placed (f : HostUnit → HostUnit) (s : State) : RecordsPlaced s (s.modHost f) := ⟨rfl, rfl, rfl⟩

theorem setPageSet_placed (p : PageSet) (s : State) : RecordsPlaced s (setPageSet p s) := ⟨rfl, rfl, rfl⟩

theorem pushLink_placed (m : OutMsg) (s : State) : RecordsPlaced s (s.pushLink m) := by
  have hpush : ∀ (l : List OutMsg) (u : State), RecordsPlaced u (l.foldl (fun u m => u.push m) u) := by
    intro l
    induction l with
    | nil => exact .refl
    | cons m l ih => exact fun u => RecordsPlaced.trans (b := u.push m) ⟨rfl, rfl, rfl⟩ (ih (u.push m))
  exact RecordsPlaced.trans (b := s.modPcie fun p => { p with linkState := 0 }) ⟨rfl, rfl, rfl⟩
    (hpush (linkMessages s.pcie m) _)

theorem sendPage_placed (set : Handle) (a : Nat) (bs : List Byte) (contents : Bool) (s : State) :
    RecordsPlaced s (sendPage set a bs contents s) := by
  unfold sendPage sendAs
  split
  · exact pushLink_placed _ s
  · exact ⟨rfl, rfl, rfl⟩

theorem sendMsix_placed (v : Nat) (s : State) : RecordsPlaced s (sendMsix v s) := by
  obtain ⟨p, o, h, -⟩ := sendMsix_cases v s
  rw [h]
  exact ⟨rfl, rfl, rfl⟩

theorem setCause_placed (bit : Nat) (s : State) : RecordsPlaced s (setCause bit s) := by
  obtain ⟨c, p, k, o, h⟩ := setCause_fields bit s
  rw [h]
  exact ⟨rfl, rfl, rfl⟩

theorem finishDone_placed (set : Handle) (addr seq last : Nat) (s : State) :
    RecordsPlaced s (finishDone ⟨set, addr, seq, none, last⟩ s) := by
  unfold finishDone
  split
  · exact .refl s
  · split
    · exact ((pushLink_placed _ s).trans (setPageSet_placed _ _)).trans (sendMsix_placed _ _)
    · exact .refl s

/-- On a card in no pair a completion page's DONE waits for no partner. -/
theorem writeDone_placed {z s : State} (hz : z.pair.mode = 0) (hs : RecordsPlaced z s) (set : Handle) (addr seq last : Nat) :
    RecordsPlaced z (writeDone ⟨set, addr, seq, none, last⟩ s) := by
  have h : s.pair.mode = 0 := by rw [hs.pair, hz]
  have hwait : mustWait s = false := by rw [mustWait, healthy_alone h, Bool.false_and]
  have hsend : writeDone ⟨set, addr, seq, none, last⟩ s = sendDone ⟨set, addr, seq, none, last⟩ s := by
    unfold writeDone
    dsimp only
    rw [mirrorFlush_alone h, hwait, if_neg Bool.false_ne_true]
  rw [hsend]
  refine hs.trans ?_
  unfold sendDone
  split
  · exact finishDone_placed set addr seq last s
  · exact ⟨rfl, rfl, rfl⟩

theorem deliverCompletion_placed {s : State} (h : s.pair.mode = 0) (p : PageSet) : RecordsPlaced s (deliverCompletion p s) := by
  unfold deliverCompletion
  split
  · exact .refl s
  · split
    · exact .refl s
    · exact writeDone_placed h (((sendPage_placed _ _ _ _ s).trans (sendPage_placed _ _ _ _ _)).trans (setPageSet_placed _ _))
        _ _ _ _

theorem tryPlace_placed {s : State} (h : s.pair.mode = 0) (sess : Handle) (r : CRec) : RecordsPlaced s (tryPlace sess r s).2 := by
  unfold tryPlace
  split
  · exact .refl s
  · split
    · exact .refl s
    · rename_i p _
      have hroom : RecordsPlaced s (if p.fill ≠ 0 ∧ pageBytes < p.fill + r.size then deliverCompletion p s else s) := by
        split
        · exact deliverCompletion_placed h p
        · exact .refl s
      dsimp only
      split
      · exact hroom
      · split
        · exact hroom
        · exact hroom.trans (setPageSet_placed _ _)

theorem eventsFor_placed (sess : Handle) (l : List StoredEvent) {s : State} (h : s.pair.mode = 0) :
    RecordsPlaced s (eventsFor sess l s).2 := by
  induction l generalizing s with
  | nil => exact .refl s
  | cons e l ih =>
    unfold eventsFor
    split
    · exact ih h
    · split
      · exact .refl s
      · have htry := tryPlace_placed h sess (.event e.1)
        split
        next heq =>
          rw [heq] at htry
          exact htry
        next heq =>
          rw [heq] at htry
          exact htry.trans (ih (by rw [htry.pair, h]))

theorem drainEvents_placed {s : State} (h : s.pair.mode = 0) : RecordsPlaced s (drainEvents s) := by
  have hfold : ∀ (l : List Handle) (u : State), u.pair.mode = 0 → RecordsPlaced u (l.foldl (fun u sess =>
      (eventsFor sess u.host.events u).2.modHost fun x => { x with events := (eventsFor sess u.host.events u).1 }) u) := by
    intro l
    induction l with
    | nil => exact fun u _ => .refl u
    | cons sess l ih =>
      intro u hu
      have hone := (eventsFor_placed sess u.host.events hu).trans
        (modHost_placed (fun x => { x with events := (eventsFor sess u.host.events u).1 }) _)
      exact hone.trans (ih _ (by rw [hone.pair, hu]))
  refine (hfold (eventSessions s) s h).trans ?_
  exact ⟨rfl, rfl, rfl⟩

theorem issueEvent_placed {s : State} (h : s.pair.mode = 0) (code source : Nat) (args : List Nat) :
    RecordsPlaced s (issueEvent code source args s) := by
  have hdrain := (modHost_placed (fun x => { x with events := x.events ++
    [(⟨code, source, s.now, (args ++ [0, 0, 0, 0]).take 4⟩, [])] }) s).trans (drainEvents_placed (by exact h))
  unfold issueEvent
  dsimp only
  split
  · exact hdrain
  · exact (hdrain.trans (modHost_placed _ _)).trans (setCause_placed _ _)

/-- A Corrected Internal Error: its status, Device Status, and its message (R614, Table 20-3). -/
theorem internalError_corrected (s : State) : ∃ o, internalError true s = { s with
    pcie := { s.pcie with corr := s.pcie.corr ||| 0x4000#32, devStatus := s.pcie.devStatus ||| 1#4 }, out := o } := by
  change ∃ o, correctableError 14 s = _
  unfold correctableError
  dsimp only
  split
  · exact ⟨s.out, rfl⟩
  · unfold errorMessage
    have hserr : ∀ u : State, (u.pcie.serrEnable && decide (0 ≠ 0)) = false := fun u => Bool.and_false _
    dsimp only
    rw [hserr]
    split
    · exact ⟨_, rfl⟩
    · exact ⟨s.out, rfl⟩

/-- A contained fault on a card in no pair. -/
theorem contained_alone {s : State} (h : s.pair.mode = 0) (kind unit handle stitch : Nat) :
    let t := contained kind unit handle stitch s
    t = { s with obj := t.obj, host := t.host, pcie := t.pcie, ctr := t.ctr, out := t.out } ∧
      t.obj = { s.obj with pageSets := t.obj.pageSets } ∧ t.ctr.contained = s.ctr.contained + 1 ∧
      t.pcie.corr = s.pcie.corr ||| 0x4000#32 := by
  intro t
  let u : State := s.modCtr fun c => { c with contained := c.contained + 1, kinds := SMap.modify 0 c.kinds kind (· + 1) }
  obtain ⟨hrest, hobj, hpcie⟩ := issueEvent_placed (s := u) h evContained unit
    [kind, handle, SMap.get 0 u.ctr.kinds kind, stitch]
  obtain ⟨o, herr⟩ := internalError_corrected
    (issueEvent evContained unit [kind, handle, SMap.get 0 u.ctr.kinds kind, stitch] u)
  have ht : t = _ := herr
  rw [ht]
  generalize issueEvent evContained unit [kind, handle, SMap.get 0 u.ctr.kinds kind, stitch] u = v at *
  refine ⟨?_, ?_, ?_, ?_⟩
  · rw [hrest]
    rfl
  · exact hobj
  · rw [hrest]
    rfl
  · have hcorr : v.pcie.corr = s.pcie.corr := by rw [hpcie]; rfl
    exact congrArg (· ||| 0x4000#32) hcorr

end Sys2Proof.Machine
end

section
/-! SUPPORT. What the hub writes into clean memory: nothing else changes but credits and free values, and memory stays clean
(R237, R342, R357). -/

namespace Sys2Proof.Machine

open Sys2Proof.Claims

/-- A card whose memory is clean and whose maps are in canonical form. -/
structure CleanCard (s : State) : Prop where
  clean : CleanMemory s
  canonical : s.canonical = true

/-- Clean memory is what a state's memory says. -/
theorem cleanMemory_of_mem {s t : State} (h : CleanMemory s) (hm : t.mem = s.mem) : CleanMemory t := by
  obtain ⟨latent, ddr, hub, scratch, pillow, channels⟩ := h
  rw [← hm] at latent ddr hub scratch
  refine ⟨latent, ddr, hub, scratch, fun k => ?_, fun c => ?_⟩
  · rw [State.pil, hm]
    exact pillow k
  · rw [State.ddr, hm]
    exact channels c

/-! ## What clean memory answers -/

theorem faulted_clean {s : State} (h : CleanMemory s) (a : Nat) : faulted s a = false := by
  simp [faulted, h.channels]

theorem poisoned_clean {s : State} (h : CleanMemory s) (a : Nat) : poisoned s a = false := by
  unfold poisoned
  cases areaOf a <;> simp [h.ddr, h.hub, h.scratch, h.pillow, faulted_clean h]

theorem dropsPiece_clean {s : State} (h : CleanMemory s) (ps : List (Nat × Nat)) : dropsPiece [] s ps = false := by
  simp [dropsPiece, faulted_clean h, poisoned_clean h]

/-! ## What keeps memory clean -/

theorem rawWrite_clean {s : State} (h : CleanMemory s) (a : Nat) (bs : List Byte) : CleanMemory (rawWrite a bs s) :=
  ⟨h.latent, h.ddr, h.hub, h.scratch, h.pillow, h.channels⟩

theorem loseAreas_clean {s : State} (h : CleanMemory s) (areas keep : List (Nat × Nat)) : CleanMemory (loseAreas areas keep s) :=
  ⟨(congrArg (List.filter _) h.latent).trans (List.filter_nil ..), h.ddr, h.hub, h.scratch, h.pillow, h.channels⟩

theorem unpoisonLine_clean {s : State} (h : CleanMemory s) (hpil : SMap.wf {} s.mem.pil = true) (a : Nat) :
    CleanMemory (unpoisonLine a s) := by
  obtain ⟨latent, ddr, hub, scratch, pillow, channels⟩ := h
  have hnil : ∀ {l : List Nat}, l = [] → l.filter (· != a / 64) = [] := fun h => by rw [h, List.filter_nil]
  unfold unpoisonLine
  cases areaOf a with
  | ddr | ddrPrivate => exact ⟨latent, hnil ddr, hub, scratch, pillow, channels⟩
  | hub | hubPrivate => exact ⟨latent, ddr, hnil hub, scratch, pillow, channels⟩
  | scratch => exact ⟨latent, ddr, hub, hnil scratch, pillow, channels⟩
  | control | reserved => exact ⟨latent, ddr, hub, scratch, pillow, channels⟩
  | pillow =>
    refine ⟨latent, ddr, hub, scratch, fun k => ?_, channels⟩
    by_cases hk : k = (a - pillowBase) / pillowBytes
    · subst hk
      dsimp only
      rw [State.modPil_same s _ _ hpil]
      exact hnil (pillow _)
    · dsimp only
      rw [State.modPil_other s _ hpil hk]
      exact pillow k

theorem pieceWrite_clean {s : State} (h : CleanCard s) (a : Nat) (bs : List Byte) : CleanMemory (pieceWrite a bs s) := by
  obtain ⟨-, -, hpil⟩ := State.canonical_mem h.canonical
  have hraw := rawWrite_clean h.clean a bs
  unfold pieceWrite
  split
  · exact h.clean
  · split
    · exact unpoisonLine_clean hraw hpil a
    · split
      · exact h.clean
      · exact hraw

theorem settleLine_clean {s : State} (h : CleanMemory s) (line : Nat) : CleanMemory (settleLine line s) := by
  by_cases hs : settleTags (fun i => Config.freeBool (s.fresh + i)) line 0 s.mem.tags = s.mem.tags
  · rw [settleLine_same hs]
    exact cleanMemory_of_mem h rfl
  · rw [settleLine_reached hs]
    exact ⟨h.latent, (congrArg (List.filter _) h.ddr).trans (List.filter_nil ..), h.hub, h.scratch, h.pillow, h.channels⟩

/-- What a channel issues for a line does not take it into FAULT. -/
theorem order_line_state (l : Nat) (d : DdrChannel) : (d.order (.line l)).state = d.state := by
  unfold DdrChannel.order DdrChannel.carryOut DdrChannel.issue
  dsimp only
  split
  · rfl
  · split <;> rfl

theorem modDdr_clean {s : State} (h : CleanCard s) (n : Nat) {f : DdrChannel → DdrChannel} (hf : ∀ d, (f d).state = d.state) :
    CleanMemory (s.modDdr n f) := by
  obtain ⟨⟨latent, ddr, hub, scratch, pillow, channels⟩, hcan⟩ := h
  obtain ⟨-, hddr, -⟩ := State.canonical_mem hcan
  refine ⟨latent, ddr, hub, scratch, pillow, fun c => ?_⟩
  by_cases hc : c = n
  · subst hc
    rw [State.modDdr_same s _ _ hddr, hf]
    exact channels c
  · rw [State.modDdr_other s _ hddr hc]
    exact channels c

theorem accessLine_clean {s : State} (h : CleanCard s) (whole : Bool) (a : Nat) : CleanMemory (accessLine whole a s) := by
  rw [accessLine_quiet h.clean.latent]
  split
  · exact h.clean
  · split
    · exact settleLine_clean (modDdr_clean h _ (order_line_state _)) _
    · exact h.clean

theorem CleanCard.accessPieces {s : State} (h : CleanCard s) (write : Bool) (ps : List (Nat × Nat)) :
    CleanCard (accessPieces write ps s) := by
  induction ps generalizing s with
  | nil => exact h
  | cons p ps ih => exact ih ⟨accessLine_clean h _ _, (accessLine_evolves _ _ s (Evolves.refl s)).canonical h.canonical⟩

theorem CleanCard.piecesWrite {s : State} (h : CleanCard s) (ps : List (Nat × Nat)) (bs : List Byte) :
    CleanCard (piecesWrite [] ps bs s) := by
  induction ps generalizing s bs with
  | nil => exact h
  | cons p ps ih => exact ih ⟨pieceWrite_clean h _ _, (pieceWrite_evolves _ _ s (Evolves.refl s)).canonical h.canonical⟩ _

/-! ## Writes of the hub (R342) -/

/-- Between `s` and `t` memory has changed and is clean, and accesses have taken credits and free values. -/
structure MemoryWritten (s t : State) : Prop where
  rest : t = { s with mem := t.mem, fresh := t.fresh, ctr := { s.ctr with links := t.ctr.links } }
  card : CleanCard t

theorem MemoryWritten.refl {s : State} (h : CleanCard s) : MemoryWritten s s := ⟨rfl, h⟩

theorem MemoryWritten.trans {a b c : State} (h : MemoryWritten a b) (k : MemoryWritten b c) : MemoryWritten a c :=
  ⟨by rw [k.rest, h.rest], k.card⟩

/-- Writes in turn. -/
theorem MemoryWritten.foldl {α : Type} {f : State → α → State} (hf : ∀ s x, CleanCard s → MemoryWritten s (f s x))
    (l : List α) {s : State} (h : CleanCard s) : MemoryWritten s (l.foldl f s) := by
  induction l generalizing s with
  | nil => exact .refl h
  | cons x l ih => exact (hf s x h).trans (ih (hf s x h).card)

/-- Control core 0 writes bytes into clean memory: they all land. -/
theorem hubStore_written (a : Nat) (bs : List Byte) {s : State} (h : CleanCard s) : MemoryWritten s (hubStore a bs s) := by
  let ps := pieces a bs.length
  let w := carry 4 true ps s
  let z := accessPieces true ps w
  let u := piecesWrite [] ps bs z
  have hw : CleanCard w := ⟨cleanMemory_of_mem h.clean (by rw [show w = carry 4 true ps s from rfl, carry_eq]),
    (carry_evolves 4 true ps s (Evolves.refl s)).canonical h.canonical⟩
  have hz : CleanCard z := hw.accessPieces true ps
  have hstore : hubStore a bs s = u := by
    change uncorrectable (dropsPiece (badTags s ps) z ps) (piecesWrite (badTags s ps) ps bs z) = u
    rw [badTags_quiet h.clean.latent, dropsPiece_clean hz.clean]
    rfl
  have hcarry : w = { s with ctr := { s.ctr with links := w.ctr.links } } := carry_eq 4 true ps s
  have haccess : z = withMemory w z := accessPieces_withMemory w hw.clean.latent
  have hwrite : u = withMemory z u := piecesWrite_withMemory [] ps bs z z
  rw [hstore]
  refine ⟨?_, hz.piecesWrite ps bs⟩
  have hu : u = { w with mem := u.mem, fresh := u.fresh } := by
    rw [hwrite, haccess]
    rfl
  rw [hu]
  conv => lhs; rw [hcarry]

/-- A template list is written into every copy of its place (R237, R238). -/
theorem writeTemplate_written (p : Partition) (t : Stitch) (m : Model) (l : Template) {s : State} (h : CleanCard s) :
    MemoryWritten s (writeTemplate p t m l s) := by
  unfold writeTemplate
  split
  · exact .refl h
  · exact MemoryWritten.foldl (fun s _ hs => hubStore_written _ _ hs) _ h

theorem loseAreas_written (areas : List (Nat × Nat)) {s : State} (h : CleanCard s) : MemoryWritten s (loseAreas areas [] s) :=
  ⟨rfl, loseAreas_clean h.clean areas [], (loseAreas_evolves areas [] s (Evolves.refl s)).canonical h.canonical⟩

end Sys2Proof.Machine
end

section
/-! SUPPORT. O60: post-processing jobs (R197 to R204), and a stitch that is re-run from its start after a double-bit error of a core
(R136, R239, R724). -/

namespace Sys2Proof

/-- No core belongs to a partition twice. -/
theorem Partition.cores_nodup (p : Partition) : p.cores.Nodup := by
  have hquads : p.quadList.Nodup := List.Pairwise.filter _ List.nodup_range
  refine List.pairwise_flatten.2 ⟨fun l hl => ?_, List.pairwise_map.2 (hquads.imp fun {q r} hne => ?_)⟩
  · obtain ⟨q, -, rfl⟩ := List.mem_map.1 hl
    exact List.pairwise_map.2 (List.nodup_range.imp fun {i j} hij => by omega)
  · intro n hq o hr
    obtain ⟨i, hi, rfl⟩ := List.mem_map.1 hq
    obtain ⟨j, hj, rfl⟩ := List.mem_map.1 hr
    rw [List.mem_range] at hi hj
    omega

namespace Machine

open Sys2Proof.Claims

/-- Cores that change in turn, each once. -/
theorem foldl_modCore {β : Type} (key : β → Nat) (g : β → ComputeCore → ComputeCore) (l : List β) {s : State}
    (h : SMap.wf {} s.cores = true) :
    let u := l.foldl (fun s x => s.modCore (key x) (g x)) s
    u = { s with cores := u.cores } ∧ SMap.wf {} u.cores = true ∧ (∀ n, n ∉ l.map key → u.core n = s.core n) ∧
      ((l.map key).Nodup → ∀ x ∈ l, u.core (key x) = g x (s.core (key x))) := by
  induction l generalizing s with
  | nil => exact ⟨rfl, h, fun _ _ => rfl, fun _ x hx => absurd hx List.not_mem_nil⟩
  | cons y l ih =>
    obtain ⟨hrest, hwf, hother, hsame⟩ := ih (s := s.modCore (key y) (g y)) (SMap.wf_modify _ _ h)
    refine ⟨hrest, hwf, fun n hn => ?_, fun hnodup x hx => ?_⟩
    · obtain ⟨hny, hnl⟩ := not_or.1 fun h => hn (List.mem_cons.2 h)
      exact (hother n hnl).trans (State.modCore_other s _ h hny)
    · obtain ⟨hyl, hl⟩ := List.nodup_cons.1 hnodup
      obtain rfl | hx := List.mem_cons.1 hx
      · exact (hother (key x) hyl).trans (State.modCore_same s _ _ h)
      · have hne : key x ≠ key y := fun heq => hyl (heq ▸ List.mem_map_of_mem hx)
        exact (hsame hl x hx).trans (congrArg (g x) (State.modCore_other s _ h hne))

/-- The cores of a partition become idle. -/
theorem idleCores_cores (p : Partition) {s : State} (h : SMap.wf {} s.cores = true) :
    let u := idleCores p s
    u = { s with cores := u.cores, ppu := u.ppu } ∧ SMap.wf {} u.cores = true ∧
      (∀ n ∈ p.cores, u.core n = (s.core n).halt) ∧
      ∀ n, n ∉ p.cores → u.core n = s.core n := by
  intro u
  obtain ⟨hrest, hwf, hother, hsame⟩ := foldl_modCore (fun n => n) (fun _ c => c.halt) p.cores h
  rw [List.map_id'] at hother hsame
  exact ⟨congrArg (fun v : State => { v with ppu := u.ppu }) hrest, hwf, hsame p.cores_nodup, hother⟩

/-- The cores of a partition stand at their first bundles (R239 step 3). -/
theorem startCores_cores (p : Partition) (t : Stitch) (m : Model) {s : State} (h : SMap.wf {} s.cores = true) :
    let u := startCores p t m s
    u = { s with cores := u.cores } ∧
      (∀ i n, p.cores[i]? = some n → u.core n = (s.core n).fresh (entryBundle m t.req.entry (roleOf m i))
        (rngSeed t.req.seed i) (m.handle, roleOf m i)) ∧
      ∀ n, n ∉ p.cores → u.core n = s.core n := by
  intro u
  have hkeys : ((List.range p.cores.length).zip p.cores).map (·.2) = p.cores :=
    List.map_snd_zip (Nat.le_of_eq List.length_range.symm)
  obtain ⟨hrest, -, hother, hsame⟩ := foldl_modCore (fun k : Nat × Nat => k.2) (fun k c =>
    c.fresh (entryBundle m t.req.entry (roleOf m k.1)) (rngSeed t.req.seed k.1) (m.handle, roleOf m k.1))
    ((List.range p.cores.length).zip p.cores) h
  rw [hkeys] at hother hsame
  refine ⟨hrest, fun i n hi => ?_, hother⟩
  obtain ⟨hlt, -⟩ := List.getElem?_eq_some_iff.1 hi
  have hmem : (i, n) ∈ (List.range p.cores.length).zip p.cores :=
    List.mem_of_getElem? (i := i) (List.getElem?_zip_eq_some.2 ⟨List.getElem?_range hlt, hi⟩)
  exact hsame p.cores_nodup (i, n) hmem

/-- A model that declares no length register gives them all 0 (R233). -/
theorem lengthRegs_none (s : State) (t : Stitch) {m : Model} (h : m.lens = []) :
    lengthRegs s t m = some (List.replicate 16 0) := by
  rw [lengthRegs, h]
  rfl

/-- The start steps of a stitch without length registers, on a clean card (R239). -/
theorem startSteps_clean {p : Partition} {t : Stitch} {m : Model} {s : State} (h : CleanCard s) (hfind : findStitch s t.id = some t)
    (hlens : m.lens = []) : ∃ w, startSteps p t.id m s = startCores p t m w ∧
      MemoryWritten (modStitch t.id (fun t => { t with lens := List.replicate 16 0, phase := .starting }) s) w := by
  let v := modStitch t.id (fun t => { t with lens := List.replicate 16 0, phase := .starting }) s
  have hv : CleanCard v := ⟨cleanMemory_of_mem h.clean rfl, (modStitch_evolves t.id _ s (Evolves.refl s)).canonical h.canonical⟩
  have hlost := loseAreas_written (writableAreas p m ++ scratchAreas p) hv
  refine ⟨_, ?_, hlost.trans (MemoryWritten.foldl (fun s l hs => writeTemplate_written p t m l hs) m.templates hlost.card)⟩
  unfold startSteps
  rw [hfind]
  dsimp only
  rw [lengthRegs_none s t hlens]

/-- The stitch that is to run from its start again. -/
def toRerun (t : Stitch) : Stitch := { t with rerun := true, finished := [], stop := none, detail := 0 }

/-- The stitch as it starts once more. -/
def rerunning (t : Stitch) : Stitch := { toRerun t with lens := List.replicate 16 0, phase := .starting }

/-- The cores of a stitch that is alone become idle, and it is to run again. -/
theorem modStitch_idleCores {p : Partition} {t : Stitch} {s : State} (h : CleanCard s) (hst : s.obj.stitches = [t]) :
    let v := modStitch t.id toRerun (idleCores p s)
    CleanCard v ∧ v = { s with obj := { s.obj with stitches := [toRerun t] }, cores := v.cores, ppu := v.ppu } := by
  intro v
  obtain ⟨hidle, -⟩ := idleCores_cores p (State.canonical_cores h.canonical)
  have hv : v = { s with obj := { s.obj with stitches := [toRerun t] }, cores := v.cores, ppu := v.ppu } := by
    have hone : listUpd (fun x : Stitch => decide (x.id = t.id)) toRerun [t] = [toRerun t] := by simp [listUpd]
    rw [← hone, ← hst]
    exact congrArg (modStitch t.id toRerun) hidle
  have hcan : v.canonical = true :=
    (modStitch_evolves t.id toRerun _ (idleCores_evolves p s (Evolves.refl s))).canonical h.canonical
  exact ⟨⟨cleanMemory_of_mem h.clean (by rw [hv]), hcan⟩, hv⟩

/-- A stitch that is alone is re-run: it starts anew on its cores (R724). -/
theorem rerunStitch_alone {p : Partition} {t : Stitch} {m : Model} {s : State} (h : CleanCard s) (hst : s.obj.stitches = [t])
    (hlens : m.lens = []) :
    let u := rerunStitch p t m s
    u.ctr.contained = s.ctr.contained ∧ u.obj = { s.obj with stitches := [rerunning t] } ∧ u.pcie = s.pcie ∧
      (∀ i n, p.cores[i]? = some n → u.core n = (s.core n).fresh (entryBundle m t.req.entry (roleOf m i))
        (rngSeed t.req.seed i) (m.handle, roleOf m i)) ∧
      ∀ n, n ∉ p.cores → u.core n = s.core n := by
  intro u
  obtain ⟨-, -, hhalt, hidleOther⟩ := idleCores_cores p (State.canonical_cores h.canonical)
  let v := modStitch t.id toRerun (idleCores p s)
  obtain ⟨hv, hvEq⟩ : CleanCard v ∧
      v = { s with obj := { s.obj with stitches := [toRerun t] }, cores := v.cores, ppu := v.ppu } := modStitch_idleCores h hst
  have hfind : findStitch v (toRerun t).id = some (toRerun t) := by
    rw [findStitch, hvEq]
    simp
  obtain ⟨w, hstart, hrest, hw⟩ := startSteps_clean (p := p) hv hfind hlens
  obtain ⟨hcores, hfresh, hother⟩ := startCores_cores p (toRerun t) m (State.canonical_cores hw.canonical)
  have hwcore : ∀ n, w.core n = (idleCores p s).core n := fun n => by
    rw [State.core, hrest]
    rfl
  have hwframe : w.ctr.contained = v.ctr.contained ∧
      w.obj = { v.obj with stitches := listUpd (fun x : Stitch => decide (x.id = t.id)) (fun x => { x with
        lens := List.replicate 16 0, phase := .starting }) v.obj.stitches } ∧ w.pcie = v.pcie := by
    rw [hrest]
    exact ⟨rfl, rfl, rfl⟩
  obtain ⟨hcount, hobj, hpcie⟩ := hwframe
  rw [hvEq] at hcount hobj hpcie
  rw [show u = startCores p (toRerun t) m w from hstart]
  refine ⟨?_, ?_, ?_, fun i n hi => ?_, fun n hn => ?_⟩
  · rw [hcores]
    exact hcount
  · rw [hcores]
    refine hobj.trans ?_
    simp [listUpd, toRerun, rerunning]
  · rw [hcores]
    exact hpcie
  · rw [hfresh i n hi, hwcore, hhalt n (List.mem_of_getElem? hi)]
    rfl
  · rw [hother n hn, hwcore, hidleOther n hn]

/-- A double-bit error in a core whose stitch has not been re-run is contained, and the stitch is re-run (R136, R724). -/
theorem exec_computeUncorrectableError {p : Partition} {t : Stitch} {m : Model} {s : State} {n : Nat} {place : UePlace}
    (hst : coreStitch s n = some (p, t, m)) (hgo : t.stop = none) (hheld : s.fw.heldComplete = []) (hfirst : t.rerun = false) :
    exec (.computeUncorrectableError n place) s = .next (rerunStitch p t m (contained fkComputeUe 0 0 t.wire s)) := by
  have hnot : ¬(t.stop.isSome = true ∨ s.fw.heldComplete.contains t.id = true) := by simp [hgo, hheld]
  have hrerun : rerunFor fkComputeUe 0 0 p t m s = rerunStitch p t m (contained fkComputeUe 0 0 t.wire s) :=
    if_neg (by simp [hfirst])
  change execComputeUncorrectableError n place s = _
  unfold execComputeUncorrectableError
  rw [hst]
  dsimp only
  rw [if_neg hnot, hrerun]

/-- A contained fault leaves a stitch that is alone to be re-run. -/
theorem computeUncorrectableError_sole {p : Partition} {t : Stitch} {m : Model} {s : State} (h : Sole p t m s) (n : Nat)
    (place : UePlace) (hst : coreStitch s n = some (p, t, m)) (hgo : t.stop = none) (hheld : s.fw.heldComplete = [])
    (hfirst : t.rerun = false) :
    ∃ u, exec (.computeUncorrectableError n place) s = .next u ∧ u.ctr.contained = s.ctr.contained + 1 ∧
      u.obj.stitches = [rerunning t] ∧ u.obj.partitions = [p] ∧
      (∀ i q, p.cores[i]? = some q → u.core q = (s.core q).fresh (entryBundle m t.req.entry (roleOf m i))
        (rngSeed t.req.seed i) (m.handle, roleOf m i)) ∧
      (∀ q, q ∉ p.cores → u.core q = s.core q) ∧ u.pcie.corr = s.pcie.corr ||| 0x4000#32 := by
  let v := contained fkComputeUe 0 0 t.wire s
  obtain ⟨hrest, hobj, hcount, hcorr⟩ : v = _ ∧ v.obj = _ ∧ _ ∧ _ := contained_alone h.alone.1 fkComputeUe 0 0 t.wire
  have hv : CleanCard v := ⟨cleanMemory_of_mem h.clean (by rw [hrest]),
    (contained_evolves _ _ _ _ s (Evolves.refl s)).canonical h.canonical⟩
  have hvst : v.obj.stitches = [t] := by rw [hobj]; exact h.stitch.1
  have hvcore : ∀ q, v.core q = s.core q := fun q => by rw [State.core, hrest]; rfl
  obtain ⟨-, -, hlens⟩ := h.model
  obtain ⟨hctr, hagain, hpcie, hfresh, hother⟩ := rerunStitch_alone (p := p) hv hvst hlens
  refine ⟨_, exec_computeUncorrectableError hst hgo hheld hfirst, hctr.trans hcount, by rw [hagain], ?_, fun i q hi => ?_,
    fun q hq => ?_, ?_⟩
  · rw [hagain, hobj]
    exact h.part.1
  · rw [hfresh i q hi, hvcore]
  · rw [hother q hq, hvcore]
  · rw [hpcie]
    exact hcorr

/-- Settles O60: a job's operation by what it does when nothing is in its way, its end by the unit's list, and a core's double-bit
error by the fault that it is and the start that follows. -/
theorem postProcessing : Obligations.PostProcessing := by
  unfold Obligations.PostProcessing
  intro p t m s hcan
  have hppu := State.canonical_ppu hcan
  have hcores := State.canonical_cores hcan
  refine ⟨fun k j hj => ⟨?operation, fun hdone => ?ending⟩, computeUncorrectableError_sole⟩
  case operation =>
    intro op n ecc i hi hdone hecc htag q o rs lines ins outs z hop hn hreach hbad hlost
    have hrun := runJob_quiet (w := carry k true (lines outs) (carry k false (lines ins) s)) (z := z) hj hdone hecc htag rfl rfl
      hop hn.symm rfl rfl rfl rfl rfl (List.all_eq_true.1 hreach) (List.isEmpty_iff.1 hbad) hlost
    exact ⟨_, (exec_ppuOperation s hi).trans (congrArg _ hrun), runJob_quiet_changes hcan hj (carry_carry_eq k _ _ s)⟩
  case ending =>
    have hend := exec_ppuJobEnd hj hdone
    cases hleft : j.left with
    | true =>
      rw [hleft] at hend
      exact ⟨_, hend, rfl, ppu_modJob_none hppu k, fun e he => ppu_modJob_other hppu he _, fun _ => rfl, nofun⟩
    | false =>
      rw [hleft] at hend
      exact ⟨_, hend, rfl, ppu_modJob_none hppu k, fun e he => ppu_modJob_other hppu he _, nofun,
        fun _ => coreIs_modCore (s := modJob k (fun _ => none) s) hcores j.core _⟩

end Machine
end Sys2Proof
end

section
/-! SUPPORT. A mailbox command that is taken on a card in no pair, said once: the state in which its own part runs, and what is left
when that part is done and the answer written (R540, R541, R561, R574). -/

namespace Sys2Proof.Machine

open Sys2Proof.Claims

/-- The state in which a taken command's own part runs: the host's write has brought the link to L0 (R621), and mailboxes and the
lease have changed. -/
def received (mb : SMap Mailbox) (lease : Option Nat) (s : State) : State :=
  { s with
    host := { s.host with mboxes := mb, leaseLeft := lease }
    pcie := { s.pcie with linkState := 0 } }

/-- The mailbox of `h` has taken the command, the other mailboxes are as before. -/
structure ReceivedBy (h : Hdr) (s r : State) : Prop where
  canonical : r.canonical = true
  seq : (r.mbox h.mbox).seq = h.seq
  others : ∀ m, m ≠ h.mbox → r.mbox m = s.mbox m

/-- A command's own part leaves what is the host interface's, the link's and the pair's as it is. -/
structure SameInterface (r u : State) : Prop where
  host : u.host = r.host
  pcie : u.pcie = r.pcie
  out : u.out = r.out
  pair : u.pair = r.pair

theorem holding_of_taken {b : Bool} {h : Hdr} {len : Nat} {s : State} (ht : Taken b h len s) : holding s = false := by
  obtain hp | hp := ht.awake <;> simp [Machine.holding, ht.ready, ht.core0, hp]

/-- A command of a session that is taken passes the checks before its own. -/
theorem precheck_received {k : CmdKind} (hk : k.sessionless = false) {h : Hdr} {len : Nat} {s : State}
    (ht : Taken false h len s) (mb : SMap Mailbox) (l : Option Nat) : precheck k h len (received mb l s) = none := by
  obtain ⟨hhr, hbr, hlen, hmax⟩ := ht.header
  obtain ⟨x, hx, hheld, hversion⟩ := ht.session
  exact precheck_session (s := received mb l s) hk ht.ready ht.ending ht.alone hhr hbr hlen hmax hx hheld hversion

/-- What the OWNER write and the renewed lease come to. -/
theorem renewFor_takeOwner {h : Hdr} {s : State} (hcan : s.canonical = true) (op : Nat) :
    ∃ mb l, renewFor h (takeOwner h op s.linkActive) = received mb l s ∧ ReceivedBy h s (received mb l s) := by
  obtain ⟨-, hhost, -⟩ := (State.canonical_iff s).1 hcan
  obtain ⟨hmb, -, -⟩ := (HostUnit.canonical_iff _).1 hhost
  obtain ⟨-, hseq, hothers⟩ := takeOwner_mbox (h := h) (op := op) (s := s.linkActive) hmb
  obtain ⟨l, hrenew⟩ := renewFor_fields h (takeOwner h op s.linkActive)
  have hlink : Evolves s s.linkActive := Evolves.same (Evolves.refl s) rfl rfl rfl rfl fun hc => hc
  have hevolves : Evolves s (renewFor h (takeOwner h op s.linkActive)) :=
    renewFor_evolves _ _ (takeOwner_evolves _ _ _ hlink)
  have hr : renewFor h (takeOwner h op s.linkActive) = received (takeOwner h op s.linkActive).host.mboxes l s := hrenew
  exact ⟨_, l, hr, hr ▸ hevolves.canonical hcan, hseq, hothers⟩

/-- A taken command whose own part succeeds is answered with what that part responds. -/
theorem enter_ok {k : CmdKind} (hk : k.sessionless = false) {h : Hdr} {len : Nat} {s : State} (ht : Taken false h len s)
    (op : Nat) : ∃ mb l, ReceivedBy h s (received mb l s) ∧
      ∀ i body u resp, body (received mb l s) = .ok u resp → u.pair.mode = 0 →
        enter h op i (serve k h len body) s = writeAnswer h stOk 0 resp u := by
  obtain ⟨mb, l, hrenew, hreceived⟩ := renewFor_takeOwner ht.canonical op (h := h)
  refine ⟨mb, l, hreceived, fun i body u resp hbody halone => ?_⟩
  have hpass : precheck k h len (renewFor h (takeOwner h op s.linkActive)) = none := by
    rw [hrenew]
    exact precheck_received hk ht mb l
  have hholding : holding s = false := holding_of_taken ht
  calc enter h op i (serve k h len body) s
      = ownerWrite h op i (serve k h len body) s.linkActive :=
        hostAccess_reached ht.reached.link ht.reached.mse ht.reached.d0
    _ = serve k h len body (takeOwner h op s.linkActive) :=
        ownerWrite_run (s := s.linkActive) ht.free ht.locked (.inl hholding)
    _ = answer h stOk 0 resp (renewFor h (takeOwner h op s.linkActive)).obj u := by
        rw [serve_passed hpass, hrenew, hbody]
    _ = writeAnswer h stOk 0 resp u := answer_alone halone

/-- An answer leaves a link that is in L0 there. -/
theorem writeAnswer_linkState {h : Hdr} {st d : Nat} {resp : List Byte} {s : State} (hl : s.pcie.linkState = 0) :
    (writeAnswer h st d resp s).pcie.linkState = 0 := by
  have hmsix : ∀ (v : Nat) (u : State), u.pcie.linkState = 0 → (sendMsix v u).pcie.linkState = 0 := by
    intro v u hu
    obtain ⟨p, o, hsend, ⟨ho, -⟩ | ⟨ho, -⟩⟩ := sendMsix_cases v u <;> rw [hsend]
    · exact ho.trans hu
    · exact ho
  have hrenew : ∀ u : State, u.pcie.linkState = 0 → (renewFor h u).pcie.linkState = 0 := by
    intro u hu
    obtain ⟨l, hfields⟩ := renewFor_fields h u
    rw [hfields]
    exact hu
  unfold writeAnswer
  dsimp only
  split
  · exact hmsix _ _ (hrenew _ hl)
  · exact hrenew _ hl

/-- A taken command of a session is served when its own part, from the state in which it runs, succeeds with the response and
touches none of the host interface, the link and the pair. -/
theorem serves_of_ok {k : CmdKind} (hk : k.sessionless = false) {h : Hdr} {len op : Nat} {s : State} {c i : Instr}
    {body : State → Reply} {resp : List Byte} {f : State → Prop} (ht : Taken false h len s)
    (hexec : exec c s = .next (enter h op i (serve k h len body) s))
    (hbody : ∀ mb l, (received mb l s).canonical = true → ∃ u, body (received mb l s) = .ok u resp ∧
      SameInterface (received mb l s) u ∧ ∀ host pcie out, f { u with host := host, pcie := pcie, out := out }) :
    Serves c h resp s f := by
  obtain ⟨mb, l, ⟨hcan, hseq, hothers⟩, henter⟩ := enter_ok hk ht op
  obtain ⟨u, hu, ⟨hhost, hpcie, hout, hpair⟩, hf⟩ := hbody mb l hcan
  have hanswer := henter i body u resp hu (by rw [hpair]; exact ht.alone)
  have hmbox : ∀ m, u.mbox m = (received mb l s).mbox m := fun m => by rw [State.mbox, hhost]; rfl
  obtain ⟨-, hhostCan, -⟩ := (State.canonical_iff _).1 hcan
  rw [← hhost] at hhostCan
  obtain ⟨hmb, -, -⟩ := (HostUnit.canonical_iff _).1 hhostCan
  obtain ⟨own, seq, status, detail, length, payload, others, sent, mb', p, l', link, hrest⟩ :=
    writeAnswer_spec (st := stOk) (d := 0) (resp := resp) hmb (mbox_payload_wf hhostCan h.mbox)
  have hlink := writeAnswer_linkState (h := h) (st := stOk) (d := 0) (resp := resp) (s := u) (by rw [hpcie]; rfl)
  refine ⟨_, hexec.trans (congrArg _ hanswer),
    ⟨own, ?_, status, detail, length, payload, fun m hm => ?_, ?_⟩, ⟨?_, ?_⟩, ?_⟩
  · rw [seq, hmbox]
    exact hseq
  · rw [others m hm, hmbox]
    exact hothers m hm
  · rw [hout] at sent
    exact sent
  · rw [hrest, hhost]
    rfl
  · rw [hrest] at hlink
    rw [hrest, show link = 0 from hlink, hpcie]
    rfl
  · rw [hrest]
    exact hf _ _ _

/-- The handle of an object of the right type and the command's session passes its check (R12, R550). -/
theorem checkHandle_own {hd sess : Handle} {type : Nat} (ht : hd.type = type) : checkHandle hd type (some sess) sess = none := by
  simp [checkHandle, ht]

end Sys2Proof.Machine
end

section
/-! SUPPORT. Copies that the hub makes in clean memory: every byte goes over, nothing else changes but credits and free values, and
memory stays clean (R342, R357, R358). No canonical form is asked for: a channel that takes a command is never as at reset, so that
what its map hides stays hidden. -/

namespace Sys2Proof

/-- A map reads as its last write at every key, in canonical form or not, when what is written is not the default. -/
theorem SMap.get_set_of_ne {α : Type} [DecidableEq α] {d : α} {x : α} (hx : x ≠ d) (m : SMap α) (n k : Nat) :
    SMap.get d (SMap.set d m n x) k = if k = n then x else SMap.get d m k := by
  induction m with
  | nil =>
    have hset : SMap.set d [] n x = [(n, x)] := if_neg hx
    grind [SMap.get]
  | cons c m ih =>
    obtain ⟨j, v⟩ := c
    rcases Nat.lt_trichotomy n j with hn | rfl | hn
    · have hset : SMap.set d ((j, v) :: m) n x = (n, x) :: (j, v) :: m := by simp [SMap.set, hn, hx]
      grind [SMap.get]
    · have hset : SMap.set d ((n, v) :: m) n x = (n, x) :: m := by simp [SMap.set, hx]
      grind [SMap.get]
    · have hset : SMap.set d ((j, v) :: m) n x = (j, v) :: SMap.set d m n x := by
        rw [SMap.set, if_neg (by omega), if_neg (by omega)]
      grind [SMap.get]

namespace Machine

open Sys2Proof.Claims

/-- A channel that has taken a line's command holds it, in its retry buffer or while ALERT_n is asserted. -/
theorem order_line_ne_default (l : Nat) (d : DdrChannel) : d.order (.line l) ≠ {} := by
  unfold DdrChannel.order
  split
  · exact fun h => List.cons_ne_nil _ _ (List.append_eq_nil_iff.1 (congrArg (·.waiting) h)).2
  · have hretry : (d.carryOut (.line l)).retry = (l / 64 :: d.retry).take 64 := by
      unfold DdrChannel.carryOut DdrChannel.issue
      dsimp only
      split <;> rfl
    exact fun h => List.cons_ne_nil _ _ (hretry.symm.trans (congrArg (·.retry) h))

theorem modDdr_order_clean {s : State} (h : CleanMemory s) (n l : Nat) :
    CleanMemory (s.modDdr n (DdrChannel.order (.line l))) := by
  refine ⟨h.latent, h.ddr, h.hub, h.scratch, h.pillow, fun c => ?_⟩
  have hget : (s.modDdr n (DdrChannel.order (.line l))).ddr c = if c = n then (s.ddr n).order (.line l) else s.ddr c :=
    SMap.get_set_of_ne (order_line_ne_default l (s.ddr n)) s.mem.ddr n c
  rw [hget]
  split
  · rw [order_line_state]
    exact h.channels n
  · exact h.channels c

/-- Between `s` and `t` accesses have changed bytes of memory, tags and channels, and have taken credits and free values; memory is
clean. -/
structure MemoryAccessed (s t : State) : Prop where
  rest : t = { s with mem := t.mem, fresh := t.fresh, ctr := { s.ctr with links := t.ctr.links } }
  clean : CleanMemory t

theorem MemoryAccessed.refl {s : State} (h : CleanMemory s) : MemoryAccessed s s := ⟨rfl, h⟩

theorem MemoryAccessed.trans {a b c : State} (h : MemoryAccessed a b) (k : MemoryAccessed b c) : MemoryAccessed a c :=
  ⟨by rw [k.rest, h.rest], k.clean⟩

/-- Accesses in turn. -/
theorem MemoryAccessed.foldl {α : Type} {f : State → α → State} (hf : ∀ s x, CleanMemory s → MemoryAccessed s (f s x))
    (l : List α) {s : State} (h : CleanMemory s) : MemoryAccessed s (l.foldl f s) := by
  induction l generalizing s with
  | nil => exact .refl h
  | cons x l ih => exact (hf s x h).trans (ih (hf s x h).clean)

theorem accessLine_accessed (whole : Bool) (a : Nat) {s : State} (h : CleanMemory s) :
    MemoryAccessed s (accessLine whole a s) := by
  have hrest : accessLine whole a s = withMemory s (accessLine whole a s) := accessLine_withMemory s h.latent whole a
  refine ⟨by rw [hrest]; rfl, ?_⟩
  rw [accessLine_quiet h.latent]
  split
  · exact h
  · split
    · exact settleLine_clean (modDdr_order_clean h _ _) _
    · exact h

theorem accessPieces_accessed (write : Bool) (ps : List (Nat × Nat)) {s : State} (h : CleanMemory s) :
    MemoryAccessed s (accessPieces write ps s) :=
  MemoryAccessed.foldl (fun _ p hs => accessLine_accessed _ p.1 hs) ps h

theorem carry_accessed (node : Nat) (out : Bool) (ps : List (Nat × Nat)) {s : State} (h : CleanMemory s) :
    MemoryAccessed s (carry node out ps s) := by
  have hcarry := carry_eq node out ps s
  refine ⟨?_, cleanMemory_of_mem h (by rw [hcarry])⟩
  conv => lhs; rw [hcarry]
  rw [hcarry]

/-! ## Copies -/

theorem rangePoisoned_clean {s : State} (h : CleanMemory s) (a n : Nat) : rangePoisoned s a n = false := by
  simp [rangePoisoned, poisoned_clean h]

theorem rangeClean_clean {s : State} (h : CleanMemory s) (a n : Nat) : rangeClean s a n = true := by
  simp [rangeClean, poisonedLines, rangeFaulted, h.ddr, h.hub, h.scratch, h.pillow, faulted_clean h]

theorem copyMem_clean {s : State} (h : CleanMemory s) (src dst n : Nat) : copyMem [] src dst n s = copyRange src dst n s := by
  simp [copyMem, rangeClean_clean h]

theorem copyRange_accessed (src dst n : Nat) {s : State} (h : CleanMemory s) : MemoryAccessed s (copyRange src dst n s) :=
  ⟨rfl, h.latent, h.ddr, h.hub, h.scratch, h.pillow, h.channels⟩

/-- The hub copies bytes within clean memory: they all go over. -/
theorem hubCopy_accessed (src dst n : Nat) {s : State} (h : CleanMemory s) : MemoryAccessed s (hubCopy src dst n s) := by
  let to_ := pieces dst n
  have hload : MemoryAccessed s (hubLoad src n s) :=
    (carry_accessed 4 false _ h).trans (accessPieces_accessed false _ (carry_accessed 4 false _ h).clean)
  let w := accessPieces true to_ (carry 4 true to_ (hubLoad src n s))
  have hcarry := carry_accessed 4 true to_ hload.clean
  have hw : MemoryAccessed s w := (hload.trans hcarry).trans (accessPieces_accessed true to_ hcarry.clean)
  have hcopy : hubCopy src dst n s = copyRange src dst n w := by
    change uncorrectable (dropsPiece (badTags (hubLoad src n s) to_) w to_) (if rangePoisoned w src n then _ else _) = _
    rw [badTags_quiet hload.clean.latent, dropsPiece_clean hw.clean, rangePoisoned_clean hw.clean, copyMem_clean hw.clean]
    rfl
  rw [hcopy]
  exact hw.trans (copyRange_accessed src dst n hw.clean)

end Machine
end Sys2Proof
end

section
/-! SUPPORT. O47: bobbins and prefixes on a card in no pair whose memory is clean (R294, R310, R311, R314, R315, R380). -/

namespace Sys2Proof.Machine

open Sys2Proof.Claims

/-! ## An arena and a bobbin that are alone -/

theorem findPool_single {s : State} {p : Pool} (h : s.obj.pools = [p]) {a : Handle} (ha : p.handle = a) :
    findPool s a = some p := by
  simp [findPool, h, ha]

theorem modPool_single {s : State} {p : Pool} (h : s.obj.pools = [p]) {a : Handle} (ha : p.handle = a) (f : Pool → Pool) :
    modPool a f s = { s with obj := { s.obj with pools := [f p] } } := by
  simp [modPool, State.modObj, listUpd, h, ha]

theorem findBobbin_single {s : State} {b : Bobbin} (h : s.obj.bobbins = [b]) : findBobbin s b.handle = some b := by
  simp [findBobbin, h]

theorem modBobbin_single {s : State} {b : Bobbin} (h : s.obj.bobbins = [b]) (f : Bobbin → Bobbin) :
    modBobbin b.handle f s = { s with obj := { s.obj with bobbins := [f b] } } := by
  simp [modBobbin, State.modObj, listUpd, h]

/-- Without stitches nothing names a bobbin. -/
theorem bobbinNamed_none {s : State} (h : s.obj.stitches = []) (b : Handle) : bobbinNamed s b = false := by
  simp [bobbinNamed, h]

/-- Without prefixes no reference count is kept. -/
theorem settlePrefixes_none {s : State} (h : ∀ b ∈ s.obj.bobbins, b.isPrefix = false) : settlePrefixes s = s := by
  have hnone : (s.obj.bobbins.filter (·.isPrefix)) = [] := List.filter_eq_nil_iff.2 fun b hb => by simp [h b hb]
  rw [settlePrefixes, hnone]
  rfl

/-- Of prefixes, one that only its handle holds counts one reference (R312). -/
theorem settlePrefixes_hostRef {s : State} {b : Bobbin} {p : Pool} (hb : s.obj.bobbins = [b]) (hprefix : b.isPrefix = true)
    (href : b.hostRef = true) (hlink : b.link = none) (hst : s.obj.stitches = []) (hp : s.obj.pools = [p])
    (ha : p.handle = b.arena) : settlePrefixes s =
      { s with obj := { s.obj with pools := [p.modBuf b.g0 fun x => { x with count := 1 }] } } := by
  have hcount : b.hostRef.toNat + linksOf s b.handle + pinsOf s b.handle = 1 := by
    simp [linksOf, pinsOf, hb, hst, hlink, href]
  have hone : s.obj.bobbins.filter (·.isPrefix) = [b] := by simp [hb, hprefix]
  have hsettle : settlePrefix b s = modPool b.arena (fun p => p.modBuf b.g0 fun x => { x with count := 1 }) s := by
    unfold settlePrefix
    dsimp only
    rw [hcount, if_neg (by decide)]
  calc settlePrefixes s = settlePrefix b s := by rw [settlePrefixes, hone, List.foldl_cons, List.foldl_nil]
    _ = _ := hsettle.trans (modPool_single hp ha _)

theorem writeHeader_written (hd : Handle) {s : State} (h : CleanCard s) : MemoryWritten s (writeHeader hd s) := by
  unfold writeHeader
  split
  · exact .refl h
  · exact MemoryWritten.foldl (fun _ _ hs => hubStore_written _ _ hs) _ h

/-! ## BOBBIN_CREATE (R294, R311, R380) -/

/-- A creation that names no prefixes and passes its checks makes an unlinked bobbin in the arena named. -/
theorem checkCreate_unlinked {s : State} {sess model arena hd : Handle} {layout maxPos : Nat} {b : Bobbin}
    (h : checkCreate s sess layout model arena maxPos 0 hd = .ok b) :
    b.arena = arena ∧ b.link = none ∧ b.isPrefix = false := by
  unfold checkCreate at h
  dsimp only at h
  split at h
  · cases h
  · cases h
  · cases h
  · split at h
    · rw [if_pos rfl] at h
      split at h
      · cases h
      · cases h
        exact ⟨rfl, rfl, rfl⟩
    · cases h

/-- A bobbin as it stands in the run that it has taken: in DDR under its run's tag rewrite, and when it is linked waiting for what it
copies. -/
def placed (b : Bobbin) (p : Pool) (g : Nat) : Bobbin :=
  let n := b.layout.run b.maxPos
  { b with
    g0 := g, granules := n, gen := p.maxGen g n, rewriting := decide (p.space = 2)
    copying := if b.link.isSome then 1 else 0, posted := false }

/-- The run is taken, and the tag rewrite of a DDR run begins. -/
def runTaken (b : Bobbin) (p : Pool) (g : Nat) (s : State) : State :=
  let n := b.layout.run b.maxPos
  let s := modPool b.arena (fun p => p.takeRun g n) s
  if decide (p.space = 2) then beginRewrite (poolRewrite p g (n * granuleBytes) (p.maxGen g n) none) s else s

/-- The banks of every copy hold empty scores. -/
def emptyBanks (b : Bobbin) (s : State) : State :=
  let entries := 2 * b.layout.tables * b.layout.slots
  ((bobbinBases s b).foldl (fun z a => hubStore (a + b.layout.scrOff) (emptyScores entries s) z) s).useFreshN (4 * entries)

/-- What a bobbin's run holds at first: its header, empty scores, and open bytes. -/
def fillRun (b : Bobbin) (s : State) : State :=
  writeHeader b.handle
    (emptyBanks b (loseAreas ((bobbinBases s b).map fun a => (a, b.granules * granuleBytes)) [] s))

theorem placeBobbin_eq {s : State} {b : Bobbin} {p : Pool} {g : Nat} (hp : findPool s b.arena = some p)
    (hrun : firstRun p.bufs (b.layout.run b.maxPos) p.count 0 = some g) :
    placeBobbin b s = some (settlePrefixes (fillRun (placed b p g)
      ((runTaken b p g s).modObj fun o => { o with bobbins := upsert (·.handle) (placed b p g) o.bobbins }))) := by
  unfold placeBobbin
  rw [hp]
  dsimp only
  rw [hrun]
  rfl

theorem runTaken_eq {s : State} {b : Bobbin} {p : Pool} (g : Nat) (hp : s.obj.pools = [p]) (ha : p.handle = b.arena) :
    ∃ tags, runTaken b p g s = { s with
      mem := { s.mem with tags := tags }, obj := { s.obj with pools := [p.takeRun g (b.layout.run b.maxPos)] } } := by
  have htake := modPool_single hp ha fun p => p.takeRun g (b.layout.run b.maxPos)
  unfold runTaken
  dsimp only
  rw [htake]
  split
  · exact ⟨_, rfl⟩
  · exact ⟨s.mem.tags, rfl⟩

theorem emptyBanks_written (b : Bobbin) {s : State} (h : CleanCard s) : MemoryWritten s (emptyBanks b s) := by
  have hscores := MemoryWritten.foldl
    (f := fun z a => hubStore (a + b.layout.scrOff) (emptyScores (2 * b.layout.tables * b.layout.slots) s) z)
    (fun _ _ hz => hubStore_written _ _ hz) (bobbinBases s b) h
  exact hscores.trans ⟨rfl, cleanMemory_of_mem hscores.card.clean rfl, hscores.card.canonical⟩

theorem fillRun_written (b : Bobbin) {s : State} (h : CleanCard s) : MemoryWritten s (fillRun b s) := by
  have hlost := loseAreas_written ((bobbinBases s b).map fun a => (a, b.granules * granuleBytes)) h
  have hbanks := hlost.trans (emptyBanks_written b hlost.card)
  exact hbanks.trans (writeHeader_written b.handle hbanks.card)

/-- The first bobbin takes its run; beside memory only it and its arena have changed. -/
theorem placeBobbin_first {s : State} {b : Bobbin} {p : Pool} {g : Nat} (h : CleanCard s) (hb : s.obj.bobbins = [])
    (hp : s.obj.pools = [p]) (ha : p.handle = b.arena) (hbobbin : b.isPrefix = false)
    (hrun : firstRun p.bufs (b.layout.run b.maxPos) p.count 0 = some g) :
    ∃ u, placeBobbin b s = some u ∧ u = { s with
      mem := u.mem, fresh := u.fresh, ctr := { s.ctr with links := u.ctr.links }
      obj := { s.obj with pools := [p.takeRun g (b.layout.run b.maxPos)], bobbins := [placed b p g] } } := by
  let v := (runTaken b p g s).modObj fun o => { o with bobbins := upsert (·.handle) (placed b p g) o.bobbins }
  obtain ⟨tags, htaken⟩ := runTaken_eq g hp ha
  have hv : v = { s with
      mem := { s.mem with tags := tags }
      obj := { s.obj with pools := [p.takeRun g (b.layout.run b.maxPos)], bobbins := [placed b p g] } } := by
    change (runTaken b p g s).modObj _ = _
    rw [htaken, State.modObj]
    simp [upsert, hb]
  have hcard : CleanCard v := by
    rw [hv]
    obtain ⟨⟨latent, ddr, hub, scratch, pillow, channels⟩, hcan⟩ := h
    exact ⟨⟨latent, ddr, hub, scratch, pillow, channels⟩, hcan⟩
  have hfill := (fillRun_written (placed b p g) hcard).rest
  have hnone : settlePrefixes (fillRun (placed b p g) v) = fillRun (placed b p g) v := by
    refine settlePrefixes_none fun x hx => ?_
    rw [hfill, hv] at hx
    obtain rfl := List.mem_singleton.1 hx
    exact hbobbin
  refine ⟨fillRun (placed b p g) v, ?_, ?_⟩
  · rw [placeBobbin_eq (findPool_single hp ha) hrun]
    exact congrArg some hnone
  · rw [hv] at hfill ⊢
    exact hfill

/-- The own part of a creation of the first bobbin. -/
theorem bobbinCreateBody_first {h : Hdr} {s : State} {layout maxPos g : Nat} {model : Handle} {b : Bobbin} {p : Pool}
    (hcard : CleanCard s) (hb : s.obj.bobbins = []) (hp : s.obj.pools = [p])
    (hcheck : checkCreate s h.session layout model p.handle maxPos 0 (newHandle s 4) = .ok b)
    (hrun : firstRun p.bufs (b.layout.run b.maxPos) p.count 0 = some g) :
    ∃ u, bobbinCreateBody h layout model p.handle maxPos 0 s = .ok u (leBytes 4 (newHandle s 4).toNat) ∧ u = { s with
      mem := u.mem, fresh := u.fresh, gens := u.gens, ctr := { s.ctr with links := u.ctr.links }
      obj := { s.obj with
        pools := [p.takeRun g (b.layout.run b.maxPos)], bobbins := [{ placed b p g with copying := 0 }] } } := by
  obtain ⟨harena, hlink, hbobbin⟩ := checkCreate_unlinked hcheck
  obtain ⟨u, hplace, hu⟩ := placeBobbin_first hcard hb hp harena.symm hbobbin hrun
  have hcopying : placed b p g = { placed b p g with copying := 0 } := by simp [placed, hlink]
  refine ⟨issued (newHandle s 4) u, ?_, ?_⟩
  · unfold bobbinCreateBody
    dsimp only
    rw [hcheck]
    dsimp only
    rw [hplace]
  · rw [← hcopying, hu]
    rfl

/-! ## Commands of a bobbin that is alone -/

/-- A bobbin of the command's session stands alone in the only arena, and nothing names it. -/
structure BobbinAlone (h : Hdr) (b : Bobbin) (p : Pool) (s : State) : Prop where
  bobbins : s.obj.bobbins = [b]
  isBobbin : b.isPrefix = false
  type : b.handle.type = 4
  session : b.session = h.session
  pools : s.obj.pools = [p]
  arena : p.handle = b.arena
  stitches : s.obj.stitches = []

section
variable {h : Hdr} {b : Bobbin} {p : Pool} {s : State}

/-- Its handle finds it among the bobbins. -/
theorem BobbinAlone.findBobbin_eq (k : BobbinAlone h b p s) :
    ((findBobbin s b.handle).filter fun x => !x.isPrefix) = some b := by
  simp [findBobbin_single k.bobbins, k.isBobbin]

/-- Its handle passes the check. -/
theorem BobbinAlone.checkHandle_eq (k : BobbinAlone h b p s) :
    checkHandle b.handle tBobbin ((some b).map (·.session)) h.session = none := by
  rw [← k.session]
  exact checkHandle_own k.type

/-- BOBBIN_RELEASE returns its run (R315, R577). -/
theorem BobbinAlone.bobbinReleaseBody_eq (k : BobbinAlone h b p s) (halone : s.pair.mode = 0) (hready : b.preparing = false) :
    bobbinReleaseBody h b.handle s =
      .ok { s with obj := { s.obj with bobbins := [], pools := [p.releaseRun b.g0 b.granules] } } [] := by
  let u : State := { s with obj := { s.obj with bobbins := [], pools := [p.releaseRun b.g0 b.granules] } }
  have hdrop : dropBobbin b.handle (returnRun b s) = u := by
    rw [returnRun, modPool_single k.pools k.arena, dropBobbin, State.modObj]
    simp [removeKey, k.bobbins, u]
  have hfree : freeBobbin b s = u := by
    rw [freeBobbin, hdrop, mirrorFlush_alone (s := u) halone, settlePrefixes_none (s := u) nofun,
      mirrorFlush_alone (s := u) halone]
  have hbobbin : decide (b.handle.type = tPrefix) = false :=
    decide_eq_false fun h5 => absurd (k.type.symm.trans h5) (by decide)
  have hfound : ((findBobbin s b.handle).filter fun x => x.isPrefix == false && (!false || x.hostRef)) = some b := by
    simp [findBobbin_single k.bobbins, k.isBobbin]
  unfold bobbinReleaseBody
  dsimp only
  rw [hbobbin, hfound, if_neg Bool.false_ne_true, k.checkHandle_eq]
  dsimp only
  rw [if_neg Bool.false_ne_true, if_neg (by simp [bobbinNamed_none k.stitches, hready]), hfree]

/-- What PREFIX_CREATE makes of a bobbin. -/
def prefixed (b : Bobbin) (hd : Handle) : Bobbin := { b with handle := hd, isPrefix := true, hostRef := true }

/-- PREFIX_CREATE retires its handle; what it makes has one reference (R310, R312). -/
theorem BobbinAlone.prefixCreateBody_eq (k : BobbinAlone h b p s) (hcard : CleanCard s)
    (hlink : b.link = none) (hpos : b.pos ≠ 0) :
    ∃ u, prefixCreateBody h b.handle s = .ok u (leBytes 4 (newHandle s 5).toNat) ∧ u = { s with
      mem := u.mem, fresh := u.fresh, gens := u.gens, ctr := { s.ctr with links := u.ctr.links }
      obj := { s.obj with
        bobbins := [prefixed b (newHandle s 5)], pools := [p.modBuf b.g0 fun x => { x with count := 1 }] } } := by
  let hd := newHandle s 5
  let v : State := { s with obj := { s.obj with bobbins := [prefixed b hd] } }
  let w := writeHeader hd v
  have hv : s.modObj (fun o => { o with bobbins := removeKey (·.handle) b.handle o.bobbins ++ [prefixed b hd] }) = v := by
    simp [State.modObj, removeKey, k.bobbins, v]
  obtain ⟨hw, -⟩ : MemoryWritten v w := writeHeader_written hd ⟨cleanMemory_of_mem hcard.clean rfl, hcard.canonical⟩
  have hobj : w.obj = v.obj := by rw [hw]
  have hsettle := settlePrefixes_hostRef (s := w) (b := prefixed b hd) (p := p) (by rw [hobj]) rfl rfl hlink
    (by rw [hobj]; exact k.stitches) (by rw [hobj]; exact k.pools) k.arena
  refine ⟨issued hd (settlePrefixes w), ?_, ?_⟩
  · unfold prefixCreateBody
    dsimp only
    rw [k.findBobbin_eq, k.checkHandle_eq]
    dsimp only
    rw [if_neg (by simp [hlink, hpos]), if_neg (by simp [bobbinNamed_none k.stitches])]
    exact congrArg (fun x => Reply.ok (issued hd (settlePrefixes (writeHeader hd x))) (leBytes 4 hd.toNat)) hv
  · rw [hsettle, hw]
    rfl

/-- PREFIX_FORK begins a copy (R314, R577). -/
theorem BobbinAlone.prefixForkBody_eq (k : BobbinAlone h b p s) {q : Nat}
    (hlink : b.link.isSome = true) (hq : q ≤ b.linkLen) (hready : b.preparing = false) :
    prefixForkBody h b.handle q s =
      .ok { s with obj := { s.obj with bobbins := [{ b with copying := 2, forkPos := q }] } } [] := by
  have hlinked : b.link.isNone = false := Option.isNone_eq_false_iff.2 hlink
  unfold prefixForkBody
  dsimp only
  rw [k.findBobbin_eq, k.checkHandle_eq]
  dsimp only
  rw [hlinked, if_neg Bool.false_ne_true, if_neg (Nat.not_lt.2 hq), if_neg (by simp [bobbinNamed_none k.stitches, hready]),
    modBobbin_single k.bobbins]

end

/-! ## The end of a link's copy (R311) -/

theorem linkCopy_accessed (b q : Bobbin) {s : State} (h : CleanMemory s) : MemoryAccessed s (linkCopy b q s) :=
  MemoryAccessed.foldl
    (fun _ _ hs => (hubCopy_accessed _ _ _ hs).trans (hubCopy_accessed _ _ _ (hubCopy_accessed _ _ _ hs).clean)) _ h

/-- A linked bobbin that has its copy leaves preparation. -/
theorem execPrefixCopyComplete_link {s : State} {b q : Bobbin} (hb : s.obj.bobbins = [b, q]) (hne : b.handle ≠ q.handle)
    (hlink : b.link = some q.handle) (htags : b.rewriting = false) (hcopy : b.copying = 1) :
    execPrefixCopyComplete b.handle s =
      .next (modBobbin b.handle (fun b => { b with copying := 0 }) (linkCopy b q s)) := by
  have hfound : findBobbin s b.handle = some b := by simp [findBobbin, hb]
  have hprefix : b.link.bind (findBobbin s) = some q := by simp [hlink, findBobbin, hb, hne]
  unfold execPrefixCopyComplete
  rw [hfound]
  dsimp only
  rw [hprefix]
  simp [htags, hcopy]

theorem prefixCopyComplete_link {s : State} {b q : Bobbin} (h : CleanMemory s) (hb : s.obj.bobbins = [b, q])
    (hne : b.handle ≠ q.handle) (hlink : b.link = some q.handle) (htags : b.rewriting = false) (hcopy : b.copying = 1) :
    ∃ t, exec (.prefixCopyComplete b.handle) s = .next t ∧
      t = { s with obj := t.obj, mem := t.mem, fresh := t.fresh, ctr := { s.ctr with links := t.ctr.links } } ∧
      t.obj = { s.obj with bobbins := [{ b with copying := 0 }, q] } := by
  obtain ⟨hrest, -⟩ := linkCopy_accessed b q h
  refine ⟨_, execPrefixCopyComplete_link hb hne hlink htags hcopy, ?_, ?_⟩
  · rw [modBobbin, hrest]
    rfl
  · rw [modBobbin, hrest]
    simp [State.modObj, listUpd, hb, hne.symm]

/-! ## The commands (O47) -/

theorem received_card {s : State} {mb : SMap Mailbox} {l : Option Nat} (h : CleanMemory s)
    (hcan : (received mb l s).canonical = true) : CleanCard (received mb l s) := ⟨cleanMemory_of_mem h rfl, hcan⟩

/-- Settles O47: each command by its own part on the state in which that runs, the end of a link's copy by the copies it makes. -/
theorem bobbinCommands : Obligations.BobbinCommands := by
  unfold Obligations.BobbinCommands
  intro h s _ hclean
  refine ⟨fun layout model maxPos p b g ht hb hp hcheck hrun => ?create, fun b p hb hbobbin htype hown hp ha hst => ?alone,
    fun b q hb hne hlink htags hcopy => prefixCopyComplete_link hclean hb hne hlink htags hcopy⟩
  case create =>
    refine serves_of_ok (k := kPlain) rfl ht rfl fun mb l hcan => ?_
    obtain ⟨u, hbody, hu⟩ := bobbinCreateBody_first (received_card hclean hcan) hb hp hcheck hrun
    exact ⟨u, hbody, by rw [hu]; exact ⟨rfl, rfl, rfl, rfl⟩, fun _ _ _ => by rw [hu]; exact ⟨rfl, rfl, rfl, rfl⟩⟩
  case alone =>
    have halone : ∀ mb l, BobbinAlone h b p (received mb l s) := fun _ _ => ⟨hb, hbobbin, htype, hown, hp, ha, hst⟩
    refine ⟨fun ht hready => ?release, fun ht hlink hpos => ?prefixCreate, fun q ht hlink hq hready => ?fork⟩
    case release =>
      exact serves_of_ok (k := kPlain) rfl ht rfl fun mb l _ =>
        ⟨_, (halone mb l).bobbinReleaseBody_eq ht.alone hready, ⟨rfl, rfl, rfl, rfl⟩, fun _ _ _ => rfl⟩
    case prefixCreate =>
      refine serves_of_ok (k := kPlain) rfl ht rfl fun mb l hcan => ?_
      obtain ⟨u, hbody, hu⟩ := (halone mb l).prefixCreateBody_eq (received_card hclean hcan) hlink hpos
      exact ⟨u, hbody, by rw [hu]; exact ⟨rfl, rfl, rfl, rfl⟩, fun _ _ _ => by rw [hu]; exact ⟨rfl, rfl, rfl⟩⟩
    case fork =>
      exact serves_of_ok (k := kPlain) rfl ht rfl fun mb l _ =>
        ⟨_, (halone mb l).prefixForkBody_eq hlink hq hready, ⟨rfl, rfl, rfl, rfl⟩, fun _ _ _ => rfl⟩

end Sys2Proof.Machine
end

section
/-! SUPPORT. A mailbox command that is taken and answered later, on a card in no pair (R540, R544, R561, R574), and memory whose
contents are lost (R570). -/

namespace Sys2Proof.Machine

open Sys2Proof.Claims

/-- A taken command whose own part waits leaves what that part leaves, its mailbox being owned. -/
theorem enter_wait {k : CmdKind} (hk : k.sessionless = false) {h : Hdr} {len : Nat} {s : State} (ht : Taken false h len s)
    (op : Nat) : ∃ mb l, Waits h (received mb l s) ∧
      ∀ i body u, body (received mb l s) = .wait u → u.pair.mode = 0 → enter h op i (serve k h len body) s = u := by
  obtain ⟨-, hhost, -⟩ := (State.canonical_iff s).1 ht.canonical
  obtain ⟨hmb, -, -⟩ := (HostUnit.canonical_iff _).1 hhost
  obtain ⟨hown, hseq, -⟩ := takeOwner_mbox (h := h) (op := op) (s := s.linkActive) hmb
  obtain ⟨l, hrenew⟩ := renewFor_fields h (takeOwner h op s.linkActive)
  have hreceived : renewFor h (takeOwner h op s.linkActive) = received (takeOwner h op s.linkActive).host.mboxes l s := hrenew
  refine ⟨(takeOwner h op s.linkActive).host.mboxes, l, ⟨hown, hseq⟩, fun i body u hbody halone => ?_⟩
  have hpass : precheck k h len (renewFor h (takeOwner h op s.linkActive)) = none := by
    rw [hreceived]
    exact precheck_received hk ht _ l
  have hholding : holding s = false := holding_of_taken ht
  calc enter h op i (serve k h len body) s
      = ownerWrite h op i (serve k h len body) s.linkActive :=
        hostAccess_reached ht.reached.link ht.reached.mse ht.reached.d0
    _ = serve k h len body (takeOwner h op s.linkActive) :=
        ownerWrite_run (s := s.linkActive) ht.free ht.locked (.inl hholding)
    _ = mirrorFlush u := by rw [serve_passed hpass, hreceived, hbody]
    _ = u := mirrorFlush_alone halone

/-- A taken command of a session waits when its own part, from the state in which it runs, waits and touches none of the host
interface, the link and the pair. -/
theorem waits_of_wait {k : CmdKind} (hk : k.sessionless = false) {h : Hdr} {len op : Nat} {s : State} {c i : Instr}
    {body : State → Reply} {f : State → Prop} (ht : Taken false h len s)
    (hexec : exec c s = .next (enter h op i (serve k h len body) s))
    (hbody : ∀ mb l, ∃ u, body (received mb l s) = .wait u ∧ SameInterface (received mb l s) u ∧ f u) :
    ∃ t, exec c s = .next t ∧ Waits h t ∧ HostFrame s t ∧ t.out = s.out ∧ f t := by
  obtain ⟨mb, l, hwaits, henter⟩ := enter_wait hk ht op
  obtain ⟨u, hu, ⟨hhost, hpcie, hout, hpair⟩, hf⟩ := hbody mb l
  have hmbox : u.mbox h.mbox = (received mb l s).mbox h.mbox := by rw [State.mbox, hhost]; rfl
  refine ⟨u, hexec.trans (congrArg _ (henter i body u hu (by rw [hpair]; exact ht.alone))), ?_, ⟨?_, hpcie⟩, hout, hf⟩
  · rw [Waits, hmbox]
    exact hwaits
  · rw [hhost]
    rfl

/-- A byte outside an area whose contents are lost reads as before. -/
theorem memByte_loseAreas_outside {s : State} (h : Memory.wf s.mem.cells = true) {a n x : Nat} (hx : x < a ∨ a + n ≤ x) :
    memByte (loseAreas [(a, n)] [] s) x = memByte s x := by
  have hcells : (loseAreas [(a, n)] [] s).mem.cells =
      s.mem.cells.filter fun c => decide (c.1 < a) || decide (a + n ≤ c.1) := rfl
  have hlost : (loseAreas [(a, n)] [] s).mem.lost = forgetLost a n s.mem.lost ++ [⟨a, n, s.fresh, a⟩] := rfl
  have hout : ¬(a ≤ x ∧ x < a + n) := by omega
  unfold memByte
  rw [hcells, hlost, lostAt_append, lostAt_forgetLost, SMap.get_filter h fun k => decide (k < a) || decide (a + n ≤ k)]
  simp [lostAt, hout, hx]

end Sys2Proof.Machine
end

section
/-! SUPPORT. O44: buffer pools (R364 to R375, R382, R589, R590). -/

namespace Sys2Proof.Machine

open Sys2Proof.Claims

/-! ## POOL_CREATE (R364 to R367) -/

/-- A pool outside the pillows is made at the extent that placing finds. -/
theorem poolCreateBody_placed {h : Hdr} {s : State} {space lg flags count base : Nat} (halone : s.pair.mode = 0)
    (hspace : space ≠ 1) (hfields : poolFieldsOk space lg flags count 0 0 = true) (hcount : s.obj.pools.length < 64)
    (hindex : (newHandle s 6).index < 64) (hplace : placeExtent s space (2 ^ lg) (count * 2 ^ lg) = some base) :
    poolCreateBody h space lg flags count 0 0 s =
      .ok (issued (newHandle s 6) (s.modObj fun o => { o with pools := o.pools ++ [
        { handle := newHandle s 6, session := h.session, space := space, bufLog2 := lg, arena := decide (flags = 1),
          count := count, stackMask := 0, base := base, regionOffset := 0, lowFree := count }] }))
        (leBytes 4 (newHandle s 6).toNat ++ zeroBytes 4 ++ leBytes 8 base) := by
  have hpools : countOf s tPool = s.obj.pools.length := by simp [countOf, halone, Objects.handles]
  have hroom : ¬(64 ≤ countOf s tPool ∨ 64 ≤ (newHandle s tPool).index) :=
    not_or.2 ⟨Nat.not_le.2 (hpools ▸ hcount), Nat.not_le.2 hindex⟩
  unfold poolCreateBody
  dsimp only
  rw [hfields, if_neg (Bool.noConfusion), if_neg hroom, if_neg hspace, hplace]

/-! ## Commands of a pool that is alone -/

/-- A pool of the command's session, no arena, is the only one. -/
structure PoolAlone (h : Hdr) (p : Pool) (s : State) : Prop where
  pools : s.obj.pools = [p]
  type : p.handle.type = 6
  session : p.session = h.session
  buffers : p.arena = false

section
variable {h : Hdr} {p : Pool} {s : State}

/-- Its handle passes the check. -/
theorem PoolAlone.checkHandle_eq (k : PoolAlone h p s) :
    checkHandle p.handle tPool ((some p).map (·.session)) h.session = none := by
  rw [← k.session]
  exact checkHandle_own k.type

/-- An allocation outside DDR is answered at once (R590). -/
theorem PoolAlone.poolAllocBody_now (k : PoolAlone h p s) (hfree : firstFree p.bufs 0 < p.count) (hspace : p.space ≠ 2) :
    poolAllocBody h p.handle s = .ok (takeBuf p (firstFree p.bufs 0) none s)
      (allocResponse p.handle 0 (p.buf (firstFree p.bufs 0)).gen (p.addrOf (firstFree p.bufs 0))) := by
  unfold poolAllocBody
  rw [findPool_single k.pools rfl, k.checkHandle_eq]
  dsimp only
  rw [k.buffers, if_neg Bool.false_ne_true, if_neg fun hlarge => hspace hlarge.1, if_neg (Nat.not_le.2 hfree), if_neg hspace]

/-- An allocation in DDR of a buffer of at most 4 MiB waits (R375). -/
theorem PoolAlone.poolAllocBody_later (k : PoolAlone h p s) (hfree : firstFree p.bufs 0 < p.count) (hspace : p.space = 2)
    (hsize : p.bufLog2 ≤ 22) : poolAllocBody h p.handle s = .wait (takeBuf p (firstFree p.bufs 0) (some h) s) := by
  unfold poolAllocBody
  rw [findPool_single k.pools rfl, k.checkHandle_eq]
  dsimp only
  rw [k.buffers, if_neg Bool.false_ne_true, if_neg fun hlarge => Nat.not_lt.2 hsize hlarge.2, if_neg (Nat.not_le.2 hfree),
    if_pos hspace]

/-- A buffer outside DDR that is taken has lost its contents. -/
theorem PoolAlone.takeBuf_lost (k : PoolAlone h p s) (hspace : p.space ≠ 2) (j : Nat) (w : Option Hdr) :
    takeBuf p j w s = { loseAreas [(p.addrOf j, p.bufBytes)] [] s with obj := { s.obj with pools := [p.take j] } } := by
  have htake := modPool_single (s := loseAreas [(p.addrOf j, p.bufBytes)] [] s) k.pools rfl fun q => q.take j
  unfold takeBuf
  dsimp only
  rw [htake, decide_eq_false hspace]
  rfl

/-- A buffer in DDR that is taken begins its tag rewrite too. -/
theorem PoolAlone.takeBuf_rewrite (k : PoolAlone h p s) (hspace : p.space = 2) (j : Nat) (w : Option Hdr) :
    takeBuf p j w s = beginRewrite (poolRewrite p j p.bufBytes (p.buf j).gen w)
      { loseAreas [(p.addrOf j, p.bufBytes)] [] s with obj := { s.obj with pools := [p.take j] } } := by
  have htake := modPool_single (s := loseAreas [(p.addrOf j, p.bufBytes)] [] s) k.pools rfl fun q => q.take j
  unfold takeBuf
  dsimp only
  rw [htake, decide_eq_true hspace]
  rfl

/-- REF and UNREF of a buffer that passes their checks change the pool alone (R373, R589). -/
theorem PoolAlone.poolRefBody_eq (k : PoolAlone h p s) {b : BufRef} {j : Nat} {up : Bool} (hb : b.pool = p.handle)
    (hcheck : checkBuf p b up = .ok j) :
    let q := if up then p.modBuf j fun x => { x with count := x.count + 1 } else p.unref j
    poolRefBody h b up s =
      .ok { s with obj := { s.obj with pools := [q] } } (leBytes 2 (q.buf j).count ++ leBytes 2 (q.buf j).gen) := by
  intro q
  unfold poolRefBody
  rw [hb, findPool_single k.pools rfl, k.checkHandle_eq]
  dsimp only
  rw [hcheck]
  dsimp only
  rw [modPool_single k.pools rfl]

/-- Of a pool in which no buffer is allocated all are free, so that its ledger balances (R381). -/
theorem PoolAlone.checkLedgers_unused (k : PoolAlone h p s) (hunused : p.inUse = false) :
    checkLedgers (poolLedgers s p) s = s := by
  have hnone : p.allocated = 0 := by
    rw [Pool.allocated, List.length_eq_zero_iff, List.filter_eq_nil_iff]
    exact fun x hx => by simpa using List.any_eq_false.1 hunused x hx
  simp [poolLedgers, k.buffers, checkLedgers, checkLedger, Ledger.ofTotal, Pool.free, hnone]

/-- DESTROY of a pool in which no buffer is allocated removes it (R368). -/
theorem PoolAlone.poolDestroyBody_eq (k : PoolAlone h p s) (hunused : p.inUse = false) :
    poolDestroyBody h p.handle s =
      .ok { s with obj := { s.obj with pools := [] }, fresh := s.fresh + 4 } (freeBytes 4 s) := by
  have hdrop : dropPool p.handle s = { s with obj := { s.obj with pools := [] } } := by
    rw [dropPool, findPool_single k.pools rfl]
    dsimp only
    rw [k.checkLedgers_unused hunused]
    simp [State.modObj, removeKey, k.pools]
  unfold poolDestroyBody
  rw [findPool_single k.pools rfl, k.checkHandle_eq]
  dsimp only
  rw [hunused, if_neg Bool.false_ne_true, hdrop]
  rfl

/-- POOL_STATS answers the pool's register block (R382). -/
theorem PoolAlone.poolStatsBody_eq (k : PoolAlone h p s) : poolStatsBody h p.handle s = .ok s (poolBlock s p) := by
  unfold poolStatsBody
  rw [findPool_single k.pools rfl, k.checkHandle_eq]

end

/-! ## The commands (O44) -/

/-- Settles O44: each command by its own part on the state in which that runs. -/
theorem poolCommands : Obligations.PoolCommands := by
  unfold Obligations.PoolCommands
  intro h s _
  refine ⟨fun space lg flags count base ht hspace hfields hcount hindex hplace => ?create,
    fun p hp htype hown hbuffers => ?alone⟩
  case create =>
    exact serves_of_ok (k := kPlain) rfl ht rfl fun mb l _ =>
      ⟨_, poolCreateBody_placed (s := received mb l s) ht.alone hspace hfields hcount hindex hplace, ⟨rfl, rfl, rfl, rfl⟩,
        fun _ _ _ => rfl⟩
  case alone =>
    have halone : ∀ mb l, PoolAlone h p (received mb l s) := fun _ _ => ⟨hp, htype, hown, hbuffers⟩
    refine ⟨fun ht hfree => ⟨fun hspace => ?now, fun hspace hsize => ?later⟩,
      fun b j ht hb => ⟨fun hcheck => ?ref, fun hcheck => ?unref⟩, fun ht hunused => ?destroy, fun ht => ?stats⟩
    case now =>
      refine serves_of_ok (k := kPlain) rfl ht rfl fun mb l hcan => ?_
      obtain ⟨hmem, -⟩ := (State.canonical_iff _).1 hcan
      obtain ⟨hcells, -⟩ := (MemUnit.canonical_iff _).1 hmem
      refine ⟨_, (halone mb l).poolAllocBody_now hfree hspace, ?_, fun _ _ _ => ?_⟩ <;>
        rw [(halone mb l).takeBuf_lost hspace]
      · exact ⟨rfl, rfl, rfl, rfl⟩
      · exact ⟨rfl, rfl, rfl, fun _ hx => memByte_loseAreas_outside hcells hx⟩
    case later =>
      refine waits_of_wait (k := kPlain) rfl ht rfl fun mb l => ?_
      refine ⟨_, (halone mb l).poolAllocBody_later hfree hspace hsize, ?_⟩
      rw [(halone mb l).takeBuf_rewrite hspace]
      exact ⟨⟨rfl, rfl, rfl, rfl⟩, rfl, rfl⟩
    case ref =>
      exact serves_of_ok (k := kPlain) rfl ht rfl fun mb l _ =>
        ⟨_, (halone mb l).poolRefBody_eq hb hcheck, ⟨rfl, rfl, rfl, rfl⟩, fun _ _ _ => rfl⟩
    case unref =>
      exact serves_of_ok (k := kPlain) rfl ht rfl fun mb l _ =>
        ⟨_, (halone mb l).poolRefBody_eq hb hcheck, ⟨rfl, rfl, rfl, rfl⟩, fun _ _ _ => rfl⟩
    case destroy =>
      exact ⟨freeBytes 4 s, by simp [freeBytes], serves_of_ok (k := kPlain) rfl ht rfl fun mb l _ =>
        ⟨_, (halone mb l).poolDestroyBody_eq hunused, ⟨rfl, rfl, rfl, rfl⟩, fun _ _ _ => ⟨rfl, rfl⟩⟩⟩
    case stats =>
      exact serves_of_ok (k := kPlain) rfl ht rfl fun mb l _ =>
        ⟨_, (halone mb l).poolStatsBody_eq, ⟨rfl, rfl, rfl, rfl⟩, fun _ _ _ => rfl⟩

end Sys2Proof.Machine
end

section
/-! SUPPORT. O21: die links and the end of a tag rewrite (R343, R375, R725, R726); and what entering FAULT leaves on a card in no
pair, said once. -/

namespace Sys2Proof.Machine

/-! ## The card enters FAULT (R694, R726) -/

/-- A card fault's report through AER leaves the host interface and the counters alone. -/
theorem internalError_uncorrected (s : State) :
    (internalError false s).host = s.host ∧ (internalError false s).ctr = s.ctr := by
  obtain ⟨hrest, -⟩ := uncorrectableError_reported ueInternal false (List.replicate 16 0xFF) s
  obtain ⟨hstands, -⟩ := errorStands_fields ueInternal (List.replicate 16 0xFF) s
  have herror : internalError false s = _ := hrest
  rw [herror, hstands]
  exact ⟨rfl, rfl⟩

/-- On a card in no pair the fault stands in HEV.STATE and HEV.FAULT_CODE, and no counter of the card changes. -/
theorem enterFault_alone {s : State} (h : s.pair.mode = 0) (kind unit : Nat) :
    let t := enterFault kind unit s
    t.host.state = .fault ∧ t.host.faultCode = kind + 256 * unit ∧ t.ctr = s.ctr := by
  obtain ⟨hevent, -, -⟩ := issueEvent_placed h evCardFault unit [kind, 0, 0, s.time.tick]
  let u := abandonRunning ((issueEvent evCardFault unit [kind, 0, 0, s.time.tick] s).modHost fun h =>
    { h with state := .fault, faultCode := kind + 256 * unit, faultWait := none })
  obtain ⟨c, p, k, o, hcause⟩ := setCause_fields causeFault u
  have hctr : u.ctr = s.ctr := congrArg (·.ctr) hevent
  intro t
  obtain ⟨hhost, hcount⟩ : t.host = (setCause causeFault u).host ∧ t.ctr = (setCause causeFault u).ctr :=
    internalError_uncorrected (logWrite 0 0 [kind, unit] (setCause causeFault u))
  rw [hhost, hcount, hcause]
  exact ⟨rfl, rfl, hctr⟩

/-- An escalated fault of a card in no pair that is not in FAULT and has no partition is entered at once. -/
theorem escalate_alone {s : State} (hstate : s.host.state ≠ .fault) (hpair : s.pair.mode = 0) (hparts : s.obj.partitions = [])
    (kind unit : Nat) : escalate kind unit s = enterFault kind unit s := by
  simp [escalate, hstate, healthy_alone hpair, anyRunning, hparts]

/-! ## Die links (R725, R726) -/

/-- An error of a working link that is no fourth consecutive resend is a corrected fault. -/
theorem dieLinkCrcError_resent {s : State} {l : Nat} {resent : Bool} (hl : l < 8) (hup : s.ctr.linksDown.contains l = false)
    (hfew : resent = false ∨ SMap.get 0 s.ctr.linkRetries l < 3) :
    exec (.dieLinkCrcError l resent) s = .next { s with ctr := { s.ctr with
      corrected := s.ctr.corrected + 1
      linkRetries := SMap.set 0 s.ctr.linkRetries l (if resent then SMap.get 0 s.ctr.linkRetries l + 1 else 0) } } := by
  have hn : (if resent then SMap.get 0 s.ctr.linkRetries l + 1 else 0) < 4 := by
    rcases hfew with rfl | hfew
    · exact Nat.zero_lt_succ 3
    · split <;> omega
  change execDieLinkCrcError l resent s = _
  unfold execDieLinkCrcError
  rw [if_neg (not_or.2 ⟨Nat.not_le.2 hl, Bool.eq_false_iff.1 hup⟩)]
  exact if_pos hn

/-- The fourth consecutive resend puts the link down, which is escalated. -/
theorem dieLinkCrcError_down {s : State} {l : Nat} (hl : l < 8) (hup : s.ctr.linksDown.contains l = false)
    (hmany : 3 ≤ SMap.get 0 s.ctr.linkRetries l) :
    ∃ retries, exec (.dieLinkCrcError l true) s = .next (escalate fkDieLinkDown l { s with ctr := { s.ctr with
      linkRetries := retries, linksDown := s.ctr.linksDown ++ [l] } }) := by
  refine ⟨SMap.set 0 s.ctr.linkRetries l (SMap.get 0 s.ctr.linkRetries l + 1), ?_⟩
  change execDieLinkCrcError l true s = _
  unfold execDieLinkCrcError
  rw [if_neg (not_or.2 ⟨Nat.not_le.2 hl, Bool.eq_false_iff.1 hup⟩)]
  exact if_neg (Nat.not_lt.2 (Nat.succ_le_succ hmany))

/-! ## The end of a tag rewrite (R343, R375) -/

theorem rewriteOn_eq_false {owner : Handle} {buffer : Nat} {e : TagExtent}
    (h : e.owner ≠ owner ∨ e.buffer ≠ buffer ∨ e.pending = false) : rewriteOn owner buffer e = false := by
  rcases h with h | h | h <;> simp [rewriteOn, h]

/-- Where no extent is a pending rewrite of the buffer none ends. -/
theorem endOldest_none {owner : Handle} {buffer : Nat} {l : List TagExtent} (h : ∀ x ∈ l, rewriteOn owner buffer x = false) :
    endOldest owner buffer l = (l, none) := by
  induction l with
  | nil => rfl
  | cons x l ih =>
    obtain ⟨hx, hl⟩ := List.forall_mem_cons.1 h
    rw [endOldest, ih hl]
    simp [hx]

/-- The rewrite that ends is the one with none older. -/
theorem endOldest_oldest {owner : Handle} {buffer : Nat} {newer older : List TagExtent} {e : TagExtent}
    (he : rewriteOn owner buffer e = true) (h : ∀ x ∈ older, rewriteOn owner buffer x = false) :
    endOldest owner buffer (newer ++ e :: older) =
      (newer ++ { e with pending := false, done := [], waiter := none } :: older, some e) := by
  induction newer with
  | nil =>
    rw [List.nil_append, endOldest, endOldest_none h]
    simp [he]
  | cons x newer ih => rw [List.cons_append, endOldest, ih]; rfl

theorem listUpd_of_nil {α : Type} {p : α → Bool} {f : α → α} {l : List α} (h : l = []) : listUpd p f l = l := by
  rw [h]
  rfl

/-- Without streams, items and bobbins nothing waits for the end of a rewrite but the command that it names. -/
theorem allocPrepared_nothing {s : State} {e : TagExtent} (hw : e.waiter = none) (hs : s.obj.streams = [])
    (hi : s.obj.items = []) (hb : s.obj.bobbins = []) : allocPrepared e s = s := by
  have hrun : runPrepared e s = s := by
    unfold runPrepared
    split
    · rfl
    · exact congrArg (fun l => { s with obj := { s.obj with bobbins := l } }) (listUpd_of_nil hb)
  have hstream : streamPrepared e.owner (64 * e.first) e.gen s = s :=
    congrArg (fun l => { s with obj := { s.obj with streams := l } }) (listUpd_of_nil hs)
  have hitems : itemsPrepared e s = s := by simp [itemsPrepared, hi]
  unfold allocPrepared
  dsimp only
  rw [hrun, hstream, hitems, hw]

/-- The rewrite of an extent between newer and older ones has ended: of its lines those that take their tag only now lose their
POISON. -/
def rewriteEnded (newer : List TagExtent) (e : TagExtent) (older : List TagExtent) (s : State) : State :=
  { s with mem := { s.mem with
    tags := newer ++ { e with pending := false, done := [] } :: older
    poison := s.mem.poison.filter fun x => !(tagCovers e x && !e.done.contains x) } }

/-- A line keeps its POISON when it is none of the extent's or was seen to carry the new tag before. -/
theorem mem_rewriteEnded_poison {newer older : List TagExtent} {e : TagExtent} {s : State} {l : Nat} :
    l ∈ (rewriteEnded newer e older s).mem.poison ↔
      l ∈ s.mem.poison ∧ (l < e.first ∨ e.first + e.count ≤ l ∨ l ∈ e.done) := by
  have hkept : (!(tagCovers e l && !e.done.contains l)) = true ↔ l < e.first ∨ e.first + e.count ≤ l ∨ l ∈ e.done := by
    grind [tagCovers]
  exact List.mem_filter.trans (and_congr_right fun _ => hkept)

/-- The end of the oldest rewrite for a buffer, on which nothing waits. -/
theorem tagRewriteComplete_oldest {s : State} {newer older : List TagExtent} {e : TagExtent}
    (htags : s.mem.tags = newer ++ e :: older) (hpending : e.pending = true) (hw : e.waiter = none)
    (holdest : ∀ x ∈ older, rewriteOn e.owner e.buffer x = false) (hs : s.obj.streams = []) (hi : s.obj.items = [])
    (hb : s.obj.bobbins = []) :
    exec (.tagRewriteComplete e.owner e.buffer) s = .next (rewriteEnded newer e older s) := by
  have hend : endOldest e.owner e.buffer s.mem.tags =
      (newer ++ { e with pending := false, done := [] } :: older, some e) := by
    rw [htags, endOldest_oldest (by simp [rewriteOn, hpending]) holdest, ← hw]
  change execTagRewriteComplete e.owner e.buffer s = _
  unfold execTagRewriteComplete tagDone
  rw [hend]
  exact congrArg Host.Outcome.next (allocPrepared_nothing (s := rewriteEnded newer e older s) hw hs hi hb)

/-! ## The events (O21) -/

/-- Settles O21: a link's error by the resends before it, the end of a rewrite by the place of its extent among the tags. -/
theorem dieLinksAndTags : Obligations.DieLinksAndTags := by
  unfold Obligations.DieLinksAndTags
  intro s _
  refine ⟨fun l resent hl hup hfew => ⟨_, dieLinkCrcError_resent hl hup hfew, rfl, rfl⟩,
    fun l hl hup hmany hready hpair _ hparts => ?down,
    fun h b e newer older htags howner hbuffer hpending hw holder hs hi hb => ?rewrite⟩
  case down =>
    obtain ⟨retries, hexec⟩ := dieLinkCrcError_down hl hup hmany
    let u : State := { s with ctr := { s.ctr with linkRetries := retries, linksDown := s.ctr.linksDown ++ [l] } }
    have hstate : u.host.state ≠ .fault := by rw [show u.host.state = .ready from hready]; decide
    obtain ⟨hfault, hcode, hctr⟩ := enterFault_alone (s := u) hpair fkDieLinkDown l
    exact ⟨_, hexec.trans (congrArg _ (escalate_alone (s := u) hstate hpair hparts _ _)), by rw [hctr], hfault, hcode⟩
  case rewrite =>
    subst howner hbuffer
    exact ⟨_, tagRewriteComplete_oldest htags hpending hw (fun x hx => rewriteOn_eq_false (holder x hx)) hs hi hb, rfl, rfl,
      rfl, fun _ => mem_rewriteEnded_poison, fun _ => rfl⟩

end Sys2Proof.Machine
end

section
/-! SUPPORT. A stream and a flow that are the only ones, said once: what finding them gives and what changing them leaves. -/

namespace Sys2Proof.Machine

theorem upsert_single {α κ : Type} [DecidableEq κ] {key : α → κ} {x y : α} (h : key y = key x) : upsert key x [y] = [x] := by
  simp [upsert, h]

/-- The state with stream `x` and no other. -/
def onlyStream (x : Stream) (s : State) : State := { s with obj := { s.obj with streams := [x] } }

section
variable {x : Stream} {a : Handle} {s : State}

theorem onlyStream_self (h : s.obj.streams = [x]) : onlyStream x s = s := by
  rw [onlyStream, ← h]

theorem findStream_onlyStream (ha : x.handle = a) : findStream (onlyStream x s) a = some x := by
  simp [findStream, onlyStream, ha]

theorem modStream_onlyStream (ha : x.handle = a) (f : Stream → Stream) :
    modStream a f (onlyStream x s) = onlyStream (f x) s := by
  simp [modStream, State.modObj, listUpd, onlyStream, ha]

theorem findStream_single (h : s.obj.streams = [x]) (ha : x.handle = a) : findStream s a = some x := by
  rw [← onlyStream_self h, findStream_onlyStream ha]

theorem modStream_single (h : s.obj.streams = [x]) (ha : x.handle = a) (f : Stream → Stream) :
    modStream a f s = onlyStream (f x) s :=
  (congrArg (modStream a f) (onlyStream_self h).symm).trans (modStream_onlyStream ha f)

theorem modIngest_single (h : s.obj.streams = [x]) (ha : x.handle = a) (f : IngestCounters → IngestCounters) :
    modIngest a f s = onlyStream { x with ingest := f x.ingest } s :=
  modStream_single h ha _

end

theorem findFlow_single {s : State} {f : Flow} (h : s.obj.flows = [f]) {a : Handle} (ha : f.handle = a) :
    findFlow s a = some f := by
  simp [findFlow, h, ha]

theorem setFlow_single {s : State} {f g : Flow} (h : s.obj.flows = [f]) (hg : f.handle = g.handle) :
    setFlow g s = { s with obj := { s.obj with flows := [g] } } := by
  rw [setFlow, State.modObj, h, upsert_single hg]

end Sys2Proof.Machine
end

section
/-! SUPPORT. O54: packets of a flow, gap deadlines, and the first slice header of a picture (R384 to R402, R422 to R439). -/

namespace Sys2Proof.Machine

/-! ## Packets leaving the jitter buffer (R395, R397) -/

/-- The flow after packet `p` has left a jitter buffer that it leaves empty: an access unit is open with the packet's capture time,
and carries the loss before it. -/
def unitBegun (p : HeldPacket) (f : Flow) : Flow :=
  { f with
    held := [], lastOut := some p.seq, lossPending := false
    open_ := some (p.rtpTime, ⟨(captureOf f p none).1, (captureOf f p none).2, f.lossPending, p.bytes⟩) }

/-- An RTP packet with no access unit under assembly starts one. -/
theorem leave_opens {p : HeldPacket} {f : Flow} (hencap : f.req.encap = 1) (hopen : f.open_ = none) (hmarker : p.marker = false)
    (s : State) : leave p f s = (openUnit f p p.rtpTime none p.bytes, s) := by
  simp [leave, hencap, hopen, hmarker]

/-- The one held packet, nothing being missing before it, leaves to a control core that runs. -/
theorem leaveReady_single {p : HeldPacket} {f : Flow} {s : State} (hcore : coreServes s f.req.stream = true)
    (hencap : f.req.encap = 1) (hopen : f.open_ = none) (hmarker : p.marker = false) (hlast : f.lastOut = some (p.seq - 1)) :
    leaveReady [p] f s = (unitBegun p f, s) := by
  have hleave : leaveTo p { f with lastOut := some p.seq } s =
      (openUnit { f with lastOut := some p.seq } p p.rtpTime none p.bytes, s) := by
    rw [leaveTo, if_pos hcore]
    exact leave_opens (f := { f with lastOut := some p.seq }) hencap hopen hmarker s
  rw [leaveReady, if_pos (.inl hlast), hleave]
  rfl

/-! ## The next packet in order (R384, R387, R395, R396, R398) -/

/-- RTP flow `f` of stream `x`, both alone, holds no packet and assembles no access unit; packet `n` came and left last, and the
stream's control core runs. -/
structure FlowEmpty (x : Stream) (f : Flow) (n : Nat) (s : State) : Prop where
  streams : s.obj.streams = [x]
  stream : x.handle = f.req.stream
  flows : s.obj.flows = [f]
  encap : f.req.encap = 1
  core : coreServes s f.req.stream = true
  closed : f.open_ = none
  empty : f.held = [] ∧ f.outbox = []
  last : f.lastOut = some n
  highest : f.highest = some n

/-- The counters of a stream's ingest after packet `p` has come and been used, alone in the jitter buffer. -/
def packetCounted (p : HeldPacket) (c : IngestCounters) : IngestCounters :=
  { c with received := c.received + 1, used := c.used + 1, heldPeak := max c.heldPeak p.bytes }

/-- What the next packet leaves: it is counted as received and used, and its access unit is open. -/
def packetPassed (p : HeldPacket) (x : Stream) (f : Flow) (s : State) : State :=
  { s with obj := { s.obj with
    streams := [{ x with ingest := packetCounted p x.ingest }]
    flows := [unitBegun p { f with highest := some p.seq }] } }

section
variable {x : Stream} {f : Flow} {n : Nat} {s : State}

/-- A packet of the next sequence number goes through an empty jitter buffer at once. -/
theorem FlowEmpty.admitPacket_next (k : FlowEmpty x f n s) {p : HeldPacket} (hseq : p.seq = n + 1) (hmarker : p.marker = false) :
    admitPacket f p s = packetPassed p x f s := by
  obtain ⟨hx, hstream, hflows, hencap, hcore, hopen, ⟨hheld, houtbox⟩, hlast, hhighest⟩ := k
  let g : Flow := { f with held := [p], highest := some p.seq }
  let u : State := modIngest f.req.stream (packetCounted p) s
  have hcount : u = onlyStream { x with ingest := packetCounted p x.ingest } s := modIngest_single hx hstream _
  have hready : leaveReady [p] g u = (unitBegun p g, u) :=
    leaveReady_single (by rw [hcount]; exact hcore) hencap hopen hmarker (by rw [hseq]; exact hlast)
  have hadmit : admitPacket f p s = setFlow (unitBegun p g) u := by
    have hinsert : insertBySeq p f.held = [p] := by rw [hheld, insertBySeq]
    have hinserted : ({ f with
        held := insertBySeq p f.held, highest := some (max (f.highest.getD 0) p.seq)
        lastOut := some (f.lastOut.getD (p.seq - 1)) } : Flow) = g := by
      simp [g, hinsert, hlast, hhighest, hseq]
    have hfull : Flow.heldBytes g = p.bytes := by simp [Flow.heldBytes, g, houtbox]
    have hnogap : decide (n + 1 < p.seq) = false := by simp [hseq]
    unfold admitPacket
    dsimp only
    rw [hinserted, hfull, hlast]
    dsimp only
    rw [hnogap, hinsert]
    exact congrArg (fun r => setFlow r.1 r.2) hready
  rw [hadmit, hcount]
  exact setFlow_single (s := onlyStream _ s) hflows rfl

/-- The next RTP packet of an entry that takes it is admitted. -/
theorem FlowEmpty.rtpPacket_next (k : FlowEmpty x f n s) {p : RtpPacket} (hkey : f.req.key = 1)
    (htype : f.req.pt = 255 ∨ p.pt = f.req.pt) (hwhole : p.malformed = false) (hmarker : p.marker = false)
    (hseq : extendSeq (some n) p.seq = n + 1) (hroom : p.bytes ≤ f.bufBytes) (t : CardTime) :
    rtpPacket f p t s =
      packetPassed ⟨n + 1, t, t.add (f.req.jitterMs * 1000000), p.bytes, p.timestamp, false, p.ts⟩ x
        { f with ssrc := some p.ssrc } s := by
  let g : Flow := { f with ssrc := some p.ssrc }
  let u : State := { s with obj := { s.obj with flows := [g] } }
  have kg : FlowEmpty x g n u :=
    ⟨k.streams, k.stream, rfl, k.encap, k.core, k.closed, k.empty, k.last, k.highest⟩
  obtain ⟨hheld, houtbox⟩ := k.empty
  have hnext : extendSeq f.highest p.seq = n + 1 := by rw [k.highest, hseq]
  have htaken : ¬(f.req.pt ≠ 0xFF ∧ p.pt ≠ f.req.pt) := fun ⟨hfixed, hother⟩ => htype.elim hfixed hother
  have hset : setFlow g s = u := setFlow_single k.flows rfl
  have hadmit := kg.admitPacket_next
    (p := ⟨n + 1, t, t.add (f.req.jitterMs * 1000000), p.bytes, p.timestamp, p.marker, p.ts⟩) rfl hmarker
  unfold rtpPacket
  rw [hwhole, if_neg Bool.false_ne_true, if_neg (by simp [hkey])]
  dsimp only
  rw [hset, if_neg htaken, hnext, if_neg (by simp [k.last]), if_neg (by simp [hheld]),
    if_neg (by simp [Flow.heldBytes, hheld, houtbox, hroom])]
  exact hadmit

/-- An RTP packet of a matched flow whose transport is RTP goes to that flow. -/
theorem receive_rtp {fr : Frame} {p : RtpPacket} (hbody : fr.body = .rtp p) (hparsed : unparsed fr = false)
    (hmatch : matchFlow s fr (some p.ssrc) = some f) (hencap : f.req.encap ≠ 2) :
    receive fr s = rtpPacket f p fr.ingress s := by
  unfold receive
  rw [hbody]
  dsimp only
  rw [hparsed, if_neg Bool.false_ne_true, hmatch]
  exact if_neg hencap

/-- A frame that carries the next RTP packet of the flow that it matches. -/
theorem FlowEmpty.frameReceive_next (k : FlowEmpty x f n s) {fr : Frame} {p : RtpPacket} (hbody : fr.body = .rtp p)
    (hport : s.board.portsUp.getD fr.port false = true) (hstate : s.host.state ≠ .fault) (hparsed : unparsed fr = false)
    (hmatch : matchFlow s fr (some p.ssrc) = some f) (hkey : f.req.key = 1) (htype : f.req.pt = 255 ∨ p.pt = f.req.pt)
    (hwhole : p.malformed = false) (hmarker : p.marker = false) (hseq : extendSeq (some n) p.seq = n + 1)
    (hroom : p.bytes ≤ f.bufBytes) :
    let t := ingressStamp s fr.port fr.ingress
    exec (.frameReceive fr) s = .next
      (packetPassed ⟨n + 1, t, t.add (f.req.jitterMs * 1000000), p.bytes, p.timestamp, false, p.ts⟩ x
        { f with ssrc := some p.ssrc } s) := by
  intro t
  have hreceive : receive { fr with ingress := t } s = rtpPacket f p t s :=
    receive_rtp (fr := { fr with ingress := t }) hbody hparsed hmatch (by simp [k.encap])
  have hup : ¬(s.board.portsUp.getD fr.port false = false ∨ s.host.state = .fault) :=
    not_or.2 ⟨ne_false_of_eq_true hport, hstate⟩
  calc exec (.frameReceive fr) s = .next (receive { fr with ingress := t } s) := if_neg hup
    _ = _ := by rw [hreceive, k.rtpPacket_next hkey htype hwhole hmarker hseq hroom]

end

/-! ## Gap deadlines (R395, R396, R397) -/

/-- A gap deadline at which the one held packet, behind a gap, has reached its release time. -/
theorem jitterGapDeadline_single {x : Stream} {f : Flow} {q : HeldPacket} {n : Nat} {s : State} (hpending : s.pending = [])
    (hdue : s.due = []) (hx : s.obj.streams = [x]) (hstream : x.handle = f.req.stream) (hflows : s.obj.flows = [f])
    (hencap : f.req.encap = 1) (hheld : f.held = [q]) (hopen : f.open_ = none) (hmarker : q.marker = false)
    (hlast : f.lastOut = some n) (hgap : n + 1 < q.seq) (hcore : coreServes s f.req.stream = true)
    (hrelease : reachedNow s q.release = true) :
    exec (.jitterGapDeadline f.handle) s = .next { s with obj := { s.obj with
      streams := [{ x with ingest := { x.ingest with lost := x.ingest.lost + (q.seq - 1 - n) } }]
      flows := [unitBegun q { f with lossPending := true }] } } := by
  let g : Flow := { f with lastOut := some (q.seq - 1), lossPending := true }
  let u : State := modIngest f.req.stream (fun c => { c with lost := c.lost + (q.seq - 1 - n) }) s
  have hu : u = _ := modIngest_single hx hstream _
  have hlost : declareLost f s = (g, u) := by
    unfold declareLost
    rw [hheld, hlast]
    exact (if_pos hgap).trans (by rw [← hheld])
  have hready : leaveReady g.held g u = (unitBegun q g, u) := by
    rw [show g.held = [q] from hheld]
    exact leaveReady_single (by rw [hu]; exact hcore) hencap hopen hmarker rfl
  have hgaps : releaseGaps f.held f s = (unitBegun q g, u) := by
    rw [hheld, releaseGaps, hheld]
    dsimp only
    rw [hrelease, if_neg Bool.noConfusion, hlost]
    dsimp only
    rw [hready]
    rfl
  have hfind : findFlow s f.handle = some f := findFlow_single hflows rfl
  change atDeadline (.jitterGapDeadline f.handle) (dueJitterGapDeadline f.handle) s = _
  rw [atDeadline_now (mustDefer_empty hpending hdue)]
  unfold dueJitterGapDeadline
  rw [hfind]
  dsimp only
  rw [hgaps, hu]
  exact congrArg Host.Outcome.next (setFlow_single (s := onlyStream _ s) hflows rfl)

/-! ## The first slice header (R422 to R424, R429, R437, R439) -/

/-- A stream at the first slice of a random access point for which it has waited: the picture is parsed. -/
def pictureBegun (a : AccessUnit) (p : SliceParse) (x : Stream) : Stream :=
  { x with
    parse := .decoding, skipReason := none, statusCount := 0, cra := decide (p.rap = .cra), parsing := 1
    parsed := x.parsed + 1, pics := [newPicture x.handle a p (frameNumber x p)] }

section
variable {x : Stream} {a : AccessUnit} {p : SliceParse} {s : State}

/-- A stream that waits for a random access point and did not skip goes on without a picot. -/
theorem resumeDecoding_waiting {h : Handle} (hh : x.handle = h) (hwait : x.parse = .waitRap) (frame : Nat)
    (capture : CardTime) (estimated : Bool) :
    resumeDecoding h frame capture estimated (onlyStream x s) =
      onlyStream { x with parse := .decoding, skipReason := none, statusCount := 0 } s := by
  unfold resumeDecoding
  rw [findStream_onlyStream hh]
  dsimp only
  rw [hwait]
  exact modStream_onlyStream hh _

/-- The first slice of a random access point within the limits begins the picture. -/
theorem firstSlice_waiting (hwait : x.parse = .waitRap) (hpics : x.pics = [])
    (hlimits : limitFault x.decl p = none) (hrap : p.rap ≠ .none) (hshow : p.showExisting = none)
    (hgrain : p.codec ≠ 4 ∨ p.features.contains .filmGrain = false ∨ x.grainSent = true) :
    firstSlice x a p (onlyStream x s) = onlyStream (pictureBegun a p x) s := by
  have hnograin : ¬(p.codec = 4 ∧ p.features.contains .filmGrain = true ∧ x.grainSent = false) := by
    rintro ⟨hcodec, hfilm, hsent⟩
    rcases hgrain with h | h | h
    · exact h hcodec
    · exact Bool.noConfusion (h.symm.trans hfilm)
    · exact Bool.noConfusion (h.symm.trans hsent)
  unfold firstSlice
  dsimp only
  rw [hlimits, hshow]
  dsimp only
  rw [if_pos (.inl (decide_eq_true hrap)), if_neg hnograin, modStream_onlyStream rfl,
    resumeDecoding_waiting (x := { x with parsed := x.parsed + 1 }) rfl hwait]
  simp [modStream_onlyStream, pictureBegun, hwait, hpics, hrap]

/-- The decode queue's peak takes in its present length. -/
def queuePeak (s : State) : State := s.modVideo fun v => { v with decodePeak := max v.decodePeak (queueLength s) }

/-- A picture that waits with a slice to decode enters the decode queue. -/
theorem kickFrom_waiting {h : Handle} {q : Picture} (hfind : findStream s h = some x) (hhead : headPicture x = some q)
    (hphase : q.phase = .waiting) (hshows : q.shows = none) (hslices : q.decoded < q.slices.length) (fuel : Nat) :
    kickFrom h (fuel + 1) s =
      queuePeak (modPicture h q.frame (fun r => { r with phase := .queued s.time.tick }) s) := by
  rw [kickFrom, hfind, Option.bind_some, hhead, Option.map_some]
  dsimp only
  rw [hshows]
  exact if_pos ⟨.inl hphase, hslices⟩

/-- Picture `q` is the only one of stream `x`, which is alone, and has entered the decode queue. -/
def queuedAlone (q : Picture) (x : Stream) (s : State) : State :=
  { onlyStream { x with pics := [{ q with phase := .queued s.time.tick }] } s with
    video := { s.video with decodePeak := max s.video.decodePeak 1 } }

/-- A stream whose only picture waits with a slice to decode is alone in the decode queue. -/
theorem kick_waiting {h : Handle} {q : Picture} (hh : x.handle = h) (hpics : x.pics = [q]) (hphase : q.phase = .waiting)
    (hshows : q.shows = none) (hslices : q.decoded < q.slices.length) :
    kick h (onlyStream x s) = queuedAlone q x s := by
  have hhead : headPicture x = some q := by simp [headPicture, hpics, hphase]
  have hqueue : modPicture h q.frame (fun r => { r with phase := .queued s.time.tick }) (onlyStream x s) =
      onlyStream { x with pics := [{ q with phase := .queued s.time.tick }] } s := by
    simp [modPicture, modStream_onlyStream hh, listUpd, hpics]
  have hlength : queueLength (onlyStream { x with pics := [{ q with phase := .queued s.time.tick }] } s) = 1 := by
    simp [queueLength, onlyStream]
  calc kick h (onlyStream x s)
      = queuePeak (modPicture h q.frame (fun r => { r with phase := .queued s.time.tick }) (onlyStream x s)) :=
        kickFrom_waiting (findStream_onlyStream hh) hhead hphase hshows hslices _
    _ = _ := by rw [hqueue, queuePeak, hlength]; rfl

/-- A picture with the slice of a header that is not its last. -/
def withSlice (p : SliceParse) (q : Picture) : Picture := { q with slices := [⟨p.rows, p.damaged, p.filterAcross⟩] }

/-- The slice is the first work of the picture that has begun. -/
theorem addSlice_first {h : Handle} {q : Picture} (hh : x.handle = h) (hpics : x.pics = [q]) (hphase : q.phase = .waiting)
    (hshows : q.shows = none) (hslices : q.slices = []) (hdecoded : q.decoded = 0) (hparsed : q.allParsed = false)
    (hlost : q.lost = a.lost) (hlast : p.last = false) :
    addSlice h a p (onlyStream x s) = queuedAlone (withSlice p q) x s := by
  have hadded : addSlice h a p (onlyStream x s) = kick h (onlyStream { x with pics := [withSlice p q] } s) := by
    simp [addSlice, modStream_onlyStream hh, listUpd, withSlice, hpics, hparsed, hslices, hlost, hlast]
  have hwork : (withSlice p q).decoded < (withSlice p q).slices.length := hdecoded ▸ Nat.zero_lt_one
  exact hadded.trans (kick_waiting (x := { x with pics := [withSlice p q] }) hh rfl hphase hshows hwork)

/-- The first slice header of a random access point, of a stream that waits for one. -/
theorem sliceHeaderParse_waiting {rest : List AccessUnit} (hx : s.obj.streams = [x]) (hshadow : shadowing s = false)
    (haus : x.aus = a :: rest) (henc : x.enc = none) (hparsing : x.parsing = 0) (hwait : x.parse = .waitRap)
    (hpics : x.pics = []) (hcore : (s.cc (parseCore x.handle)).run = 1) (hfirst : p.first = true) (hlast : p.last = false)
    (hlimits : limitFault x.decl p = none) (hrap : p.rap ≠ .none) (hshow : p.showExisting = none)
    (hgrain : p.codec ≠ 4 ∨ p.features.contains .filmGrain = false ∨ x.grainSent = true) :
    exec (.sliceHeaderParse x.handle p) s = .next
      (queuedAlone (withSlice p (newPicture x.handle a p (frameNumber x p))) (pictureBegun a p x) s) := by
  have hbegun : firstSlice x a p s = onlyStream (pictureBegun a p x) s := by
    rw [← firstSlice_waiting (s := s) hwait hpics hlimits hrap hshow hgrain, onlyStream_self hx]
  have hadded := addSlice_first (x := pictureBegun a p x) (a := a) (p := p) (s := s) rfl rfl rfl rfl rfl rfl rfl rfl hlast
  have hfind : findStream (onlyStream (pictureBegun a p x) s) x.handle = some (pictureBegun a p x) := findStream_onlyStream rfl
  have hunit : parseUnit x p s = some (a, rest) := by rw [parseUnit, haus]
  have hgo : ¬((s.cc (parseCore x.handle)).run ≠ 1 ∨ x.enc.isSome ∨ p.first = decide (x.parsing ≠ 0)) := by
    simp [hcore, henc, hfirst, hparsing]
  have honce : exec (.sliceHeaderParse x.handle p) s = parseSlice x.handle p s :=
    if_neg (ne_true_of_eq_false hshadow)
  rw [honce]
  unfold parseSlice
  rw [findStream_single hx rfl]
  dsimp only
  rw [if_neg hgo, hunit]
  dsimp only
  rw [if_pos hfirst, hbegun, hfind, Option.map_some, Option.getD_some,
    if_pos (show (pictureBegun a p x).parsing = 1 from rfl), hlast, if_neg Bool.false_ne_true]
  exact congrArg _ hadded

end

/-! ## The events (O54) -/

/-- Settles O54: a packet by the empty jitter buffer that it goes through, a gap deadline by the one packet that it releases, a slice
header by the picture that it begins and the queue that this enters. -/
theorem ingestEvents : Obligations.IngestEvents := by
  unfold Obligations.IngestEvents
  intro s x f hx
  refine ⟨fun fr p n hflows hstream hbody hport hstate hparsed hmatch hencap hkey htype hwhole hmarker hheld houtbox hopen hlast
      hhighest hseq hroom hcore => ?packet,
    fun q n hpending hdue hflows hstream hencap hheld hopen hmarker hlast hgap hcore hrelease => ?gap,
    fun p a rest hshadow haus henc hparsing hwait hpics hcore hfirst hlast hlimits hrap hshow hgrain => ?slice⟩
  case packet =>
    have hempty : FlowEmpty x f n s := ⟨hx, hstream, hflows, hencap, hcore, hopen, ⟨hheld, houtbox⟩, hlast, hhighest⟩
    refine ⟨_, hempty.frameReceive_next hbody hport hstate hparsed hmatch hkey htype hwhole hmarker hseq hroom, rfl, ?_⟩
    rw [packetPassed, unitBegun, ← hheld]
    rfl
  case gap =>
    exact ⟨_, jitterGapDeadline_single hpending hdue hx hstream hflows hencap hheld hopen hmarker hlast hgap hcore hrelease,
      rfl⟩
  case slice =>
    exact ⟨_, sliceHeaderParse_waiting hx hshadow haus henc hparsing hwait hpics hcore hfirst hlast hlimits hrap hshow hgrain,
      rfl⟩

end Sys2Proof.Machine
end

section
/-! SUPPORT. A mailbox command that is taken on a card in no pair and sends messages, fails or waits: what it leaves, said once (R540,
R541, R544, R571, R574). -/

namespace Sys2Proof.Machine

open Sys2Proof.Claims

/-- A taken command comes to its own part in the state received, its mailbox being owned. -/
theorem enter_received {k : CmdKind} (hk : k.sessionless = false) {h : Hdr} {len : Nat} {s : State} (ht : Taken false h len s)
    (op : Nat) : ∃ mb l v, renewFor h v = received mb l s ∧ precheck k h len (renewFor h v) = none ∧
      ReceivedBy h s (received mb l s) ∧ Waits h (received mb l s) ∧
      ∀ i body, enter h op i (serve k h len body) s = serve k h len body v := by
  obtain ⟨-, hhost, -⟩ := (State.canonical_iff s).1 ht.canonical
  obtain ⟨hmb, -, -⟩ := (HostUnit.canonical_iff _).1 hhost
  obtain ⟨hown, -, -⟩ := takeOwner_mbox (h := h) (op := op) (s := s.linkActive) hmb
  obtain ⟨lease, hlease⟩ := renewFor_fields h (takeOwner h op s.linkActive)
  obtain ⟨mb, l, hrenew, hreceived⟩ := renewFor_takeOwner ht.canonical op (h := h)
  have hmbox : (received mb l s).mbox h.mbox = (takeOwner h op s.linkActive).mbox h.mbox := by
    rw [← hrenew, hlease]
    rfl
  refine ⟨mb, l, takeOwner h op s.linkActive, hrenew, ?_, hreceived, ⟨by rw [hmbox, hown], hreceived.seq⟩, fun i body => ?_⟩
  · rw [hrenew]
    exact precheck_received hk ht mb l
  · have hholding : holding s = false := holding_of_taken ht
    calc enter h op i (serve k h len body) s
        = ownerWrite h op i (serve k h len body) s.linkActive :=
          hostAccess_reached ht.reached.link ht.reached.mse ht.reached.d0
      _ = serve k h len body (takeOwner h op s.linkActive) :=
          ownerWrite_run (s := s.linkActive) ht.free ht.locked (.inl hholding)

/-- A command's own part leaves what is the host interface's, the link's and the pair's as it is, and sends messages. -/
structure SameButSent (ms : List OutMsg) (r u : State) : Prop where
  host : u.host = r.host
  pcie : u.pcie = r.pcie
  out : u.out = r.out ++ ms
  pair : u.pair = r.pair

/-- The answer to a received command. -/
theorem writeAnswer_received {h : Hdr} {st d : Nat} {resp : List Byte} {s u : State} {mb : SMap Mailbox} {l : Option Nat}
    {ms : List OutMsg} (hr : ReceivedBy h s (received mb l s)) (hu : SameButSent ms (received mb l s) u) :
    let t := writeAnswer h st d resp u
    Answered h st d resp { s with out := s.out ++ ms } t ∧ HostFrame s t ∧
      t = { u with host := t.host, pcie := t.pcie, out := t.out } := by
  obtain ⟨hhost, hpcie, hout, -⟩ := hu
  have hmbox : ∀ m, u.mbox m = (received mb l s).mbox m := fun m => by rw [State.mbox, hhost]; rfl
  obtain ⟨-, hcan, -⟩ := (State.canonical_iff _).1 hr.canonical
  rw [← hhost] at hcan
  obtain ⟨hmb, -, -⟩ := (HostUnit.canonical_iff _).1 hcan
  obtain ⟨⟨own, seq, status, detail, length, payload, others, sent⟩, -⟩ :=
    writeAnswer_answered (st := st) (d := d) (resp := resp) hcan ((congrArg _ (hmbox h.mbox)).trans hr.seq)
  obtain ⟨-, -, -, -, -, -, -, -, mb', p, l', link, hrest⟩ :=
    writeAnswer_spec (st := st) (d := d) (resp := resp) hmb (mbox_payload_wf hcan h.mbox)
  have hlink := writeAnswer_linkState (h := h) (st := st) (d := d) (resp := resp) (s := u) (by rw [hpcie]; rfl)
  refine ⟨⟨own, seq, status, detail, length, payload,
    fun m hm => (others m hm).trans ((hmbox m).trans (hr.others m hm)), by rw [hout] at sent; exact sent⟩, ⟨?_, ?_⟩, ?_⟩
  · rw [hrest, hhost]
    rfl
  · rw [hrest] at hlink
    rw [hrest, show link = 0 from hlink, hpcie]
    rfl
  · rw [hrest]

/-- A taken command of a session is served, with the messages that its own part sends, when that part succeeds from the state in
which it runs. -/
theorem sends_of_ok {k : CmdKind} (hk : k.sessionless = false) {h : Hdr} {len op : Nat} {s : State} {c i : Instr}
    {body : State → Reply} {resp : List Byte} {ms : List OutMsg} {f : State → Prop} (ht : Taken false h len s)
    (hexec : exec c s = .next (enter h op i (serve k h len body) s))
    (hbody : ∀ mb l, ∃ u, body (received mb l s) = .ok u resp ∧ SameButSent ms (received mb l s) u ∧
      ∀ host pcie out, f { u with host := host, pcie := pcie, out := out }) : Sends c h resp ms s f := by
  obtain ⟨mb, l, v, hrenew, hpass, hr, -, henter⟩ := enter_received hk ht op
  obtain ⟨u, hu, hsame, hf⟩ := hbody mb l
  have halone : u.pair.mode = 0 := by rw [hsame.pair]; exact ht.alone
  have hanswer : enter h op i (serve k h len body) s = writeAnswer h stOk 0 resp u := by
    rw [henter, serve_passed hpass, hrenew, hu]
    exact answer_alone halone
  obtain ⟨hans, hframe, hrest⟩ := writeAnswer_received (st := stOk) (d := 0) (resp := resp) hr hsame
  exact ⟨_, hexec.trans (congrArg _ hanswer), hans, hframe, hrest ▸ hf _ _ _⟩

/-- A taken command of a session whose own part fails is answered with the failure, and changes nothing else. -/
theorem answered_of_fail {k : CmdKind} (hk : k.sessionless = false) {h : Hdr} {len op st : Nat} {s : State} {c i : Instr}
    {body : State → Reply} (ht : Taken false h len s) (hexec : exec c s = .next (enter h op i (serve k h len body) s))
    (hbody : ∀ mb l, body (received mb l s) = .no st) :
    ∃ t, exec c s = .next t ∧ Answered h st 0 [] s t ∧ HostFrame s t ∧ Unchanged s t := by
  obtain ⟨mb, l, v, hrenew, hpass, hr, -, henter⟩ := enter_received hk ht op
  have hanswer : enter h op i (serve k h len body) s = writeAnswer h st 0 [] (received mb l s) := by
    rw [henter, serve_passed hpass, hrenew, hbody]
    exact answer_alone (s := received mb l s) ht.alone
  obtain ⟨hans, hframe, hrest⟩ := writeAnswer_received (st := st) (d := 0) (resp := []) (ms := []) hr
    ⟨rfl, rfl, (List.append_nil _).symm, rfl⟩
  rw [List.append_nil] at hans
  exact ⟨_, hexec.trans (congrArg _ hanswer), hans, hframe, hrest⟩

/-- A taken command of a session whose own part waits leaves what that part leaves. -/
theorem enter_waits {k : CmdKind} (hk : k.sessionless = false) {h : Hdr} {len : Nat} {s : State} (ht : Taken false h len s)
    (op : Nat) : ∃ mb l, ReceivedBy h s (received mb l s) ∧ Waits h (received mb l s) ∧
      ∀ i body u, body (received mb l s) = .wait u → u.pair.mode = 0 → enter h op i (serve k h len body) s = u := by
  obtain ⟨mb, l, v, hrenew, hpass, hr, hwaits, henter⟩ := enter_received hk ht op
  refine ⟨mb, l, hr, hwaits, fun i body u hu halone => ?_⟩
  rw [henter, serve_passed hpass, hrenew, hu]
  exact mirrorFlush_alone halone

/-- The handle of an object of the right type and the command's session, which no long command names, passes its check. -/
theorem checkFree_own {s : State} (hlong : s.host.long = []) {hd sess : Handle} {type : Nat} (ht : hd.type = type) :
    checkFree s hd type (some sess) sess = none := by
  simp [checkFree, checkHandle_own ht, namedBusy, hlong]

end Sys2Proof.Machine
end

section
/-! SUPPORT. O52: the flow table, card addresses, and the host feed (R385 to R393, R406 to R409, R581). -/

namespace Sys2Proof.Machine

open Sys2Proof.Claims

/-! ## Groups (R392) -/

/-- The membership of an entry with JOIN, and its report. -/
theorem joinGroup_ite (hd : Handle) (q : FlowReq) (s : State) :
    (if q.flags.testBit 1 then joinGroup hd q s else s) = { s with
      obj := { s.obj with groups := s.obj.groups ++ groupsOf q hd }
      out := s.out ++ if q.flags.testBit 1 then [reportOf q false] else [] } := by
  cases hjoin : q.flags.testBit 1
  · simp [groupsOf, hjoin]
  · simp [groupsOf, hjoin, joinGroup, State.modObj, State.push, reportOf]

/-- A flow that alone is a member of a group leaves it with a report; one without JOIN leaves none. -/
theorem leaveGroup_own {hd : Handle} {q : FlowReq} {s : State} (h : s.obj.groups = groupsOf q hd) :
    leaveGroup hd s = { s with
      obj := { s.obj with groups := [] }, out := s.out ++ if q.flags.testBit 1 then [reportOf q true] else [] } := by
  cases hjoin : q.flags.testBit 1
  · have hnone : s.obj.groups = [] := by simp [h, groupsOf, hjoin]
    have hstay : leaveGroup hd s = s := by rw [leaveGroup, hnone]; rfl
    rw [hstay, if_neg Bool.false_ne_true, List.append_nil, ← hnone]
  · have hone : s.obj.groups = [⟨q.port, q.vlan, q.dstAddr, q.srcAddr, hd⟩] := by simp [h, groupsOf, hjoin]
    simp [leaveGroup, hone, State.modObj, State.push, reportOf]

/-- An entry after a MODIFY (R390). -/
def modifiedEntry (old q : FlowReq) : FlowReq :=
  { old with pt := q.pt, flags := q.flags, jitterMs := q.jitterMs, tsProgram := q.tsProgram }

/-- The group of an entry that a MODIFY changes is joined or left as JOIN is set or cleared. -/
theorem regroup_modifiedEntry {hd : Handle} {old q : FlowReq} {s : State} (h : s.obj.groups = groupsOf old hd) :
    (if old.flags.testBit 1 = q.flags.testBit 1 then s
      else if q.flags.testBit 1 then joinGroup hd (modifiedEntry old q) s else leaveGroup hd s) = { s with
      obj := { s.obj with groups := groupsOf (modifiedEntry old q) hd }
      out := s.out ++ if old.flags.testBit 1 = q.flags.testBit 1 then []
        else [reportOf (modifiedEntry old q) (old.flags.testBit 1)] } := by
  by_cases hsame : old.flags.testBit 1 = q.flags.testBit 1
  · have hgroups : groupsOf (modifiedEntry old q) hd = s.obj.groups := by
      rw [h, groupsOf, groupsOf, hsame]
      rfl
    simp [hsame, hgroups]
  · rw [if_neg hsame, if_neg hsame]
    cases hjoin : q.flags.testBit 1
    · have hleft : old.flags.testBit 1 = true := by simpa [hjoin] using hsame
      have hnone : groupsOf (modifiedEntry old q) hd = [] := by simp [groupsOf, modifiedEntry, hjoin]
      rw [if_neg Bool.false_ne_true, leaveGroup_own h, hleft, hnone]
      rfl
    · have hjoined : old.flags.testBit 1 = false := by simpa [hjoin] using hsame
      have hnone : s.obj.groups = [] := by simp [h, groupsOf, hjoined]
      rw [if_pos rfl, hjoined, groupsOf, show (modifiedEntry old q).flags.testBit 1 = true from hjoin, joinGroup, State.modObj,
        hnone]
      rfl

/-! ## `FLOW_SET` (R387 to R391) -/

/-- ADD to an empty table. -/
theorem flowAddBody_first {h : Hdr} {q : FlowReq} {x : Stream} {s : State} (hlong : s.host.long = []) (halone : s.pair.mode = 0)
    (hfields : flowFieldsOk q = true) (hfind : findStream s q.stream = some x) (hown : x.session = h.session)
    (htype : q.stream.type = 2) (hflow : q.flow = 0) (henc : x.enc = none) (hsource : x.decl.source = 1)
    (hpayload : q.encap = 1 → q.payload = x.decl.codec) (hflows : s.obj.flows = [])
    (hroom : privateFits s (jitterBytes x.decl.bitRate q.jitterMs) = true) :
    flowAddBody h q s = .ok
      { issued (newHandle s 10) s with
        obj := { s.obj with
          groups := s.obj.groups ++ groupsOf q (newHandle s 10)
          flows := [{ handle := newHandle s 10, session := h.session, req := q
                      bufBytes := jitterBytes x.decl.bitRate q.jitterMs }] }
        out := s.out ++ if q.flags.testBit 1 then [reportOf q false] else [] }
      (leBytes 4 (newHandle s 10).toNat) := by
  have hcheck : checkFree s q.stream tStream ((some x).map (·.session)) h.session = none := hown ▸ checkFree_own hlong htype
  have hvalues : ¬(flowFieldsOk q = false ∨ q.flow ≠ 0 ∨ x.enc.isSome ∨ x.decl.source ≠ 1 ∨
      (q.encap = 1 ∧ q.payload ≠ x.decl.codec)) := by
    simpa [hfields, hflow, henc, hsource] using hpayload
  have hcount : ¬(1024 ≤ countOf s tFlow) := by simp [countOf, halone, Objects.handles, hflows]
  unfold flowAddBody
  rw [hfind, hcheck]
  dsimp only
  rw [if_neg hvalues, hflows, if_neg (by simp), if_neg hcount, hroom, if_neg Bool.noConfusion, joinGroup_ite]
  simp [setFlow, State.modObj, upsert, hflows, issued, State.modGens]

/-- A flow of the command's session is the only one, and no long command is in flight. -/
structure FlowAlone (h : Hdr) (q : FlowReq) (f : Flow) (s : State) : Prop where
  long : s.host.long = []
  flows : s.obj.flows = [f]
  named : f.handle = q.flow
  type : q.flow.type = 10
  session : f.session = h.session
  stream : q.stream = 0
  groups : s.obj.groups = groupsOf f.req f.handle

section
variable {h : Hdr} {q : FlowReq} {f : Flow} {s : State}

theorem FlowAlone.findFlow_eq (k : FlowAlone h q f s) : findFlow s q.flow = some f := findFlow_single k.flows k.named

theorem FlowAlone.checkFree_eq (k : FlowAlone h q f s) :
    checkFree s q.flow tFlow ((some f).map (·.session)) h.session = none :=
  k.session ▸ checkFree_own k.long k.type

/-- MODIFY. -/
theorem FlowAlone.flowModifyBody_eq (k : FlowAlone h q f s) (hfields : flowFieldsOk q = true)
    (hsame : { q with stream := f.req.stream, flow := f.req.flow } = modifiedEntry f.req q) :
    flowModifyBody h q s = .ok { s with
      obj := { s.obj with
        flows := [{ f with req := modifiedEntry f.req q }], groups := groupsOf (modifiedEntry f.req q) f.handle }
      out := s.out ++ if f.req.flags.testBit 1 = q.flags.testBit 1 then []
        else [reportOf (modifiedEntry f.req q) (f.req.flags.testBit 1)] } [] := by
  have hvalues : ¬(flowFieldsOk q = false ∨ q.stream ≠ 0 ∨
      { q with stream := f.req.stream, flow := f.req.flow } ≠ modifiedEntry f.req q) := by
    simp [hfields, k.stream, hsame]
  have hset : setFlow { f with req := modifiedEntry f.req q } s = _ := setFlow_single k.flows rfl
  unfold flowModifyBody
  rw [k.findFlow_eq, k.checkFree_eq]
  dsimp only
  rw [show ({ f.req with pt := q.pt, flags := q.flags, jitterMs := q.jitterMs, tsProgram := q.tsProgram } : FlowReq) =
    modifiedEntry f.req q from rfl, if_neg hvalues, hset]
  exact congrArg (Reply.ok · []) (regroup_modifiedEntry (s := { s with obj := { s.obj with
    flows := [{ f with req := modifiedEntry f.req q }] } }) k.groups)

/-- A flow that holds nothing is flushed without a trace and leaves its group. -/
theorem FlowAlone.removeFlow_eq (k : FlowAlone h q f s) (hheld : f.held = []) (houtbox : f.outbox = []) (hopen : f.open_ = none) :
    removeFlow f s = { s with
      obj := { s.obj with flows := [], groups := [] }
      out := s.out ++ if f.req.flags.testBit 1 then [reportOf f.req true] else [] } := by
  have hempty : emptyOutbox f s = (f, s) := by
    rw [emptyOutbox, houtbox, List.foldl_nil, ← houtbox]
  have hclose : closeUnit f s = (f, s) := by
    unfold closeUnit
    rw [hopen]
  have hflush : flushFlow f.held f s = (f, s) := by
    rw [hheld, flushFlow, ← hheld]
    exact hclose
  have hgone : removeKey (·.handle) f.handle s.obj.flows = [] := by simp [removeKey, k.flows]
  unfold removeFlow
  rw [hempty]
  dsimp only
  rw [hflush]
  dsimp only
  rw [State.modObj, hgone]
  exact leaveGroup_own (s := { s with obj := { s.obj with flows := [] } }) k.groups

/-- REMOVE whose unused fields are 0 or in range frees the entry. -/
theorem FlowAlone.flowRemoveBody_eq (k : FlowAlone h q f s)
    (hunused : unusedFieldsOk ((findStream s f.req.stream).map (·.decl.codec)) q = true) :
    flowRemoveBody h q s = .ok (removeFlow f s) [] := by
  unfold flowRemoveBody
  rw [k.findFlow_eq, k.checkFree_eq]
  dsimp only
  rw [if_neg (by simp [k.stream, hunused])]

theorem FlowAlone.flowRemoveBody_badValue (k : FlowAlone h q f s)
    (hunused : unusedFieldsOk ((findStream s f.req.stream).map (·.decl.codec)) q = false) :
    flowRemoveBody h q s = .no stBadValue := by
  unfold flowRemoveBody
  rw [k.findFlow_eq, k.checkFree_eq]
  dsimp only
  rw [if_pos (.inr hunused)]

end

/-! ## Card addresses (R385, R393) -/

theorem addrAddBody_first {q : FlowReq} {s : State} (hfields : addrFieldsOk q = true) (haddrs : s.obj.addrs = []) :
    addrAddBody q s = .ok { s with obj := { s.obj with addrs := [⟨q.port, q.vlan, q.dstAddr⟩] } } [] := by
  have hnone : hasAddr s q.port q.vlan q.dstAddr = false := by simp [hasAddr, haddrs]
  unfold addrAddBody
  rw [hfields, if_neg Bool.noConfusion, hnone, if_neg Bool.false_ne_true, haddrs, if_neg (by simp), State.modObj, haddrs]
  rfl

theorem addrRemoveBody_only {q : FlowReq} {s : State} (halone : s.pair.mode = 0) (hfields : addrFieldsOk q = true)
    (haddrs : s.obj.addrs = [⟨q.port, q.vlan, q.dstAddr⟩]) (hdests : s.obj.dests = []) (hptp : ptpEnabled s = false) :
    addrRemoveBody q s = .ok { s with obj := { s.obj with addrs := [] } } [] := by
  have hone : hasAddr s q.port q.vlan q.dstAddr = true := by simp [hasAddr, haddrs]
  have hfree : ¬((s.obj.dests.any fun d => usesAddr s d ⟨q.port, q.vlan, q.dstAddr⟩) = true ∨
      (firstAddr s q.port = some ⟨q.port, q.vlan, q.dstAddr⟩ ∧
        ((ptpEnabled s = true ∧ ptpPort s = q.port) ∨ s.pair.mode ≠ 0))) := by
    simp [hdests, hptp, halone]
  unfold addrRemoveBody
  dsimp only
  rw [hfields, if_neg Bool.noConfusion, hone, if_neg Bool.noConfusion, if_neg hfree, State.modObj, haddrs]
  simp

/-! ## Reads of host memory (R607, R608, R610, R613) -/

/-- Between `s` and `t` the reads `l` have been issued, in order, behind those outstanding. -/
structure ReadsIssued (l : List OutRead) (s t : State) : Prop where
  rest : t = { s with pcie := t.pcie, out := t.out }
  reads : t.pcie.reads.map (fun r => (r.addr, r.length)) =
    s.pcie.reads.map (fun r => (r.addr, r.length)) ++ l.map fun r => (r.addr, r.length)
  issued : t.pcie.issued = s.pcie.issued + l.length

/-- With the link up, Bus Master Enable set, and tags for all of them, the reads that wait go. -/
theorem issueQueued_all {l : List OutRead} {s : State} (hqueued : s.pcie.queued = l) (hbme : s.pcie.bme = true)
    (hlink : s.pcie.linkUp = true) (htags : s.pcie.reads.length + l.length ≤ (tagSpace s.pcie).2) :
    ReadsIssued l s (issueQueued l.length s) := by
  induction l generalizing s with
  | nil => exact ⟨rfl, by simp [issueQueued], rfl⟩
  | cons r l ih =>
    rw [List.length_cons] at htags
    have hfree : s.pcie.reads.length < (tagSpace s.pcie).2 := by omega
    have hcan : canRead s.pcie = true := by simp [canRead, hbme, hlink, hfree]
    let q : OutRead := { r with tag := freeTag s.pcie }
    let u : State := (s.modPcie fun p => { p with queued := l, reads := p.reads ++ [q], issued := p.issued + 1 }).pushLink
      (.hostRead q.tag q.addr q.length)
    have hissue : issueQueued (l.length + 1) s = issueQueued l.length u := by
      rw [issueQueued, hqueued]
      exact if_neg (by simp [hcan])
    have hreadsLength : u.pcie.reads.length = s.pcie.reads.length + 1 := List.length_append
    have hspace : tagSpace u.pcie = tagSpace s.pcie := rfl
    have hcounted : u.pcie.issued = s.pcie.issued + 1 := rfl
    obtain ⟨hrest, hreads, hcount⟩ := ih (s := u) rfl hbme hlink (by rw [hreadsLength, hspace]; omega)
    rw [List.length_cons, hissue]
    refine ⟨by rw [hrest]; rfl, hreads.trans ?_, ?_⟩
    · change (s.pcie.reads ++ [q]).map _ ++ _ = _
      simp [q]
    · rw [hcount, hcounted, List.length_cons]
      omega

/-- The reads that stand for the requests of a list of entries. -/
def readsOf (owner : ReadOwner) (entries : List (Nat × Nat)) (s : State) : List OutRead :=
  ((List.range (requestsOf s entries).length).zip (requestsOf s entries)).map fun x => ⟨0, owner, x.1, x.2.1, x.2.2, []⟩

theorem readsOf_requests (owner : ReadOwner) (entries : List (Nat × Nat)) (s : State) :
    (readsOf owner entries s).map (fun r => (r.addr, r.length)) = requestsOf s entries := by
  rw [readsOf, List.map_map]
  exact List.map_snd_zip (by simp)

/-- The reads of a command that finds no other read go at once. -/
theorem startReads_first {owner : ReadOwner} {entries : List (Nat × Nat)} {s : State} (hbme : s.pcie.bme = true)
    (hlink : s.pcie.linkUp = true) (hreads : s.pcie.reads = []) (hqueued : s.pcie.queued = [])
    (htags : (requestsOf s entries).length ≤ (tagSpace s.pcie).2) :
    let t := startReads owner entries s
    t = { s with pcie := t.pcie, out := t.out } ∧
      t.pcie.reads.map (fun r => (r.addr, r.length)) = requestsOf s entries ∧
      t.pcie.issued = s.pcie.issued + (requestsOf s entries).length := by
  let rs := readsOf owner entries s
  let u : State := s.modPcie fun p => { p with queued := p.queued ++ rs }
  have hpieces : rs.map (fun r => (r.addr, r.length)) = requestsOf s entries := readsOf_requests owner entries s
  have hlength : rs.length = (requestsOf s entries).length := by rw [← hpieces, List.length_map]
  have hqueue : u.pcie.queued = rs := by
    change s.pcie.queued ++ rs = rs
    rw [hqueued, List.nil_append]
  have hall := issueQueued_all (s := u) hqueue hbme hlink (by
    change s.pcie.reads.length + rs.length ≤ _
    rw [hreads, hlength, List.length_nil, Nat.zero_add]
    exact htags)
  have hstart : startReads owner entries s = issueQueued rs.length u := by
    unfold startReads
    dsimp only
    rw [if_pos hbme, pumpReads]
    exact congrArg (issueQueued ·.length u) hqueue
  obtain ⟨hrest, hmap, hissued⟩ := hall
  rw [hstart]
  refine ⟨by rw [hrest]; rfl, hmap.trans ?_, by rw [hissued, hlength]; rfl⟩
  change s.pcie.reads.map _ ++ _ = _
  rw [hreads, hpieces]
  rfl

/-! ## STREAM_FEED (R406 to R409, R581) -/

/-- Feed `f` names the only stream, `x`, which takes it. -/
structure FeedTaken (h : Hdr) (f : FeedReq) (x : Stream) (s : State) : Prop where
  long : s.host.long = []
  streams : s.obj.streams = [x]
  named : x.handle = f.stream
  type : f.stream.type = 2
  session : x.session = h.session
  fields : feedFieldsOk f = true
  container : x.container = none ∨ x.container = some f.container
  decode : x.enc = none
  source : x.decl.source = 2
  fits : f.total ≤ x.feedBytes

/-- The state with `l` the one long command in flight. -/
def inFlight (l : LongCmd) (s : State) : State := { s with host := { s.host with long := [l] } }

/-- The state in which a feed that has been taken waits for room. -/
def feedPut (h : Hdr) (f : FeedReq) (data : Option (List Byte)) (units : List FeedUnit) (s : State) : State :=
  inFlight (.streamFeed h f data units false [] []) s

section
variable {h : Hdr} {f : FeedReq} {x : Stream} {data : Option (List Byte)} {units : List FeedUnit} {s : State}

theorem setLong_inFlight {l l' : LongCmd} (hl : l.hdr.mbox = l'.hdr.mbox) (s : State) :
    setLong l' (inFlight l s) = inFlight l' s := by
  simp [setLong, State.modHost, inFlight, listUpd, hl]

/-- A feed is put in flight, and begins where there is room. -/
theorem FeedTaken.streamFeedBody_eq (k : FeedTaken h f x s) :
    streamFeedBody h f data units s = .wait (if x.feedUsed + f.total ≤ x.feedBytes then
      feedStart h f data units (feedPut h f data units s) else feedPut h f data units s) := by
  have hcheck : checkFree s f.stream tStream ((some x).map (·.session)) h.session = none :=
    k.session ▸ checkFree_own k.long k.type
  have hvalues : ¬(feedFieldsOk f = false ∨ x.container.any (· != f.container)) := by
    rcases k.container with hc | hc <;> simp [k.fields, hc]
  have hroom : feedRoom (feedPut h f data units s) f = decide (x.feedUsed + f.total ≤ x.feedBytes) := by
    rw [feedRoom, findStream_single (s := feedPut h f data units s) k.streams k.named]
  have hstart : startLong (.streamFeed h f data units false [] []) s = feedPut h f data units s := by
    rw [startLong, State.modHost, k.long]
    rfl
  unfold streamFeedBody
  rw [findStream_single k.streams k.named, hcheck]
  dsimp only
  rw [if_neg hvalues, if_neg (by simp [k.decode, k.source]), if_neg (Nat.not_lt.2 k.fits), hstart, hroom]
  simp

/-- A feed whose data is to come reads it at once when nothing else reads. -/
theorem feedWaits_first (hbme : s.pcie.bme = true) (hlink : s.pcie.linkUp = true) (hreads : s.pcie.reads = [])
    (hqueued : s.pcie.queued = []) (htags : (requestsOf s f.entries).length ≤ (tagSpace s.pcie).2) :
    let n := (requestsOf s f.entries).length
    let t := feedWaits h f data units (feedPut h f data units s)
    t = inFlight (.streamFeed h f data units true (List.replicate n none) (List.replicate n {}))
        { s with pcie := t.pcie, out := t.out } ∧
      t.pcie.reads.map (fun r => (r.addr, r.length)) = requestsOf s f.entries ∧
      t.pcie.issued = s.pcie.issued + n := by
  intro n t
  obtain ⟨hrest, hmap, hissued⟩ := startReads_first (owner := .feed f.stream) (entries := f.entries)
    (s := feedPut h f data units s) hbme hlink hreads hqueued htags
  have hreading : startReads (.feed f.stream) f.entries (feedPut h f data units s) =
      feedPut h f data units { s with pcie := t.pcie, out := t.out } := hrest
  refine ⟨?_, hmap, hissued⟩
  change setLong _ (startReads _ _ _) = _
  rw [hreading]
  exact setLong_inFlight (l := .streamFeed h f data units false [] []) (l' := .streamFeed h f data units true _ _) rfl _

/-- A feed that finds no room for 1,000 ms is answered ST_TIMEOUT. -/
theorem streamFeedTimeout_waiting (hpending : s.pending = []) (hdue : s.due = []) (halone : s.pair.mode = 0)
    (hlong : s.host.long = [.streamFeed h f data units false [] []]) :
    exec (.streamFeedTimeout f.stream) s = .next (writeAnswer h stTimeout 0 [] s) := by
  change atDeadline (.streamFeedTimeout f.stream) (dueStreamFeedTimeout f.stream) s = _
  rw [atDeadline_now (mustDefer_empty hpending hdue)]
  unfold dueStreamFeedTimeout
  rw [hlong]
  simp [answer_alone halone, LongCmd.hdr]

end

/-! ## The commands (O52) -/

/-- Settles O52: each command by its own part on the state in which that runs, the timeout of a feed by the state that its taking
leaves. -/
theorem flowCommands : Obligations.FlowCommands := by
  unfold Obligations.FlowCommands
  intro h s _ hlong
  refine ⟨fun q ht => ⟨fun x hfields hfind hown htype hflow henc hsource hpayload hflows hroom => ?add,
      fun f hflows hnamed htype hown hstream hgroups => ?entry,
      fun hfields => ⟨fun haddrs => ?addrAdd, fun haddrs hdests hptp => ?addrRemove⟩⟩,
    fun f x data units hx hnamed htype hown hfields hcontainer henc hsource hfits ht => ?feed⟩
  case add =>
    exact sends_of_ok (k := kPlain) rfl ht rfl fun mb l => ⟨_, flowAddBody_first (s := received mb l s) hlong ht.alone hfields
      hfind hown htype hflow henc hsource hpayload hflows hroom, ⟨rfl, rfl, rfl, rfl⟩, fun _ _ _ => rfl⟩
  case entry =>
    have halone : ∀ mb l, FlowAlone h q f (received mb l s) := fun _ _ => ⟨hlong, hflows, hnamed, htype, hown, hstream, hgroups⟩
    refine ⟨fun hfields hsame => ?modify, fun hunused hheld houtbox hopen => ?remove, fun hunused => ?refused⟩
    case modify =>
      exact sends_of_ok (k := kPlain) rfl ht rfl fun mb l =>
        ⟨_, (halone mb l).flowModifyBody_eq hfields hsame, ⟨rfl, rfl, rfl, rfl⟩, fun _ _ _ => rfl⟩
    case remove =>
      refine sends_of_ok (k := kPlain) rfl ht rfl fun mb l =>
        ⟨_, (halone mb l).flowRemoveBody_eq hunused, ?_, fun _ _ _ => ?_⟩ <;> rw [(halone mb l).removeFlow_eq hheld houtbox hopen]
      · exact ⟨rfl, rfl, rfl, rfl⟩
      · rfl
    case refused =>
      exact answered_of_fail (k := kPlain) rfl ht rfl fun mb l => (halone mb l).flowRemoveBody_badValue hunused
  case addrAdd =>
    exact serves_of_ok (k := kPlain) rfl ht rfl fun mb l _ =>
      ⟨_, addrAddBody_first (s := received mb l s) hfields haddrs, ⟨rfl, rfl, rfl, rfl⟩, fun _ _ _ => rfl⟩
  case addrRemove =>
    exact serves_of_ok (k := kPlain) rfl ht rfl fun mb l _ =>
      ⟨_, addrRemoveBody_only (s := received mb l s) ht.alone hfields haddrs hdests hptp, ⟨rfl, rfl, rfl, rfl⟩, fun _ _ _ => rfl⟩
  case feed =>
    obtain ⟨mb, l, hr, hwaits, henter⟩ := enter_waits (k := kPlain) rfl ht 0x22
    have htaken : FeedTaken h f x (received mb l s) :=
      ⟨hlong, hx, hnamed, htype, hown, hfields, hcontainer, henc, hsource, hfits⟩
    refine ⟨fun hfull hpending hdue => ?full, fun hroom hbme hreads hqueued htags => ?starts⟩
    case full =>
      have hbody := htaken.streamFeedBody_eq (data := data) (units := units)
      rw [if_neg (Nat.not_le.2 hfull)] at hbody
      let u := feedPut h f data units (received mb l s)
      have hexec : exec (.streamFeed h f data units) s = .next u :=
        congrArg Host.Outcome.next (henter (.streamFeed h f data units) _ u hbody ht.alone)
      obtain ⟨-, hcan, -⟩ := (State.canonical_iff _).1 hr.canonical
      obtain ⟨hans, hobj, -, hended⟩ :=
        writeAnswer_answered (s := u) (h := h) (st := stTimeout) (d := 0) (resp := []) hcan hwaits.2
      exact ⟨u, hexec, hwaits, rfl, rfl, rfl, _, streamFeedTimeout_waiting hpending hdue ht.alone rfl, hans,
        hended.trans (by simp [u, feedPut, inFlight, LongCmd.hdr]), hobj⟩
    case starts =>
      have hbody := htaken.streamFeedBody_eq (data := none) (units := units)
      rw [if_pos hroom] at hbody
      obtain ⟨hrest, hmap, hissued⟩ := feedWaits_first (h := h) (f := f) (data := none) (units := units)
        (s := received mb l s) hbme ht.reached.link hreads hqueued htags
      have hexec : exec (.streamFeed h f none units) s =
          .next (feedWaits h f none units (feedPut h f none units (received mb l s))) :=
        congrArg Host.Outcome.next (henter (.streamFeed h f none units) _ _ hbody
          (Eq.trans (congrArg (·.pair.mode) hrest) ht.alone))
      refine ⟨_, hexec, ?_, ?_, ?_, hmap, hissued⟩ <;> rw [hrest]
      · exact hwaits
      · rfl
      · rfl

end Sys2Proof.Machine
end

section
/-! SUPPORT. O46: a `STITCH_CANCEL` on a card that has a card fault waiting (R489, R504, R508, R726). -/

namespace Sys2Proof.Machine

open Sys2Proof.Claims

/-- The session of the card below. -/
def cancelSession : Handle := Handle.make 1 1 0
/-- Its partition. -/
def cancelPartition : Handle := Handle.make 11 1 0

/-- The header of the session's `STITCH_CANCEL`, in mailbox 0 and without IRQ. -/
def cancelHdr : Hdr where
  mbox := 0
  seq := 1
  irq := false
  vector := 0
  session := cancelSession
  length := 16
  headerReserved := false
  version := 1
  bodyReserved := false

/-- Its one stitch, which is queued. -/
def queuedStitch : Stitch where
  id := 1
  session := cancelSession
  req := { cls := 0, entry := 0, flags := 0, partition := cancelPartition, model := Handle.make 3 1 0,
           client := Handle.make 7 1 0, seed := 0, tag := 0, vector := 0, len := List.replicate 16 0, slots := [], leaves := [],
           joins := [] }
  joinHandles := []

/-- The partition of that stitch, which is idle. -/
def idlePartition : Partition where
  handle := cancelPartition
  session := cancelSession
  quads := 1
  sliceMs := 10
  beBoundMs := 5
  lcCapMs := 25
  timeoutMs := 1000
  modelG0 := [0, 65535, 65535, 65535]
  workG0 := [10, 65535, 65535, 65535]
  posted := 1

/-- A READY card in no pair, alone with that session, partition and stitch, on which a die link's fault waits for running stitches
(R726). The host has Fatal Error Reporting enabled in Device Control and the Uncorrectable Internal Error not masked. -/
def faultWaitingCard : State := { State.reset with
  host := { HostUnit.init with state := .ready, faultWait := some (fkDieLinkDown, 0) }
  pcie := { PcieUnit.init with
    linkUp := true, mse := true, bme := true, perst := false, uncorrMask := 0, cfg := [(0x68, 4)] }
  power := { PowerUnit.init with state := 1 }
  fw := { FwUnit.init with cores := [(0, { run := 1 })] }
  obj := { sessions := [⟨cancelSession, 1, false, false⟩], partitions := [idlePartition], stitches := [queuedStitch] } }

theorem faultWaitingCard_taken : Taken false cancelHdr 16 faultWaitingCard where
  canonical := by decide
  reached := ⟨rfl, rfl, rfl⟩
  free := rfl
  locked := rfl
  awake := .inl rfl
  core0 := rfl
  ready := rfl
  ending := rfl
  alone := rfl
  header := ⟨rfl, rfl, rfl, by decide⟩
  session := ⟨⟨cancelSession, 1, false, false⟩, rfl, rfl, rfl⟩

/-- With the cancelled stitch's record no stitch runs, so that the waiting fault is taken: the card enters FAULT, and its ERR_FATAL
message leaves with the answer. -/
theorem stitchCancel_faultWaitingCard : ∃ t, exec (.stitchCancel cancelHdr queuedStitch.wire) faultWaitingCard = .next t ∧
    t.host.state = .fault ∧ t.out = [.errorMessage 2] :=
  ⟨_, rfl, rfl, rfl⟩

/-- Refutes O46: the clause on `STITCH_CANCEL` lets only the command's vector leave the card, and does not exclude a card fault that
waits for running stitches (R726). On `faultWaitingCard` the cancelled stitch's record lets that fault be taken, whose ERR_FATAL
message leaves the card. -/
theorem not_modelsAndPosts : ¬ Obligations.ModelsAndPosts := by
  unfold Obligations.ModelsAndPosts
  intro h
  obtain ⟨-, -, -, -, hcancel⟩ := h cancelHdr faultWaitingCard (by decide)
  obtain ⟨t, hexec, hanswered, -⟩ :=
    hcancel queuedStitch idlePartition faultWaitingCard_taken rfl rfl rfl rfl rfl rfl rfl rfl rfl rfl
  obtain ⟨u, hfault, -, hout⟩ := stitchCancel_faultWaitingCard
  obtain rfl : t = u := Host.Outcome.next.inj (hexec.symm.trans hfault)
  obtain hsame | ⟨hirq, -⟩ := hanswered.out
  · exact List.cons_ne_nil _ _ (hout.symm.trans hsame)
  · exact Bool.false_ne_true hirq

end Sys2Proof.Machine
end
